-- ==== Sys2Proof/Word.lean ====
section
/-!
DEFINITION. The word types of the AL960 (R5, R8) and the plainest arithmetic on them.
-/

namespace Sys2Proof

/-- A byte of memory. -/
abbrev Byte := BitVec 8

/-- A register (R5: every register is 32 bits wide). -/
abbrev Word := BitVec 32

/-- A 64-bit quantity, a register pair of R8. -/
abbrev Dword := BitVec 64

end Sys2Proof
end

