-- ==== Sys2Proof/Machine/Maps.lean ====
section
/-!
DEFINITION. Finite maps as plain lists of (key, value) pairs in one canonical form (keys rising, no entry
equal to the default), bit fields of words and byte order.  Memory and the register file are such maps.
-/

namespace Sys2Proof.Machine

variable {κ ν : Type}

/-- The value at a key; a key not listed holds the default `d`. -/
def mapGet [DecidableEq κ] (d : ν) : List (κ × ν) → κ → ν
  | [], _ => d
  | p :: r, k => if p.1 = k then p.2 else mapGet d r k

/-- The list without any entry for a key. -/
def mapErase [DecidableEq κ] (k : κ) : List (κ × ν) → List (κ × ν)
  | [] => []
  | p :: r => if p.1 = k then mapErase k r else p :: mapErase k r

/-- An entry put before the first entry with a larger key. -/
def mapInsert (lt : κ → κ → Bool) (k : κ) (v : ν) : List (κ × ν) → List (κ × ν)
  | [] => [(k, v)]
  | p :: r => if lt k p.1 then (k, v) :: p :: r else p :: mapInsert lt k v r

/-- The map with `v` at `k`: an entry equal to the default is not listed. -/
def mapSet [DecidableEq κ] [DecidableEq ν] (lt : κ → κ → Bool) (d : ν) (k : κ) (v : ν) (m : List (κ × ν)) :
    List (κ × ν) :=
  if v = d then mapErase k m else mapInsert lt k v (mapErase k m)

/-- The canonical form: keys strictly rising, no entry equal to what an unlisted key reads as. -/
def mapWf [DecidableEq ν] (lt : κ → κ → Bool) (d : κ → ν) : List (κ × ν) → Bool
  | [] => true
  | [p] => decide (p.2 ≠ d p.1)
  | p :: q :: r => decide (p.2 ≠ d p.1) && lt p.1 q.1 && mapWf lt d (q :: r)

/-- The order of natural-number keys, as a Bool. -/
def natLt (a b : Nat) : Bool := decide (a < b)

/-- A plain association list: the newest entry for a key wins. -/
def alGet [DecidableEq κ] (m : List (κ × ν)) (k : κ) : Option ν :=
  match m with
  | [] => none
  | p :: r => if p.1 = k then some p.2 else alGet r k

/-- An association list with one entry for `k`. -/
def alSet [DecidableEq κ] (m : List (κ × ν)) (k : κ) (v : ν) : List (κ × ν) := (k, v) :: mapErase k m

/-- Element `i` of a list replaced. -/
def listUpdate (l : List ν) (i : Nat) (f : ν → ν) : List ν := l.mapIdx (fun j x => if j = i then f x else x)

/-- The bits [hi:lo] of a number. -/
def bitsOf (v hi lo : Nat) : Nat := (v >>> lo) % 2 ^ (hi + 1 - lo)

/-- Bit `k` of a number. -/
def bitOf (v k : Nat) : Bool := (v >>> k) % 2 = 1

/-- The field [hi:lo] of a 32-bit word. -/
def fieldOf (w : Word) (hi lo : Nat) : Nat := bitsOf w.toNat hi lo

/-- A word with the field [hi:lo] replaced by `v` (taken modulo the field's width). -/
def fieldSet (w : Word) (hi lo v : Nat) : Word :=
  let m : Word := BitVec.ofNat 32 ((2 ^ (hi + 1 - lo) - 1) <<< lo)
  (w &&& ~~~m) ||| (BitVec.ofNat 32 (v <<< lo) &&& m)

/-- Bytes of a number, least significant first. -/
def bytesLE : Nat → Nat → List Byte
  | 0, _ => []
  | n + 1, v => BitVec.ofNat 8 v :: bytesLE n (v / 256)

/-- A number from bytes, least significant first. -/
def ofBytesLE : List Byte → Nat
  | [] => 0
  | b :: r => b.toNat + 256 * ofBytesLE r

/-- A number from bytes, most significant first. -/
def ofBytesBE (l : List Byte) : Nat := l.foldl (fun a b => a * 256 + b.toNat) 0

/-- `n` bytes of a list from offset `o`, zeros past its end. -/
def sliceBytes (l : List Byte) (o n : Nat) : List Byte :=
  let x := (l.drop o).take n
  x ++ List.replicate (n - x.length) 0

/-- The little-endian field of `n` bytes at offset `o`. -/
def leAt (l : List Byte) (o n : Nat) : Nat := ofBytesLE (sliceBytes l o n)

/-- A two's-complement number of `n` bits. -/
def sintOf (n v : Nat) : Int :=
  if bitOf v (n - 1) then (v % 2 ^ n : Nat) - (2 ^ n : Nat) else ((v % 2 ^ n : Nat) : Int)

/-- The `n`-bit pattern of an integer. -/
def uintOf (n : Nat) (x : Int) : Nat := (x % ((2 ^ n : Nat) : Int)).toNat

/-- An integer brought into the range from `lo` to `hi`. -/
def clampInt (lo hi x : Int) : Int := if x < lo then lo else if hi < x then hi else x

/-- How many bits of a number below bit `n` are set. -/
def popcount : Nat → Nat → Nat
  | 0, _ => 0
  | n + 1, v => v % 2 + popcount n (v / 2)

/-- The positions below `n` of the set bits of a number, rising. -/
def bitsSet (n v : Nat) : List Nat := (List.range n).filter (fun k => bitOf v k)

/-- The first element of a list, by a measure, with the smallest value. -/
def minBy (f : ν → Nat) : List ν → Option ν
  | [] => none
  | x :: r =>
    match minBy f r with
    | none => some x
    | some y => if f y < f x then some y else some x

end Sys2Proof.Machine
end

