-- ==== Sys2Proof/Machine/RegName.lean ====
section
/-!
DEFINITION. The names of the AL960's CSR registers, one constructor per register row of the
spec's register tables (R1, R14, R41, R60, R73, R85, R117, R136, R163, R181, R199, R211, R238, R239,
R256, R276, R277, R290, R301, R302, R326, R345, R356, R365), in the manual's order.  An index letter of
the manual (p, n, q, t, ...) is an index of `Reg`.
-/

namespace Sys2Proof.Machine

/-- The register names of the manual. -/
inductive RegName where
  | GLB_ID | GLB_LTILE_MAP | SPL_SVN | SPL_KEYS | SPL_SVN_COMMIT | SPL_BUSY | SPL_CHIP_VERSION | SPL_LOADED
  | SPL_CTRL | SPL_SRC_LO | SPL_SRC_HI | SPL_LEN | SPL_STATUS | BRZ_CURVE_X0 | BRZ_CURVE_X1 | BRZ_CURVE_CTRL
  | BRZ_CURVE_Y | TILE_INFO | TILE_STATUS | TILE_FLAGS | TILE_ERR | TILE_IRQ_EN | TILE_DONE_TAG
  | TILE_CMD_COUNT | TILE_SPAN | TILE_CYCLES_LO | TILE_CYCLES_HI | TILE_BUSY_LO | TILE_BUSY_HI | TILE_FREQ
  | BANK_CFG | BANK_TEST_PERIOD | BANK_LULL_IDLE | BANK_CQ_CTRL | BANK_CQ_STATUS | BANK_TQ_CTRL
  | BANK_TQ_STATUS | MEM_CFG | MEM_AGE_TICK | MEM_POOL_FREE | MEM_POOL_SURPLUS | MEM_WARM_STATUS
  | MEM_DEEP_STATUS | MEM_DEEP_WLIMIT | MEM_DEEP_WUSED | MEM_DEEP_WEAR | MEM_DEEP_SCRUB | MEM_HOLDUP_CFG
  | MEM_HOLDUP_CAP | MEM_HOLDUP_ENERGY | MEM_HOLDUP_STATUS | MEM_P_HELD | MEM_P_PINNED | MEM_P_EVICTS
  | MEM_P_ALLOC | MEM_P_FREE | MEM_P_DQ_BASE_LO | MEM_P_DQ_BASE_HI | MEM_P_DQ_CTRL | MEM_P_DQ_HEAD
  | MEM_P_DQ_TAIL | MEM_P_DQ_STATUS | MEM_P_FAR | UPD_CFG | UPD_STALL_LIMIT | UPD_INFLIGHT | UPD_PLAN_BASE_LO
  | UPD_PLAN_BASE_HI | UPD_PLAN_CTRL | UPD_PLAN_STATUS | UPD_PLAN_JOB | UPD_PLAN_STALLS | UPD_PLAN_STALL_US
  | UPD_PLAN_STALL_MAX | UPD_PLAN_HITS | UPD_PLAN_MISSES | UPD_PLAN_PINNED | UPD_PLAN_CACHED
  | SEQ_PAGE_WAIT_MAX | SEQ_FREE_ENTRIES | SEQ_P_GEOM | SEQ_P_EVICT | SEQ_P_DECAY | SEQ_P_CMD | SEQ_P_ARG
  | SEQ_P_RESULT | SEQ_P_STEP_CTRL | SEQ_P_REQ_LO | SEQ_P_REQ_HI | SEQ_P_WL_LO | SEQ_P_WL_HI
  | SEQ_P_STEP_STATUS | SEQ_P_EPOCH | SEQ_P_FEED_CFG | SEQ_P_FEED_CTR | SEQ_P_FEED_TILES_LO
  | SEQ_P_FEED_TILES_HI | SEQ_P_OPEN | SEQ_P_PAGES | SEQ_P_WAITS | SEQ_P_IRQ_EN | SEQ_ENT | SCH_CFG
  | SCH_FREE_CTX | SCH_OVERRUNS | SCH_P_CMD | SCH_P_ARG | SCH_P_RESULT | SCH_P_DOORBELL | SCH_P_EVENT
  | SCH_P_IRQ_EN | SCH_CTX | HDW_CFG | HDW_PATH | HDW_P_BUD | HDW_P_LAT | HDW_P_EVENT | HDW_P_IRQ_EN
  | HDW_P_MISSES | HDW_P_OVER | SNS_ACTIVE | SNS_PORT_ERRORS | SNS_S_CTRL | SNS_S_STATUS | SNS_S_TUNE0
  | SNS_S_TUNE1 | SNS_S_ADJ | SNS_S_SEQ | SNS_S_UNC | SNS_S_LATEMAP | SNS_S_DROPPED | SNS_S_ERRORS
  | SNS_S_EVENT | XW_CFG | XW_GRID | XW_PROX | XW_PROX_Z | XW_LEVEL | XW_LEVEL_HOLD | XW_AUCTION | XW_TRACK
  | XW_IN_BASE_LO | XW_IN_BASE_HI | XW_IN_CTRL | XW_IN_TAIL | XW_IN_HEAD | XW_OUT_BASE_LO | XW_OUT_BASE_HI
  | XW_OUT_CTRL | XW_INSTANT | XW_POSE_BASE_LO | XW_POSE_BASE_HI | XW_POSE_CTRL | XW_EVENT | XW_IRQ_EN
  | XW_PROX_SEC | XW_MOUNT | XW_TRK | VEER_CFG | VEER_RATES | VEER_LIMITS | VEER_COST | VEER_SPEED
  | VEER_DECEL | VEER_EPOCH | VEER_ORIGIN | VEER_WORLD_BASE_LO | VEER_WORLD_BASE_HI | VEER_WORLD_SIZE
  | VEER_Q_BASE_LO | VEER_Q_BASE_HI | VEER_Q_CTRL | VEER_Q_TAIL | VEER_Q_HEAD | VEER_OUT_BASE_LO
  | VEER_OUT_BASE_HI | VEER_OUT_CTRL | VEER_STATUS | VEER_EVENT | VEER_IRQ_EN | VEER_CHECKS | BRZ_CFG
  | BRZ_PHASE | BRZ_SP_BASE_LO | BRZ_SP_BASE_HI | BRZ_SP_CTRL | BRZ_SP_SEQ | BRZ_EVENT | BRZ_IRQ_EN
  | BRZ_MISSES | BRZ_MAT_CTRL | BRZ_L_CTRL | BRZ_L_PROG | BRZ_L_FLAGS | BRZ_L_FLUTTER | BRZ_L_FLAMP
  | BRZ_L_MISSES | BRZ_L_FIRES | BRZ_L_LAST | BRZ_PROG_LO | BRZ_PROG_HI | BRZ_VEC | BRZ_L_S | BRZ_L_K
  | BRZ_MAT | WL_CTRL | WL_STATUS | WL_CYCLE_LO | WL_CYCLE_HI | WL_PHASE | WL_TIMING | WL_RTT | WL_DA_LO
  | WL_DA_HI | WL_STO_LO | WL_STO_HI | WL_EVENT | WL_IRQ_EN | WL_LOST_LO | WL_LOST_HI | WL_SA_LO | WL_SA_HI
  | WL_N_STATUS | WL_N_ERRORS | WL_N_TSAMPLE | TIME_RAW_LO | TIME_RAW_HI | TIME_ROBOT_LO | TIME_ROBOT_HI
  | TIME_ROB_RATE | TIME_ROB_ADJ | TIME_ROB_STATUS | TIME_SNAP | TIME_EVENT | TIME_IRQ_EN | TIME_WL_ORIGIN_LO
  | TIME_WL_ORIGIN_HI | TIME_OLD_CONV | TIME_SNAPJ_LO | TIME_SNAPJ_HI | TIME_B_LO | TIME_B_HI | TIME_B_RATE
  | TIME_B_STATUS | TIME_B_UNC | TIME_B_INTERVAL | TIME_B_PRIO | TIME_B_HOLD | TIME_B_ASYM | TIME_B_ERRORS
  | TIME_P_ADJ | NET_CFG | NET_CB | NET_P_CTRL | NET_P_STATUS | NET_P_CBS | NET_P_GATE_CTRL | NET_P_BASE_LO
  | NET_P_BASE_HI | NET_P_CYCLE | NET_P_ERRORS | NET_P_EVENT | NET_P_GCL | HP_LINK_CTRL | HP_LINK_STATUS
  | HP_CXL_SIZE | HP_ERRORS | HP_EVENT | HP_P_WIN_LO | HP_P_WIN_HI | HP_P_WIN_CTRL | HP_P_MSI | HP_P_DB
  | PWR_CAP | PWR_CEILING | PWR_CTRL | PWR_STATUS | PWR_EST | PWR_MEAS | PWR_SQUALL_HOLD | PWR_SQUALL
  | PWR_TEMP | PWR_TELEM | PWR_EVENT | PWR_IRQ_EN | PWR_DOM | PWR_SCALE | PWR_P | PWR_HOST | PWR_RAIL_CFG
  | PWR_RAIL_READ | PWR_TILE | PWR_WEIGHT | FLT_CFG | FLT_STATUS | FLT_REC_NEWEST | FLT_REC_SEL
  | FLT_REC_LOST | FLT_REC | FLT_LOG_CTRL | FLT_LOG_PAGE | FLT_LOG_ADDR_LO | FLT_LOG_ADDR_HI | FLT_LOG_STATUS
  | FLT_RESET | FLT_RESET_STATUS | FLT_RUNG_COUNT | FLT_P_EVENT | FLT_P_IRQ_EN | WB_STATUS | WB_CAUSE
  | WB_LIMIT | WB_REQ | WB_EVENT | WB_IRQ_EN | WB_REJECTS | WB_PAIR | GLB_BOOT_STATUS | GLB_BOOT_CFG
  | GLB_BOOT_CTRL | GLB_BOOT_TIME
  deriving DecidableEq, Repr

/-- One register: its name and, where the manual gives an index (or two), the indices. -/
structure Reg where
  name : RegName
  i : Nat := 0
  j : Nat := 0
  deriving DecidableEq, Repr

/-- The order of registers in the register file: by name, then by the indices. -/
def Reg.lt (a b : Reg) : Bool :=
  a.name.ctorIdx < b.name.ctorIdx ||
  (a.name.ctorIdx == b.name.ctorIdx && (a.i < b.i || (a.i == b.i && a.j < b.j)))

/-- The sections of the Sepol image that govern RWL registers (R6, R39). -/
inductive LockSection where | chip | power | time
  deriving DecidableEq, Repr

/-- Who owns a register under R13 (the chapter's register table says which). -/
inductive Scope where
  | chip | part | tile | cquad | tquad | plan | seqEnt | ctx | stream | xwOwner | veerOwner | brzOwner | port | any
  deriving DecidableEq, Repr

/-- What the manual's register table says of a register name: address `base + si * i + sj * j` with
`lo <= i < lo + ni` and `j < nj`; reset value; masks of the plainly writable, write-1-to-clear and
trigger (W1S, WO) bits; owner; governing section of an RWL register; whether it is WBO (R6). -/
structure RegInfo where
  base : Nat
  si : Nat
  lo : Nat
  ni : Nat
  sj : Nat
  nj : Nat
  reset : Nat
  rw : Nat
  w1c : Nat
  trig : Nat
  scope : Scope
  lock : Option LockSection
  wbo : Bool
  deriving DecidableEq, Repr

end Sys2Proof.Machine
end

