-- ==== Sys2Proof/Machine/Parts.lean ====
section
/-!
DEFINITION. The plain data that the parts of `State` and the operands of the commands are made of:
requesting agents, fault records and recoveries, the sections of a Sepol image, loads and the start.
-/

namespace Sys2Proof.Machine

/-- A unit that issues requests (R8, R13, R382).  `tile t p` is physical tile `t` running a job of partition `p`; `engine e p` is fixed-function engine `e` (numbered as
R382 does) working for partition `p`; `device p` is a device behind the host port with a window of
partition `p` (R297); `maint` is the maintenance service of doldrums mode (R363). -/
inductive Agent where
  | core (n : Nat)
  | tile (t p : Nat)
  | engine (e p : Nat)
  | device (p : Nat)
  | windbreak
  | maint
  deriving DecidableEq, Repr

/-- What the last request was answered with (R5, R10): an error response carries data 0. -/
structure Resp where
  err : Bool := false
  data : List Byte := []
  deriving DecidableEq, Repr

/-- The domain of a recovery (R336). -/
inductive Domain where
  | ctx (j : Nat)
  | tile (t : Nat)
  | core (n : Nat)
  | cluster (c : Nat)
  | engine (e : Nat)
  | part (p : Nat)
  | chip
  | package
  deriving DecidableEq, Repr

/-- A fault record without its number, time and CRC (R332). -/
structure FaultDesc where
  cls : Nat
  part : Nat := 0xFF
  source : Nat := 0xFFFF
  detail : Nat := 0
  context : Nat := 0xFFFFFFFF
  address : Nat := 0
  tag : Nat := 0
  deriving DecidableEq, Repr

/-- A fault record (R332).  `logged` is the model's own mark that the persistent log holds it. -/
structure FaultRecord where
  seq : Nat
  fault : FaultDesc
  rung : Nat := 0
  kind : Nat := 0
  time : Nat := 0
  recovery : Nat := 0
  merged : Nat := 0
  duration : Nat := 0
  logged : Bool := false
  deriving DecidableEq, Repr

/-- Where a recovery stands (R28, R337): it waits for a security-version commit before its fence begins, its fence drains, or its domain
is being reset. -/
inductive RecPhase where | waiting | fencing | resetting
  deriving DecidableEq, Repr

/-- A recovery in progress (R336 to R340); `spent` is the time in ns that the raw counter has not counted for it, over a power cycle
(R383). -/
structure Recovery where
  number : Nat
  rung : Nat
  domain : Domain
  phase : RecPhase := .fencing
  quarantine : Bool := false
  since : Nat
  spent : Nat := 0
  fault : FaultDesc
  merged : Nat := 0
  deriving DecidableEq, Repr

/-- What a rate-limited record is limited by: a limit is kept for each key (R12, R48, R222, R266, R299,
R324, R348). -/
structure RateKey where
  cls : Nat
  code : Nat
  unit : Nat
  agent : Option Agent := none
  deriving DecidableEq, Repr

/-- A recovery counted by R339. -/
structure Escalation where
  rung : Nat
  domain : Domain
  time : Nat
  deriving DecidableEq, Repr

/-- The state of the fault controller that no register shows (R334, R335, R337, R339, R345). -/
structure FaultState where
  ring : List FaultRecord := []
  nextSeq : Nat := 1
  kept : List FaultRecord := []
  recoveries : List Recovery := []
  nextRecovery : Nat := 1
  history : List Escalation := []
  rates : List (RateKey × Nat) := []
  log : List (Nat × List FaultRecord) := []
  logTimes : List Nat := []
  oldestWaiting : Option Nat := none
  deriving DecidableEq, Repr

/-- An entry of the loan list of a TILES section (R29). -/
structure Loan where
  borrower : Nat
  tileMask : Nat
  bankMask : Nat
  deriving DecidableEq, Repr

/-- A window of a WINDOWS section, in 2 MiB units from its tier's start (R29). -/
structure Window where
  tier : Nat
  access : Nat
  base : Nat
  size : Nat
  deriving DecidableEq, Repr

/-- An entry of a STREAMS section (R213). -/
structure StreamEntry where
  number : Nat
  source : Nat
  port : Nat
  select : Nat
  kind : Nat
  roles : Nat
  timeSrc : Nat
  timeBase : Nat
  periodUs : Nat
  sampleBytes : Nat
  bufBase : Nat
  bufCount : Nat
  lateMs : Nat
  captureAdj : Nat
  sectors : Nat
  suspectThr : Nat
  suspectN : Nat
  widenCm : Nat
  udpPort : Nat
  dirBase : Nat
  rangeOff : Nat
  rangeStride : Nat
  rangeCount : Nat
  tsOff : Nat
  readLen : Nat
  cmd : Nat
  srcCfg : Nat
  deriving DecidableEq, Repr

/-- What the active image gives one partition (R29). -/
structure PartImage where
  hostClusters : Nat := 0
  netPorts : Nat := 0
  jobContexts : Nat := 0
  seqEntries : Nat := 0
  poolQuota : Nat := 0
  pinnedQuota : Nat := 0
  ownMask : Nat := 0
  loans : List Loan := []
  commonsMask : Nat := 0
  windows : List Window := []
  streams : List StreamEntry := []
  deriving DecidableEq, Repr

/-- A base entry of the TIME section (R29). -/
structure TimeEntry where
  mode : Nat := 0
  domain : Nat := 0
  portMask : Nat := 0
  role : Nat := 0
  holdoverS : Nat := 60
  deriving DecidableEq, Repr

/-- A node entry of the WINDLINE section (R29). -/
structure NodeEntry where
  ringPos : Nat
  nodeAddr : Nat
  cls : Nat
  lossCycles : Nat := 3
  deriving DecidableEq, Repr

/-- The SAFETY body (R349). -/
structure Safety where
  version : Nat := 1
  estopCat : Nat := 1
  missMax : Nat := 3
  overspeedCycles : Nat := 8
  speed : List Nat := [150, 150, 80, 30]
  stopTimeMs : Nat := 1500
  decelMon : Nat := 60
  baseNodes : Nat := 0
  velField : Nat := 0
  velScale : Nat := 0
  nodeAction : Nat := 0
  heartbeatCycles : Nat := 2
  deriving DecidableEq, Repr

/-- What the active chip image gives the chip (R21, R29). -/
structure ChipImage where
  version : Nat
  svn : Nat
  keySlot : Nat
  ctrlPart : Nat
  partMask : Nat
  hostPort : Nat
  farTier : Nat
  revokeMask : Nat
  cap : Nat
  capMin : Nat
  capMax : Nat
  fracs : List Nat
  ceilingMhz : Nat
  slewLimit : Nat
  partShare : List Nat
  time : List TimeEntry
  robotSource : Nat
  cycleUs : Nat
  ethertype : Nat
  nodes : List NodeEntry
  safety : Safety
  locks : List LockSection
  deriving DecidableEq, Repr

/-- A checked image: the chip sections (absent from a partition image) and the partitions' sections. -/
structure Image where
  version : Nat
  chip : Option ChipImage
  parts : List (Nat × PartImage)
  deriving DecidableEq, Repr

/-- The step of R33 that a load waits for. -/
inductive LoadPhase where | header | digest | sections | fence | apply
  deriving DecidableEq, Repr

/-- A load in progress (R31 to R37). -/
structure Load where
  bank : Nat
  target : Option Nat
  dryRun : Bool
  src : Nat
  len : Nat
  phase : LoadPhase := .header
  image : Option Image := none
  deriving DecidableEq, Repr

/-- The fuses (R3, R26, R27): the security version, the digests of the four key slots, the revoked slots, and a mask of the physical
tiles that are fused off on an AL960-S.  `programmed` says that manufacture has taken place. -/
structure Fuses where
  programmed : Bool := false
  svn : Nat := 0
  digests : List (Option (List Byte)) := [none, none, none, none]
  revoked : Nat := 0
  tilesOff : Nat := 0
  deriving DecidableEq, Repr

/-- The loader: the load and the commit in progress, the fuses, the active image. -/
structure LoaderState where
  load : Option Load := none
  commit : Bool := false
  fuses : Fuses := {}
  chip : Option ChipImage := none
  parts : List (Nat × PartImage) := []
  deriving DecidableEq, Repr

/-- What the tile record holds of a physical tile (R358): fused off, active, spare or retired, and Fmax. -/
inductive TileKind where | untested | fusedOff | active | spare | retired
  deriving DecidableEq, Repr

/-- The result of S4's test of one physical tile (R358): it passed, and its measured Fmax in MHz. -/
structure TileTest where
  passed : Bool
  fmaxMhz : Nat
  deriving DecidableEq, Repr

/-- What the status sector of the recovery flash mirrors (R358, R361, R363): the boot counter, GLB_BOOT_CFG, the
DOLDRUMS request, the tile record with the logical map it stands for. -/
structure StatusSector where
  count : Nat := 0
  bootCfg : Word := 0x00020078#32
  doldrums : Bool := false
  tileRecord : List (TileKind × Nat) := []
  logicalMap : List (Option Nat) := []
  deriving DecidableEq, Repr

/-- Where a chip image came from (R359), in the order of GLB_BOOT_STATUS.SOURCE (R365). -/
inductive ImageSource where | copyA | copyB | recovery | chipLoad
  deriving DecidableEq, Repr

/-- What began a start (R359). -/
inductive StartKind where | powerUp | rung4 | restart | afterLoad
  deriving DecidableEq, Repr

/-- The start (R357 to R364, R384, R385): what no register shows.  `kind` is what began this start and `next` what the next rung 4
will have been begun by; `noted` says that the cause of the failed start is already in LAST_FAIL, `resetDue` that the record of a
reset before OK waits for the next start, `pfailSeen` that PFAIL_N has asserted in this start; `loaded` is the image of a chip load
with the place of its bytes, `active` the source of the active image with that place, `selected` the image that S6 applies;
`tileRecord` and `logicalMap` are the tile record of the always-on domain; `prevParts` what the partitions owned before the reset;
`aonLost` that VDD_AON went off; `crystal` that the crystal runs; `firmware` holds F0 and F1. -/
structure BootState where
  kind : StartKind := .powerUp
  next : StartKind := .rung4
  countBefore : Nat := 0
  noted : Bool := false
  resetDue : Bool := false
  pfailSeen : Bool := false
  loaded : Option (Image × (Nat × Nat)) := none
  active : Option (ImageSource × (Nat × Nat)) := none
  selected : Option (Image × (ImageSource × (Nat × Nat))) := none
  tileRecord : List (TileKind × Nat) := []
  logicalMap : List (Option Nat) := []
  prevParts : List (Nat × PartImage) := []
  s1At : Nat := 0
  s7At : Nat := 0
  watchdog : Bool := false
  failedQuads : List Nat := []
  sector : StatusSector := {}
  aonLost : Bool := true
  crystal : Bool := true
  firmware : List (List Byte) := [[], []]
  recoveryImage : List Byte := []
  deriving DecidableEq, Repr

/-- A request to the maintenance service of doldrums mode (R363).  `passes` is the verdict of R25 to R27 on firmware, whose layout the
manual does not give. -/
inductive MaintReq where
  | bootStatus
  | record (seq : Nat)
  | logPage (k : Nat)
  | firmware (second : Bool) (data : List Byte) (passes : Bool)
  | image (src : ImageSource) (data : List Byte)
  | bootCtrl (w : Word)
  deriving DecidableEq, Repr

/-- The levels of the board signals that the rules name (R370): `true` is electrically high. -/
structure Pins where
  porstN : Bool := false
  pfailN : Bool := true
  squallN : Bool := true
  estopInN : Bool := true
  pwrcycReqN : Bool := true
  safeStopN : Bool := false
  deriving DecidableEq, Repr

/-- A set of time parameters with the raw instant it came into force (R279, R288): the time at raw `r` is
`r + off + floor((r - org) * rate / 2^40)`. -/
structure ParamSet where
  since : Nat := 0
  off : Int := 0
  org : Nat := 0
  rate : Int := 0
  deriving DecidableEq, Repr

/-- What an Announce message tells of its sender (R282, the comparison of IEEE 1588). -/
structure Announce where
  priority1 : Nat
  clockClass : Nat
  accuracy : Nat
  variance : Nat
  priority2 : Nat
  identity : Nat
  stepsRemoved : Nat
  deriving DecidableEq, Repr

/-- A PTP message as it arrives (R282, R285, R286): the port, its MAC's raw stamp, the sender's identity, the sequence
number and a time it carries (in ns), and what the checks of R285 read. -/
structure PtpMsg where
  port : Nat
  mac : Nat
  sender : Nat
  seq : Nat
  time : Int
  version : Nat := 2
  domain : Nat := 0
  lengthOk : Bool := true
  deriving DecidableEq, Repr

/-- A peer on a port (R285, code 0x05): its identity and how many intervals it has been the single responder. -/
structure PtpPeer where
  port : Nat
  identity : Nat
  single : Nat
  deriving DecidableEq, Repr

/-- One domain time base (R283 to R285): what no register shows.  `sync` is a two-step Sync whose Follow_Up is awaited
(sequence, corrected raw stamp, port); `lastSync` the master's time and the raw stamp of the last Sync. -/
structure TimeBase where
  entry : TimeEntry := {}
  params : List ParamSet := [{}]
  offsets : List Nat := []
  within : Nat := 0
  best : Option (Announce × Nat) := none
  sync : Option (Nat × Nat × Nat) := none
  lastSync : Option (Int × Nat) := none
  meanDelay : Int := 0
  delayReq : Option (Nat × Nat) := none
  pdelayReq : List (Nat × Nat × Nat) := []
  peers : List PtpPeer := []
  stepTimes : List Nat := []
  disqualified : List Nat := []
  uncAtLoss : Nat := 0
  lostAt : Nat := 0
  recent : List ((Nat × Nat) × Nat) := []
  txSeq : Nat := 0
  deriving DecidableEq, Repr

/-- A PTP message that a base transmits (R282): the base, the message kind, the port, the sequence number, the time it
carries (in ns) and the raw stamp at the pins. -/
structure PtpSent where
  base : Nat
  kind : Nat
  port : Nat
  seq : Nat
  time : Int
  stamp : Nat
  deriving DecidableEq, Repr

/-- The time unit (R279 to R289): what no register shows.  `adj` is the part of the adjustment still to be
slewed at the raw instant `adjAt`. -/
structure TimeState where
  robot : List ParamSet := [{}]
  robotRate : Int := 0
  adj : Int := 0
  adjAt : Nat := 0
  bases : List TimeBase := [{}, {}, {}, {}]
  origin : Nat := 0
  sent : List PtpSent := []
  deriving DecidableEq, Repr

/-- A command in progress on a tile (R63): its sixteen words, its slot number and whether it has completed
(commands retire in queue order). -/
structure RunCmd where
  words : List Nat
  slot : Nat
  started : Nat
  done : Bool := false
  deriving DecidableEq, Repr

/-- What a physical tile carries: the bound job and its gang position, a borrower parked on it (R193), the
commands in progress, oldest first, and the raw instant of the last CHEAP (R192). -/
structure TileRun where
  ctx : Option Nat := none
  pos : Nat := 0
  parked : Option (Nat × Nat) := none
  running : List RunCmd := []
  spanAt : Nat := 0
  stopped : Bool := false
  deriving DecidableEq, Repr

/-- One gang position of a job (R182, R190, R191): the next slot to start, TAIL as last read, the live ranges (offset and length in
64-byte units) and ID of the last CHEAP, and whether the tile is at that cheap point. -/
structure GangPos where
  next : Nat := 0
  tail : Nat := 0
  ranges : List (Nat × Nat) := []
  cheapId : Nat := 0
  atCheap : Bool := false
  yielded : Bool := false
  deriving DecidableEq, Repr

/-- Where the live ranges of a job go when it has left its tiles (R184). -/
inductive SwitchTo where | preempted | stopped
  deriving DecidableEq, Repr

/-- A job context (R181, R184): what its words do not show.  The slice runs from `sliceAt` for `slice` us, from which the time since
`parkedAt` is taken while the job is PARKED; `parkFor` lists the tiles that an RT job asks it to park on. -/
structure Ctx where
  pos : List GangPos := []
  waitSince : Nat := 0
  sliceAt : Nat := 0
  slice : Nat := 0
  parkedAt : Nat := 0
  sliceEnded : Option Nat := none
  displaced : Bool := false
  holdReq : Bool := false
  parkFor : List Nat := []
  released : Bool := false
  working : Bool := false
  saving : Option SwitchTo := none
  restoring : Bool := false
  needRestore : List Nat := []
  saved : Bool := false
  deriving DecidableEq, Repr

/-- The scheduler and the tiles: what no register shows.  `lastJob` is the job last bound to each logical tile, `argRsv` the
partitions whose SCH_Pp_ARG was last written with a nonzero reserved bit (R183). -/
structure SchedState where
  ctxs : List (Nat × Ctx) := []
  runs : List (Nat × TileRun) := []
  lastJob : List (Nat × Nat) := []
  argRsv : List Nat := []
  deriving DecidableEq, Repr

/-- Who holds a pool extent outside the windows (R89): software, Updraft for a plan slot, the sequence engine. -/
inductive Holder where
  | software
  | updraft (plan : Nat)
  | seqEngine
  deriving DecidableEq, Repr

/-- A held pool extent (R89 to R91). -/
structure Extent where
  part : Nat
  holder : Holder
  pinned : Bool := false
  age : Nat := 0
  busy : Bool := false
  deriving DecidableEq, Repr

/-- A plan layer (R121). -/
structure PlanLayer where
  kind : Nat
  reside : Nat
  routeMax : Nat
  tileBytes : Nat
  src : Nat
  dstOff : Nat
  partBytes : Nat
  deriving DecidableEq, Repr

/-- A streaming plan as loaded (R120 to R122); an expert is its deep offset and its bytes. -/
structure Plan where
  base : Nat
  bytes : Nat
  gangTiles : Nat
  slots : Nat
  warmAhead : Nat
  slotOff : Nat
  slotBytes : Nat
  cacheExtents : Nat
  tileMask : Nat
  layers : List PlanLayer
  experts : List (Nat × Nat)
  deriving DecidableEq, Repr

/-- The gate of one gang tile of a plan (R127, R128, R130): the layer expected next, the layers complete in the
tile's slots, the gate that waits and since when, and the route. -/
structure GateState where
  expected : Nat := 0
  filled : List Nat := []
  gate : Option Nat := none
  since : Nat := 0
  stalled : Bool := false
  routes : List (Nat × List Nat) := []
  deriving DecidableEq, Repr

/-- A plan slot that is not EMPTY (R124): its plan, its pinned extents in layer order, the extents of its cached
DENSE layers and of its cached experts, extents granted and not yet filled (`spare`), the gates of its gang, and the gang
positions whose tile-pinned layers must reload (R134). -/
structure PlanState where
  plan : Plan
  ready : Bool := false
  pinned : List Nat := []
  layers : List (Nat × List Nat) := []
  experts : List (Nat × List Nat) := []
  spare : List Nat := []
  gates : List (Nat × GateState) := []
  stale : List Nat := []
  deriving DecidableEq, Repr

/-- Updraft: what no register shows. -/
structure UpdraftState where
  plans : List (Nat × PlanState) := []
  deriving DecidableEq, Repr

/-- A request for one extent in progress (R92, R93). -/
structure ExtentGrant where
  ext : Nat
  taker : Extent
  deriving DecidableEq, Repr

/-- The pool (R89 to R95): the extents held outside the windows, the partition that last held each released
extent, the allocations in progress, and the requests that wait for a busy extent to clear (R91). -/
structure PoolState where
  extents : List (Nat × Extent) := []
  lastPart : List (Nat × Nat) := []
  grants : List ExtentGrant := []
  wants : List Extent := []
  deriving DecidableEq, Repr

/-- A deep block (R96, R97, R100, R104): its write pointer in pages, an erase pending or running, DAMAGED. -/
structure DeepBlock where
  writePtr : Nat := 0
  erasing : Bool := false
  damaged : Bool := false
  deriving DecidableEq, Repr

/-- The deep command that a queue runs (R99 to R103): its slot and words, the pages of a PROGRAM accepted so far, those
of them that are still on their dies, a page that failed, the dies still erasing, the status once it is known, and how many
descriptors behind it a fence has ended. -/
structure DeepRun where
  slot : Nat
  words : List Nat
  accepted : Nat := 0
  inFlight : List Nat := []
  failed : Option Nat := none
  dies : List Nat := []
  status : Option Nat := none
  skip : Nat := 0
  deriving DecidableEq, Repr

/-- The deep and far tiers: what no register shows.  `remap` gives the die-block behind (deep block, die), `spare` the
spare die-blocks of a die, `wear` and `reads` the erases and page reads of (die, die-block), `refreshing` the deep
block being refreshed on a die, `wanted` the (deep block, die) whose refresh waits (R106 to R108), `buckets` the bytes programmed in each of the last 24 hours, newest first.  `farKeys`
holds the data key and the tweak key of each partition in the far tier, as numbers of 256 bits (R115). -/
structure DeepState where
  blocks : List (Nat × DeepBlock) := []
  damaged : List Nat := []
  queues : List (Nat × DeepRun) := []
  remap : List ((Nat × Nat) × Nat) := []
  spare : List (Nat × List Nat) := []
  wear : List ((Nat × Nat) × Nat) := []
  reads : List ((Nat × Nat) × Nat) := []
  refreshing : List (Nat × Nat) := []
  wanted : List (Nat × Nat) := []
  buckets : List Nat := []
  vSense : Nat := 0
  farKeys : List (Nat × Nat) := List.replicate 8 (0, 1)
  deriving DecidableEq, Repr

/-- A sequence that is not FREE (R142, R140): its partition, its memory, the layers and slots per page of the geometry
it was opened under, the entries of one layer's page table. -/
structure SeqRec where
  part : Nat
  mem : Nat
  layers : Nat
  slots : Nat
  stride : Nat
  deriving DecidableEq, Repr

/-- A KV page that is not free (R157, R158): its partition, its count, and REL_EPOCH of its last release. -/
structure KvPage where
  part : Nat
  count : Nat
  rel : Nat := 0
  deriving DecidableEq, Repr

/-- A sequence included in a step (R146, R147). -/
structure StepEnt where
  seq : Nat
  tile : Nat
  granted : Nat
  base : Nat
  staged : Nat
  deriving DecidableEq, Repr

/-- An open step of a partition (R146 to R150): its epoch, its sequences, and for each feed tile FEED_BASE and
TILE_PAGES; `ending` says that END has been written. -/
structure SeqStep where
  epoch : Nat
  ending : Bool := false
  ents : List StepEnt
  tiles : List (Nat × Nat)
  deriving DecidableEq, Repr

/-- The feed of one tile (R148, R149): the ordinal that the next step starts from, the pages still to send and the pages
sent but not yet released, with their ordinals. -/
structure FeedTile where
  next : Nat := 0
  queue : List (Nat × Nat) := []
  sent : List (Nat × Nat) := []
  deriving DecidableEq, Repr

/-- An entry of a work list (R146, R147): the sequence, its status, and what a step grants it. -/
structure WlEntry where
  seq : Nat
  status : Nat
  ent : Option StepEnt := none
  deriving DecidableEq, Repr

/-- A BEGIN whose work list is not written yet (R146, R151): the epoch of its step, where the work list goes, the requests decided and
those to come, each a sequence and its positions, and the new pages that the flush of the first of these has taken so far. -/
structure Build where
  epoch : Nat
  wl : Nat
  done : List WlEntry := []
  todo : List (Nat × Nat)
  pages : List Nat := []
  deriving DecidableEq, Repr

/-- What the sequence engine keeps of a partition: its open steps, oldest first, the epoch of the newest ended step,
the feeds by feed tile index, the steps among the open ones that are still being built, oldest first. -/
structure SeqPart where
  steps : List SeqStep := []
  ended : Nat := 0
  feeds : List (Nat × FeedTile) := []
  builds : List Build := []
  deriving DecidableEq, Repr

/-- The sequence engine: what no register shows. -/
structure SeqEngState where
  seqs : List (Nat × SeqRec) := []
  pages : List (Nat × KvPage) := []
  parts : List (Nat × SeqPart) := []
  deriving DecidableEq, Repr

/-- The page-table area of a sequence, which is locked against writes (R139, R140). -/
def SeqRec.table (r : SeqRec) : Nat × Nat := (r.mem + r.layers * 0x10000, 4 * r.layers * r.stride)

/-- An interrupt pulse that no event register shows: a tile's done, error or flag interrupt (R63, R71, R72), the
bank interrupt of a partition (R79), its loader interrupt (R41), its Updraft interrupt (R136), its sequence interrupt when a sequence becomes ENDED (R163), a message-signalled interrupt sent by the
host port (R297). -/
inductive Pulse where
  | tileDone (t : Nat)
  | tileErr (t : Nat)
  | tileFlag (t : Nat)
  | bank (p : Nat)
  | loader (p : Nat)
  | updraft (p : Nat)
  | sequence (p : Nat)
  | memory (p : Nat)
  | msi (p v : Nat)
  | accessFault (core : Nat)
  | doorbell (p : Nat)
  deriving DecidableEq, Repr

/-- Windbreak (R346 to R355): what no register shows.  `absent` counts, for each cause bit, the consecutive cycles
without its condition; `present` holds the causes whose condition holds now; `speed` is the base speed last computed and `v0` that of the
safe stop's entry, in millionths of a metre per second. -/
structure WindbreakState where
  safety : Option Safety := none
  held : Bool := false
  estopLow : Nat := 0
  excess : Nat := 0
  v0 : Nat := 0
  stopAt : Nat := 0
  boundFails : Nat := 0
  slow : Nat := 0
  present : List Nat := []
  absent : List (Nat × Nat) := []
  noCommit : Nat := 0
  noFrame : Nat := 0
  misses : List (Nat × Nat) := []
  speed : Nat := 0
  deriving DecidableEq, Repr

/-- A PMBus reading as it completes, after its retries (R310, R311, R324): VOUT_MODE, READ_VOUT and READ_IOUT of rails 0 to 2, READ_POUT
of the others, no response, a PEC mismatch, or a fault reported in STATUS_WORD. -/
inductive Reading where
  | volts (mode vout iout : Nat)
  | power (pout : Nat)
  | missing
  | pec
  | fault (statusWord : Nat)
  deriving DecidableEq, Repr

/-- A pair of measured and estimated power of a domain in 10 mW units, with its raw instant (R311). -/
structure PowerSample where
  time : Nat
  measured : Nat
  estimated : Nat
  deriving DecidableEq, Repr

/-- The power manager (R303 to R325): what no register shows.  Frequencies live in TILE_FREQ and PWR_HOSTc.  `gated` lists
the power-gated tiles, `rails` the commanded mV of rails 0 to 2, `settled` those whose new voltage has settled, `rises` the
frequencies that jobs (or 1024 + cluster) wait to rise to, `ratio` a pending reduction (budget, measured) of a domain,
`raise` a pending step up of one that is UNTRUSTED, `before` the trust before LOST, `samples` R311's history, `estimates`
the scaled estimates of the last ms, `temps` the last sensor readings, `cut` the W that R320 has taken, `asserts` the
recent assertions of SQUALL_N, `held` the hold of code 0x06, `ramp` the limited rise after a squall, `valid` the raw
instant from which every reading of a rail has been valid, `gale` a gale trip, `retiring` the tiles marked for retirement (R318),
`clocks` the clock cycles of each tile in thousandths (TILE_CYCLES), `wakes` the tiles whose wake waits in the order of the requests, `wokeAt`
the raw instant of the last admission (R323), `frozen` the cap and ceiling in force during a squall (R325). -/
structure PowerState where
  gated : List Nat := []
  rails : List Nat := [0, 0, 0]
  settled : List Nat := []
  rises : List (Nat × Nat) := []
  ratio : List (Nat × (Nat × Nat)) := []
  raise : List Nat := []
  before : List (Nat × Nat) := []
  samples : List (Nat × List PowerSample) := []
  estimates : List Nat := []
  temps : List Nat := []
  cut : Nat := 0
  asserts : List Nat := []
  held : Bool := false
  released : Bool := false
  ramp : Bool := false
  valid : List (Nat × Nat) := []
  gale : Bool := false
  retiring : List Nat := []
  clocks : List Nat := []
  wakes : List Nat := []
  wokeAt : Option Nat := none
  frozen : Option (Nat × Nat) := none
  deriving DecidableEq, Repr

/-- A sample on its way (R214, R216, R218, R219): its raw stamp, the payload so far and how many parts of it have come; the values of
SNS_Sn_TUNE0, _TUNE1 and _ADJ that apply to it; the flags UNSYNC (bit 0) and SUSPECT (bit 1) as they stood at the stamp. -/
structure OpenSample where
  raw : Nat
  data : List Byte := []
  count : Nat := 0
  tune0 : Nat := 0
  tune1 : Nat := 0
  adj : Nat := 0
  marks : Nat := 0
  deriving DecidableEq, Repr

/-- What ingress keeps of a written sample (R216, R227): SEQ, its capture time, its uncertainty in us, its raw stamp, and the values of
SNS_Sn_TUNE0 and _TUNE1 that apply to it. -/
structure SampleRec where
  seq : Nat
  capture : Int
  unc : Nat
  raw : Nat
  tune0 : Nat := 0
  tune1 : Nat := 0
  deriving DecidableEq, Repr

/-- A sensor stream (R217 to R224): what no register shows.  `ready` lists complete samples that wait to be written,
`next` the SEQ of the next one, `fit` the (raw, sensor counter) pairs of R221, `recs` the newest 64 samples, `skip` the
samples still to be dropped after code 0x0A, `disagree` the consecutive instants of R224. -/
structure StreamRun where
  cur : Option OpenSample := none
  ready : List OpenSample := []
  next : Nat := 0
  lastRaw : Option Nat := none
  lastSensor : Option Nat := none
  fit : List (Nat × Nat) := []
  recs : List SampleRec := []
  skip : Nat := 0
  disagree : Nat := 0
  deriving DecidableEq, Repr

/-- Sensor ingress: its streams; for each SPI port the bursts that wait, as streams and the samples they open; for each SPI (0) and
I3C (1) port the command bytes last sent (R214). -/
structure SensorState where
  streams : List (Nat × StreamRun) := []
  spi : List (Nat × List (Nat × OpenSample)) := []
  sent : List ((Nat × Nat) × List Byte) := []
  deriving DecidableEq, Repr

/-- What a contribution holds (R227): a FEATURE block, DETECT entries, or the ranges of a GRID sample. -/
inductive ContribKind where
  | feature (x0 y0 w h channels : Nat)
  | detect (count : Nat)
  | ranges (dirs : List Nat)
  deriving DecidableEq, Repr

/-- A contribution read and not yet emitted (R225 to R228): its stream, capture time and the pose then, the instant that
takes it, whether it was late, its data. -/
structure Contribution where
  stream : Nat
  capture : Int
  pose : List Nat
  instant : Int
  late : Bool := false
  kind : ContribKind
  data : List Byte
  deriving DecidableEq, Repr

/-- An instant whose contribution set is frozen (R225). -/
structure Emission where
  instant : Nat
  contribs : List Contribution
  missing : Nat
  trunc : Bool := false
  deriving DecidableEq, Repr

/-- Crosswind: what no register shows.  `last` is the newest instant frozen, `emitAt` the raw instants of the last
emissions, `lastEmit` that of the newest one that is done, `noProx` the consecutive proximity periods without valid data of each sector,
`gridDown` that no instant has been emitted since the grid engine's last reset. -/
structure CrosswindState where
  waiting : List Contribution := []
  last : Option Nat := none
  emission : Option Emission := none
  emitAt : List (Nat × Nat) := []
  lastEmit : Option Nat := none
  gridDown : Bool := false
  proxDown : Bool := false
  noProx : List Nat := List.replicate 16 3
  deriving DecidableEq, Repr

/-- One of a plane's 512 x 512 cells or of the fused grid's, by its number, with its value; a cell not listed is 0. -/
abbrev Plane := List (Nat × Nat)

/-- The fused grid and tracks that open a map epoch (R243): the grid's size, its pose and time, its occupancy
cells with a nonzero weight or log-odds (as their 16 bits), the words of the tracks that are not free. -/
structure Fused where
  size : Nat
  pose : List Nat
  time : Int
  cells : Plane
  tracks : List (List Nat)
  deriving DecidableEq, Repr

/-- A robot model (R244): its three counts, its links and spheres as bytes. -/
structure RobotModel where
  joints : Nat
  links : List (List Byte)
  spheres : List (List Byte)
  deriving DecidableEq, Repr

/-- A voxel grid (R246): the corner as three FP32 words, the numbers of the occupied voxels. -/
structure VoxelGrid where
  corner : List Nat
  occupied : List Nat
  deriving DecidableEq, Repr

/-- A published map epoch (R243): its number, the window's origin in world cells, layers 0 to 7, the model and the voxels
in force, the robot's pose. -/
structure MapEpoch where
  number : Nat
  ox : Int
  oy : Int
  layers : List Plane
  model : Option RobotModel
  voxels : Option VoxelGrid
  pose : List Nat
  deriving DecidableEq, Repr

/-- A trajectory point (R253): x, y, yaw, v and omega in FP32, the joint targets in FP16, all as bits. -/
structure TrajPoint where
  base : List Nat
  joints : List Nat
  deriving DecidableEq, Repr

/-- A trajectory: the robot time of its first point and its points, 20 ms apart. -/
structure Trajectory where
  t0 : Nat
  points : List TrajPoint
  deriving DecidableEq, Repr

/-- A query that Veer has taken and not completed (R247): its slot and its ID, and its words. -/
structure VeerQuery where
  slot : Nat
  id : Nat
  words : List Nat
  deriving DecidableEq, Repr

/-- Veer: what no register shows.  `opening` is the instant from which the next epoch is built, `goal` the query that
set the goal, which `goalWaits` for its first search, `globalRun`, `repairRun` and `armRun` the searches in progress with their epochs,
`queries` the MODEL, VOXELS and LAYER data that wait for the next epoch, `lostAt` the raw instant of a reset that lost the epochs. -/
structure VeerState where
  epoch : Option MapEpoch := none
  opening : Option Fused := none
  model : Option RobotModel := none
  voxels : Option VoxelGrid := none
  users : List (Nat × Plane) := []
  goal : Option VeerQuery := none
  goalWaits : Bool := false
  globalRun : Option MapEpoch := none
  repairRun : Option MapEpoch := none
  armRun : Option (VeerQuery × MapEpoch) := none
  path : List Nat := []
  armPath : List (List Nat) := []
  candidates : List Trajectory := []
  last : Option Trajectory := none
  stopNext : Bool := false
  seq : Nat := 0
  lostAt : Option Nat := none
  deriving DecidableEq, Repr

/-- A search of Veer with a time limit (R248). -/
inductive VeerStage where | globalSearch | repair | output | arm
  deriving DecidableEq, Repr

/-- A run of a Breeze loop (R269 to R273): the next instruction, v0 to v31, the state words, the OUT fields by (ring position,
field), the flutter sample with its format, the flags, whether it has reached END, the bank whose solve it waits for, the end of its LEN
instructions, its gain set and the gain words that it has read. -/
structure BrzRun where
  pc : Nat
  v : List Nat := List.replicate 32 0
  state : List Nat
  outs : List ((Nat × Nat) × Nat) := []
  err : Option (Nat × Bool) := none
  flags : Nat := 0
  done : Bool := false
  solve : Option Nat := none
  stop : Nat := 0
  gainSet : Nat := 0
  gains : List (Nat × Nat) := []
  deriving DecidableEq, Repr

/-- A committed flutter sample (R274): its bits, its format (FP32 for true), and whether its sign, or the one it takes, is negative. -/
structure FlutterSample where
  bits : Nat
  fp : Bool
  neg : Bool
  deriving DecidableEq, Repr

/-- Breeze: what no register shows.  `due` lists the loops due in the cycle, `chol` the loops that wait for the Cholesky unit,
its user first, `setpoints` the latched ones, `published` PUBLISHED as last latched, `noBlock` the cycles without a new block,
`banks` the published matrices and vectors, `work` the working vectors, `windows` the committed flutter samples, newest last, `signs` the sign
(true: negative) of each loop's last sample, `down` that a rung-2 reset waits for the next cycle start. -/
structure BreezeState where
  due : List Nat := []
  runs : List (Nat × BrzRun) := []
  chol : List Nat := []
  setpoints : List (Nat × List Nat) := []
  published : Nat := 0
  noBlock : Nat := 0
  banks : List (Nat × (List Nat × List Nat)) := []
  work : List (Nat × List Nat) := []
  windows : List (Nat × List FlutterSample) := []
  signs : List (Nat × Bool) := []
  latched : Bool := false
  down : Bool := false
  deriving DecidableEq, Repr

/-- The Windline master: what no register shows.  `cycle` is the cycle in progress; `slots` the downlink slots it sent and `sent` its
frames by path; `returned` the paths whose frame has returned, with RETURNED; `copies` the valid uplink slots by (ring position,
path); `values` the uplink values held; `runs` the valid slots in a row of LOST nodes; `ignored` the cycles in which a node ignored
STO; `outs` the committed outputs by (ring position, field), `held` those that repeat an abandoned run's; `rxDone` and `dlDone` that the cycle's
deadlines have passed; `mute` the cycles without frames after a reset, `quiet` that this cycle is one of them, `framed` that a frame
has left in this cycle. -/
structure WindlineState where
  cycle : Option Nat := none
  startAt : Nat := 0
  slots : List (List Byte) := []
  sent : List (Nat × List Byte) := []
  returned : List (Nat × Bool) := []
  copies : List ((Nat × Nat) × List Byte) := []
  values : List (Nat × List Nat) := []
  noReturn : List (Nat × Nat) := []
  down : List Nat := []
  runs : List (Nat × Nat) := []
  ignored : List (Nat × Nat) := []
  outs : List ((Nat × Nat) × Nat) := []
  held : List (Nat × Nat) := []
  rxDone : Bool := false
  dlDone : Bool := false
  mute : Nat := 0
  quiet : Bool := false
  framed : Bool := false
  deriving DecidableEq, Repr

/-- A frame in the switch: its class, its VLAN, its bytes without the FCS and the port it came from. -/
structure NetFrame where
  cls : Nat
  vid : Nat
  data : List Byte
  source : Nat := 0
  deriving DecidableEq, Repr

/-- A gate list (R294): its entries (GATES and length), cycle and first cycle start in robot ns, and the entry in force with the robot
time at which it ends. -/
structure GateList where
  entries : List (Nat × Nat)
  cycle : Nat
  start : Nat
  index : Nat := 0
  until_ : Nat := 0
  deriving DecidableEq, Repr

/-- The sequence recovery of an FRER stream (R292): the newest number accepted and, newest first, which of the numbers
before it have been. -/
structure Recovery8021cb where
  seq : Nat
  seen : List Bool
  deriving DecidableEq, Repr

/-- The switch (R291 to R294, R299): what no register shows.  `vlans` lists the enabled (port, VLAN) pairs, `table` the learned
((VLAN, address), port), `queues` the frames that wait at each port, `sent` the last frame that each port has sent, `recovery` and `number` the FRER
streams, `admin` and `oper` the gate lists, `changes` the recent link changes, `actual` the link of a port held down,
`busy` the class that a port transmits and the raw instant at which it ends, `credit` the credit of a port's shaper in millionths of a bit. -/
structure NetState where
  vlans : List (Nat × Nat) := (List.range 12).map (fun n => (n, 1))
  table : List ((Nat × Nat) × Nat) := []
  queues : List (Nat × List NetFrame) := []
  sent : List (Nat × NetFrame) := []
  recovery : List (Nat × Recovery8021cb) := []
  number : List (Nat × Nat) := []
  admin : List (Nat × GateList) := []
  oper : List (Nat × GateList) := []
  changes : List (Nat × List Nat) := []
  actual : List (Nat × Bool) := []
  busy : List (Nat × (Nat × Nat)) := []
  credit : List ((Nat × Nat) × Int) := []
  deriving DecidableEq, Repr

/-- An inbound transaction on the host link (R297 to R299): a request to BAR0 or BAR2, a malformed TLP, a completion that nothing
awaits, a poisoned completion of an agent's read. -/
inductive HpTlp where
  | read (bar off n : Nat)
  | write (bar off : Nat) (data : List Byte) (poisoned : Bool)
  | malformed
  | unexpected
  | poisonedCompletion (a : Agent) (addr n : Nat)
  deriving DecidableEq, Repr

/-- What the host port answers an inbound read with (R297 to R300, R330). -/
inductive HpReply where
  | none
  | completion (data : List Byte)
  | poisoned (data : List Byte)
  | unsupported
  | abort
  deriving DecidableEq, Repr

/-- The host port (R295 to R299): what no register shows.  `msix` holds the words of the MSI-X table, `pba` the pending
vectors, `fec` the recent uncorrectable errors, `retraining` that the link retrains, `reply` the last answer to the host. -/
structure HostPortState where
  msix : List (Nat × Nat) := []
  pba : List Nat := []
  fec : List Nat := []
  retraining : Bool := false
  reply : HpReply := .none
  deriving DecidableEq, Repr

/-- The published copy of a curve slot (R61): X0, X1 and the 33 knots as FP32 bits. -/
abbrev CurveTable := List Nat

/-- A unit of the background test (R81): a physical tile or a commons quad. -/
inductive BankUnit where
  | tile (t : Nat)
  | quad (q : Nat)
  deriving DecidableEq, Repr

/-- A bank quad (R74): a commons quad, or quad `k` of physical tile `t`. -/
inductive QuadRef where
  | commons (q : Nat)
  | tile (t k : Nat)
  deriving DecidableEq, Repr

/-- What a request asks for: a read of `n` bytes, or a write. -/
inductive MemOp where
  | read (addr n : Nat)
  | write (addr : Nat) (data : List Byte)
  deriving DecidableEq, Repr

/-- Banks (R79 to R84): what no register shows.  `clear` lists the quads whose offer asks for CLEAR (R80), `drained` those whose handover drain has ended, `testing`
the units with a region in test, `starved` those whose test takes cycles at the first level, `held` the accesses that
wait for a quad to wake, `lullAfter` the quads that enter lull once they have been served. -/
structure BankState where
  clear : List Nat := []
  drained : List Nat := []
  testing : List BankUnit := []
  starved : List BankUnit := []
  held : List (QuadRef × Agent × MemOp) := []
  lullAfter : List QuadRef := []
  deriving DecidableEq, Repr

/-- A request that waits in Headwind (R204 to R207): its agent, what it asks for, its path, by when it is due (in raw
ns, the low 32 bits of the raw counter), the TARGET of its entry when it was issued in us (R210), the plan slot it works for, and whether
it has passed its TARGET (`raised`), has waited AGE_US (`aged`), or has come within URGENT_US of its deadline (`urgent`). -/
structure WaitingReq where
  agent : Agent
  op : MemOp
  path : Nat
  issued : Nat
  deadline : Option Nat := none
  target : Nat := 0
  plan : Option Nat := none
  raised : Bool := false
  aged : Bool := false
  urgent : Bool := false
  deriving DecidableEq, Repr

/-- Headwind: what no register shows.  `credit` is what is left of a budget in the window, in bytes, by (partition,
entry index of `HDW_P_BUD`); `last` the entry of each path served last. -/
structure HeadwindState where
  waiting : List WaitingReq := []
  credit : List ((Nat × Nat) × Int) := []
  last : List (Nat × Nat) := []
  deriving DecidableEq, Repr

end Sys2Proof.Machine
end

