-- ==== Sys2Proof/Syntax.lean ====
section
/-!
DEFINITION. The commands of the AL960 as a block: one constructor per row of spec/opcode_table.json, in its order.
The operands are what the requester, the board or the timing supplies with the command; the words of each docstring
up to the rule number are the row's own summary.
-/

namespace Sys2Proof

open Sys2Proof.Machine

/-- One command: a register write, a request, an event at a pin or a port, or an end of work in progress. -/
inductive Instr where
  /-- CSR_BAD_ACCESS: A CSR access that is not an aligned 32-bit access gets an error response, changes nothing and writes a rate-limited unmapped-access record. (R5) -/
  | csrBadAccess (a : Agent) (wr : Bool) (x n : Nat)
  /-- PAIR_LO_READ: A read of a _LO register captures the upper half into the agent's holding register. (R8) -/
  | pairLoRead (a : Agent) (x : Nat)
  /-- PAIR_HI_READ: A read of a _HI register returns the captured upper half, or the live one if none is held. (R8) -/
  | pairHiRead (a : Agent) (x : Nat)
  /-- PAIR_LO_WRITE: A write of a _LO register is held per agent and has no effect on its own. (R8) -/
  | pairLoWrite (a : Agent) (x : Nat) (w : Word)
  /-- PAIR_HI_WRITE: A write of a _HI register applies the 64-bit value from the held or current low half and the written high half. (R8) -/
  | pairHiWrite (a : Agent) (x : Nat) (w : Word)
  /-- REGISTER_WRITE: A write to a register with no row of its own is applied, or refused with a partition-violation record if the writer does not own it. (R13) -/
  | registerWrite (a : Agent) (x : Nat) (w : Word)
  /-- UNMAPPED_CSR_ACCESS: An access to a CSR offset outside every block or to a reserved offset gets an error response and a rate-limited record. (R12) -/
  | unmappedCsrAccess (a : Agent) (wr : Bool) (x : Nat)
  /-- MEMORY_REQUEST: An agent's read or write request is served or answered with an error response and a fault record. (R10) -/
  | memoryRequest (a : Agent) (op : MemOp) (busy : Bool)
  /-- LOAD_GO: A write of GO to SPL_CTRLp starts an image load or dry run after the permission, busy, source and state checks. (R31) -/
  | loadGo (a : Agent) (bank : Nat) (w : Word)
  /-- LOAD_HEADER_READ: The image header has been read and is checked for magic, length, format, part and scope. (R33) -/
  | loadHeaderRead
  /-- LOAD_DIGEST_DONE: The image digest completes and the key, signature and rollback checks run. (R33) -/
  | loadDigestDone
  /-- LOAD_SECTIONS_CHECKED: Section CRC, format, scope and consistency checks finish; a dry run reports and a load begins its fence. (R33) -/
  | loadSectionsChecked
  /-- LOAD_FENCE_DONE: The target partition's fence completes and it is reset at rung 3 under the new sections. (R34) -/
  | loadFenceDone (served : Nat)
  /-- LOAD_APPLY_DONE: Apply completes, SPL_STATUSp reports DONE, SPL_LOADEDp updates and the source unlocks. (R41) -/
  | loadApplyDone (failed : List Nat)
  /-- SVN_COMMIT: A write of COMMIT starts raising FUSE_SVN and burning the active image's revocations. (R28) -/
  | svnCommit (a : Agent)
  /-- SVN_COMMIT_DONE: The fuse burns complete and SPL_BUSY.COMMIT clears. (R28) -/
  | svnCommitDone
  /-- NOP: The tile executes a NOP command. (R64) -/
  | nop (t : Nat)
  /-- MATMUL: The tile checks and starts a matrix product through the array and element-wise pipeline. (R65) -/
  | matmul (t : Nat)
  /-- EWISE: The tile checks and starts an element-wise program over X and optionally Y. (R66) -/
  | ewise (t : Nat)
  /-- COPY: The tile's copy engine moves rows between scratch and another memory, verifying checks if asked. (R67) -/
  | copyCmd (t : Nat)
  /-- SCAN: The Eddy unit checks and starts a chunked linear-recurrence scan. (R165) -/
  | scan (t : Nat)
  /-- WAIT: The queue holds until a counter reaches VALUE. (R68) -/
  | waitCmd (t : Nat)
  /-- WAIT_SATISFIED: A waited counter reaches VALUE and the WAIT completes. (R68) -/
  | waitSatisfied (t : Nat)
  /-- WAIT_POLL: A WAIT on a warm-tier counter re-reads it every 1 µs. (R68) -/
  | waitPoll (t : Nat)
  /-- WAIT_TIMEOUT: A WAIT reaches its TIMEOUT and ends with TIMEOUT. (R68) -/
  | waitTimeout (t : Nat)
  /-- SIGNAL: The tile atomically adds VALUE to a counter once earlier commands have completed. (R68) -/
  | signal (t : Nat)
  /-- RESERVED_OPCODE: A command with a reserved opcode ends with BAD_CMD. (R64) -/
  | reservedOpcode (t : Nat)
  /-- COMMAND_COMPLETE: A tile command completes, its writes become visible and its flags are ORed into TILE_FLAGS and the context. (R69) -/
  | commandComplete (t k : Nat)
  /-- CURVE_COMMIT: A write of COMMIT publishes a curve slot's staged range and knots as one change. (R61) -/
  | curveCommit (a : Agent) (c : Nat)
  /-- BANK_OFFER: The owner offers a commons quad to TARGET. (R80) -/
  | bankOffer (a : Agent) (q target : Nat) (clear : Bool)
  /-- BANK_ACCEPT: The target accepts an offered quad and the AL960 fences it against the giver. (R79) -/
  | bankAccept (a : Agent) (q : Nat)
  /-- BANK_CANCEL: The owner withdraws an offer and the quad returns to OWNED. (R80) -/
  | bankCancel (a : Agent) (q : Nat)
  /-- HANDOVER_DRAIN_DONE: The giver's outstanding requests to the quad complete and the handover proceeds to clear or ownership change. (R79) -/
  | handoverDrainDone (q : Nat)
  /-- HANDOVER_DRAIN_TIMEOUT: The drain timeout expires, remaining requests get errors and DRAIN_TIMEOUT is set. (R79) -/
  | handoverDrainTimeout (q : Nat)
  /-- HANDOVER_DONE: Zeroing ends or is skipped, OWNER becomes TARGET, DONE is set and both bank interrupts rise. (R79) -/
  | handoverDone (q : Nat)
  /-- TEST_REGION_START: At BANK_TEST_PERIOD a unit saves the next region to its shadow and redirects it. (R81) -/
  | testRegionStart (u : BankUnit)
  /-- TEST_STARVED: A test step finding no idle cycle for 4,096 cycles takes one cycle in 16 at top priority. (R81) -/
  | testStarved (u : BankUnit)
  /-- TEST_REGION_DONE: The March test of a region ends; it is restored, or on failure stays redirected with TEST_FAIL set. (R82) -/
  | testRegionDone (u : BankUnit) (passed : Bool)
  /-- LULL_IDLE_EXPIRY: A quad idle for BANK_LULL_IDLE enters lull. (R83) -/
  | lullIdleExpiry (x : QuadRef)
  /-- LULL_REQUEST: The holder writes LULL and the quad enters lull once its accesses complete. (R83) -/
  | lullRequest (a : Agent) (x : QuadRef)
  /-- LULL_WAKE: An access or a NOLULL write starts a quad's wake. (R84) -/
  | lullWake (x : QuadRef)
  /-- WAKE_DONE: 3 µs after its wake starts the quad serves held accesses. (R84) -/
  | wakeDone (x : QuadRef)
  /-- EXTENT_REQUEST: A holder requests a pool extent, served from free, surplus or eviction, or refused. (R92) -/
  | extentRequest (p : Nat) (h : Holder) (pinned : Bool)
  /-- EXTENT_ASSIGNED: Drain and zeroing complete and the extent is assigned to the requester. (R93) -/
  | extentAssigned (e : Nat)
  /-- SOFTWARE_ALLOC: A write of REQ to MEM_Pp_ALLOC requests one pinned software extent. (R94) -/
  | softwareAlloc (a : Agent) (p : Nat)
  /-- SOFTWARE_FREE: A write to MEM_Pp_FREE releases one software extent of the partition. (R89) -/
  | softwareFree (a : Agent) (p e : Nat)
  /-- SOFTWARE_FREE_ALL: A write of ALL releases every software extent of the partition. (R95) -/
  | softwareFreeAll (a : Agent) (p : Nat)
  /-- AGE_TICK: Every MEM_AGE_TICK each unpinned extent's age rises by 1, saturating at 255. (R91) -/
  | ageTick
  /-- DEEP_QUEUE_TAIL: Advancing MEM_Pp_DQ_TAIL submits deep-tier descriptors. (R99) -/
  | deepQueueTail (a : Agent) (p tail : Nat)
  /-- ERASE: A deep command erases a deep block on every die and resets its write pointer and DAMAGED flag. (R100) -/
  | eraseDeep (p : Nat)
  /-- PROGRAM: A deep command programs pages at the block's write pointer after checking their carried checks. (R100) -/
  | programDeep (p : Nat)
  /-- SYNC: A deep command completes once earlier PROGRAMs of the queue are durable. (R100) -/
  | syncDeep (p : Nat)
  /-- INFO: A deep command writes 64 bytes of block state to ADDR. (R100) -/
  | infoDeep (p : Nat)
  /-- PAGE_PROGRAM_DONE: A page program completes on its die and the write pointer advances, or the die-block moves to a spare. (R102) -/
  | pageProgramDone (p g : Nat) (ok : Bool)
  /-- DIE_ERASE_DONE: A die-block erase completes. (R103) -/
  | dieEraseDone (p die : Nat) (ok : Bool)
  /-- DEEP_COMMAND_DONE: A deep command completes, word 7 is written and HEAD advances. (R99) -/
  | deepCommandDone (p : Nat)
  /-- DEEP_READ_DONE: A deep page read finishes decoding, retrying up to 8 times and marking the page damaged on failure. (R98) -/
  | deepReadDone (a : Agent) (g : Nat) (ok : Bool)
  /-- READ_DISTURB_LIMIT: A die-block's read count reaches the limit and its refresh starts. (R106) -/
  | readDisturbLimit (b die : Nat)
  /-- REFRESH_DONE: A refresh copy completes, the remap switches and the old die-block is erased. (R106) -/
  | refreshDone (die : Nat)
  /-- SCRUB_READ: The scrubber reads each written page once per effective scrub period. (R107) -/
  | scrubRead (g : Nat) (weak ok : Bool)
  /-- DEEP_HOT: The deep region rises above 85 °C and programs and erases are deferred. (R108) -/
  | deepHot
  /-- DEEP_COOLED: The deep region falls below 80 °C and deferred programs and erases resume. (R108) -/
  | deepCooled
  /-- WUSED_HOUR: Each hour the oldest of the 24 write-usage buckets rolls out. (R109) -/
  | wusedHour
  /-- HOLDUP_SAMPLE: Every 10 µs HOLDUP_SENSE is sampled and store_ok is recomputed. (R111) -/
  | holdupSample (code : Nat)
  /-- PFAIL_ASSERT: PFAIL_N asserts; no further store is accepted, erases stop and a squall is raised. (R112) -/
  | pfailAssert
  /-- PFAIL_DEASSERT: PFAIL_N deasserts and queued stores proceed under R111. (R112) -/
  | pfailDeassert
  /-- FAR_REKEY: A write of REKEY fences the partition's far-tier requests and draws a new key pair. (R115) -/
  | farRekey (a : Agent) (p : Nat)
  /-- PLAN_LOAD: A write of LOAD checks a streaming plan and starts loading its resident layers. (R124) -/
  | planLoad (a : Agent) (n : Nat)
  /-- PLAN_LOAD_DONE: Resident layers are loaded and the plan becomes READY with DONE set. (R124) -/
  | planLoadDone (n : Nat)
  /-- PLAN_UNLOAD: A write of UNLOAD releases a plan's extents and clears its slot, or is refused if bound. (R125) -/
  | planUnload (a : Agent) (n : Nat)
  /-- GATE_WAIT: A waiting GATE releases the previous slot and waits for its layer to be complete. (R127) -/
  | gateWait (t : Nat)
  /-- GATE_ANNOUNCE: An announcing GATE delivers a route word to Updraft. (R128) -/
  | gateAnnounce (t : Nat)
  /-- LAYER_COMPLETE: A layer's share lands in a tile slot; a waiting gate passes and further slots fill. (R127) -/
  | layerComplete (n k l : Nat)
  /-- EXPERT_FETCH_DONE: A missed expert's pages arrive from the deep tier and its extents are cached. (R133) -/
  | expertFetchDone (n e : Nat)
  /-- STALL_LIMIT: A stall passes UPD_STALL_LIMIT and the job is marked STREAM_STALL for preemption. (R131) -/
  | stallLimit (t : Nat)
  /-- GATE_TIMEOUT: A GATE reaches its TIMEOUT and ends with TIMEOUT. (R131) -/
  | gateTimeout (t : Nat)
  /-- OPEN: A sequence command opens a new sequence-table entry. (R144) -/
  | openSeq (a : Agent) (p rsv : Nat)
  /-- CLOSE: A sequence command frees a sequence, or marks it CLOSING if active. (R144) -/
  | closeSeq (a : Agent) (p rsv : Nat)
  /-- FORK: A sequence command creates a child sharing the parent's committed pages and staging. (R145) -/
  | fork (a : Agent) (p rsv : Nat)
  /-- TRUNCATE: A sequence command lowers LENGTH and STAGED. (R144) -/
  | truncate (a : Agent) (p rsv : Nat)
  /-- STEP_BEGIN: BEGIN builds a step's work list from a request list, flushing and granting appends. (R146) -/
  | stepBegin (a : Agent) (p count : Nat)
  /-- STEP_END: END requests commit of the oldest open step. (R150) -/
  | stepEnd (a : Agent) (p : Nat)
  /-- STEP_COMMIT: Once RELEASE covers the step's pages the appends commit and released pages return to the free list. (R150) -/
  | stepCommit (p : Nat)
  /-- STEP_ABORT: ABORT ends the oldest open step without commit. (R150) -/
  | stepAbort (a : Agent) (p : Nat)
  /-- FEED_PAGE_SEND: Once RELEASE allows, the engine reads back scores, writes the next page to a feed slot and adds 1 to ARRIVE. (R149) -/
  | feedPageSend (p k : Nat)
  /-- ALLOC: A scheduler command takes the lowest free job context into SETUP. (R183) -/
  | allocCtx (a : Agent) (p rsv : Nat)
  /-- ADMIT: A scheduler command checks a context and makes it READY or reports the refusal code. (R185) -/
  | admitCtx (a : Agent) (p rsv : Nat)
  /-- HOLD: A scheduler command stops a job at its next cheap point. (R183) -/
  | hold (a : Agent) (p rsv : Nat)
  /-- RESUME: A scheduler command moves a STOPPED context to PREEMPTED. (R183) -/
  | resume (a : Agent) (p rsv : Nat)
  /-- FREE: A scheduler command fences and unbinds a job and frees its context. (R183) -/
  | freeCtx (a : Agent) (p rsv : Nat)
  /-- SCHEDULER_DOORBELL: A doorbell write tells the scheduler a context's TAIL words changed. (R182) -/
  | schedulerDoorbell (a : Agent) (p j : Nat)
  /-- JOB_PLACE: A waiting job binds on all its gang tiles once they can be had. (R188) -/
  | jobPlace (j : Nat)
  /-- SLICE_END: A job's time slice ends and a switch may be decided. (R187) -/
  | sliceEnd (j : Nat)
  /-- CHEAP: A cheap-point command completes after earlier commands, listing live ranges. (R190) -/
  | cheap (t : Nat)
  /-- SWITCH_AT_CHEAP: A decided switch takes place at a cheap point and the live ranges are saved. (R191) -/
  | switchAtCheap (j : Nat)
  /-- LIVE_SAVE_DONE: Saving the outgoing job's live ranges completes and it is unbound. (R195) -/
  | liveSaveDone (j : Nat)
  /-- LIVE_RESTORE_DONE: Restoring a job's live ranges completes with their checks verified. (R191) -/
  | liveRestoreDone (j : Nat)
  /-- SPAN_WATCHDOG: TILE_SPAN passes 800 µs and the tile takes an engine fault at rung 2. (R192) -/
  | spanWatchdog (t : Nat)
  /-- RT_PARK_REQUEST: LEAD µs before a periodic release the borrowers on lent tiles are asked to park. (R193) -/
  | rtParkRequest (j : Nat)
  /-- RT_RELEASE: Cycle count and phase reach a periodic RT job's release. (R193) -/
  | rtRelease (j : Nat)
  /-- COLLECTIVE: A gang member issues a collective exchange. (R196) -/
  | collective (t : Nat)
  /-- COLLECTIVE_DONE: All members have issued and the collective result is written. (R197) -/
  | collectiveDone (t : Nat)
  /-- COLLECTIVE_TIMEOUT: A COLLECTIVE reaches its TIMEOUT. (R196) -/
  | collectiveTimeout (t : Nat)
  /-- HDW_WINDOW_START: At each window start every enabled entry's credit is reloaded less any deficit. (R202) -/
  | hdwWindowStart
  /-- REQUEST_AGED: An over-budget request waits AGE_US, or passes its TARGET, and rises a level. (R204) -/
  | requestAged (k : Nat) (target : Bool)
  /-- REQUEST_URGENT: A request comes within URGENT_US of its deadline and rises to level 3. (R204) -/
  | requestUrgent (k : Nat)
  /-- HDW_BUDGET_WRITE: A write to HDW_Pp_BUDkn applies, or is refused if enabled rates would exceed capacity. (R208) -/
  | hdwBudgetWrite (a : Agent) (p k n : Nat) (w : Word)
  /-- SNS_ENABLE: A write of ENABLE starts or stops a stream and sets its conditions. (R223) -/
  | snsEnable (a : Agent) (n : Nat) (on : Bool)
  /-- CLEAR_SUSPECT: The owner clears a stream's SUSPECT flag. (R223) -/
  | clearSuspect (a : Agent) (n : Nat)
  /-- CSI2_FRAME_START: A CSI-2 Frame Start opens a sample and stamps the raw counter. (R219) -/
  | csi2FrameStart (port vc ecc : Nat)
  /-- CSI2_FRAME_END: A CSI-2 Frame End completes a camera sample. (R214) -/
  | csi2FrameEnd (port vc ecc : Nat) (payload : List Byte) (crcBad : Bool)
  /-- ETH_SAMPLE_DATAGRAM: A UDP datagram to a stream's port opens or extends an Ethernet sample. (R214) -/
  | ethSampleDatagram (port udp mac : Nat) (data : List Byte)
  /-- SPI_DATA_READY: A data-ready edge stamps and starts an SPI burst read. (R214) -/
  | spiDataReady (n : Nat)
  /-- SPI_BURST_DONE: An SPI burst read completes a sample. (R214) -/
  | spiBurstDone (n : Nat) (data : List Byte)
  /-- I3C_IBI: An I3C in-band interrupt stamps and starts a private read. (R214) -/
  | i3cIbi (port addr : Nat)
  /-- I3C_READ_DONE: An I3C private read completes a sample. (R214) -/
  | i3cReadDone (port addr : Nat) (data : List Byte)
  /-- TDM_FRAME_SYNC: A TDM frame sync stamps and collects a frame toward a sample. (R214) -/
  | tdmFrameSync (n : Nat) (slots : List Nat)
  /-- SAMPLE_WRITE: A complete sample is written with checks and its header, and ARRIVE rises, once a buffer is free. (R217) -/
  | sampleWrite (n : Nat)
  /-- SAMPLE_INCOMPLETE_TIMEOUT: A sample not finished within 2 × PERIOD_US is dropped under code 0x04. (R222) -/
  | sampleIncompleteTimeout (n : Nat)
  /-- STREAM_LOST_TIMEOUT: No sample for 4 × PERIOD_US sets LOST. (R223) -/
  | streamLostTimeout (n : Nat)
  /-- UNSYNC_CLEAR_TIMEOUT: UNC_US below half the period for 2 s clears UNSYNC. (R223) -/
  | unsyncClearTimeout (n : Nat)
  /-- XW_INPUT_ENTRY: Crosswind reads a FEATURE or DETECT entry advanced into its input ring. (R227) -/
  | xwInputEntry
  /-- INSTANT_EMIT: Every awaited stream has contributed and Crosswind emits the instant. (R225) -/
  | instantEmit (k : Nat)
  /-- GRID_HOLD_EXPIRY: HOLD_MS after an instant Crosswind emits it with missing streams marked. (R225) -/
  | gridHoldExpiry (k : Nat)
  /-- EMISSION_DONE: Emission writes the output buffer, advances EMITTED and opens a Veer epoch. (R229) -/
  | emissionDone
  /-- AUCTION_TIMEOUT: The assignment solver reaches MAX_US and sets TRUNC. (R233) -/
  | auctionTimeout
  /-- PROX_TICK: Every proximity period Crosswind computes per-sector distances and the fusion level. (R231) -/
  | proxTick
  /-- LEVEL_HOLD_EXPIRY: A lower level's condition has held for XW_LEVEL_HOLD and the level falls one step. (R235) -/
  | levelHoldExpiry
  /-- EPOCH_PUBLISHED: Veer finishes building a map epoch and publishes it atomically. (R243) -/
  | epochPublished
  /-- GOAL: A Veer query sets the world goal. (R247) -/
  | goal
  /-- ARM: A Veer query requests a joint-space arm path. (R248) -/
  | arm
  /-- CANCEL: A Veer query cancels an earlier query or clears the goal. (R247) -/
  | cancel
  /-- MODEL: A Veer query loads the robot's sphere model. (R244) -/
  | modelLoad
  /-- VOXELS: A Veer query loads the voxel grid. (R246) -/
  | voxels
  /-- LAYER: A Veer query loads user layer 5 or 6. (R247) -/
  | layerMode
  /-- MAP_COPY: A Veer query writes selected layers of the newest epoch to memory. (R247) -/
  | mapCopy
  /-- GLOBAL_TICK: A global search starts on its period. (R248) -/
  | globalTick
  /-- GLOBAL_DONE: A global search ends with a path or a result code. (R249) -/
  | globalDone
  /-- REPAIR_TICK: A local repair starts on its period. (R248) -/
  | repairTick
  /-- REPAIR_DONE: A local repair ends with ranked candidates. (R248) -/
  | repairDone
  /-- STAGE_TIMEOUT: A search stage reaches its time limit and ends with TIMEOUT. (R248) -/
  | stageTimeout (st : VeerStage)
  /-- OUTPUT_TICK: At each output tick the gate validates and emits a trajectory. (R250) -/
  | outputTick
  /-- CYCLE_START: At phase 0 frames leave both Windline ports with the committed outputs. (R258) -/
  | cycleStart
  /-- LATCH: At LATCH Breeze latches the newest published setpoint block. (R268) -/
  | latch
  /-- WINDLINE_FRAME_RETURN: A Windline frame returns on a port and its slots are validated. (R263) -/
  | windlineFrameReturn (frame : List Byte) (fcsOk : Bool)
  /-- RX_DEADLINE: At RX_DEADLINE slots not yet received count as missing and node states advance. (R263) -/
  | rxDeadline
  /-- LOOP_RUN_START: A due loop starts once its nodes' slots are valid or at RX_DEADLINE. (R267) -/
  | loopRunStart (n : Nat)
  /-- END: Breeze instruction that ends a loop run. (R270) -/
  | endRun (n : Nat)
  /-- LDIN: Breeze instruction that loads an uplink field. (R270) -/
  | ldin (n : Nat)
  /-- LDSP: Breeze instruction that loads a latched setpoint. (R270) -/
  | ldsp (n : Nat)
  /-- LDK: Breeze instruction that loads a gain of the active set. (R270) -/
  | ldk (n : Nat)
  /-- LDS: Breeze instruction that loads a state word. (R270) -/
  | lds (n : Nat)
  /-- STS: Breeze instruction that stores a state word. (R270) -/
  | sts (n : Nat)
  /-- OUT: Breeze instruction that writes a downlink field. (R270) -/
  | outOp (n : Nat)
  /-- ADD: Breeze instruction that adds two registers. (R272) -/
  | addOp (n : Nat)
  /-- SUB: Breeze instruction that subtracts two registers. (R272) -/
  | subOp (n : Nat)
  /-- MUL: Breeze instruction that multiplies two registers. (R272) -/
  | mulOp (n : Nat)
  /-- MAC: Breeze instruction that multiplies and accumulates. (R272) -/
  | mac (n : Nat)
  /-- CLAMP: Breeze instruction that clamps a register between bounds. (R270) -/
  | clamp (n : Nat)
  /-- MIN: Breeze instruction that takes a minimum. (R270) -/
  | minOp (n : Nat)
  /-- MAX: Breeze instruction that takes a maximum. (R270) -/
  | maxOp (n : Nat)
  /-- NEG: Breeze instruction that negates a register. (R272) -/
  | negOp (n : Nat)
  /-- ABS: Breeze instruction that takes an absolute value. (R272) -/
  | absOp (n : Nat)
  /-- DIV: Breeze FP32 instruction that divides. (R270) -/
  | divOp (n : Nat)
  /-- SQRT: Breeze FP32 instruction that takes a square root. (R270) -/
  | sqrtOp (n : Nat)
  /-- CURVE: Breeze instruction that evaluates a curve slot. (R270) -/
  | curve (n : Nat)
  /-- CVT: Breeze instruction that converts between Q31 and FP32. (R270) -/
  | cvt (n : Nat)
  /-- ERR: Breeze instruction that records the run's flutter sample. (R270) -/
  | err (n : Nat)
  /-- LDV: Breeze instruction that loads a working-vector element. (R270) -/
  | ldv (n : Nat)
  /-- STV: Breeze instruction that stores a working-vector element. (R270) -/
  | stv (n : Nat)
  /-- CHOL: Breeze instruction that starts a Cholesky solve, waiting for the unit if busy. (R270) -/
  | chol (n : Nat)
  /-- CHOL_DONE: The Cholesky unit completes and the solution replaces the working vector. (R270) -/
  | cholDone
  /-- DEADLINE: At DEADLINE finished runs commit, running ones are abandoned and the next downlink is built. (R273) -/
  | deadline
  /-- LOOP_ENABLE: A write of ENABLE checks a loop's program and enables it or is refused. (R271) -/
  | loopEnable (a : Agent) (n : Nat) (w : Word)
  /-- MATRIX_COMMIT: COMMIT publishes a matrix and vector bank at the next cycle start. (R270) -/
  | matrixCommit (a : Agent) (mask : Nat)
  /-- PHASE_WRITE: A write of BRZ_PHASE or WL_TIMING applies or is refused if the phase order breaks. (R258) -/
  | phaseWrite (a : Agent) (timing : Bool) (w : Word)
  /-- WINDLINE_ENABLE: ENABLE starts frames at the next phase 0, recording TIME_WL_ORIGIN. (R287) -/
  | windlineEnable (a : Agent) (w : Word)
  /-- WINDLINE_PORT_DOWN: A Windline port loses link or a path gets no return for 3 cycles. (R266) -/
  | windlinePortDown (p : Nat)
  /-- ROB_RATE_WRITE: A write of TIME_ROB_RATE folds accrued time into the offset and sets a new rate, or is refused. (R280) -/
  | robRateWrite (a : Agent) (v : Word)
  /-- ROB_ADJ_WRITE: A write of TIME_ROB_ADJ replaces the pending slewed adjustment. (R280) -/
  | robAdjWrite (a : Agent) (v : Word)
  /-- SLEW_DONE: The pending adjustment is consumed and SLEW_DONE is set. (R280) -/
  | slewDone
  /-- TIME_SNAP: TAKE captures all times at one instant. (R290) -/
  | timeSnap (a : Agent)
  /-- PTP_SYNC_RX: A PTP Sync is received and stamped. (R283) -/
  | ptpSyncRx (k : Nat) (m : PtpMsg) (twoStep : Bool)
  /-- PTP_FOLLOW_UP_RX: A Follow_Up completes a Sync and the servo updates. (R283) -/
  | ptpFollowUpRx (k : Nat) (m : PtpMsg)
  /-- PTP_ANNOUNCE_RX: An Announce is received and master selection runs. (R283) -/
  | ptpAnnounceRx (k : Nat) (m : PtpMsg) (an : Announce)
  /-- PTP_DELAY_RESP_RX: A Delay_Resp gives a path-delay sample. (R282) -/
  | ptpDelayRespRx (k : Nat) (m : PtpMsg)
  /-- PTP_PDELAY_REQ_RX: A Pdelay_Req is received and answered. (R282) -/
  | ptpPdelayReqRx (k : Nat) (m : PtpMsg)
  /-- PTP_PDELAY_RESP_RX: A Pdelay response gives a peer-delay sample. (R282) -/
  | ptpPdelayRespRx (k : Nat) (m : PtpMsg)
  /-- PTP_SYNC_INTERVAL: A master base's sync interval expires and it sends Sync and Follow_Up. (R282) -/
  | ptpSyncInterval (k : Nat)
  /-- PTP_ANNOUNCE_INTERVAL: A master base's announce interval expires and it sends Announce. (R282) -/
  | ptpAnnounceInterval (k : Nat)
  /-- PTP_DELAY_REQ_INTERVAL: A base's delay or Pdelay request interval expires and it sends a request. (R282) -/
  | ptpDelayReqInterval (k : Nat)
  /-- ANNOUNCE_TIMEOUT: ANN_TIMEOUT announce intervals pass without the master, or without a better one for ROLE 2. (R283) -/
  | announceTimeout (k : Nat)
  /-- HOLDOVER_EXPIRY: HOLDOVER_S elapses and the base enters FREERUN. (R283) -/
  | holdoverExpiry (k : Nat)
  /-- MASTER_DISQUALIFY_EXPIRY: A master disqualified for three steps becomes eligible again after 60 s. (R285) -/
  | masterDisqualifyExpiry (k sender : Nat)
  /-- ETH_FRAME_RX: A frame received on a switch port is filtered, eliminated and forwarded. (R293) -/
  | ethFrameRx (n : Nat) (frame : List Byte) (fcsOk : Bool)
  /-- GATE_LIST_GO: GO schedules a new admin gate list. (R294) -/
  | gateListGo (a : Agent) (n : Nat)
  /-- CONFIG_CHANGE: The admin gate list takes effect at its cycle start. (R294) -/
  | configChange (n : Nat)
  /-- GATE_INTERVAL_EXPIRY: A gate control list interval ends and the next entry's gates apply. (R294) -/
  | gateIntervalExpiry (n : Nat)
  /-- ETH_LINK_CHANGE: A switch port's link goes up or down. (R299) -/
  | ethLinkChange (n : Nat) (up : Bool)
  /-- PORT_HOLD_DOWN_EXPIRY: A port held down for link flapping is released after 1 s. (R299) -/
  | portHoldDownExpiry (n : Nat)
  /-- HP_LINK_TRAINED: The host port link trains and, in root mode, enumerates its device. (R295) -/
  | hpLinkTrained (rate width ltssm : Nat) (gib : Option Nat)
  /-- HP_INBOUND_TLP: An inbound request through a BAR window acts as partition p's DEVICE agent. (R297) -/
  | hpInboundTlp (t : HpTlp)
  /-- HP_DOORBELL_WRITE: A host write to a BAR0 doorbell ORs into HP_Pp_DB and raises the interrupt. (R298) -/
  | hpDoorbellWrite (p : Nat) (v : Word)
  /-- HP_MSI_RAISE: A write to HP_Pp_MSI sends MSI-X vectors to the host. (R297) -/
  | hpMsiRaise (a : Agent) (p mask : Nat)
  /-- COMPLETION_TIMEOUT: An outbound request has no completion within 10 ms. (R299) -/
  | completionTimeout (a : Agent) (x n : Nat)
  /-- SURPRISE_LINK_DOWN: The host link drops and the far tier becomes absent. (R299) -/
  | surpriseLinkDown
  /-- HP_RETRAIN_TIMER: Every 100 ms a down host link attempts retraining. (R299) -/
  | hpRetrainTimer
  /-- POWER_TICK: Every 2 µs the power manager estimates power and applies frequency and throttle decisions. (R308) -/
  | powerTick (cnt : List Nat)
  /-- TELEMETRY_READING: A PMBus reading completes and updates the domain's trust and budget control. (R311) -/
  | telemetryReading (r : Nat) (x : Reading)
  /-- TELEMETRY_PERIOD: Each PWR_TELEM period starts the round of PMBus readings. (R310) -/
  | telemetryPeriod
  /-- RAIL_NO_READING: A rail gives no valid reading for 10 ms and its domain goes LOST. (R324) -/
  | railNoReading (r : Nat)
  /-- VOLTAGE_SETTLED: 100 µs after a new voltage is commanded a pending frequency rise takes effect. (R314) -/
  | voltageSettled (r : Nat)
  /-- GATE_IDLE_EXPIRY: A tile without a job is power-gated after GATE_IDLE. (R315) -/
  | gateIdleExpiry (t : Nat)
  /-- TEMP_SAMPLE: Every 20 µs sensors are sampled and temperature limits apply. (R319) -/
  | tempSample (l : List Nat)
  /-- OVERTEMP_PERSIST: A sensor stays above 105 °C for 10 ms and a power record is written. (R319) -/
  | overtempPersist (k : Nat)
  /-- DEEP_LIMIT_STEP: Every 10 ms above 80 °C, or 100 ms below 78 °C, the deep region lowers or restores the cap by 2 W. (R320) -/
  | deepLimitStep
  /-- FMAX_REDERIVE: Every 24 hours Fmax is derived again from the slack record and may lower or retire a tile. (R318) -/
  | fmaxRederive (t mhz : Nat)
  /-- GALE_TRIP: A sensor reaches 115 °C; clocks stop and Windbreak takes STO. (R321) -/
  | galeTrip
  /-- GALE_RECORD: 5 ms after a gale trip a persistent record is written and PWRCYC_REQ_N asserts. (R321) -/
  | galeRecord
  /-- SQUALL_ASSERT: SQUALL_N or PFAIL_N asserts and every domain drops to its lowest state. (R322) -/
  | squallAssert (fault : Option (Nat × Nat))
  /-- SQUALL_RELEASE: The squall signal is released and the hold starts. (R322) -/
  | squallRelease
  /-- SQUALL_HOLD_EXPIRY: PWR_SQUALL_HOLD after release normal control resumes. (R322) -/
  | squallHoldExpiry
  /-- SQUALL_PERSIST: SQUALL_N stays asserted for 100 ms and a power record is written. (R322) -/
  | squallPersist
  /-- TILE_WAKE_ADMIT: The wake sequencer admits the next waiting tile wake. (R323) -/
  | tileWakeAdmit
  /-- FAULT_DETECTED: A detected fault is recorded and a recovery at its first rung is fenced. (R331) -/
  | faultDetected (f : FaultDesc) (words segs : List Nat) (corrected : Nat)
  /-- FENCE_DRAIN_DONE: The domain's outstanding requests complete, or are ended at D, and its reset proceeds. (R337) -/
  | fenceDrainDone (n served : Nat)
  /-- FENCE_CONFIRM_TIMEOUT: A unit does not confirm the fence within D + 10 µs and recovery escalates a rung. (R339) -/
  | fenceConfirmTimeout (n : Nat)
  /-- RECOVERY_RELEASE: A domain's reset completes, it is released and the closing record is written. (R383) -/
  | recoveryRelease (n : Nat) (failed : List Nat)
  /-- FLT_RESET: A write of GO to FLT_RESET requests a recovery at a rung, accepted or refused. (R338) -/
  | fltReset (a : Agent) (rung part target : Nat)
  /-- LOG_FLUSH_TIMER: FLUSH_S after the oldest waiting record a log page is programmed. (R335) -/
  | logFlushTimer
  /-- LOG_FLUSH: A write of FLUSH programs the waiting records now. (R335) -/
  | logFlush (a : Agent)
  /-- LOG_READ: A write of READ copies a persistent log page to memory. (R345) -/
  | logRead (a : Agent)
  /-- REC_SEL_WRITE: A write of FLT_REC_SEL sets the agent's own record selection. (R345) -/
  | recSelWrite (a : Agent) (v : Word)
  /-- LOCKSTEP_MISMATCH: A Windbreak pair mismatches; the standby takes over or, with none left, SAFE_STOP_N asserts. (R346) -/
  | lockstepMismatch (active standby : Bool)
  /-- WBO_WRITE_REJECT: A write to a WBO register by another agent is discarded and counted. (R348) -/
  | wboWriteReject (a : Agent) (r : Reg)
  /-- ESTOP_SAMPLE: Every 10 µs ESTOP_IN_N is sampled; three low samples trigger the e-stop action. (R351) -/
  | estopSample (low : Bool)
  /-- STOP_TIME_EXPIRY: STOP_TIME_MS passes during a safe stop and Windbreak goes to STO. (R352) -/
  | stopTimeExpiry
  /-- WB_STOP: The control partition writes WB_REQ.STOP and a safe stop starts. (R351) -/
  | wbStop (a : Agent)
  /-- WB_RELEASE: The control partition writes WB_REQ.RELEASE; STO is released or the request refused. (R354) -/
  | wbRelease (a : Agent)
  /-- PORST_ASSERT: PORST_N asserts and the AL960 resets as rung 5. (R385) -/
  | porstAssert (aon : Bool)
  /-- PORST_RELEASE: PORST_N is released and start-up stage S0 begins. (R368) -/
  | porstRelease
  /-- STAGE_S0_DONE: The always-on stage completes and S1 begins. (R357) -/
  | stageS0Done
  /-- STAGE_S1_DONE: The ROM stage applies the boot-counter rule and completes. (R361) -/
  | stageS1Done (fz : Option Fuses)
  /-- STAGE_S2_DONE: Boot firmware is read and verified. (R357) -/
  | stageS2Done (f0 f1 : Bool)
  /-- STAGE_S3_DONE: Memory initialisation and tests complete. (R357) -/
  | stageS3Done (ok : Bool) (addr : Nat) (quads : List Nat)
  /-- STAGE_S4_DONE: Tile tests finish and the logical tile map is filled. (R358) -/
  | stageS4Done (results : List TileTest)
  /-- STAGE_S5_DONE: A chip image is selected and checked. (R359) -/
  | stageS5Done
  /-- STAGE_S6_DONE: The image's sections are applied and fixed-frequency mode ends. (R357) -/
  | stageS6Done
  /-- STAGE_S7_RELEASE: Host clusters leave reset and the watchdog starts. (R357) -/
  | stageS7Release
  /-- BOOT_OK: A write of OK sets COUNT to 0 and stops the watchdog. (R361) -/
  | bootOk (a : Agent)
  /-- RESTART: A write of RESTART takes rung 4 with image selection under R359. (R364) -/
  | restart (a : Agent)
  /-- DOLDRUMS: A write of DOLDRUMS requests doldrums mode at the next start. (R363) -/
  | doldrums (a : Agent)
  /-- BOOT_WATCHDOG_EXPIRY: WDT_S passes after S7 without OK and rung 4 follows with LAST_FAIL WATCHDOG. (R361) -/
  | bootWatchdogExpiry
  /-- MAINT_REQUEST: A request to the doldrums maintenance service reads status or writes firmware and images. (R363) -/
  | maintRequest (m : MaintReq)
  /-- REFCLK1_LOSS: The clock monitor detects REFCLK1 loss; fabric record and rung 5. (R379) -/
  | refclk1Loss
  /-- CRYSTAL_LOSS: The crystal is lost; Windbreak takes STO and rung 5 follows. (R379) -/
  | crystalLoss
  /-- ARM_SEARCH_DONE: A joint-space arm search ends; its path is written, RESULT is set and, on OK, it becomes the active arm path. (R248) -/
  | armSearchDone
  /-- PTP_DELAY_REQ_RX: A base acting as master under the 1588 delay request-response mechanism receives a Delay_Req and answers it with a Delay_Resp. (R282) -/
  | ptpDelayReqRx (k : Nat) (m : PtpMsg)
  /-- TDM_CLOCK_LOSS: A TDM port loses its frame sync or bit clock and its stream's samples are dropped until 2 correct periods pass. (R222) -/
  | tdmClockLoss (port : Nat)
  /-- SQUALL_HELD_EXPIRY: One second after the last assertion of a flapping SQUALL_N the held squall ends and the release and hold rules take over. (R324) -/
  | squallHeldExpiry
  /-- UNCORRECTABLE_FEC: The host-port link reports an uncorrectable FEC error or reaches its replay limit, and three within 1 s retrain the link. (R299) -/
  | uncorrectableFec
  deriving DecidableEq, Repr

end Sys2Proof
end

