-- ==== Sys2Proof/Machine/Aes.lean ====
section
/-!
DEFINITION. AES-256 in XTS mode as IEEE 1619 defines it (R114): the cipher of the far tier, on lists of bytes as numbers.
-/

namespace Sys2Proof.Machine.Aes

/-- The substitution box of AES. -/
def sbox : List Nat :=
  [0x63, 0x7C, 0x77, 0x7B, 0xF2, 0x6B, 0x6F, 0xC5, 0x30, 0x01, 0x67, 0x2B, 0xFE, 0xD7, 0xAB, 0x76] ++
  [0xCA, 0x82, 0xC9, 0x7D, 0xFA, 0x59, 0x47, 0xF0, 0xAD, 0xD4, 0xA2, 0xAF, 0x9C, 0xA4, 0x72, 0xC0] ++
  [0xB7, 0xFD, 0x93, 0x26, 0x36, 0x3F, 0xF7, 0xCC, 0x34, 0xA5, 0xE5, 0xF1, 0x71, 0xD8, 0x31, 0x15] ++
  [0x04, 0xC7, 0x23, 0xC3, 0x18, 0x96, 0x05, 0x9A, 0x07, 0x12, 0x80, 0xE2, 0xEB, 0x27, 0xB2, 0x75] ++
  [0x09, 0x83, 0x2C, 0x1A, 0x1B, 0x6E, 0x5A, 0xA0, 0x52, 0x3B, 0xD6, 0xB3, 0x29, 0xE3, 0x2F, 0x84] ++
  [0x53, 0xD1, 0x00, 0xED, 0x20, 0xFC, 0xB1, 0x5B, 0x6A, 0xCB, 0xBE, 0x39, 0x4A, 0x4C, 0x58, 0xCF] ++
  [0xD0, 0xEF, 0xAA, 0xFB, 0x43, 0x4D, 0x33, 0x85, 0x45, 0xF9, 0x02, 0x7F, 0x50, 0x3C, 0x9F, 0xA8] ++
  [0x51, 0xA3, 0x40, 0x8F, 0x92, 0x9D, 0x38, 0xF5, 0xBC, 0xB6, 0xDA, 0x21, 0x10, 0xFF, 0xF3, 0xD2] ++
  [0xCD, 0x0C, 0x13, 0xEC, 0x5F, 0x97, 0x44, 0x17, 0xC4, 0xA7, 0x7E, 0x3D, 0x64, 0x5D, 0x19, 0x73] ++
  [0x60, 0x81, 0x4F, 0xDC, 0x22, 0x2A, 0x90, 0x88, 0x46, 0xEE, 0xB8, 0x14, 0xDE, 0x5E, 0x0B, 0xDB] ++
  [0xE0, 0x32, 0x3A, 0x0A, 0x49, 0x06, 0x24, 0x5C, 0xC2, 0xD3, 0xAC, 0x62, 0x91, 0x95, 0xE4, 0x79] ++
  [0xE7, 0xC8, 0x37, 0x6D, 0x8D, 0xD5, 0x4E, 0xA9, 0x6C, 0x56, 0xF4, 0xEA, 0x65, 0x7A, 0xAE, 0x08] ++
  [0xBA, 0x78, 0x25, 0x2E, 0x1C, 0xA6, 0xB4, 0xC6, 0xE8, 0xDD, 0x74, 0x1F, 0x4B, 0xBD, 0x8B, 0x8A] ++
  [0x70, 0x3E, 0xB5, 0x66, 0x48, 0x03, 0xF6, 0x0E, 0x61, 0x35, 0x57, 0xB9, 0x86, 0xC1, 0x1D, 0x9E] ++
  [0xE1, 0xF8, 0x98, 0x11, 0x69, 0xD9, 0x8E, 0x94, 0x9B, 0x1E, 0x87, 0xE9, 0xCE, 0x55, 0x28, 0xDF] ++
  [0x8C, 0xA1, 0x89, 0x0D, 0xBF, 0xE6, 0x42, 0x68, 0x41, 0x99, 0x2D, 0x0F, 0xB0, 0x54, 0xBB, 0x16]

/-- A byte substituted. -/
def sub (x : Nat) : Nat := sbox.getD x 0

/-- The inverse substitution. -/
def invSub (x : Nat) : Nat := sbox.idxOf x

/-- A byte times x in the field of AES. -/
def xtime (b : Nat) : Nat := if b < 128 then 2 * b else (2 * b) ^^^ 0x11B

/-- The product of two bytes in the field of AES. -/
def mul (a b : Nat) : Nat :=
  ((List.range 8).foldl (fun (acc : Nat × Nat) k => (if b.testBit k then acc.1 ^^^ acc.2 else acc.1, xtime acc.2)) (0, a)).1

/-- The bytewise sum of two lists. -/
def xorBytes (a b : List Nat) : List Nat := List.zipWith (fun x y => x ^^^ y) a b

/-- The next word of the key schedule of AES-256: word `i` from the words before it. -/
def nextWord (w : List (List Nat)) (i : Nat) : List Nat :=
  let prev := w.getD (i - 1) []
  let t :=
    if i % 8 = 0 then xorBytes ((prev.drop 1 ++ prev.take 1).map sub) [2 ^ (i / 8 - 1), 0, 0, 0]
    else if i % 8 = 4 then prev.map sub else prev
  xorBytes (w.getD (i - 8) []) t

/-- The 60 words of the key schedule of a 32-byte key. -/
def schedule (key : List Nat) : List (List Nat) :=
  (List.range 52).foldl (fun w k => w ++ [nextWord w (k + 8)]) ((List.range 8).map (fun k => (key.drop (4 * k)).take 4))

/-- The key of round `r`. -/
def roundKey (w : List (List Nat)) (r : Nat) : List Nat := ((w.drop (4 * r)).take 4).flatten

/-- The rows of a block shifted by `f` of the row and the column. -/
def permute (f : Nat → Nat → Nat) (s : List Nat) : List Nat :=
  (List.range 16).map (fun k => s.getD (k % 4 + 4 * (f (k % 4) (k / 4) % 4)) 0)

/-- ShiftRows. -/
def shiftRows : List Nat → List Nat := permute (fun r c => c + r)

/-- The inverse of ShiftRows. -/
def invShiftRows : List Nat → List Nat := permute (fun r c => c + 4 - r)

/-- The columns of a block multiplied by the circulant of a row of coefficients. -/
def mixWith (m : List Nat) (s : List Nat) : List Nat :=
  (List.range 16).map (fun k => (List.range 4).foldl (fun acc j => acc ^^^ mul (s.getD (k / 4 * 4 + j) 0) (m.getD ((j + 4 - k % 4) % 4) 0)) 0)

/-- AES-256 of one 16-byte block. -/
def encrypt (key block : List Nat) : List Nat :=
  let w := schedule key
  let s := (List.range 13).foldl (fun s r => xorBytes (mixWith [2, 3, 1, 1] (shiftRows (s.map sub))) (roundKey w (r + 1)))
    (xorBytes block (roundKey w 0))
  xorBytes (shiftRows (s.map sub)) (roundKey w 14)

/-- The inverse of AES-256 on one 16-byte block. -/
def decrypt (key block : List Nat) : List Nat :=
  let w := schedule key
  let s := (List.range 13).foldl (fun s r => mixWith [14, 11, 13, 9] (xorBytes ((invShiftRows s).map invSub) (roundKey w (13 - r))))
    (xorBytes block (roundKey w 14))
  xorBytes ((invShiftRows s).map invSub) (roundKey w 0)

/-- The little-endian bytes of a number. -/
def leBytes (n v : Nat) : List Nat := (List.range n).map (fun k => v / 256 ^ k % 256)

/-- The number with little-endian bytes. -/
def leNum (l : List Nat) : Nat := l.foldr (fun b n => b + 256 * n) 0

/-- A tweak times x in the field of XTS. -/
def double (t : Nat) : Nat := if t < 2 ^ 127 then 2 * t else (2 * t - 2 ^ 128) ^^^ 0x87

/-- The tweak of block `j` of data unit `n` under a tweak key. -/
def tweak (key2 n j : Nat) : List Nat :=
  leBytes 16 ((List.range j).foldl (fun t _ => double t) (leNum (encrypt (leBytes 32 key2) (leBytes 16 n))))

/-- The ciphertext of block `j` of data unit `n` (R114). -/
def xtsEncrypt (key1 key2 n j : Nat) (block : List Nat) : List Nat :=
  let t := tweak key2 n j
  xorBytes (encrypt (leBytes 32 key1) (xorBytes block t)) t

/-- The plaintext of block `j` of data unit `n` (R114). -/
def xtsDecrypt (key1 key2 n j : Nat) (block : List Nat) : List Nat :=
  let t := tweak key2 n j
  xorBytes (decrypt (leBytes 32 key1) (xorBytes block t)) t

end Sys2Proof.Machine.Aes
end

