-- ==== Sys2Proof/Config.lean ====
section
/-!
DEFINITION. What an implementation of the AL960 fixes and the manual leaves open.  Each constant without a body
is a free value: nothing can be proved of it.
-/

namespace Sys2Proof

/-- The free values, in the order in which the model draws them. -/
opaque Config.freeValue : Nat → Nat

/-- The clock identity of the part in the comparison of PTP masters (R282). -/
opaque Config.clockIdentity : Nat

/-- How the 64 bytes of INFO hold a deep block's state, DAMAGED, write pointer, highest erase count and highest
read-disturb count (R100 gives no layout), as a little-endian number. -/
opaque Config.deepInfo : Nat → Nat → Nat → Nat → Nat → Nat

/-- The FP32 result of a pipeline function for an FP32 input, both as bits (R57: the results are those of a library that
the manual does not publish), by the function's code. -/
opaque Config.fnResult : Nat → Nat → Nat

/-- The format code of a MATMUL's COMB operand, which no field of the command names (R56, R65), by FMT_IN and FMT_OUT. -/
opaque Config.auxFormat : Nat → Nat → Nat

/-- The INT4 element of a value, as FP32 bits, whose group's scale rounds to zero (R50 divides by it). -/
opaque Config.int4Elem : Nat → Nat

/-- The order in which a step of a scan's tree adds the terms of the compensation words of its factor and its addend, and whether it
adds the product of both (R171 names neither). -/
opaque Config.scanOrder : Nat

/-- The leakage in watts at 0.75 V and 85 degrees that is fused for a tile (0 to 67) or host cluster (68 to 71), as FP32
bits (R308). -/
opaque Config.leak : Nat → Nat

/-- The fused static term of the memory and the IO domain (R308), as FP32 bits. -/
opaque Config.staticPower : Nat → Nat

/-- The first element of a member's share in a reduce-scatter whose COUNT is no multiple of the number of members (R196
names no split), by COUNT, the number of members and the member's rank. -/
opaque Config.scatterCut : Nat → Nat → Nat → Nat

/-- The pose (x, y, yaw as FP32 bits, by index) between two entries of the pose ring of which one is no number, by the two
entries' words, their times and the time asked for. -/
opaque Config.poseBetween : List Nat → List Nat → Nat → Nat → Int → Nat → Nat

/-- The pose at a time outside the span of the pose ring, of which the manual says nothing, by the newest entry's words. -/
opaque Config.poseBeyond : List Nat → Int → Nat → Nat

/-- The cell that a cell of an n x n grid at the second pose resamples from under the first pose, where one of them is no number, plus one;
0 for none. -/
opaque Config.moveCell : Nat → List Nat → List Nat → Nat → Nat

/-- A detection's word (x, y, z and the two variances as FP32 bits) moved from the first pose to the second. -/
opaque Config.movePoint : List Nat → List Nat → List Nat → Nat → Nat

/-- The occupancy cell (log-odds and weight as 16 bits) that a GRID sample with ranges contributes (R227 gives no
sensor model), by its ranges, directions, mounting words, the grid's size and the cell. -/
opaque Config.rangeCell : List Nat → List Nat → List Nat → Nat → Nat → Nat

/-- The weight of a fused cell to which several contributions add (R227 gives no rule), by their weights. -/
opaque Config.cellWeight : List Nat → Nat

/-- The part's own weighted mean of feature values in FP32 (R227 gives no order of operations), by (value, weight) pairs, as FP32
bits. -/
opaque Config.featMean : List (Nat × Nat) → Nat

/-- The cost of a pair (R233) whose normalised distance is not a number that R233 states, by the four FP32 words. -/
opaque Config.pairCost : List Nat → Nat

/-- Which of the assignments that R233 allows the solver finds, by their costs. -/
opaque Config.assignment : List Nat → Nat

/-- A track's word after prediction (R232 gives no process noise and no rounding), by its words, the time since its last
update, the index of the word. -/
opaque Config.predictTrack : List Nat → Int → Nat → Nat

/-- A track's word after its Kalman update (R232 gives no gain), by the track's and the detection's words. -/
opaque Config.updateTrack : List Nat → List Nat → Nat → Nat

/-- The velocity and its variances of a track that a detection opens (R232 gives none), by the detection's words. -/
opaque Config.openTrack : List Nat → Nat → Nat

/-- The shortest horizontal distance in cm of a sample's points in a sector while a pose is no number, of which the manual says nothing, by
its ranges, its directions, its mounting words, the poses at capture and now, the sector. -/
opaque Config.proxDistance : List Nat → List Nat → List Nat → List Nat → List Nat → Nat → Nat

/-- What a sector with valid data and no point in it reads (R231 gives no value). -/
opaque Config.emptySector : Nat → Nat

/-- The configuration checks that a search or a test makes (R256 counts them; the manual does not say which points a search tries). -/
opaque Config.checkCount : Nat → Nat

/-- Whether the global search also steps to the cells at a cell's corners (R248 names no connectivity): 0 for no. -/
opaque Config.searchCorners : Nat

/-- Which of the steps of equal total cost the global search takes at a cell (R248 names no choice). -/
opaque Config.pathChoice : Nat → Nat

/-- The candidates of a local repair (R248 names no primitives), by the composite's cells, the
global path and the arm path: their points' words, 37 for each. -/
opaque Config.repairPaths : List (Nat × Nat) → List Nat → List (List Nat) → List (List (List Nat))

/-- The waypoints of an arm search (R248), 32 FP16 values each, by the start's and the goal's words and the capacity; empty for none. -/
opaque Config.armWaypoints : List Nat → List Nat → Nat → List (List Nat)

/-- The word of a point of the previous plan advanced by a time in ns (R250 gives no interpolation). -/
opaque Config.advancedPoint : List (List Nat) → Nat → Nat → Nat → Nat

/-- A coordinate (x, y or yaw as FP32 bits) of point k of a controlled stop along the last trajectory (R252), by that
trajectory's words, the time since its start in ns and the deceleration in cm/s2. -/
opaque Config.stopPoint : List (List Nat) → Nat → Nat → Nat → Nat → Nat

/-- The joint values of the start configuration before any trajectory has been emitted (R249). -/
opaque Config.startJoints : Nat → Nat

/-- How Breeze's FP32 MAC rounds (R270, R272 do not say): 0 once, otherwise after the product and after the sum. -/
opaque Config.macRounding : Nat

/-- Which operand MIN or MAX returns for zeros of both signs (R270 does not say), by the operation's code. -/
opaque Config.equalZeros : Nat → Nat

/-- Whether a pivot of a Cholesky solve is not positive in Breeze's arithmetic (R270 names no order of operations), for a matrix of
which FP32's errors leave that open: 0 when every pivot is positive. -/
opaque Config.cholPivot : List Nat → Nat

/-- An element of the solution of a Cholesky solve as FP32 bits, by the matrix, the vector and the element's index. -/
opaque Config.cholSolution : List Nat → List Nat → Nat → Nat

end Sys2Proof
end

