-- ==== Sys2Proof/Machine/Regs.lean ====
section
/-!
DEFINITION. The register tables of the manual as one function (R5, R6, R12): where each register lies,
what it holds at reset and which of its bits software may write.
-/

namespace Sys2Proof.Machine

/-- A row of the register tables.  `x` gives a register with one instance. -/
def RegInfo.mk1 (base reset rw w1c trig : Nat) (scope : Scope) (lock : Option LockSection) (wbo : Bool) : RegInfo :=
  { base, si := 0, lo := 0, ni := 1, sj := 0, nj := 1, reset, rw, w1c, trig, scope, lock, wbo }

/-- The register tables of the manual, part 1. -/
def regTable1 : List RegInfo :=
  [ /- GLB_ID -/ .mk1 0 0x96001B0 0 0 0 .chip none false,
    /- GLB_LTILE_MAP -/ ⟨0x100, 4, 0, 16, 0, 1, 0, 0, 0, 0, .chip, none, false⟩,
    /- SPL_SVN -/ .mk1 0x10000 0 0 0 0 .chip none false,
    /- SPL_KEYS -/ .mk1 0x10004 0 0 0 0 .chip none false,
    /- SPL_SVN_COMMIT -/ .mk1 0x10008 0 0 0 1 .chip none false,
    /- SPL_BUSY -/ .mk1 0x1000C 0 0 0 0 .chip none false,
    /- SPL_CHIP_VERSION -/ .mk1 0x10010 0 0 0 0 .chip none false,
    /- SPL_LOADED -/ ⟨0x10020, 4, 0, 8, 0, 1, 0, 0, 0, 0, .chip, none, false⟩,
    /- SPL_CTRL -/ ⟨0x11000, 0x100, 0, 8, 0, 1, 0, 0x10107, 0, 0x80000000, .part, none, false⟩,
    /- SPL_SRC_LO -/ ⟨0x11004, 0x100, 0, 8, 0, 1, 0, 0xFFFFFFFF, 0, 0, .part, none, false⟩,
    /- SPL_SRC_HI -/ ⟨0x11008, 0x100, 0, 8, 0, 1, 0, 0xFFFF, 0, 0, .part, none, false⟩,
    /- SPL_LEN -/ ⟨0x1100C, 0x100, 0, 8, 0, 1, 0, 0xFFFFFFFF, 0, 0, .part, none, false⟩,
    /- SPL_STATUS -/ ⟨0x11010, 0x100, 0, 8, 0, 1, 0, 0, 0x300, 0, .part, none, false⟩,
    /- BRZ_CURVE_X0 -/ ⟨0xCC0000, 0x100, 0, 32, 0, 1, 0, 0xFFFFFFFF, 0, 0, .chip, (some .chip), false⟩,
    /- BRZ_CURVE_X1 -/ ⟨0xCC0004, 0x100, 0, 32, 0, 1, 0, 0xFFFFFFFF, 0, 0, .chip, (some .chip), false⟩,
    /- BRZ_CURVE_CTRL -/ ⟨0xCC0008, 0x100, 0, 32, 0, 1, 0, 3, 0, 4, .chip, (some .chip), false⟩,
    /- BRZ_CURVE_Y -/ ⟨0xCC0010, 0x100, 0, 32, 4, 33, 0, 0xFFFFFFFF, 0, 0, .chip, (some .chip), false⟩,
    /- TILE_INFO -/ ⟨0x100000, 0x10000, 0, 68, 0, 1, 0xF00000, 0, 0, 0, .tile, none, false⟩,
    /- TILE_STATUS -/ ⟨0x100004, 0x10000, 0, 68, 0, 1, 0, 0, 0, 0, .tile, none, false⟩,
    /- TILE_FLAGS -/ ⟨0x100008, 0x10000, 0, 68, 0, 1, 0, 0, 0x1F, 0, .tile, none, false⟩,
    /- TILE_ERR -/ ⟨0x10000C, 0x10000, 0, 68, 0, 1, 0, 0, 0x80000000, 0, .tile, none, false⟩,
    /- TILE_IRQ_EN -/ ⟨0x100010, 0x10000, 0, 68, 0, 1, 0, 7, 0, 0, .tile, none, false⟩,
    /- TILE_DONE_TAG -/ ⟨0x100014, 0x10000, 0, 68, 0, 1, 0, 0, 0, 0, .tile, none, false⟩,
    /- TILE_CMD_COUNT -/ ⟨0x100018, 0x10000, 0, 68, 0, 1, 0, 0, 0, 0, .tile, none, false⟩,
    /- TILE_SPAN -/ ⟨0x10001C, 0x10000, 0, 68, 0, 1, 0, 0, 0, 0, .tile, none, false⟩,
    /- TILE_CYCLES_LO -/ ⟨0x100020, 0x10000, 0, 68, 0, 1, 0, 0, 0, 0, .tile, none, false⟩,
    /- TILE_CYCLES_HI -/ ⟨0x100024, 0x10000, 0, 68, 0, 1, 0, 0, 0, 0, .tile, none, false⟩,
    /- TILE_BUSY_LO -/ ⟨0x100028, 0x10000, 0, 68, 0, 1, 0, 0, 0, 0, .tile, none, false⟩,
    /- TILE_BUSY_HI -/ ⟨0x10002C, 0x10000, 0, 68, 0, 1, 0, 0, 0, 0, .tile, none, false⟩,
    /- TILE_FREQ -/ ⟨0x100030, 0x10000, 0, 68, 0, 1, 0, 0, 0, 0, .tile, none, false⟩,
    /- BANK_CFG -/ .mk1 0x600000 3 3 0 0 .chip (some .chip) false,
    /- BANK_TEST_PERIOD -/ .mk1 0x600004 0x3E8 0xFFFF 0 0 .chip none false,
    /- BANK_LULL_IDLE -/ .mk1 0x600008 0x64 0xFFFF 0 0 .chip none false,
    /- BANK_CQ_CTRL -/ ⟨0x601000, 0x10, 0, 16, 0, 1, 0, 0x1F000002, 0, 0xE0000004, .cquad, none, false⟩,
    /- BANK_CQ_STATUS -/ ⟨0x601004, 0x10, 0, 16, 0, 1, 0xF0000000, 0, 3, 0, .cquad, none, false⟩,
    /- BANK_TQ_CTRL -/ ⟨0x602000, 0x10, 0, 68, 0, 1, 0, 0xF, 0, 0xF0, .tquad, none, false⟩,
    /- BANK_TQ_STATUS -/ ⟨0x602004, 0x10, 0, 68, 0, 1, 0, 0, 0, 0, .tquad, none, false⟩,
    /- MEM_CFG -/ .mk1 0x700000 3 3 0 0 .chip (some .chip) false,
    /- MEM_AGE_TICK -/ .mk1 0x700004 0x3E8 0xFFFF 0 0 .chip none false,
    /- MEM_POOL_FREE -/ .mk1 0x700008 0 0 0 0 .chip none false ]

/-- The register tables of the manual, part 2. -/
def regTable2 : List RegInfo :=
  [ /- MEM_POOL_SURPLUS -/ .mk1 0x70000C 0 0 0 0 .chip none false,
    /- MEM_WARM_STATUS -/ .mk1 0x700010 0 0 0 0 .chip none false,
    /- MEM_DEEP_STATUS -/ .mk1 0x700020 0 0 0 0 .chip none false,
    /- MEM_DEEP_WLIMIT -/ .mk1 0x700024 0x400 0xFFFF 0 0 .chip none false,
    /- MEM_DEEP_WUSED -/ .mk1 0x700028 0 0 0 0 .chip none false,
    /- MEM_DEEP_WEAR -/ .mk1 0x70002C 0 0 0 0 .chip none false,
    /- MEM_DEEP_SCRUB -/ .mk1 0x700030 0xA82710 0xFFFFFFFF 0 0 .chip none false,
    /- MEM_HOLDUP_CFG -/ .mk1 0x700040 0 0xFFFFFFFF 0 0 .chip none false,
    /- MEM_HOLDUP_CAP -/ .mk1 0x700044 0 0xFFFF 0 0 .chip none false,
    /- MEM_HOLDUP_ENERGY -/ .mk1 0x700048 0 0xFFFFFFFF 0 0 .chip none false,
    /- MEM_HOLDUP_STATUS -/ .mk1 0x70004C 0 0 0 0 .chip none false,
    /- MEM_P_HELD -/ ⟨0x701000, 0x100, 0, 8, 0, 1, 0, 0, 0, 0, .part, none, false⟩,
    /- MEM_P_PINNED -/ ⟨0x701004, 0x100, 0, 8, 0, 1, 0, 0, 0, 0, .part, none, false⟩,
    /- MEM_P_EVICTS -/ ⟨0x701008, 0x100, 0, 8, 0, 1, 0, 0, 0, 0, .part, none, false⟩,
    /- MEM_P_ALLOC -/ ⟨0x70100C, 0x100, 0, 8, 0, 1, 0, 0, 0, 0x80000000, .part, none, false⟩,
    /- MEM_P_FREE -/ ⟨0x701010, 0x100, 0, 8, 0, 1, 0, 0, 0, 0x8000FFFF, .part, none, false⟩,
    /- MEM_P_DQ_BASE_LO -/ ⟨0x701020, 0x100, 0, 8, 0, 1, 0, 0xFFFFFFFF, 0, 0, .part, none, false⟩,
    /- MEM_P_DQ_BASE_HI -/ ⟨0x701024, 0x100, 0, 8, 0, 1, 0, 0xFFFF, 0, 0, .part, none, false⟩,
    /- MEM_P_DQ_CTRL -/ ⟨0x701028, 0x100, 0, 8, 0, 1, 0, 0xC0001FFF, 0, 0, .part, none, false⟩,
    /- MEM_P_DQ_HEAD -/ ⟨0x70102C, 0x100, 0, 8, 0, 1, 0, 0, 0, 0, .part, none, false⟩,
    /- MEM_P_DQ_TAIL -/ ⟨0x701030, 0x100, 0, 8, 0, 1, 0, 0xFFF, 0, 0, .part, none, false⟩,
    /- MEM_P_DQ_STATUS -/ ⟨0x701034, 0x100, 0, 8, 0, 1, 0, 0, 3, 0, .part, none, false⟩,
    /- MEM_P_FAR -/ ⟨0x701040, 0x100, 0, 8, 0, 1, 0, 0, 0, 1, .part, none, false⟩,
    /- UPD_CFG -/ .mk1 0x780000 0x200 0x3FF 0 0 .chip none false,
    /- UPD_STALL_LIMIT -/ .mk1 0x780004 0x4E20 0xFFFFFF 0 0 .chip none false,
    /- UPD_INFLIGHT -/ .mk1 0x780008 0 0 0 0 .chip none false,
    /- UPD_PLAN_BASE_LO -/ ⟨0x781000, 0x40, 0, 64, 0, 1, 0, 0xFFFFFFFF, 0, 0, .plan, none, false⟩,
    /- UPD_PLAN_BASE_HI -/ ⟨0x781004, 0x40, 0, 64, 0, 1, 0, 0xFFFF, 0, 0, .plan, none, false⟩,
    /- UPD_PLAN_CTRL -/ ⟨0x781008, 0x40, 0, 64, 0, 1, 0, 0, 0, 0xC0000000, .plan, none, false⟩,
    /- UPD_PLAN_STATUS -/ ⟨0x78100C, 0x40, 0, 64, 0, 1, 0, 0, 0x300, 0, .plan, none, false⟩,
    /- UPD_PLAN_JOB -/ ⟨0x781010, 0x40, 0, 64, 0, 1, 0, 0, 0, 0, .plan, none, false⟩,
    /- UPD_PLAN_STALLS -/ ⟨0x781014, 0x40, 0, 64, 0, 1, 0, 0, 0, 0, .plan, none, false⟩,
    /- UPD_PLAN_STALL_US -/ ⟨0x781018, 0x40, 0, 64, 0, 1, 0, 0, 0, 0, .plan, none, false⟩,
    /- UPD_PLAN_STALL_MAX -/ ⟨0x78101C, 0x40, 0, 64, 0, 1, 0, 0, 0, 0, .plan, none, false⟩,
    /- UPD_PLAN_HITS -/ ⟨0x781020, 0x40, 0, 64, 0, 1, 0, 0, 0, 0, .plan, none, false⟩,
    /- UPD_PLAN_MISSES -/ ⟨0x781024, 0x40, 0, 64, 0, 1, 0, 0, 0, 0, .plan, none, false⟩,
    /- UPD_PLAN_PINNED -/ ⟨0x781028, 0x40, 0, 64, 0, 1, 0, 0, 0, 0, .plan, none, false⟩,
    /- UPD_PLAN_CACHED -/ ⟨0x78102C, 0x40, 0, 64, 0, 1, 0, 0, 0, 0, .plan, none, false⟩,
    /- SEQ_PAGE_WAIT_MAX -/ .mk1 0x800000 0x10 0xFF 0 0 .chip none false,
    /- SEQ_FREE_ENTRIES -/ .mk1 0x800004 0x1000 0 0 0 .chip none false ]

/-- The register tables of the manual, part 3. -/
def regTable3 : List RegInfo :=
  [ /- SEQ_P_GEOM -/ ⟨0x801000, 0x100, 0, 8, 0, 1, 0, 0xFFFFFC00, 0, 0, .part, none, false⟩,
    /- SEQ_P_EVICT -/ ⟨0x801004, 0x100, 0, 8, 0, 1, 0, 0xC3FFFFFF, 0, 0, .part, none, false⟩,
    /- SEQ_P_DECAY -/ ⟨0x801008, 0x100, 0, 8, 0, 1, 0xFF00, 0xFFFF, 0, 0, .part, none, false⟩,
    /- SEQ_P_CMD -/ ⟨0x80100C, 0x100, 0, 8, 0, 1, 0, 0xFF, 0, 0x80000000, .part, none, false⟩,
    /- SEQ_P_ARG -/ ⟨0x801010, 0x100, 0, 8, 4, 4, 0, 0xFFFFFFFF, 0, 0, .part, none, false⟩,
    /- SEQ_P_RESULT -/ ⟨0x801020, 0x100, 0, 8, 0, 1, 0, 0, 0xC0000000, 0, .part, none, false⟩,
    /- SEQ_P_STEP_CTRL -/ ⟨0x801024, 0x100, 0, 8, 0, 1, 0, 0x1FFF, 0, 0xE0000000, .part, none, false⟩,
    /- SEQ_P_REQ_LO -/ ⟨0x801028, 0x100, 0, 8, 0, 1, 0, 0xFFFFFFFF, 0, 0, .part, none, false⟩,
    /- SEQ_P_REQ_HI -/ ⟨0x80102C, 0x100, 0, 8, 0, 1, 0, 0xFFFF, 0, 0, .part, none, false⟩,
    /- SEQ_P_WL_LO -/ ⟨0x801030, 0x100, 0, 8, 0, 1, 0, 0xFFFFFFFF, 0, 0, .part, none, false⟩,
    /- SEQ_P_WL_HI -/ ⟨0x801034, 0x100, 0, 8, 0, 1, 0, 0xFFFF, 0, 0, .part, none, false⟩,
    /- SEQ_P_STEP_STATUS -/ ⟨0x801038, 0x100, 0, 8, 0, 1, 0, 0, 0x38000000, 0, .part, none, false⟩,
    /- SEQ_P_EPOCH -/ ⟨0x80103C, 0x100, 0, 8, 0, 1, 0, 0, 0, 0, .part, none, false⟩,
    /- SEQ_P_FEED_CFG -/ ⟨0x801040, 0x100, 0, 8, 0, 1, 0, 0xF03FFFFF, 0, 0, .part, none, false⟩,
    /- SEQ_P_FEED_CTR -/ ⟨0x801044, 0x100, 0, 8, 0, 1, 0, 0x3FFFFF, 0, 0, .part, none, false⟩,
    /- SEQ_P_FEED_TILES_LO -/ ⟨0x801048, 0x100, 0, 8, 0, 1, 0, 0xFFFFFFFF, 0, 0, .part, none, false⟩,
    /- SEQ_P_FEED_TILES_HI -/ ⟨0x80104C, 0x100, 0, 8, 0, 1, 0, 0xFFFFFFFF, 0, 0, .part, none, false⟩,
    /- SEQ_P_OPEN -/ ⟨0x801050, 0x100, 0, 8, 0, 1, 0, 0, 0, 0, .part, none, false⟩,
    /- SEQ_P_PAGES -/ ⟨0x801054, 0x100, 0, 8, 0, 1, 0, 0, 0, 0, .part, none, false⟩,
    /- SEQ_P_WAITS -/ ⟨0x801058, 0x100, 0, 8, 0, 1, 0, 0, 0, 0, .part, none, false⟩,
    /- SEQ_P_IRQ_EN -/ ⟨0x80105C, 0x100, 0, 8, 0, 1, 0, 7, 0, 0, .part, none, false⟩,
    /- SEQ_ENT -/ ⟨0x900000, 0x40, 0, 4096, 4, 16, 0, 0, 0, 0, .seqEnt, none, false⟩,
    /- SCH_CFG -/ .mk1 0xA00000 0x514 0xFFFF 0 0 .chip none false,
    /- SCH_FREE_CTX -/ .mk1 0xA00004 0x400 0 0 0 .chip none false,
    /- SCH_OVERRUNS -/ .mk1 0xA00008 0 0 0 0 .chip none false,
    /- SCH_P_CMD -/ ⟨0xA01000, 0x100, 0, 8, 0, 1, 0, 0xFF, 0, 0x80000000, .part, none, false⟩,
    /- SCH_P_ARG -/ ⟨0xA01004, 0x100, 0, 8, 0, 1, 0, 0x3FF, 0, 0, .part, none, false⟩,
    /- SCH_P_RESULT -/ ⟨0xA01008, 0x100, 0, 8, 0, 1, 0, 0, 0xC0000000, 0, .part, none, false⟩,
    /- SCH_P_DOORBELL -/ ⟨0xA0100C, 0x100, 0, 8, 0, 1, 0, 0, 0, 0x3FF, .part, none, false⟩,
    /- SCH_P_EVENT -/ ⟨0xA01010, 0x100, 0, 8, 0, 1, 0, 0, 7, 0, .part, none, false⟩,
    /- SCH_P_IRQ_EN -/ ⟨0xA01014, 0x100, 0, 8, 0, 1, 0, 0xF, 0, 0, .part, none, false⟩,
    /- SCH_CTX -/ ⟨0xA40000, 0x40, 0, 1024, 4, 16, 0, 0, 0, 0, .ctx, none, false⟩,
    /- HDW_CFG -/ .mk1 0xA80000 0xA140200 0xFFFFFF00 0 0 .chip none false,
    /- HDW_PATH -/ ⟨0xA80010, 4, 0, 3, 0, 1, 0x2EE00000, 0, 0, 0, .chip, none, false⟩,
    /- HDW_P_BUD -/ ⟨0xA81000, 0x100, 0, 8, 8, 20, 0, 0x8000FFFF, 0, 0, .chip, none, false⟩,
    /- HDW_P_LAT -/ ⟨0xA81004, 0x100, 0, 8, 8, 20, 0, 0xFFFFFFFF, 0, 0, .chip, none, false⟩,
    /- HDW_P_EVENT -/ ⟨0xA810C0, 0x100, 0, 8, 0, 1, 0, 0, 3, 0, .part, none, false⟩,
    /- HDW_P_IRQ_EN -/ ⟨0xA810C4, 0x100, 0, 8, 0, 1, 0, 3, 0, 0, .part, none, false⟩,
    /- HDW_P_MISSES -/ ⟨0xA810C8, 0x100, 0, 8, 0, 1, 0, 0, 0, 0, .part, none, false⟩,
    /- HDW_P_OVER -/ ⟨0xA810CC, 0x100, 0, 8, 0, 1, 0, 0, 0, 0, .part, none, false⟩ ]

/-- The register tables of the manual, part 4. -/
def regTable4 : List RegInfo :=
  [ /- SNS_ACTIVE -/ .mk1 0xB00000 0 0 0 0 .chip none false,
    /- SNS_PORT_ERRORS -/ .mk1 0xB00004 0 0 0 0 .chip none false,
    /- SNS_S_CTRL -/ ⟨0xB01000, 0x40, 0, 32, 0, 1, 0, 0x80000000, 0, 0x40000000, .stream, none, false⟩,
    /- SNS_S_STATUS -/ ⟨0xB01004, 0x40, 0, 32, 0, 1, 0, 0, 0, 0, .stream, none, false⟩,
    /- SNS_S_TUNE0 -/ ⟨0xB01008, 0x40, 0, 32, 0, 1, 0, 0xFFFFFFFF, 0, 0, .stream, none, false⟩,
    /- SNS_S_TUNE1 -/ ⟨0xB0100C, 0x40, 0, 32, 0, 1, 0, 0xFFFF, 0, 0, .stream, none, false⟩,
    /- SNS_S_ADJ -/ ⟨0xB01010, 0x40, 0, 32, 0, 1, 0, 0xFFFFFFFF, 0, 0, .stream, none, false⟩,
    /- SNS_S_SEQ -/ ⟨0xB01014, 0x40, 0, 32, 0, 1, 0, 0, 0, 0, .stream, none, false⟩,
    /- SNS_S_UNC -/ ⟨0xB01018, 0x40, 0, 32, 0, 1, 0, 0, 0, 0, .stream, none, false⟩,
    /- SNS_S_LATEMAP -/ ⟨0xB0101C, 0x40, 0, 32, 0, 1, 0, 0, 0, 0, .stream, none, false⟩,
    /- SNS_S_DROPPED -/ ⟨0xB01020, 0x40, 0, 32, 0, 1, 0, 0, 0, 0, .stream, none, false⟩,
    /- SNS_S_ERRORS -/ ⟨0xB01024, 0x40, 0, 32, 0, 1, 0, 0, 0, 0, .stream, none, false⟩,
    /- SNS_S_EVENT -/ ⟨0xB01028, 0x40, 0, 32, 0, 1, 0, 0x30000, 3, 0, .stream, none, false⟩,
    /- XW_CFG -/ .mk1 0xB80000 0xF0300000 0xF1F00000 0 0 .chip none false,
    /- XW_GRID -/ .mk1 0xB80004 0xF008235 0xFF00FFFF 0 0 .chip none false,
    /- XW_PROX -/ .mk1 0xB80008 0x1388 0xFFFF 0 0 .chip none false,
    /- XW_PROX_Z -/ .mk1 0xB8000C 0x7D00032 0xFFFFFFFF 0 0 .chip none false,
    /- XW_LEVEL -/ .mk1 0xB80010 0x4008FFFF 0 0 0 .chip none false,
    /- XW_LEVEL_HOLD -/ .mk1 0xB80014 0x3E8 0xFFFF 0 0 .chip none false,
    /- XW_AUCTION -/ .mk1 0xB80018 0x40003E8 0xFFFFFFFF 0 0 .chip none false,
    /- XW_TRACK -/ .mk1 0xB8001C 0x400000A 0xFFFF00FF 0 0 .chip none false,
    /- XW_IN_BASE_LO -/ .mk1 0xB80020 0 0xFFFFFFFF 0 0 .xwOwner none false,
    /- XW_IN_BASE_HI -/ .mk1 0xB80024 0 0xFFFF 0 0 .xwOwner none false,
    /- XW_IN_CTRL -/ .mk1 0xB80028 0 0x80000FFF 0 0 .xwOwner none false,
    /- XW_IN_TAIL -/ .mk1 0xB8002C 0 0xFFF 0 0 .xwOwner none false,
    /- XW_IN_HEAD -/ .mk1 0xB80030 0 0 0 0 .xwOwner none false,
    /- XW_OUT_BASE_LO -/ .mk1 0xB80040 0 0xFFFFFFFF 0 0 .xwOwner none false,
    /- XW_OUT_BASE_HI -/ .mk1 0xB80044 0 0xFFFF 0 0 .xwOwner none false,
    /- XW_OUT_CTRL -/ .mk1 0xB80048 0 0x8000000F 0 0 .xwOwner none false,
    /- XW_INSTANT -/ .mk1 0xB8004C 0 0 0 0 .xwOwner none false,
    /- XW_POSE_BASE_LO -/ .mk1 0xB80050 0 0xFFFFFFFF 0 0 .xwOwner none false,
    /- XW_POSE_BASE_HI -/ .mk1 0xB80054 0 0xFFFF 0 0 .xwOwner none false,
    /- XW_POSE_CTRL -/ .mk1 0xB80058 0 0xFF 0 0 .xwOwner none false,
    /- XW_EVENT -/ .mk1 0xB80060 0 0 0x3F 0 .chip none false,
    /- XW_IRQ_EN -/ .mk1 0xB80064 0 0x3F 0 0 .chip none false,
    /- XW_PROX_SEC -/ ⟨0xB80100, 4, 0, 8, 0, 1, 0xFFFFFFFF, 0, 0, 0, .chip, none, false⟩,
    /- XW_MOUNT -/ ⟨0xB81000, 0x10, 0, 32, 4, 3, 0, 0xFFFFFFFF, 0, 0, .stream, none, false⟩,
    /- XW_TRK -/ ⟨0xBC0000, 0x40, 0, 512, 4, 16, 0, 0, 0, 0, .chip, none, false⟩,
    /- VEER_CFG -/ .mk1 0xC00000 0xF000FD00 0xF000FF01 0 0 .chip none false,
    /- VEER_RATES -/ .mk1 0xC00004 0x1F4140A 0xFFFFFFFF 0 0 .veerOwner none false ]

/-- The register tables of the manual, part 5. -/
def regTable5 : List RegInfo :=
  [ /- VEER_LIMITS -/ .mk1 0xC00008 0x1903A98 0xFFFFFFFF 0 0 .veerOwner none false,
    /- VEER_COST -/ .mk1 0xC0000C 0x23322801 0xFFFFFFFF 0 0 .veerOwner none false,
    /- VEER_SPEED -/ .mk1 0xC00010 0x78783C1E 0xFFFFFFFF 0 0 .veerOwner none false,
    /- VEER_DECEL -/ .mk1 0xC00014 0x5000C8 0xFFFFFFFF 0 0 .veerOwner none false,
    /- VEER_EPOCH -/ .mk1 0xC00018 0 0 0 0 .veerOwner none false,
    /- VEER_ORIGIN -/ .mk1 0xC0001C 0 0 0 0 .veerOwner none false,
    /- VEER_WORLD_BASE_LO -/ .mk1 0xC00020 0 0xFFFFFFFF 0 0 .veerOwner none false,
    /- VEER_WORLD_BASE_HI -/ .mk1 0xC00024 0 0xFFFF 0 0 .veerOwner none false,
    /- VEER_WORLD_SIZE -/ .mk1 0xC00028 0 0xFFFFFFFF 0 0 .veerOwner none false,
    /- VEER_Q_BASE_LO -/ .mk1 0xC00030 0 0xFFFFFFFF 0 0 .veerOwner none false,
    /- VEER_Q_BASE_HI -/ .mk1 0xC00034 0 0xFFFF 0 0 .veerOwner none false,
    /- VEER_Q_CTRL -/ .mk1 0xC00038 0 0x800000FF 0 0 .veerOwner none false,
    /- VEER_Q_TAIL -/ .mk1 0xC0003C 0 0xFF 0 0 .veerOwner none false,
    /- VEER_Q_HEAD -/ .mk1 0xC00040 0 0 0 0 .veerOwner none false,
    /- VEER_OUT_BASE_LO -/ .mk1 0xC00048 0 0xFFFFFFFF 0 0 .veerOwner none false,
    /- VEER_OUT_BASE_HI -/ .mk1 0xC0004C 0 0xFFFF 0 0 .veerOwner none false,
    /- VEER_OUT_CTRL -/ .mk1 0xC00050 0 0x8000000F 0 0 .veerOwner none false,
    /- VEER_STATUS -/ .mk1 0xC00054 0xB0B0B00 0 0 0 .veerOwner none false,
    /- VEER_EVENT -/ .mk1 0xC00058 0 0 0x3F 0 .veerOwner none false,
    /- VEER_IRQ_EN -/ .mk1 0xC0005C 0 0x3F 0 0 .veerOwner none false,
    /- VEER_CHECKS -/ .mk1 0xC00060 0 0 0 0 .veerOwner none false,
    /- BRZ_CFG -/ .mk1 0xC80000 0xF0000000 0xF0000001 0 0 .chip none false,
    /- BRZ_PHASE -/ .mk1 0xC80004 0x4000F000 0xFFFFFFFF 0 0 .brzOwner none false,
    /- BRZ_SP_BASE_LO -/ .mk1 0xC80008 0 0xFFFFFFFF 0 0 .brzOwner none false,
    /- BRZ_SP_BASE_HI -/ .mk1 0xC8000C 0 0xFFFF 0 0 .brzOwner none false,
    /- BRZ_SP_CTRL -/ .mk1 0xC80010 8 0x800000FF 0 0 .brzOwner none false,
    /- BRZ_SP_SEQ -/ .mk1 0xC80014 0 0 0 0 .brzOwner none false,
    /- BRZ_EVENT -/ .mk1 0xC80018 0 0 0xF 0 .brzOwner none false,
    /- BRZ_IRQ_EN -/ .mk1 0xC8001C 0 0xF 0 0 .brzOwner none false,
    /- BRZ_MISSES -/ .mk1 0xC80020 0 0 0 0 .brzOwner none false,
    /- BRZ_MAT_CTRL -/ .mk1 0xC80024 0 0 0 0xFF .brzOwner none false,
    /- BRZ_L_CTRL -/ ⟨0xC81000, 0x20, 0, 128, 0, 1, 0, 0xFFFC0000, 0, 0, .brzOwner, none, false⟩,
    /- BRZ_L_PROG -/ ⟨0xC81004, 0x20, 0, 128, 0, 1, 0, 0x3FFF00FF, 0, 0, .brzOwner, none, false⟩,
    /- BRZ_L_FLAGS -/ ⟨0xC81008, 0x20, 0, 128, 0, 1, 0, 0, 0x1FF, 0, .brzOwner, none, false⟩,
    /- BRZ_L_FLUTTER -/ ⟨0xC8100C, 0x20, 0, 128, 0, 1, 0x18000000, 0xFF800000, 0, 0, .brzOwner, none, false⟩,
    /- BRZ_L_FLAMP -/ ⟨0xC81010, 0x20, 0, 128, 0, 1, 0x7F800000, 0xFFFFFFFF, 0, 0, .brzOwner, none, false⟩,
    /- BRZ_L_MISSES -/ ⟨0xC81014, 0x20, 0, 128, 0, 1, 0, 0, 0, 0, .brzOwner, none, false⟩,
    /- BRZ_L_FIRES -/ ⟨0xC81018, 0x20, 0, 128, 0, 1, 0, 0, 0, 0, .brzOwner, none, false⟩,
    /- BRZ_L_LAST -/ ⟨0xC8101C, 0x20, 0, 128, 0, 1, 0, 0, 0, 0, .brzOwner, none, false⟩,
    /- BRZ_PROG_LO -/ ⟨0xCA0000, 8, 0, 16384, 0, 1, 0, 0xFFFFFFFF, 0, 0, .brzOwner, none, false⟩ ]

/-- The register tables of the manual, part 6. -/
def regTable6 : List RegInfo :=
  [ /- BRZ_PROG_HI -/ ⟨0xCA0004, 8, 0, 16384, 0, 1, 0, 0xFFFFFFFF, 0, 0, .brzOwner, none, false⟩,
    /- BRZ_VEC -/ ⟨0xCC4000, 0x100, 0, 8, 4, 64, 0, 0xFFFFFFFF, 0, 0, .brzOwner, none, false⟩,
    /- BRZ_L_S -/ ⟨0xCC8000, 0x40, 0, 128, 4, 16, 0, 0, 0, 0, .brzOwner, none, false⟩,
    /- BRZ_L_K -/ ⟨0xCD0000, 0x80, 0, 128, 4, 32, 0, 0xFFFFFFFF, 0, 0, .brzOwner, none, false⟩,
    /- BRZ_MAT -/ ⟨0xCE0000, 0x4000, 0, 8, 4, 4096, 0, 0xFFFFFFFF, 0, 0, .brzOwner, none, false⟩,
    /- WL_CTRL -/ .mk1 0xD00000 0 0x80000003 0 0 .chip none false,
    /- WL_STATUS -/ .mk1 0xD00004 0 0 0 0 .chip none false,
    /- WL_CYCLE_LO -/ .mk1 0xD00008 0 0 0 0 .chip none false,
    /- WL_CYCLE_HI -/ .mk1 0xD0000C 0 0 0 0 .chip none false,
    /- WL_PHASE -/ .mk1 0xD00010 0 0 0 0 .chip none false,
    /- WL_TIMING -/ .mk1 0xD00014 0x80006000 0xFFFFFFFF 0 0 .chip none false,
    /- WL_RTT -/ .mk1 0xD00018 0 0 0 0 .chip none false,
    /- WL_DA_LO -/ .mk1 0xD0001C 0x574C0000 0xFFFFFFFF 0 0 .chip none false,
    /- WL_DA_HI -/ .mk1 0xD00020 0x300 0xFFFF 0 0 .chip none false,
    /- WL_STO_LO -/ .mk1 0xD00024 0xFFFFFFFF 0xFFFFFFFF 0 0 .chip none true,
    /- WL_STO_HI -/ .mk1 0xD00028 0xFFFFFFFF 0xFFFFFFFF 0 0 .chip none true,
    /- WL_EVENT -/ .mk1 0xD0002C 0 0 0x1F 0 .chip none false,
    /- WL_IRQ_EN -/ .mk1 0xD00030 0 0x1F 0 0 .chip none false,
    /- WL_LOST_LO -/ .mk1 0xD00034 0 0 0 0 .chip none false,
    /- WL_LOST_HI -/ .mk1 0xD00038 0 0 0 0 .chip none false,
    /- WL_SA_LO -/ .mk1 0xD00040 0 0xFFFFFFFF 0 0 .chip none false,
    /- WL_SA_HI -/ .mk1 0xD00044 0 0xFFFF 0 0 .chip none false,
    /- WL_N_STATUS -/ ⟨0xD01000, 0x10, 0, 64, 0, 1, 0, 0, 0, 0, .chip, none, false⟩,
    /- WL_N_ERRORS -/ ⟨0xD01004, 0x10, 0, 64, 0, 1, 0, 0, 0, 0, .chip, none, false⟩,
    /- WL_N_TSAMPLE -/ ⟨0xD01008, 0x10, 0, 64, 0, 1, 0, 0, 0, 0, .chip, none, false⟩,
    /- TIME_RAW_LO -/ .mk1 0xD80000 0 0 0 0 .chip none false,
    /- TIME_RAW_HI -/ .mk1 0xD80004 0 0 0 0 .chip none false,
    /- TIME_ROBOT_LO -/ .mk1 0xD80008 0 0 0 0 .chip none false,
    /- TIME_ROBOT_HI -/ .mk1 0xD8000C 0 0 0 0 .chip none false,
    /- TIME_ROB_RATE -/ .mk1 0xD80010 0 0xFFFFFFFF 0 0 .chip none false,
    /- TIME_ROB_ADJ -/ .mk1 0xD80014 0 0xFFFFFFFF 0 0 .chip none false,
    /- TIME_ROB_STATUS -/ .mk1 0xD80018 0 0 0 0 .chip none false,
    /- TIME_SNAP -/ .mk1 0xD8001C 0 0 0 1 .chip none false,
    /- TIME_EVENT -/ .mk1 0xD80020 0 0 0x1F 0 .chip none false,
    /- TIME_IRQ_EN -/ .mk1 0xD80024 0 0x1F 0 0 .chip none false,
    /- TIME_WL_ORIGIN_LO -/ .mk1 0xD80028 0 0 0 0 .chip none false,
    /- TIME_WL_ORIGIN_HI -/ .mk1 0xD8002C 0 0 0 0 .chip none false,
    /- TIME_OLD_CONV -/ .mk1 0xD80030 0 0 0 0 .chip none false,
    /- TIME_SNAPJ_LO -/ ⟨0xD80040, 8, 0, 6, 0, 1, 0, 0, 0, 0, .chip, none, false⟩,
    /- TIME_SNAPJ_HI -/ ⟨0xD80044, 8, 0, 6, 0, 1, 0, 0, 0, 0, .chip, none, false⟩ ]

/-- The register tables of the manual, part 7. -/
def regTable7 : List RegInfo :=
  [ /- TIME_B_LO -/ ⟨0xD81000, 0x40, 1, 4, 0, 1, 0, 0, 0, 0, .chip, none, false⟩,
    /- TIME_B_HI -/ ⟨0xD81004, 0x40, 1, 4, 0, 1, 0, 0, 0, 0, .chip, none, false⟩,
    /- TIME_B_RATE -/ ⟨0xD81008, 0x40, 1, 4, 0, 1, 0, 0, 0, 0, .chip, none, false⟩,
    /- TIME_B_STATUS -/ ⟨0xD8100C, 0x40, 1, 4, 0, 1, 0xF000000, 0, 0, 0, .chip, none, false⟩,
    /- TIME_B_UNC -/ ⟨0xD81010, 0x40, 1, 4, 0, 1, 0xFFFFFFFF, 0, 0, 0, .chip, none, false⟩,
    /- TIME_B_INTERVAL -/ ⟨0xD81014, 0x40, 1, 4, 0, 1, 0xFD000003, 0xFFFFFFFF, 0, 0, .chip, none, false⟩,
    /- TIME_B_PRIO -/ ⟨0xD81018, 0x40, 1, 4, 0, 1, 0x8080, 0xFFFF, 0, 0, .chip, none, false⟩,
    /- TIME_B_HOLD -/ ⟨0xD8101C, 0x40, 1, 4, 0, 1, 0x1F4, 0xFFFF, 0, 0, .chip, (some .time), false⟩,
    /- TIME_B_ASYM -/ ⟨0xD81020, 0x40, 1, 4, 0, 1, 0, 0xFFFFFFFF, 0, 0, .chip, (some .time), false⟩,
    /- TIME_B_ERRORS -/ ⟨0xD81024, 0x40, 1, 4, 0, 1, 0, 0, 0, 0, .chip, none, false⟩,
    /- TIME_P_ADJ -/ ⟨0xD82000, 4, 0, 8, 0, 1, 0, 0xFFFFFFFF, 0, 0, .chip, (some .time), false⟩,
    /- NET_CFG -/ .mk1 0xE00000 0x2400 0x3FFF 0 0 .chip none false,
    /- NET_CB -/ ⟨0xE00100, 4, 0, 64, 0, 1, 0, 0xFFFF0FFF, 0, 0, .chip, none, false⟩,
    /- NET_P_CTRL -/ ⟨0xE01000, 0x800, 0, 12, 0, 1, 0, 0x80000007, 0, 0, .port, none, false⟩,
    /- NET_P_STATUS -/ ⟨0xE01004, 0x800, 0, 12, 0, 1, 0, 0, 0, 0, .port, none, false⟩,
    /- NET_P_CBS -/ ⟨0xE01008, 0x800, 0, 12, 4, 2, 0, 0xFFFFFFFF, 0, 0, .port, none, false⟩,
    /- NET_P_GATE_CTRL -/ ⟨0xE01010, 0x800, 0, 12, 0, 1, 0, 0x1FF, 0, 0x80000000, .port, none, false⟩,
    /- NET_P_BASE_LO -/ ⟨0xE01014, 0x800, 0, 12, 0, 1, 0, 0xFFFFFFFF, 0, 0, .port, none, false⟩,
    /- NET_P_BASE_HI -/ ⟨0xE01018, 0x800, 0, 12, 0, 1, 0, 0xFFFFFFFF, 0, 0, .port, none, false⟩,
    /- NET_P_CYCLE -/ ⟨0xE0101C, 0x800, 0, 12, 0, 1, 0, 0x3FFFFFFF, 0, 0, .port, none, false⟩,
    /- NET_P_ERRORS -/ ⟨0xE01020, 0x800, 0, 12, 0, 1, 0, 0, 0, 0, .port, none, false⟩,
    /- NET_P_EVENT -/ ⟨0xE01024, 0x800, 0, 12, 0, 1, 0, 0x70000, 7, 0, .port, none, false⟩,
    /- NET_P_GCL -/ ⟨0xE01400, 0x800, 0, 12, 4, 256, 0, 0xFFFFFFFF, 0, 0, .port, none, false⟩,
    /- HP_LINK_CTRL -/ .mk1 0xE80000 6 0x80000007 0 0 .chip none false,
    /- HP_LINK_STATUS -/ .mk1 0xE80004 0 0 0 0 .chip none false,
    /- HP_CXL_SIZE -/ .mk1 0xE80008 0 0 0 0 .chip none false,
    /- HP_ERRORS -/ .mk1 0xE8000C 0 0 0 0 .chip none false,
    /- HP_EVENT -/ .mk1 0xE80010 0 0x30000 3 0 .chip none false,
    /- HP_P_WIN_LO -/ ⟨0xE81000, 0x10, 0, 8, 0, 1, 0, 0xFFFFFFFF, 0, 0, .part, none, false⟩,
    /- HP_P_WIN_HI -/ ⟨0xE81004, 0x10, 0, 8, 0, 1, 0, 0xFFFF, 0, 0, .part, none, false⟩,
    /- HP_P_WIN_CTRL -/ ⟨0xE81008, 0x10, 0, 8, 0, 1, 0, 0xC0001FFF, 0, 0, .part, none, false⟩,
    /- HP_P_MSI -/ ⟨0xE8100C, 0x10, 0, 8, 0, 1, 0, 0, 0, 0xFF, .part, none, false⟩,
    /- HP_P_DB -/ ⟨0xE81100, 0x10, 0, 8, 0, 1, 0, 0, 0xFFFFFFFF, 0, .part, none, false⟩,
    /- PWR_CAP -/ .mk1 0xF00000 0x78 0xFF 0 0 .chip none false,
    /- PWR_CEILING -/ .mk1 0xF00004 0x4B0 0x7FF 0 0 .chip none false,
    /- PWR_CTRL -/ .mk1 0xF00008 0xC8 0x8000FFFF 0 0 .chip none false,
    /- PWR_STATUS -/ .mk1 0xF0000C 0 0 0 0 .chip none false,
    /- PWR_EST -/ .mk1 0xF00010 0 0 0 0 .chip none false,
    /- PWR_MEAS -/ .mk1 0xF00014 0 0 0 0 .chip none false,
    /- PWR_SQUALL_HOLD -/ .mk1 0xF00018 0x3E8 0xFFFF 0 0 .chip none false ]

/-- The register tables of the manual, part 8. -/
def regTable8 : List RegInfo :=
  [ /- PWR_SQUALL -/ .mk1 0xF0001C 0 0 0 0 .chip none false,
    /- PWR_TEMP -/ .mk1 0xF00020 0 0 0 0 .chip none false,
    /- PWR_TELEM -/ .mk1 0xF00024 0x3E8 0xFFFF 0 0 .chip none false,
    /- PWR_EVENT -/ .mk1 0xF00028 0 0 0x1FF 0 .chip none false,
    /- PWR_IRQ_EN -/ .mk1 0xF0002C 0 0x1FF 0 0 .chip none false,
    /- PWR_DOM -/ ⟨0xF00040, 4, 0, 4, 0, 1, 0, 0, 0, 0, .chip, none, false⟩,
    /- PWR_SCALE -/ ⟨0xF00050, 4, 0, 4, 0, 1, 0x400, 0, 0, 0, .chip, none, false⟩,
    /- PWR_P -/ ⟨0xF00080, 4, 0, 8, 0, 1, 0, 0, 0, 0, .chip, none, false⟩,
    /- PWR_HOST -/ ⟨0xF000A0, 4, 0, 4, 0, 1, 0, 0, 0, 0, .chip, none, false⟩,
    /- PWR_RAIL_CFG -/ ⟨0xF00100, 8, 0, 13, 0, 1, 0, 0x807FFF00, 0, 0, .chip, (some .power), false⟩,
    /- PWR_RAIL_READ -/ ⟨0xF00104, 8, 0, 13, 0, 1, 0, 0, 0, 0, .chip, none, false⟩,
    /- PWR_TILE -/ ⟨0xF00200, 4, 0, 68, 0, 1, 0, 0, 0, 0, .chip, none, false⟩,
    /- PWR_WEIGHT -/ ⟨0xF00400, 4, 0, 16, 0, 1, 0, 0xFFFFFFFF, 0, 0, .chip, (some .power), false⟩,
    /- FLT_CFG -/ .mk1 0xF80000 0xC0032 0xCFFFF 0 0 .chip (some .chip) false,
    /- FLT_STATUS -/ .mk1 0xF80004 0 0 0 0 .chip none false,
    /- FLT_REC_NEWEST -/ .mk1 0xF80008 0 0 0 0 .chip none false,
    /- FLT_REC_SEL -/ .mk1 0xF8000C 0 0xFFFFFFFF 0 0 .any none false,
    /- FLT_REC_LOST -/ .mk1 0xF80010 0 0 0 0 .chip none false,
    /- FLT_REC -/ ⟨0xF80040, 4, 0, 16, 0, 1, 0, 0, 0, 0, .chip, none, false⟩,
    /- FLT_LOG_CTRL -/ .mk1 0xF80080 0xA 0xFFFF 0 0xC0000000 .chip none false,
    /- FLT_LOG_PAGE -/ .mk1 0xF80084 0 0x1FFFF 0 0 .chip none false,
    /- FLT_LOG_ADDR_LO -/ .mk1 0xF80088 0 0xFFFFFFFF 0 0 .chip none false,
    /- FLT_LOG_ADDR_HI -/ .mk1 0xF8008C 0 0xFFFF 0 0 .chip none false,
    /- FLT_LOG_STATUS -/ .mk1 0xF80090 0 0 0xC0000000 0 .chip none false,
    /- FLT_RESET -/ .mk1 0xF800A0 0 0x7F00FFFF 0 0x80000000 .any none false,
    /- FLT_RESET_STATUS -/ .mk1 0xF800A4 0 0 0xC0000000 0 .any none false,
    /- FLT_RUNG_COUNT -/ ⟨0xF800AC, 4, 1, 5, 0, 1, 0, 0, 0, 0, .chip, none, false⟩,
    /- FLT_P_EVENT -/ ⟨0xF81000, 0x10, 0, 8, 0, 1, 0, 0, 3, 0, .part, none, false⟩,
    /- FLT_P_IRQ_EN -/ ⟨0xF81004, 0x10, 0, 8, 0, 1, 0, 3, 0, 0, .part, none, false⟩,
    /- WB_STATUS -/ .mk1 0x1000000 0x68000000 0xFE070000 0 0 .chip none true,
    /- WB_CAUSE -/ .mk1 0x1000004 0 0xFFF 0 0 .chip none true,
    /- WB_LIMIT -/ .mk1 0x1000008 0 0xFFFFFFFF 0 0 .chip none true,
    /- WB_REQ -/ .mk1 0x100000C 0 0 0 0xC0000000 .chip none false,
    /- WB_EVENT -/ .mk1 0x1000010 0 0 7 0 .chip none false,
    /- WB_IRQ_EN -/ .mk1 0x1000014 0 7 0 0 .chip none false,
    /- WB_REJECTS -/ .mk1 0x1000018 0 0xFFFFFFFF 0 0 .chip none true,
    /- WB_PAIR -/ .mk1 0x100001C 3 0xFFFF0003 0 0 .chip none true,
    /- GLB_BOOT_STATUS -/ .mk1 0x200 0 0 0 0 .chip none false,
    /- GLB_BOOT_CFG -/ .mk1 0x204 0x20078 0x10FFFFF 0 0 .chip none false,
    /- GLB_BOOT_CTRL -/ .mk1 0x208 0 0 0 0xE0000000 .chip none false ]

/-- The register tables of the manual, part 9. -/
def regTable9 : List RegInfo :=
  [ /- GLB_BOOT_TIME -/ .mk1 0x20C 0 0 0 0 .chip none false ]

/-- The register tables of the manual, row by row, in the order of `RegName`. -/
def regTable : List RegInfo :=
  regTable1 ++ regTable2 ++ regTable3 ++ regTable4 ++ regTable5 ++ regTable6 ++ regTable7 ++ regTable8 ++ regTable9

/-- The row of a register name. -/
def RegName.info (n : RegName) : RegInfo :=
  regTable.getD n.ctorIdx (.mk1 0 0 0 0 0 .chip none false)

/-- The register names, part 1. -/
def RegName.all1 : List RegName :=
  [RegName.GLB_ID, RegName.GLB_LTILE_MAP, RegName.SPL_SVN, RegName.SPL_KEYS, RegName.SPL_SVN_COMMIT,
   RegName.SPL_BUSY, RegName.SPL_CHIP_VERSION, RegName.SPL_LOADED, RegName.SPL_CTRL,
   RegName.SPL_SRC_LO, RegName.SPL_SRC_HI, RegName.SPL_LEN, RegName.SPL_STATUS, RegName.BRZ_CURVE_X0,
   RegName.BRZ_CURVE_X1, RegName.BRZ_CURVE_CTRL, RegName.BRZ_CURVE_Y, RegName.TILE_INFO,
   RegName.TILE_STATUS, RegName.TILE_FLAGS, RegName.TILE_ERR, RegName.TILE_IRQ_EN,
   RegName.TILE_DONE_TAG, RegName.TILE_CMD_COUNT, RegName.TILE_SPAN, RegName.TILE_CYCLES_LO,
   RegName.TILE_CYCLES_HI, RegName.TILE_BUSY_LO, RegName.TILE_BUSY_HI, RegName.TILE_FREQ,
   RegName.BANK_CFG, RegName.BANK_TEST_PERIOD, RegName.BANK_LULL_IDLE, RegName.BANK_CQ_CTRL,
   RegName.BANK_CQ_STATUS, RegName.BANK_TQ_CTRL, RegName.BANK_TQ_STATUS, RegName.MEM_CFG,
   RegName.MEM_AGE_TICK, RegName.MEM_POOL_FREE]

/-- The register names, part 2. -/
def RegName.all2 : List RegName :=
  [RegName.MEM_POOL_SURPLUS, RegName.MEM_WARM_STATUS, RegName.MEM_DEEP_STATUS,
   RegName.MEM_DEEP_WLIMIT, RegName.MEM_DEEP_WUSED, RegName.MEM_DEEP_WEAR, RegName.MEM_DEEP_SCRUB,
   RegName.MEM_HOLDUP_CFG, RegName.MEM_HOLDUP_CAP, RegName.MEM_HOLDUP_ENERGY,
   RegName.MEM_HOLDUP_STATUS, RegName.MEM_P_HELD, RegName.MEM_P_PINNED, RegName.MEM_P_EVICTS,
   RegName.MEM_P_ALLOC, RegName.MEM_P_FREE, RegName.MEM_P_DQ_BASE_LO, RegName.MEM_P_DQ_BASE_HI,
   RegName.MEM_P_DQ_CTRL, RegName.MEM_P_DQ_HEAD, RegName.MEM_P_DQ_TAIL, RegName.MEM_P_DQ_STATUS,
   RegName.MEM_P_FAR, RegName.UPD_CFG, RegName.UPD_STALL_LIMIT, RegName.UPD_INFLIGHT,
   RegName.UPD_PLAN_BASE_LO, RegName.UPD_PLAN_BASE_HI, RegName.UPD_PLAN_CTRL, RegName.UPD_PLAN_STATUS,
   RegName.UPD_PLAN_JOB, RegName.UPD_PLAN_STALLS, RegName.UPD_PLAN_STALL_US,
   RegName.UPD_PLAN_STALL_MAX, RegName.UPD_PLAN_HITS, RegName.UPD_PLAN_MISSES,
   RegName.UPD_PLAN_PINNED, RegName.UPD_PLAN_CACHED, RegName.SEQ_PAGE_WAIT_MAX,
   RegName.SEQ_FREE_ENTRIES]

/-- The register names, part 3. -/
def RegName.all3 : List RegName :=
  [RegName.SEQ_P_GEOM, RegName.SEQ_P_EVICT, RegName.SEQ_P_DECAY, RegName.SEQ_P_CMD, RegName.SEQ_P_ARG,
   RegName.SEQ_P_RESULT, RegName.SEQ_P_STEP_CTRL, RegName.SEQ_P_REQ_LO, RegName.SEQ_P_REQ_HI,
   RegName.SEQ_P_WL_LO, RegName.SEQ_P_WL_HI, RegName.SEQ_P_STEP_STATUS, RegName.SEQ_P_EPOCH,
   RegName.SEQ_P_FEED_CFG, RegName.SEQ_P_FEED_CTR, RegName.SEQ_P_FEED_TILES_LO,
   RegName.SEQ_P_FEED_TILES_HI, RegName.SEQ_P_OPEN, RegName.SEQ_P_PAGES, RegName.SEQ_P_WAITS,
   RegName.SEQ_P_IRQ_EN, RegName.SEQ_ENT, RegName.SCH_CFG, RegName.SCH_FREE_CTX, RegName.SCH_OVERRUNS,
   RegName.SCH_P_CMD, RegName.SCH_P_ARG, RegName.SCH_P_RESULT, RegName.SCH_P_DOORBELL,
   RegName.SCH_P_EVENT, RegName.SCH_P_IRQ_EN, RegName.SCH_CTX, RegName.HDW_CFG, RegName.HDW_PATH,
   RegName.HDW_P_BUD, RegName.HDW_P_LAT, RegName.HDW_P_EVENT, RegName.HDW_P_IRQ_EN,
   RegName.HDW_P_MISSES, RegName.HDW_P_OVER]

/-- The register names, part 4. -/
def RegName.all4 : List RegName :=
  [RegName.SNS_ACTIVE, RegName.SNS_PORT_ERRORS, RegName.SNS_S_CTRL, RegName.SNS_S_STATUS,
   RegName.SNS_S_TUNE0, RegName.SNS_S_TUNE1, RegName.SNS_S_ADJ, RegName.SNS_S_SEQ, RegName.SNS_S_UNC,
   RegName.SNS_S_LATEMAP, RegName.SNS_S_DROPPED, RegName.SNS_S_ERRORS, RegName.SNS_S_EVENT,
   RegName.XW_CFG, RegName.XW_GRID, RegName.XW_PROX, RegName.XW_PROX_Z, RegName.XW_LEVEL,
   RegName.XW_LEVEL_HOLD, RegName.XW_AUCTION, RegName.XW_TRACK, RegName.XW_IN_BASE_LO,
   RegName.XW_IN_BASE_HI, RegName.XW_IN_CTRL, RegName.XW_IN_TAIL, RegName.XW_IN_HEAD,
   RegName.XW_OUT_BASE_LO, RegName.XW_OUT_BASE_HI, RegName.XW_OUT_CTRL, RegName.XW_INSTANT,
   RegName.XW_POSE_BASE_LO, RegName.XW_POSE_BASE_HI, RegName.XW_POSE_CTRL, RegName.XW_EVENT,
   RegName.XW_IRQ_EN, RegName.XW_PROX_SEC, RegName.XW_MOUNT, RegName.XW_TRK, RegName.VEER_CFG,
   RegName.VEER_RATES]

/-- The register names, part 5. -/
def RegName.all5 : List RegName :=
  [RegName.VEER_LIMITS, RegName.VEER_COST, RegName.VEER_SPEED, RegName.VEER_DECEL, RegName.VEER_EPOCH,
   RegName.VEER_ORIGIN, RegName.VEER_WORLD_BASE_LO, RegName.VEER_WORLD_BASE_HI,
   RegName.VEER_WORLD_SIZE, RegName.VEER_Q_BASE_LO, RegName.VEER_Q_BASE_HI, RegName.VEER_Q_CTRL,
   RegName.VEER_Q_TAIL, RegName.VEER_Q_HEAD, RegName.VEER_OUT_BASE_LO, RegName.VEER_OUT_BASE_HI,
   RegName.VEER_OUT_CTRL, RegName.VEER_STATUS, RegName.VEER_EVENT, RegName.VEER_IRQ_EN,
   RegName.VEER_CHECKS, RegName.BRZ_CFG, RegName.BRZ_PHASE, RegName.BRZ_SP_BASE_LO,
   RegName.BRZ_SP_BASE_HI, RegName.BRZ_SP_CTRL, RegName.BRZ_SP_SEQ, RegName.BRZ_EVENT,
   RegName.BRZ_IRQ_EN, RegName.BRZ_MISSES, RegName.BRZ_MAT_CTRL, RegName.BRZ_L_CTRL,
   RegName.BRZ_L_PROG, RegName.BRZ_L_FLAGS, RegName.BRZ_L_FLUTTER, RegName.BRZ_L_FLAMP,
   RegName.BRZ_L_MISSES, RegName.BRZ_L_FIRES, RegName.BRZ_L_LAST, RegName.BRZ_PROG_LO]

/-- The register names, part 6. -/
def RegName.all6 : List RegName :=
  [RegName.BRZ_PROG_HI, RegName.BRZ_VEC, RegName.BRZ_L_S, RegName.BRZ_L_K, RegName.BRZ_MAT,
   RegName.WL_CTRL, RegName.WL_STATUS, RegName.WL_CYCLE_LO, RegName.WL_CYCLE_HI, RegName.WL_PHASE,
   RegName.WL_TIMING, RegName.WL_RTT, RegName.WL_DA_LO, RegName.WL_DA_HI, RegName.WL_STO_LO,
   RegName.WL_STO_HI, RegName.WL_EVENT, RegName.WL_IRQ_EN, RegName.WL_LOST_LO, RegName.WL_LOST_HI,
   RegName.WL_SA_LO, RegName.WL_SA_HI, RegName.WL_N_STATUS, RegName.WL_N_ERRORS, RegName.WL_N_TSAMPLE,
   RegName.TIME_RAW_LO, RegName.TIME_RAW_HI, RegName.TIME_ROBOT_LO, RegName.TIME_ROBOT_HI,
   RegName.TIME_ROB_RATE, RegName.TIME_ROB_ADJ, RegName.TIME_ROB_STATUS, RegName.TIME_SNAP,
   RegName.TIME_EVENT, RegName.TIME_IRQ_EN, RegName.TIME_WL_ORIGIN_LO, RegName.TIME_WL_ORIGIN_HI,
   RegName.TIME_OLD_CONV, RegName.TIME_SNAPJ_LO, RegName.TIME_SNAPJ_HI]

/-- The register names, part 7. -/
def RegName.all7 : List RegName :=
  [RegName.TIME_B_LO, RegName.TIME_B_HI, RegName.TIME_B_RATE, RegName.TIME_B_STATUS,
   RegName.TIME_B_UNC, RegName.TIME_B_INTERVAL, RegName.TIME_B_PRIO, RegName.TIME_B_HOLD,
   RegName.TIME_B_ASYM, RegName.TIME_B_ERRORS, RegName.TIME_P_ADJ, RegName.NET_CFG, RegName.NET_CB,
   RegName.NET_P_CTRL, RegName.NET_P_STATUS, RegName.NET_P_CBS, RegName.NET_P_GATE_CTRL,
   RegName.NET_P_BASE_LO, RegName.NET_P_BASE_HI, RegName.NET_P_CYCLE, RegName.NET_P_ERRORS,
   RegName.NET_P_EVENT, RegName.NET_P_GCL, RegName.HP_LINK_CTRL, RegName.HP_LINK_STATUS,
   RegName.HP_CXL_SIZE, RegName.HP_ERRORS, RegName.HP_EVENT, RegName.HP_P_WIN_LO, RegName.HP_P_WIN_HI,
   RegName.HP_P_WIN_CTRL, RegName.HP_P_MSI, RegName.HP_P_DB, RegName.PWR_CAP, RegName.PWR_CEILING,
   RegName.PWR_CTRL, RegName.PWR_STATUS, RegName.PWR_EST, RegName.PWR_MEAS, RegName.PWR_SQUALL_HOLD]

/-- The register names, part 8. -/
def RegName.all8 : List RegName :=
  [RegName.PWR_SQUALL, RegName.PWR_TEMP, RegName.PWR_TELEM, RegName.PWR_EVENT, RegName.PWR_IRQ_EN,
   RegName.PWR_DOM, RegName.PWR_SCALE, RegName.PWR_P, RegName.PWR_HOST, RegName.PWR_RAIL_CFG,
   RegName.PWR_RAIL_READ, RegName.PWR_TILE, RegName.PWR_WEIGHT, RegName.FLT_CFG, RegName.FLT_STATUS,
   RegName.FLT_REC_NEWEST, RegName.FLT_REC_SEL, RegName.FLT_REC_LOST, RegName.FLT_REC,
   RegName.FLT_LOG_CTRL, RegName.FLT_LOG_PAGE, RegName.FLT_LOG_ADDR_LO, RegName.FLT_LOG_ADDR_HI,
   RegName.FLT_LOG_STATUS, RegName.FLT_RESET, RegName.FLT_RESET_STATUS, RegName.FLT_RUNG_COUNT,
   RegName.FLT_P_EVENT, RegName.FLT_P_IRQ_EN, RegName.WB_STATUS, RegName.WB_CAUSE, RegName.WB_LIMIT,
   RegName.WB_REQ, RegName.WB_EVENT, RegName.WB_IRQ_EN, RegName.WB_REJECTS, RegName.WB_PAIR,
   RegName.GLB_BOOT_STATUS, RegName.GLB_BOOT_CFG, RegName.GLB_BOOT_CTRL]

/-- The register names, part 9. -/
def RegName.all9 : List RegName :=
  [RegName.GLB_BOOT_TIME]

/-- Every register name, in the order of the tables. -/
def RegName.all : List RegName :=
  RegName.all1 ++ RegName.all2 ++ RegName.all3 ++ RegName.all4 ++ RegName.all5 ++ RegName.all6 ++ RegName.all7 ++ RegName.all8 ++ RegName.all9

/-- The _HI register of a 64-bit pair named _LO (R8). -/
def RegName.pairHi : RegName → Option RegName
  | .SPL_SRC_LO => some .SPL_SRC_HI
  | .TILE_CYCLES_LO => some .TILE_CYCLES_HI
  | .TILE_BUSY_LO => some .TILE_BUSY_HI
  | .MEM_P_DQ_BASE_LO => some .MEM_P_DQ_BASE_HI
  | .UPD_PLAN_BASE_LO => some .UPD_PLAN_BASE_HI
  | .SEQ_P_REQ_LO => some .SEQ_P_REQ_HI
  | .SEQ_P_WL_LO => some .SEQ_P_WL_HI
  | .SEQ_P_FEED_TILES_LO => some .SEQ_P_FEED_TILES_HI
  | .XW_IN_BASE_LO => some .XW_IN_BASE_HI
  | .XW_OUT_BASE_LO => some .XW_OUT_BASE_HI
  | .XW_POSE_BASE_LO => some .XW_POSE_BASE_HI
  | .VEER_WORLD_BASE_LO => some .VEER_WORLD_BASE_HI
  | .VEER_Q_BASE_LO => some .VEER_Q_BASE_HI
  | .VEER_OUT_BASE_LO => some .VEER_OUT_BASE_HI
  | .BRZ_SP_BASE_LO => some .BRZ_SP_BASE_HI
  | .BRZ_PROG_LO => some .BRZ_PROG_HI
  | .WL_CYCLE_LO => some .WL_CYCLE_HI
  | .WL_DA_LO => some .WL_DA_HI
  | .WL_STO_LO => some .WL_STO_HI
  | .WL_LOST_LO => some .WL_LOST_HI
  | .WL_SA_LO => some .WL_SA_HI
  | .TIME_RAW_LO => some .TIME_RAW_HI
  | .TIME_ROBOT_LO => some .TIME_ROBOT_HI
  | .TIME_WL_ORIGIN_LO => some .TIME_WL_ORIGIN_HI
  | .TIME_SNAPJ_LO => some .TIME_SNAPJ_HI
  | .TIME_B_LO => some .TIME_B_HI
  | .NET_P_BASE_LO => some .NET_P_BASE_HI
  | .HP_P_WIN_LO => some .HP_P_WIN_HI
  | .FLT_LOG_ADDR_LO => some .FLT_LOG_ADDR_HI
  | _ => none

end Sys2Proof.Machine
end

