-- ==== Sys2Proof/Machine/State.lean ====
section
/-!
DEFINITION. The state of the AL960 as plain data, the reasons a step can stop, and the state after reset.
-/

namespace Sys2Proof.Machine

/-- The faults of a step.  The AL960 answers every request, so no command of the table stops the block: there
is no constructor, and no meaning faults. -/
inductive Fault where
  deriving DecidableEq, Repr

/-- The refusals of a step. -/
inductive Refusal where
  /-- Raised by an arm of `exec` whose command has no meaning yet (safe: the step stops). -/
  | notModelled (mnemonic : String)
  deriving DecidableEq, Repr

/-- The state of the AL960.  `pending` is the queue of commands that wait, first in, first out.  `csr` lists the
registers that hold something else than their reset value, `mem` the bytes of memory that are not 0, both in
canonical form.  `free` is the model's own counter of free values drawn; it is no state of the part. -/
structure State where
  pending : List Instr := []
  /-- The raw counter in ns (R278). -/
  now : Nat := 0
  free : Nat := 0
  csr : List (Reg × Word) := []
  mem : List Host.Cell := []
  /-- Check segments (address / 512) whose carried check does not match their data (R327, R328). -/
  badCheck : List Nat := []
  /-- 64-byte words (address / 64) with an uncorrectable error (R76, R88, R331). -/
  badWord : List Nat := []
  /-- What the last request was answered with. -/
  resp : Resp := {}
  /-- The captured upper halves, one for each agent and pair (R8). -/
  heldRead : List ((Agent × Reg) × Word) := []
  /-- The held low halves, one for each agent and pair (R8). -/
  heldWrite : List ((Agent × Reg) × Word) := []
  /-- FLT_REC_SEL of each agent (R345). -/
  recSel : List (Agent × Word) := []
  /-- The variant (R1): AL960-S, or AL960-P. -/
  isS : Bool := false
  /-- The interrupt pulses raised so far, oldest first. -/
  pulses : List Pulse := []
  pins : Pins := {}
  boot : BootState := {}
  spl : LoaderState := {}
  flt : FaultState := {}
  time : TimeState := {}
  wb : WindbreakState := {}
  bank : BankState := {}
  hdw : HeadwindState := {}
  /-- The published copies of the curve slots 2 to 31 (R61). -/
  curves : List (Nat × CurveTable) := []
  pwr : PowerState := {}
  sch : SchedState := {}
  upool : PoolState := {}
  deep : DeepState := {}
  upd : UpdraftState := {}
  sqe : SeqEngState := {}
  sns : SensorState := {}
  xw : CrosswindState := {}
  veer : VeerState := {}
  brz : BreezeState := {}
  wl : WindlineState := {}
  net : NetState := {}
  hp : HostPortState := {}
  deriving DecidableEq, Repr

/-- The machine right after reset (R385): PORST_N is low, every register holds its reset value. -/
def State.reset : State := {}

end Sys2Proof.Machine
end

