-- ==== Sys2Proof/Machine/Ops.lean ====
section
/-!
DEFINITION. The named operations that the meanings share: registers, memory with its carried checks,
ownership, robot time and fault records.
-/

namespace Sys2Proof.Machine

/-! ## Registers (R5 to R7) -/

/-- The reset values of PWR_WEIGHTk, the FP32 values of R309. -/
def powerWeightReset : List Nat :=
  [0x3D75C28F, 0x3DCCCCCD, 0x3E8F5C29, 0x3FCCCCCD, 0x40A00000, 0x3F000000, 0x3F800000, 0x43160000,
   0x43340000, 0x41A00000, 0x42700000, 0x41000000, 0x41A00000, 0x43C80000, 0x40C00000, 0x41200000]

/-- The knots of curve slot 0: sigmoid at -8 + k / 2, rounded to FP32 (R59). -/
def sigmoidKnots : List Nat :=
  [0x39AFD1EF, 0x3A10E859, 0x3A6ED39C, 0x3AC4C351, 0x3B220BBC, 0x3B855ECA, 0x3BDB4FB4, 0x3C340294, 0x3C9357D1,
   0x3CF02034, 0x3D4241A2, 0x3D9B5B89, 0x3DF420A9, 0x3E3ACDC2, 0x3E89B2B1, 0x3EC14D03, 0x3F000000, 0x3F1F597F,
   0x3F3B26A8, 0x3F514C90, 0x3F617BEB, 0x3F6C948F, 0x3F73DBE6, 0x3F787EFE, 0x3F7B6541, 0x3F7D2FF6, 0x3F7E4961,
   0x3F7EF542, 0x3F7F5DF4, 0x3F7F9D9E, 0x3F7FC44B, 0x3F7FDBC6, 0x3F7FEA06]

/-- The knots of curve slot 1: tanh at -4 + k / 4, rounded to FP32 (R59). -/
def tanhKnots : List Nat :=
  [0xBF7FD40C, 0xBF7FB78C, 0xBF7F8896, 0xBF7F3B3D, 0xBF7EBBE9, 0xBF7DEA85, 0xBF7C92C1, 0xBF7A5FEB, 0xBF76CA83,
   0xBF70FDFD, 0xBF67B7CC, 0xBF59291E, 0xBF42F7D6, 0xBF22991F, 0xBEEC9A9F, 0xBE7ACBF5, 0x0, 0x3E7ACBF5,
   0x3EEC9A9F, 0x3F22991F, 0x3F42F7D6, 0x3F59291E, 0x3F67B7CC, 0x3F70FDFD, 0x3F76CA83, 0x3F7A5FEB, 0x3F7C92C1,
   0x3F7DEA85, 0x3F7EBBE9, 0x3F7F3B3D, 0x3F7F8896, 0x3F7FB78C, 0x3F7FD40C]

/-- What a register holds at reset (the register tables; TILE_INFO, HDW_PATH, PWR_WEIGHT and the fixed curve slots 0 and 1
by index, R59, R60). -/
def Reg.resetWord (r : Reg) : Word :=
  match r.name with
  | .BRZ_CURVE_X0 => BitVec.ofNat 32 ([0xC1000000, 0xC0800000].getD r.i 0)
  | .BRZ_CURVE_X1 => BitVec.ofNat 32 ([0x41000000, 0x40800000].getD r.i 0)
  | .BRZ_CURVE_CTRL => if r.i < 2 then 0x80000001#32 else 0
  | .BRZ_CURVE_Y => if r.i = 0 then BitVec.ofNat 32 (sigmoidKnots.getD r.j 0)
      else if r.i = 1 then BitVec.ofNat 32 (tanhKnots.getD r.j 0) else 0
  | .TILE_INFO => BitVec.ofNat 32 (r.name.info.reset + r.i)
  | .HDW_PATH => BitVec.ofNat 32 ([0x2EE00000, 0x07800000, 0x01E00000].getD r.i 0)
  | .PWR_WEIGHT => BitVec.ofNat 32 (powerWeightReset.getD r.i 0)
  | n => BitVec.ofNat 32 n.info.reset

/-- The value a register holds. -/
def State.rdReg (s : State) (r : Reg) : Word := mapGet r.resetWord s.csr r

/-- The state with a register set. -/
def State.wrReg (s : State) (r : Reg) (w : Word) : State :=
  { s with csr := mapSet Reg.lt r.resetWord r w s.csr }

/-- The value of a register as a number. -/
def State.rd (s : State) (n : RegName) (i : Nat := 0) (j : Nat := 0) : Nat := (s.rdReg ⟨n, i, j⟩).toNat

/-- The field [hi:lo] of a register. -/
def State.fld (s : State) (n : RegName) (hi lo : Nat) (i : Nat := 0) (j : Nat := 0) : Nat :=
  fieldOf (s.rdReg ⟨n, i, j⟩) hi lo

/-- Bit `k` of a register. -/
def State.bit (s : State) (n : RegName) (k : Nat) (i : Nat := 0) (j : Nat := 0) : Bool :=
  s.fld n k k i j = 1

/-- A register set to a number. -/
def State.wr (s : State) (n : RegName) (v : Nat) (i : Nat := 0) (j : Nat := 0) : State :=
  s.wrReg ⟨n, i, j⟩ (BitVec.ofNat 32 v)

/-- The field [hi:lo] of a register set. -/
def State.wrF (s : State) (n : RegName) (hi lo v : Nat) (i : Nat := 0) (j : Nat := 0) : State :=
  s.wrReg ⟨n, i, j⟩ (fieldSet (s.rdReg ⟨n, i, j⟩) hi lo v)

/-- Bit `k` of a register set to `b`. -/
def State.wrB (s : State) (n : RegName) (k : Nat) (b : Bool) (i : Nat := 0) (j : Nat := 0) : State :=
  s.wrF n k k b.toNat i j

/-- Bit `k` of a register set to 1. -/
def State.setB (s : State) (n : RegName) (k : Nat) (i : Nat := 0) (j : Nat := 0) : State := s.wrF n k k 1 i j

/-- Bit `k` of a register set to 0. -/
def State.clrB (s : State) (n : RegName) (k : Nat) (i : Nat := 0) (j : Nat := 0) : State := s.wrF n k k 0 i j

/-- A counter register one higher, wrapping. -/
def State.bump (s : State) (n : RegName) (i : Nat := 0) (j : Nat := 0) : State :=
  s.wr n (s.rd n i j + 1) i j

/-- A counter field one higher, wrapping in its width. -/
def State.bumpF (s : State) (n : RegName) (hi lo : Nat) (i : Nat := 0) (j : Nat := 0) : State :=
  s.wrF n hi lo (s.fld n hi lo i j + 1) i j

/-- A counter field one higher, saturating. -/
def State.bumpSatF (s : State) (n : RegName) (hi lo : Nat) (i : Nat := 0) (j : Nat := 0) : State :=
  if s.fld n hi lo i j + 1 = 2 ^ (hi + 1 - lo) then s else s.bumpF n hi lo i j

/-- The 64-bit value of the pair whose low half is named (R8). -/
def State.rd64 (s : State) (lo : RegName) (i : Nat := 0) (j : Nat := 0) : Nat :=
  s.rd lo i j + 2 ^ 32 * (match lo.pairHi with | some hi => s.rd hi i j | none => 0)

/-- The pair whose low half is named set to a 64-bit value (R8). -/
def State.wr64 (s : State) (lo : RegName) (v : Nat) (i : Nat := 0) (j : Nat := 0) : State :=
  match lo.pairHi with
  | some hi => (s.wr lo v i j).wr hi (v / 2 ^ 32) i j
  | none => s.wr lo v i j

/-- A new free value (an undefined or unstated value of the manual) and the state that has drawn it. -/
def State.fresh (s : State) : Nat × State := (Config.freeValue s.free, { s with free := s.free + 1 })

/-! ## Responses (R5, R10) -/

/-- An error response: data 0 in a read of `n` bytes. -/
def State.respErr (s : State) (n : Nat := 0) : State := { s with resp := ⟨true, List.replicate n 0⟩ }

/-- An interrupt pulse that no event register shows (R63, R71, R72, R79, R297), or an access fault of a host core (R10). -/
def State.pulse (s : State) (k : Pulse) : State := { s with pulses := s.pulses ++ [k] }

/-- The answer to the host's read through a window (R297). -/
def State.hpAnswer (s : State) (r : HpReply) : State := { s with hp := { s.hp with reply := r } }

/-- An error response to an agent's read of `n` bytes (R10): a host core takes an access fault, the host's read through a window
ends without data (R297). -/
def State.loadErr (s : State) (a : Agent) (n : Nat) : State :=
  match a with
  | .core c => (s.respErr n).pulse (.accessFault c)
  | .device _ => (s.respErr n).hpAnswer .abort
  | _ => s.respErr n

/-- An error response to an agent's request (R10). -/
def State.opErr (s : State) (a : Agent) (op : MemOp) : State :=
  match op with
  | .read _ n => s.loadErr a n
  | .write _ _ => s.respErr

/-- A response without an error. -/
def State.respOk (s : State) (d : List Byte := []) : State := { s with resp := ⟨false, d⟩ }

/-! ## Memory (R9, R327, R328, R331) -/

/-- The byte at a physical address. -/
def State.getByte (s : State) (a : Nat) : Byte := mapGet 0#8 s.mem a

/-- The state with the byte at a physical address set. -/
def State.setByte (s : State) (a : Nat) (b : Byte) : State := { s with mem := mapSet natLt 0#8 a b s.mem }

/-- `n` bytes of memory from an address. -/
def State.getBytes (s : State) (a n : Nat) : List Byte := (List.range n).map (fun k => s.getByte (a + k))

/-- Bytes put into memory from an address. -/
def State.putBytes (s : State) (a : Nat) : List Byte → State
  | [] => s
  | b :: r => (s.setByte a b).putBytes (a + 1) r

/-- A little-endian number in memory. -/
def State.getNum (s : State) (a n : Nat) : Nat := ofBytesLE (s.getBytes a n)

/-- The blocks of `size` bytes that a range touches, by number. -/
def blocksOf (size a n : Nat) : List Nat :=
  if n = 0 then [] else (List.range ((a + n - 1) / size + 1 - a / size)).map (fun k => a / size + k)

/-- The blocks of `size` bytes that a range covers wholly, by number. -/
def wholeBlocks (size a n : Nat) : List Nat :=
  (blocksOf size a n).filter (fun b => a ≤ b * size && b * size + size ≤ a + n)

/-- A write of bytes: whole words rewritten are no longer uncorrectable (R331), a whole segment takes a new
carried check, and every other write keeps the stored check in step with the data (R328). -/
def State.store (s : State) (a : Nat) (d : List Byte) : State :=
  let t := s.putBytes a d
  { t with
    badWord := t.badWord.filter (fun w => !(wholeBlocks 64 a d.length).contains w)
    badCheck := t.badCheck.filter (fun g => !(wholeBlocks 512 a d.length).contains g) }

/-- A write that carries no check (R328): the stored checks follow the new data, so one that did not match still does
not. -/
def State.storeKeep (s : State) (a : Nat) (d : List Byte) : State :=
  let t := s.putBytes a d
  { t with badWord := t.badWord.filter (fun w => !(wholeBlocks 64 a d.length).contains w) }

/-- A little-endian number of `n` bytes written. -/
def State.storeNum (s : State) (a n v : Nat) : State := s.store a (bytesLE n v)

/-- No word of a range has an uncorrectable error. -/
def State.readable (s : State) (a n : Nat) : Bool := (blocksOf 64 a n).all (fun w => !s.badWord.contains w)

/-- The carried checks of every segment that a range touches match (R327). -/
def State.checksOk (s : State) (a n : Nat) : Bool := (blocksOf 512 a n).all (fun g => !s.badCheck.contains g)

/-- A range written as zeros, with fresh checks. -/
def State.zero (s : State) (a n : Nat) : State :=
  { s with
    mem := s.mem.filter (fun c => c.1 < a || a + n ≤ c.1)
    badWord := s.badWord.filter (fun w => w * 64 < a || a + n ≤ w * 64)
    badCheck := s.badCheck.filter (fun g => g * 512 < a || a + n ≤ g * 512) }

/-! ## The active image and ownership (R13 to R17, R77) -/

/-- What the active image gives partition `p`. -/
def State.part (s : State) (p : Nat) : PartImage := (alGet s.spl.parts p).getD {}

/-- The control partition; 0xFF while no chip image is active. -/
def State.ctrl (s : State) : Nat := match s.spl.chip with | some c => c.ctrlPart | none => 0xFF

/-- Partition `p` exists (CHIP.PART_MASK). -/
def State.partExists (s : State) (p : Nat) : Bool :=
  match s.spl.chip with | some c => p < 8 && bitOf c.partMask p | none => false

/-- The partitions that exist. -/
def State.partList (s : State) : List Nat := (List.range 8).filter s.partExists

/-- GLB_ID (R1, R2): the variant's. -/
def State.glbId (s : State) : Nat := if s.isS then 0x096002B0 else 0x096001B0

/-- The number of enabled tiles (R1). -/
def State.tileCount (s : State) : Nat := if s.isS then 48 else 64

/-- The physical tile behind a logical tile (R14). -/
def State.physOf (s : State) (t : Nat) : Option Nat :=
  let k := 8 * (t % 4)
  if t < 64 && s.bit .GLB_LTILE_MAP (k + 7) (t / 4) then some (s.fld .GLB_LTILE_MAP (k + 6) k (t / 4)) else none

/-- The logical tile in front of a physical tile (R14). -/
def State.logicalOf (s : State) (t : Nat) : Option Nat :=
  (List.range 64).find? (fun l => s.physOf l == some t)

/-- The partition that owns something, by a test of its sections. -/
def State.ownerBy (s : State) (f : PartImage → Bool) : Option Nat :=
  s.partList.find? (fun p => f (s.part p))

/-- The partition that owns a logical tile. -/
def State.tileOwner (s : State) (t : Nat) : Option Nat := s.ownerBy (fun p => bitOf p.ownMask t)

/-- The partition that owns a physical tile. -/
def State.physOwner (s : State) (t : Nat) : Option Nat := (s.logicalOf t).bind s.tileOwner

/-- The partition that owns a host cluster (R16). -/
def State.clusterOwner (s : State) (c : Nat) : Option Nat := s.ownerBy (fun p => bitOf p.hostClusters c)

/-- The partition that owns a switch port. -/
def State.portOwner (s : State) (n : Nat) : Option Nat := s.ownerBy (fun p => bitOf p.netPorts n)

/-- The partition that owns a sensor stream. -/
def State.streamOwner (s : State) (n : Nat) : Option Nat :=
  s.ownerBy (fun p => p.streams.any (fun e => e.number == n))

/-- The stream table's entry of a stream. -/
def State.stream (s : State) (n : Nat) : Option StreamEntry :=
  (s.streamOwner n).bind (fun p => (s.part p).streams.find? (fun e => e.number == n))

/-- The loan of a lender that covers a quad of a logical tile. -/
def PartImage.loanOf (p : PartImage) (t quad : Nat) : Option Loan :=
  p.loans.find? (fun l => bitOf l.tileMask t && bitOf l.bankMask (4 * quad))

/-- The holder of a quad of a logical tile: its borrower while a loan lends it, else the tile's owner (R77). -/
def State.tileQuadHolder (s : State) (t quad : Nat) : Option Nat :=
  (s.tileOwner t).bind (fun p => match (s.part p).loanOf t quad with | some l => some l.borrower | none => some p)

/-- The owner of a commons quad (R77). -/
def State.quadOwner (s : State) (q : Nat) : Option Nat :=
  let o := s.fld .BANK_CQ_STATUS 31 28 q
  if o = 0xF then none else some o

/-- The partition an agent works for; 0xFF for none. -/
def State.agentPart (s : State) : Agent → Nat
  | .core n => (s.clusterOwner (n / 4)).getD 0xFF
  | .tile _ p => p
  | .engine _ p => p
  | .device p => p
  | .windbreak => 8
  | .maint => 0xFF

/-- The SOURCE code of an agent (R382). -/
def Agent.code : Agent → Nat
  | .core n => 0x1000 + n
  | .tile t _ => t
  | .engine e _ => 0x2000 + e
  | .device _ => 0x4100
  | .windbreak => 0x8000
  | .maint => 0xF002

/-! ## The status sector (R358, R361, R363) -/

/-- The boot state mirrored in the status sector of the recovery flash. -/
def State.mirror (s : State) : State :=
  { s with boot := { s.boot with sector :=
      { count := s.fld .GLB_BOOT_STATUS 25 24
        bootCfg := s.rdReg ⟨.GLB_BOOT_CFG, 0, 0⟩
        doldrums := s.bit .GLB_BOOT_CTRL 29
        tileRecord := s.boot.tileRecord
        logicalMap := s.boot.logicalMap } } }

/-! ## Time (R279, R288) -/

/-- The time a parameter set gives at a raw instant. -/
def ParamSet.at (p : ParamSet) (r : Nat) : Int :=
  r + p.off + ((r : Int) - p.org) * p.rate / (2 ^ 40 : Int)

/-- A quotient rounded to nearest, ties to even, as every rounding of the AL960 that states nothing else (R51); `d` is positive. -/
def quotEven (n d : Int) : Int :=
  let q := n / d
  let r := n % d
  if d < 2 * r || (d = 2 * r && q % 2 = 1) then q + 1 else q

/-- The raw instant at which a parameter set gives a time (R288). -/
def ParamSet.rawAt (p : ParamSet) (d : Int) : Int :=
  p.org + quotEven ((d - p.off - p.org) * 2 ^ 40) (2 ^ 40 + p.rate)

/-- The parameter set in force at a raw instant, and whether the instant precedes the oldest kept set. -/
def paramsAt : List ParamSet → Nat → ParamSet × Bool
  | [], _ => ({}, false)
  | [p], r => (p, decide (r < p.since))
  | p :: q :: l, r => if p.since ≤ r then (p, false) else paramsAt (q :: l) r

/-- A new parameter set put in front; the last 8 are kept (R288). -/
def pushParams (l : List ParamSet) (p : ParamSet) : List ParamSet := (p :: l).take 8

/-- Robot time at a raw instant (R279). -/
def State.robotAt (s : State) (r : Nat) : Int := (paramsAt s.time.robot r).1.at r

/-- Robot time now. -/
def State.robotNow (s : State) : Nat := uintOf 64 (s.robotAt s.now)

/-- A rate change at raw `r` (R279): the term accrued since `org` goes into `off`, and `org` becomes `r`. -/
def rerate (l : List ParamSet) (r : Nat) (rate : Int) : List ParamSet :=
  let p := (l.head?).getD {}
  if p.rate = rate then l
  else pushParams l { since := r, off := p.at r - r, org := r, rate := rate }

/-- A step of a time at raw `r`: the time reads `d` from there on. -/
def stepParams (l : List ParamSet) (r : Nat) (d : Int) : List ParamSet :=
  let p := (l.head?).getD {}
  pushParams l { since := r, off := d - r, org := r, rate := p.rate }

/-! ## Fault records (R332 to R335) -/

/-- The number after a record number (R332: 0 is never used). -/
def nextSeq (n : Nat) : Nat := if n ≥ 0xFFFFFFFF then 1 else n + 1

/-- The records that wait for the persistent log. -/
def State.waiting (s : State) : List FaultRecord := s.flt.ring.filter (fun r => !r.logged)

/-- A log page may not be programmed now: the hold-up check, a power fail, the deep region's temperature or the limit of 14,400
pages in an hour defers it (R108, R110, R111, R112, R335). -/
def State.logDeferred (s : State) : Bool :=
  !s.pins.pfailN || s.bit .MEM_DEEP_STATUS 23 || !s.bit .MEM_HOLDUP_STATUS 31 ||
  (s.flt.logTimes.filter (fun t => s.now < t + 3600000000000)).length ≥ 14400

/-- A die-block of the log is erased once more (R110, R117): its 512 die-blocks are die-blocks 1920 to 1923 of the 128 dies. -/
def State.eraseLogBlock (s : State) (k : Nat) : State :=
  let x : Nat × Nat := (k % 128, 1920 + k / 128)
  let n := (alGet s.deep.wear x).getD 0 + 1
  let s := { s with deep := { s.deep with wear := alSet s.deep.wear x n } }
  s.wrF .MEM_DEEP_WEAR 31 16 (max (s.fld .MEM_DEEP_WEAR 31 16) (min 0xFFFF n))

/-- The waiting records programmed as one log page (R335): the log's next page takes them, and they no longer
wait.  A die-block holds 256 pages and is erased before its first page is programmed.  A deferred page stays waiting with LOG_THROTTLED set. -/
def State.programLog (s : State) : State :=
  if !s.bit .FLT_CFG 18 || s.waiting.isEmpty then s
  else if s.logDeferred then s.setB .FLT_STATUS 24
  else
    let page := s.fld .FLT_LOG_STATUS 16 0
    let s := s.wrF .FLT_LOG_STATUS 16 0 (page + 1)
    let s := s.clrB .FLT_STATUS 24
    let s := if page % 256 = 0 then s.eraseLogBlock (page / 256) else s
    { s with flt := { s.flt with
        log := alSet (if page % 256 = 0 then s.flt.log.filter (fun e => e.1 / 256 != page / 256) else s.flt.log)
          page s.waiting
        logTimes := s.now :: s.flt.logTimes.filter (fun t => s.now < t + 3600000000000)
        ring := s.flt.ring.map (fun r => { r with logged := true })
        oldestWaiting := none } }

/-- The partition whose event bits a record sets: a chip record sets the control partition's (R334). -/
def State.eventPart (s : State) (p : Nat) : Option Nat :=
  if p < 8 then some p else if p = 0xFF && s.ctrl < 8 then some s.ctrl else none

/-- A record written into the ring (R332, R334, R335): the ring keeps the newest 256; the always-on domain
keeps the 16 newest of class power, fabric, recovery or boot; 256 waiting records are programmed. -/
def State.addRecord (s : State) (f : FaultDesc) (rung kind recovery merged duration : Nat) : State :=
  let r : FaultRecord :=
    { seq := s.flt.nextSeq, fault := f, rung, kind, time := s.robotNow, recovery, merged, duration }
  let full := s.flt.ring ++ [r]
  let lost := full.length > 256 && (match s.flt.ring.head? with | some o => !o.logged | none => false)
  let s := if lost then s.bump .FLT_REC_LOST else s
  let s := s.wr .FLT_REC_NEWEST r.seq
  let s := match s.eventPart f.part with
    | some p =>
      let s := s.setB .FLT_P_EVENT 0 p
      if rung ≥ 1 then s.setB .FLT_P_EVENT 1 p else s
    | none => s
  let kept := if [0x0F, 0x11, 0x12, 0x13].contains f.cls then (s.flt.kept ++ [r]) else s.flt.kept
  let s := { s with flt := { s.flt with
      ring := full.drop (full.length - 256)
      nextSeq := nextSeq r.seq
      kept := kept.drop (kept.length - 16)
      oldestWaiting := s.flt.oldestWaiting.getD s.now |> some } }
  if s.waiting.length ≥ 256 then s.programLog else s

/-- A record of KIND 0 without a recovery. -/
def State.record (s : State) (f : FaultDesc) : State := s.addRecord f 0 0 0 0 0

/-- 100 ms, the interval of rate-limited records, in ns. -/
def rateLimit : Nat := 100000000

/-- A record of KIND 0, at most once per 100 ms for its key. -/
def State.recordRated (s : State) (k : RateKey) (f : FaultDesc) : State :=
  match alGet s.flt.rates k with
  | some t =>
    if s.now < t + rateLimit then s
    else ({ s with flt := { s.flt with rates := alSet s.flt.rates k s.now } }).record f
  | none => ({ s with flt := { s.flt with rates := alSet s.flt.rates k s.now } }).record f

/-- The record of a refused register write or access: class partition violation (R10, R13). -/
def State.violation (s : State) (a : Agent) (addr : Nat := 0) (context : Nat := 0xFFFFFFFF) : State :=
  s.record { cls := 0x02, part := s.agentPart a, source := a.code, address := addr, context }

/-- A refused write: an error response and a record of class partition violation (R13). -/
def State.denied (s : State) (a : Agent) (addr : Nat := 0) : State := (s.respErr).violation a addr

end Sys2Proof.Machine
end

