-- ==== Sys2Proof/Machine/Access.lean ====
section
/-!
DEFINITION. Who may reach which memory (R9, R10, R32, R78, R89): the verdict on a request, the record that a
refused one writes, and reads and writes that go through the verdict.
-/

namespace Sys2Proof.Machine

/-- The first address of the tile scratches, the commons, the warm, deep and far tiers (R9). -/
def scratchBase : Nat := 0x0100000000
/-- The first address of the commons (R9). -/
def commonsBase : Nat := 0x0110000000
/-- The first address of the warm tier (R9). -/
def warmBase : Nat := 0x2000000000
/-- The first address of the deep tier (R9). -/
def deepBase : Nat := 0x10000000000
/-- The first address of the far tier (R9). -/
def farBase : Nat := 0x40000000000

/-- The scratch of logical tile `t`. -/
def tileBase (t : Nat) : Nat := scratchBase + t * 0x400000

/-- A region of the physical address map (R9). -/
inductive Region where
  | csr | scratch (t quad : Nat) | commons (q : Nat) | warm (ext : Nat) | deep (unit : Nat) | far (unit : Nat) | reserved
  deriving DecidableEq, Repr

/-- The region an address lies in (R9); `unit` counts 2 MiB from the tier's start. -/
def regionOf (a : Nat) : Region :=
  if a < 0x40000000 then .csr
  else if scratchBase ≤ a && a < commonsBase then .scratch ((a - scratchBase) / 0x400000) ((a - scratchBase) / 0x100000 % 4)
  else if commonsBase ≤ a && a < 0x0114000000 then .commons ((a - commonsBase) / 0x400000)
  else if warmBase ≤ a && a < 0x4000000000 then .warm ((a - warmBase) / 0x200000)
  else if deepBase ≤ a && a < 0x1F000000000 then .deep ((a - deepBase) / 0x200000)
  else if farBase ≤ a && a < 0x80000000000 then .far ((a - farBase) / 0x200000)
  else .reserved

/-- The outcome of the checks of R10 and R32. -/
inductive Verdict where | ok | unmapped | violation | farDown
  deriving DecidableEq, Repr

/-- A window of partition `p` covers 2 MiB unit `u` of a tier with the ACCESS bit `k` (R29). -/
def State.windowCovers (s : State) (p tier u k : Nat) : Bool :=
  (s.part p).windows.any (fun w => w.tier == tier && w.base ≤ u && u < w.base + w.size && bitOf w.access k)

/-- An extent that Updraft or the sequence engine holds for the partition that the agent works for: only that engine reaches
it (R89). -/
def State.engineExtent (s : State) (ag : Agent) (e : Nat) : Bool :=
  match ag, alGet s.upool.extents e with
  | .engine 0 p, some x => x.part == p && (match x.holder with | .updraft _ => true | _ => false)
  | .engine 2 p, some x => x.part == p && x.holder == .seqEngine
  | _, _ => false

/-- A software extent of partition `p` (R89). -/
def State.softwareExtent (s : State) (p e : Nat) : Bool :=
  match alGet s.upool.extents e with
  | some x => x.part == p && x.holder == .software
  | none => false

/-- The far tier exists: CHIP enables it and a link to an expander is up (R113). -/
def State.farUp (s : State) : Bool :=
  (match s.spl.chip with | some c => c.hostPort == 1 && c.farTier == 1 | none => false) &&
  s.bit .HP_LINK_STATUS 31 && s.bit .HP_LINK_STATUS 30 && s.rd .HP_CXL_SIZE != 0

/-- The capacity of the far tier in bytes (R113: HP_CXL_SIZE counts GiB). -/
def State.farBytes (s : State) : Nat := s.rd .HP_CXL_SIZE * 0x40000000

/-- The verdict on a request of partition `p` to the 1 MiB granule that holds address `a`.  CSR space is no memory: only an
aligned 32-bit access reaches it, and as a register access (R5).  DESIGN CHOICE (log entry 88): where several rows of R10
apply, a far-tier request finds the link down before it finds the address beyond the expander, and either before it looks at
the windows; a granule that does not exist is unmapped before anyone's ownership is asked. -/
def State.granuleVerdict (s : State) (p : Nat) (wr : Bool) (a : Nat) : Verdict :=
  let k := if wr then 1 else 0
  match regionOf a with
  | .csr => .unmapped
  | .scratch t q =>
    if s.tileCount ≤ t || s.physOf t == none then .unmapped
    else if s.tileQuadHolder t q == some p then .ok else .violation
  | .commons q =>
    if s.boot.failedQuads.contains q then .unmapped
    else if s.fld .BANK_CQ_STATUS 23 22 q = 2 then .violation
    else if s.quadOwner q == some p then .ok else .violation
  | .warm e => if s.windowCovers p 0 e k || s.softwareExtent p e then .ok else .violation
  | .deep u => if wr then .unmapped else if s.windowCovers p 1 u 0 then .ok else .violation
  | .far u =>
    if !s.farUp then .farDown
    else if s.farBytes ≤ u * 0x200000 then .unmapped
    else if s.windowCovers p 2 u k then .ok else .violation
  | .reserved => .unmapped

/-- The ranges locked against writes: the source of the running load (R32), the plans that are LOADING or READY
(R125) and the page-table areas of the sequence engine (R140). -/
def State.lockedRanges (s : State) : List (Nat × Nat) :=
  (match s.spl.load with | some l => [(l.src, l.len)] | none => []) ++
  s.upd.plans.map (fun x => (x.2.plan.base, x.2.plan.bytes)) ++
  s.sqe.seqs.map (fun x => x.2.table)

/-- Two ranges share a byte. -/
def rangesMeet (a n b m : Nat) : Bool := 0 < n && 0 < m && a < b + m && b < a + n

/-- The verdict on an agent's request to a granule: that of its partition, but for the extents that its engine holds (R89). -/
def State.agentVerdict (s : State) (ag : Agent) (wr : Bool) (a : Nat) : Verdict :=
  match regionOf a with
  | .warm e => if s.engineExtent ag e then .ok else s.granuleVerdict (s.agentPart ag) wr a
  | _ => s.granuleVerdict (s.agentPart ag) wr a

/-- The first verdict that is not ok.  DESIGN CHOICE (log entry 88): a request that touches several granules is answered by the
lowest one that is refused. -/
def worstOf : List Verdict → Verdict
  | [] => .ok
  | .ok :: r => worstOf r
  | v :: _ => v

/-- The verdict on a request of an agent (R10; the writes that R32 locks are refused whole). -/
def State.verdict (s : State) (ag : Agent) (wr : Bool) (a n : Nat) : Verdict :=
  let v := worstOf ((blocksOf 0x100000 a n).map (fun b => s.agentVerdict ag wr (max a (b * 0x100000))))
  if v ≠ .ok then v
  else if wr && s.lockedRanges.any (fun l => rangesMeet a n l.1 l.2) then .violation
  else .ok

/-- The first addresses of the blocks of R12 from the banks on, the Global block and the loader's first. -/
def blockBases : List Nat :=
  [0, 0x10000, 0x100000, 0x540000, 0x600000, 0x700000, 0x780000, 0x800000, 0xA00000, 0xA80000, 0xB00000, 0xB80000, 0xC00000,
   0xC80000, 0xD00000, 0xD80000, 0xE00000, 0xE80000, 0xF00000, 0xF80000, 0x1000000, 0x2000000]

/-- The block of an address, as a number: the place in `blockBases`, with the tile blocks counted on from 0x100. -/
def blockOf (x : Nat) : Nat :=
  if 0x100000 ≤ x && x < 0x540000 then 0x100 + (x - 0x100000) / 0x10000
  else (blockBases.filter (fun b => b ≤ x)).length

/-- The record of a refused request (R10); one to CSR space is limited as R5 and R12 say. -/
def State.refusalRecord (s : State) (ag : Agent) (v : Verdict) (a : Nat) : State :=
  let f (c : Nat) : FaultDesc := { cls := c, part := s.agentPart ag, source := ag.code, address := a }
  match v with
  | .ok => s
  | .unmapped =>
    if a < 0x40000000 then s.recordRated { cls := 0x01, code := blockOf a, unit := 0, agent := some ag } (f 0x01) else s.record (f 0x01)
  | .violation => s.record (f 0x02)
  | .farDown => s.record (f 0x03)

/-- The memory that holds an address, as a SOURCE code (R382). -/
def State.memorySource (s : State) (a : Nat) : Nat :=
  match regionOf a with
  | .scratch t _ => 0x3100 + (s.physOf t).getD 0
  | .commons q => 0x3200 + q
  | .deep _ => 0x3001
  | .far _ => 0x3002
  | _ => 0x3000

/-- The record of an uncorrectable read (R76, R88, R332): SOURCE names the memory, CONTEXT the requester. -/
def State.uncorrectable (s : State) (ag : Agent) (a : Nat) : State :=
  s.record { cls := 0x07, part := s.agentPart ag, source := s.memorySource a, context := 0xFFFF0000 + ag.code, address := a }

/-- The record of a failed carried check (R330). -/
def State.checkFailed (s : State) (ag : Agent) (a : Nat) : State :=
  s.record { cls := 0x08, part := s.agentPart ag, source := s.memorySource a, context := 0xFFFF0000 + ag.code, address := a }

/-- A deep page reads as 0: it lies at or above the write pointer of its block, or its block is erased or
erase-pending (R97). -/
def State.deepBlank (s : State) (a : Nat) : Bool :=
  let d := a - deepBase
  match alGet s.deep.blocks (d / 0x20000000) with
  | some b => b.erasing || b.writePtr ≤ d % 0x20000000 / 0x4000
  | none => true

/-- The key pair of a partition in the far tier: its data key and its tweak key (R115). -/
def State.farPair (s : State) (p : Nat) : Nat × Nat := s.deep.farKeys.getD p (0, 1)

/-- A new far-tier key pair for a partition, drawn from the random source: two different keys of 256 bits (R115).  Earlier
contents decrypt to meaningless data. -/
def State.rekey (s : State) (p : Nat) : State :=
  let (k, s) := s.fresh
  let (m, s) := s.fresh
  let pair : Nat × Nat := (k % 2 ^ 256, if m % 2 ^ 256 = k % 2 ^ 256 then (m + 1) % 2 ^ 256 else m % 2 ^ 256)
  { s with deep := { s.deep with farKeys := listUpdate s.deep.farKeys p (fun _ => pair) } }

/-- New key pairs for every partition: at power-up and at rung 4 (R115). -/
def State.drawKeys (s : State) : State := (List.range 8).foldl State.rekey s

/-- The plaintext of the 16-byte block that holds far-tier address `a`, under the keys of partition `p` (R114). -/
def State.farBlock (s : State) (p a : Nat) : List Nat :=
  let k := s.farPair p
  let d := a - farBase
  Aes.xtsDecrypt k.1 k.2 (d / 512) (d % 512 / 16) ((s.getBytes (a / 16 * 16) 16).map BitVec.toNat)

/-- The byte that a read of memory returns (R97 for the deep tier; in the far tier, whose memory holds ciphertext, R114). -/
def State.memByte (s : State) (p a : Nat) : Byte :=
  match regionOf a with
  | .deep _ => if s.deepBlank a then 0 else s.getByte a
  | .far _ => BitVec.ofNat 8 ((s.farBlock p a).getD (a % 16) 0)
  | _ => s.getByte a

/-- `n` bytes read from memory on behalf of partition `p`. -/
def State.memBytes (s : State) (p a n : Nat) : List Byte := (List.range n).map (fun k => s.memByte p (a + k))

/-- The parts of a range whose stored bytes a read returns: in the deep tier those pages that do not read as 0 (R97). -/
def State.storedRanges (s : State) (a n : Nat) : List (Nat × Nat) :=
  match regionOf a with
  | .deep _ => (blocksOf 0x4000 (a - deepBase) n).filterMap (fun g =>
      let b := deepBase + g * 0x4000
      if s.deepBlank b then none else some (max a b, min (a + n) (b + 0x4000) - max a b))
  | _ => [(a, n)]

/-- A deep page that is marked damaged (R98) in a range. -/
def State.deepDamaged (s : State) (a n : Nat) : Bool :=
  match regionOf a with
  | .deep _ => (blocksOf 0x4000 (a - deepBase) n).any (fun g => s.deep.damaged.contains g)
  | _ => false

/-- A read of the range finds an uncorrectable error: a damaged deep page (R98), an uncorrectable word (R76, R88), or in the deep
tier a carried check that does not match. -/
def State.readFails (s : State) (a n : Nat) : Bool :=
  (s.storedRanges a n).any (fun r => s.deepDamaged r.1 r.2 || !s.readable r.1 r.2 || (deepBase ≤ a && a < farBase && !s.checksOk r.1 r.2))

/-- The marks of memory after a write of `n` bytes: whole words rewritten are no longer uncorrectable (R331); with `check` the
segments covered whole take new checks (R328). -/
def State.rewritten (s : State) (a n : Nat) (check : Bool) : State :=
  { s with
    badWord := s.badWord.filter (fun w => !(wholeBlocks 64 a n).contains w)
    badCheck := if check then s.badCheck.filter (fun g => !(wholeBlocks 512 a n).contains g) else s.badCheck }

/-- The ciphertext of the 16-byte blocks of the far tier that a write of partition `p` touches (R114): a block written in part is
encrypted anew with its other bytes as they read. -/
def State.farCipher (s : State) (p a : Nat) (d : List Byte) : List Byte :=
  let k := s.farPair p
  (blocksOf 16 a d.length).flatMap (fun b =>
    let old := s.farBlock p (b * 16)
    let x := b * 16 - farBase
    let new := (List.range 16).map (fun i =>
      if a ≤ b * 16 + i && b * 16 + i < a + d.length then (d.getD (b * 16 + i - a) 0).toNat else old.getD i 0)
    (Aes.xtsEncrypt k.1 k.2 (x / 512) (x % 512 / 16) new).map (BitVec.ofNat 8))

/-- A write that has passed its verdict: data written to the far tier is encrypted under the partition's keys (R114); `check` says
that it carries checks for the segments it covers whole. -/
def State.storeFor (s : State) (p a : Nat) (d : List Byte) (check : Bool := true) : State :=
  match regionOf a with
  | .far _ => (s.putBytes (a / 16 * 16) (s.farCipher p a d)).rewritten a d.length check
  | _ => if check then s.store a d else s.storeKeep a d

/-- What a read that has passed its verdict finds: the bytes, or none with the records of R76, R88, R98 and R330 written. -/
def State.readPassed (s : State) (ag : Agent) (a n : Nat) : Option (List Byte) × State :=
  if s.readFails a n then (none, s.uncorrectable ag a)
  else if farBase ≤ a && !s.checksOk a n then (none, s.checkFailed ag a)
  else (some (s.memBytes (s.agentPart ag) a n), s)

/-- A write that has passed its verdict lands: only a host core's carries no checks of its own (R328). -/
def State.writePassed (s : State) (ag : Agent) (a : Nat) (d : List Byte) : State :=
  s.storeFor (s.agentPart ag) a d (match ag with | .core _ => false | _ => true)

/-- A read of memory by an agent: the bytes, or none with the records of R10, R76, R88, R98 and R330 written. -/
def State.readAs (s : State) (ag : Agent) (a n : Nat) : Option (List Byte) × State :=
  match s.verdict ag false a n with
  | .ok => s.readPassed ag a n
  | v => (none, s.refusalRecord ag v a)

/-- A write of memory by an agent: whether it landed; a refused one is discarded whole (R10, R32). -/
def State.writeAs (s : State) (ag : Agent) (a : Nat) (d : List Byte) : Bool × State :=
  match s.verdict ag true a d.length with
  | .ok => (true, s.writePassed ag a d)
  | v => (false, s.refusalRecord ag v a)

/-- The whole range lies in memory that partition `p` owns: its scratch, its commons quads, its warm windows and
software extents (R31, R77, R89). -/
def State.ownsRange (s : State) (p a n : Nat) (wr : Bool := false) : Bool :=
  (blocksOf 0x100000 a n).all (fun b =>
    let x := max a (b * 0x100000)
    match regionOf x with
    | .scratch _ _ | .commons _ | .warm _ => s.granuleVerdict p wr x == .ok
    | _ => false)

end Sys2Proof.Machine
end

