-- ==== Sys2Proof/Machine/Quads.lean ====
section
/-!
DEFINITION. Bank quads (R74, R77, R80, R83, R84): where they lie, who holds them, whether they sleep, and the accesses that wait for
one to wake.
-/

namespace Sys2Proof.Machine

/-- The first address of a quad and its size; none for a quad of a physical tile behind no logical tile. -/
def State.quadRange (s : State) : QuadRef → Option (Nat × Nat)
  | .commons q => some (commonsBase + q * 0x400000, 0x400000)
  | .tile t k => (s.logicalOf t).map (fun l => (tileBase l + k * 0x100000, 0x100000))

/-- The quad exists. -/
def QuadRef.exists : QuadRef → Bool
  | .commons q => q < 16
  | .tile t k => t < 68 && k < 4

/-- The quad that holds an address of the scratches or the commons (R74). -/
def State.quadAt (s : State) (a : Nat) : Option QuadRef :=
  match regionOf a with
  | .commons q => some (.commons q)
  | .scratch t q => (s.physOf t).map (fun p => .tile p q)
  | _ => none

/-- The quad is in lull. -/
def State.inLull (s : State) : QuadRef → Bool
  | .commons q => s.bit .BANK_CQ_STATUS 21 q
  | .tile t k => s.bit .BANK_TQ_STATUS k t

/-- The quad's wake is in progress. -/
def State.waking (s : State) : QuadRef → Bool
  | .commons q => s.bit .BANK_CQ_STATUS 20 q
  | .tile t k => s.bit .BANK_TQ_STATUS (4 + k) t

/-- The voltage in mV that the power manager commands for VDD_SRAM (R367): that of retention while every quad on the chip is in lull. -/
def State.sramMillivolts (s : State) : Nat :=
  if (List.range 16).all (fun q => s.inLull (.commons q)) && (List.range 68).all (fun t => (List.range 4).all (fun k => s.inLull (.tile t k)))
  then 500 else 750

/-- The lull bit of a quad set. -/
def State.setLull (s : State) (x : QuadRef) (b : Bool) : State :=
  match x with
  | .commons q => s.wrB .BANK_CQ_STATUS 21 b q
  | .tile t k => s.wrB .BANK_TQ_STATUS k b t

/-- The waking bit of a quad set. -/
def State.setWaking (s : State) (x : QuadRef) (b : Bool) : State :=
  match x with
  | .commons q => s.wrB .BANK_CQ_STATUS 20 b q
  | .tile t k => s.wrB .BANK_TQ_STATUS (4 + k) b t

/-- Idle lull is forbidden for a quad (NOLULL). -/
def State.noLull (s : State) : QuadRef → Bool
  | .commons q => s.bit .BANK_CQ_CTRL 1 q
  | .tile t k => s.bit .BANK_TQ_CTRL k t

/-- The holder of a quad (R77). -/
def State.quadHolder (s : State) : QuadRef → Option Nat
  | .commons q => s.quadOwner q
  | .tile t k => (s.logicalOf t).bind (fun l => s.tileQuadHolder l k)

/-- The handover state of a commons quad: 0 OWNED, 1 OFFERED, 2 DRAINING (R80). -/
def State.hstate (s : State) (q : Nat) : Nat := s.fld .BANK_CQ_STATUS 23 22 q

/-- The offered partition of a commons quad. -/
def State.quadTarget (s : State) (q : Nat) : Nat := s.fld .BANK_CQ_STATUS 27 24 q

/-- The handover state set. -/
def State.setHstate (s : State) (q h : Nat) : State := s.wrF .BANK_CQ_STATUS 23 22 h q

/-- The quads in lull or waking that a range touches. -/
def State.sleepingQuads (s : State) (a n : Nat) : List QuadRef :=
  ((blocksOf 0x100000 a n).filterMap (fun b => s.quadAt (max a (b * 0x100000)))).filter (fun x => s.inLull x || s.waking x)

/-- A quad in lull starts its wake (R84). -/
def State.startWake (s : State) (x : QuadRef) : State :=
  if s.inLull x then (s.setLull x false).setWaking x true else s

/-- Quads in lull start their wakes. -/
def State.wakeAll (s : State) (l : List QuadRef) : State := l.foldl (fun s x => s.startWake x) s

/-- The quads in lull or waking that several ranges touch. -/
def State.asleep (s : State) (l : List (Nat × Nat)) : List QuadRef := l.flatMap (fun r => s.sleepingQuads r.1 r.2)

/-- The first byte of a request and how many it asks for. -/
def MemOp.range : MemOp → Nat × Nat
  | .read a n => (a, n)
  | .write a d => (a, d.length)

/-- Two requests touch one 64-byte word. -/
def MemOp.sharesWord (x y : MemOp) : Bool :=
  (blocksOf 64 x.range.1 x.range.2).any (fun b => (blocksOf 64 y.range.1 y.range.2).contains b)

/-- The quad that a request waits for: the last that sleeps of those it touches, or the one that an earlier request of the same agent
to one of its words waits for (R11, R84). -/
def State.holdOn (s : State) (a : Agent) (op : MemOp) : Option QuadRef :=
  match (s.sleepingQuads op.range.1 op.range.2).getLast? with
  | some q => some q
  | none => (s.bank.held.find? (fun h => h.2.1 == a && h.2.2.sharesWord op)).map Prod.fst

/-- A request waits for a quad; those it touches start their wakes. -/
def State.hold (s : State) (q : QuadRef) (a : Agent) (op : MemOp) : State :=
  let s := s.wakeAll (s.sleepingQuads op.range.1 op.range.2)
  { s with bank := { s.bank with held := s.bank.held ++ [(q, a, op)] } }

end Sys2Proof.Machine
end

