-- ==== Sys2Proof/Machine/Traffic.lean ====
section
/-!
DEFINITION. Headwind's entries and what their requests debit (R200 to R202), and the accesses to memory that the engines and the
tiles make on their own: each is checked as any agent's (R10) and debits its entry.
-/

namespace Sys2Proof.Machine

/-! ## Entries (R200 to R202) -/

/-- The master kind of an agent: 0 COPY, 1 UPDRAFT, 2 SEQ, 3 HOST, 4 DEVICE; the scheduler's live ranges count as COPY (R200). -/
def Agent.kind : Agent → Nat
  | .tile _ _ => 0
  | .engine 3 _ => 0
  | .engine 0 _ => 1
  | .engine 2 _ => 2
  | .core _ => 3
  | _ => 4

/-- The path of an address: 0 warm, 1 deep, 2 far; none for the memories outside Headwind. -/
def pathOf (a : Nat) : Option Nat :=
  match regionOf a with
  | .warm _ => some 0
  | .deep _ => some 1
  | .far _ => some 2
  | _ => none

/-- The index of the entry of an agent on a path, as the registers count it: 4 * kind + path. -/
def Agent.entry (a : Agent) (path : Nat) : Nat := 4 * a.kind + path

/-- The window length in us: 0 is taken as 1, above 100 as 100. -/
def State.hdwWindow (s : State) : Nat := min 100 (max 1 (s.fld .HDW_CFG 31 24))

/-- AGE_US. -/
def State.hdwAge (s : State) : Nat := max 1 (s.fld .HDW_CFG 23 16)

/-- URGENT_US. -/
def State.hdwUrgent (s : State) : Nat := max 1 (s.fld .HDW_CFG 15 8)

/-- An entry is regulated (R201). -/
def State.hdwEnabled (s : State) (p j : Nat) : Bool := p < 8 && s.bit .HDW_P_BUD 31 p j

/-- RATE of an entry in bytes per us: 100 MB/s units. -/
def State.hdwRate (s : State) (p j : Nat) : Nat := s.fld .HDW_P_BUD 15 0 p j * 100

/-- The credit of an entry in the window. -/
def State.hdwCredit (s : State) (p j : Nat) : Option Int := alGet s.hdw.credit (p, j)

/-- An entry is over budget: enabled, with its credit zero or below. -/
def State.hdwOver (s : State) (p j : Nat) : Bool :=
  s.hdwEnabled p j && (match s.hdwCredit p j with | some c => decide (c ≤ 0) | none => false)

/-- Bytes debited when a request is issued to its path (R202); the far path debits nothing while it is down (R210). -/
def State.hdwDebit (s : State) (a : Agent) (path n : Nat) : State :=
  let p := s.agentPart a
  let j := a.entry path
  if !s.hdwEnabled p j || (path = 2 && !s.farUp) then s
  else match s.hdwCredit p j with
    | some c => { s with hdw := { s.hdw with credit := alSet s.hdw.credit (p, j) (c - n) } }
    | none => s

/-! ## Accesses of the engines -/

/-- `n` bytes that an agent moves at an address debit its entry on that path. -/
def State.traffic (s : State) (a : Agent) (x n : Nat) : State :=
  match pathOf x with
  | some path => s.hdwDebit a path n
  | none => s

/-- A read that an engine makes for its work. -/
def State.engineRead (s : State) (a : Agent) (x n : Nat) : Option (List Byte) × State := (s.traffic a x n).readAs a x n

/-- A read that an engine makes in the course of a step: a quad that sleeps there starts its wake (R84), and the read does not wait for
it. -/
def State.fetch (s : State) (a : Agent) (x n : Nat) : Option (List Byte) × State := (s.wakeAll (s.sleepingQuads x n)).engineRead a x n

/-- A write that an engine makes for its work: whether it landed. -/
def State.engineWrite (s : State) (a : Agent) (x : Nat) (d : List Byte) : Bool × State := (s.traffic a x d.length).writeAs a x d

/-- A write that an engine makes in the course of a step: a quad that sleeps there starts its wake, and the write does not wait for it. -/
def State.put (s : State) (a : Agent) (x : Nat) (d : List Byte) : Bool × State :=
  (s.wakeAll (s.sleepingQuads x d.length)).engineWrite a x d

/-- A little-endian number that an engine reads; none where the read is refused or fails. -/
def State.engineNum (s : State) (a : Agent) (x n : Nat) : Option Nat × State :=
  match s.engineRead a x n with
  | (some d, s) => (some (ofBytesLE d), s)
  | (none, s) => (none, s)

/-- A write that a unit posts, and whether it is accepted: it waits where a quad sleeps (R84), and it is discarded with a record where
it is refused (R10, R32). -/
def State.postAs (s : State) (a : Agent) (x : Nat) (d : List Byte) : Bool × State :=
  match s.verdict a true x d.length with
  | .ok =>
    match s.holdOn a (.write x d) with
    | some q => (true, s.hold q a (.write x d))
    | none => (true, s.writePassed a x d)
  | v => (false, s.refusalRecord a v x)

/-- A write that an engine posts: its bytes debit its entry. -/
def State.postWrite (s : State) (a : Agent) (x : Nat) (d : List Byte) : State := ((s.traffic a x d.length).postAs a x d).2

/-- The fault controller as a requester for the control partition (R382): its log reads debit no entry (R203). -/
def faultAgent (p : Nat) : Agent := .engine 0x4000 p

end Sys2Proof.Machine
end

