-- ==== Sys2Proof/Machine/Jobs.lean ====
section
/-!
DEFINITION. Job contexts and the commands in progress on tiles (R62, R63, R69 to R73, R180 to R184, R190,
R191): the operations that the tile commands, the scheduler and the recovery ladder share.
-/

namespace Sys2Proof.Machine

/-! ## The words of a context (R181) -/

/-- Context STATE: 0 FREE, 1 SETUP, 2 READY, 3 RUNNING, 4 PREEMPTED, 5 PARKED, 6 STOPPED (the order of R184). -/
def ctxFree : Nat := 0
/-- SETUP. -/
def ctxSetup : Nat := 1
/-- READY. -/
def ctxReady : Nat := 2
/-- RUNNING. -/
def ctxRunning : Nat := 3
/-- PREEMPTED. -/
def ctxPreempted : Nat := 4
/-- PARKED. -/
def ctxParked : Nat := 5
/-- STOPPED. -/
def ctxStopped : Nat := 6

/-- The STATE of a context. -/
def State.jobState (s : State) (j : Nat) : Nat := s.fld .SCH_CTX 31 28 j 0
/-- The OWNER of a context. -/
def State.jobOwner (s : State) (j : Nat) : Nat := s.fld .SCH_CTX 27 24 j 0
/-- The CLASS of a context: 0 RT, 1 interactive, 2 batch. -/
def State.jobClass (s : State) (j : Nat) : Nat := s.fld .SCH_CTX 23 22 j 0
/-- The PRIO of a context. -/
def State.jobPrio (s : State) (j : Nat) : Nat := s.fld .SCH_CTX 21 16 j 0
/-- The plan slot of a context, if it uses a plan. -/
def State.jobPlan (s : State) (j : Nat) : Option Nat :=
  if s.bit .SCH_CTX 31 j 2 then some (s.fld .SCH_CTX 29 24 j 2) else none
/-- GANG. -/
def State.jobGang (s : State) (j : Nat) : Nat := s.fld .SCH_CTX 22 16 j 2
/-- MAX_SPAN in us. -/
def State.jobMaxSpan (s : State) (j : Nat) : Nat := s.fld .SCH_CTX 15 0 j 2
/-- ALLOWED, 64 logical tiles. -/
def State.jobAllowed (s : State) (j : Nat) : Nat := s.rd .SCH_CTX j 3 + 2 ^ 32 * s.rd .SCH_CTX j 4
/-- PLACED, 64 logical tiles. -/
def State.jobPlaced (s : State) (j : Nat) : Nat := s.rd .SCH_CTX j 5 + 2 ^ 32 * s.rd .SCH_CTX j 6
/-- QBASE. -/
def State.jobQbase (s : State) (j : Nat) : Nat := s.rd .SCH_CTX j 7 + 2 ^ 32 * s.fld .SCH_CTX 15 0 j 8
/-- SAVE_KIB. -/
def State.jobSaveKib (s : State) (j : Nat) : Nat := s.fld .SCH_CTX 31 20 j 9
/-- QSIZE. -/
def State.jobQsize (s : State) (j : Nat) : Nat := s.fld .SCH_CTX 12 0 j 9
/-- SAVE, the save area. -/
def State.jobSave (s : State) (j : Nat) : Nat := s.rd .SCH_CTX j 14 + 2 ^ 32 * s.fld .SCH_CTX 15 0 j 15
/-- LEAD in us. -/
def State.jobLead (s : State) (j : Nat) : Nat := s.fld .SCH_CTX 15 0 j 13

/-- A context's STATE set. -/
def State.setJobState (s : State) (j st : Nat) : State := s.wrF .SCH_CTX 31 28 st j 0

/-- What the words of a context do not show. -/
def State.job (s : State) (j : Nat) : Ctx := (alGet s.sch.ctxs j).getD {}

/-- That part of a context set. -/
def State.setJob (s : State) (j : Nat) (c : Ctx) : State :=
  { s with sch := { s.sch with ctxs := alSet s.sch.ctxs j c } }

/-- What a physical tile carries. -/
def State.run (s : State) (t : Nat) : TileRun := (alGet s.sch.runs t).getD {}

/-- That set. -/
def State.setRun (s : State) (t : Nat) (r : TileRun) : State :=
  { s with sch := { s.sch with runs := alSet s.sch.runs t r } }

/-- The logical tiles bound to a context, in gang order (R182). -/
def State.gangTiles (s : State) (j : Nat) : List Nat := bitsSet 64 (s.jobPlaced j)

/-- The physical tiles that carry a context now. -/
def State.tilesOf (s : State) (j : Nat) : List Nat :=
  (List.range 68).filter (fun t => (s.run t).ctx == some j || (match (s.run t).parked with | some (k, _) => k == j | none => false))

/-- The gang position record at position `i`. -/
def State.gangPos (s : State) (j i : Nat) : GangPos := ((s.job j).pos)[i]?.getD {}

/-- That set. -/
def State.setGangPos (s : State) (j i : Nat) (f : GangPos → GangPos) : State :=
  let c := s.job j
  s.setJob j { c with pos := listUpdate c.pos i f }

/-- The contexts that are not FREE. -/
def State.usedJobs (s : State) : List Nat := (List.range 1024).filter (fun j => s.jobState j != ctxFree)

/-- An event of the scheduler for a partition: EVENT bit `k` and the context (R199). -/
def State.schEvent (s : State) (p k j : Nat) : State := (s.setB .SCH_P_EVENT k p).wrF .SCH_P_EVENT 25 16 j p

/-! ## Queues (R182) -/

/-- The address of the TAIL counter of a gang position. -/
def State.tailAddr (s : State) (j i : Nat) : Nat := s.jobQbase j + 4 * i

/-- The address of the HEAD counter of a gang position. -/
def State.headAddr (s : State) (j i : Nat) : Nat := s.jobQbase j + 0x100 + 4 * i

/-- The agent that reads and writes the queue counters for a job (R182, R382): the scheduler. -/
def State.schAgent (s : State) (j : Nat) : Agent := .engine 3 (s.jobOwner j)

/-- The TAIL counter of a gang position as the scheduler reads it (R10): none where the read is refused or fails. -/
def State.jobTail (s : State) (j i : Nat) : Option Nat × State :=
  match s.readAs (s.schAgent j) (s.tailAddr j i) 4 with
  | (some d, s) => (some (ofBytesLE d), s)
  | (none, s) => (none, s)

/-- The HEAD counter of a gang position as the scheduler reads it. -/
def State.jobHead (s : State) (j i : Nat) : Option Nat × State :=
  match s.readAs (s.schAgent j) (s.headAddr j i) 4 with
  | (some d, s) => (some (ofBytesLE d), s)
  | (none, s) => (none, s)

/-- The address of slot `n` (counters run freely; slot `n` lies at `n` mod QSIZE). -/
def State.slotAddr (s : State) (j i n : Nat) : Nat :=
  s.jobQbase j + 0x1000 + (i * s.jobQsize j + n % max 1 (s.jobQsize j)) * 64

/-- The sixteen words of slot `n`: a read that is refused or fails returns data 0 (R10). -/
def State.slotWords (s : State) (j i n : Nat) : List Nat :=
  match (s.readAs (.tile 0 (s.jobOwner j)) (s.slotAddr j i n) 64).1 with
  | some d => (List.range 16).map (fun k => ofBytesLE ((d.drop (4 * k)).take 4))
  | none => List.replicate 16 0

/-- Word `k` of a command. -/
def wordAt (w : List Nat) (k : Nat) : Nat := w.getD k 0

/-- A field of a command word. -/
def wfld (w : List Nat) (k hi lo : Nat) : Nat := bitsOf (wordAt w k) hi lo

/-- OPCODE of a command (R63). -/
def opcodeOf (w : List Nat) : Nat := wfld w 0 7 0

/-- TAG of a command (R63). -/
def tagOf (w : List Nat) : Nat := wfld w 0 31 16

/-- The queue of a gang position is empty: nothing runs and no slot waits (R191). -/
def State.queueEmpty (s : State) (j i t : Nat) : Bool :=
  (s.run t).running.isEmpty && (s.gangPos j i).next = (s.gangPos j i).tail

/-- Opcodes of commands that hold their queue until they end: WAIT, GATE, CHEAP, COLLECTIVE. -/
def holdsQueue (op : Nat) : Bool := [5, 7, 8, 9].contains op

/-- A tile is at a cheap point (R191). -/
def State.atCheapPoint (s : State) (t : Nat) : Bool :=
  let r := s.run t
  match r.ctx with
  | none => true
  | some j =>
    (s.gangPos j r.pos).atCheap && r.running.all (fun c => c.done || [5, 7].contains (opcodeOf c.words))
      || s.queueEmpty j r.pos t

/-- Job `j` is at a cheap point on a tile: also where it is parked there (R193). -/
def State.atCheapFor (s : State) (j t : Nat) : Bool :=
  (match (s.run t).parked with | some (k, _) => k == j | none => false) || s.atCheapPoint t

/-- TILE_SPAN (R73, R192): us since the tile's job left its last cheap point, 0 at one. -/
def State.tileSpan (s : State) (t : Nat) : Nat :=
  if s.atCheapPoint t then 0 else min 0xFFFFF ((s.now - (s.run t).spanAt) / 1000)

/-- The status bits of a tile from what it carries (R73). -/
def State.showTile (s : State) (t : Nat) : State :=
  let r := s.run t
  let live := r.running.filter (fun c => !c.done)
  let has (l : List Nat) := live.any (fun c => l.contains (opcodeOf c.words))
  let w := (match r.ctx with | some j => j * 0x10000 + 0x10 | none => 0) + (if r.stopped then 8 else 0)
    + (if has [5, 7] then 4 else 0) + (if has [1] then 2 else 0) + (if live.isEmpty then 0 else 1)
  s.wr .TILE_STATUS w t

/-- What a tile carries changed, with its status bits. -/
def State.updRun (s : State) (t : Nat) (f : TileRun → TileRun) : State := (s.setRun t (f (s.run t))).showTile t

/-! ## Ends of commands (R69 to R71) -/

/-- HEAD written: the commands at the front of the queue that have completed retire, in queue order (R182). -/
def State.retire (s : State) (t : Nat) : State :=
  let r := s.run t
  let left := r.running.dropWhile (fun c => c.done)
  let s := s.updRun t (fun r => { r with running := left })
  match r.ctx with
  | some j =>
    let head := match left with | c :: _ => c.slot | [] => (s.gangPos j r.pos).next
    s.postWrite (s.schAgent j) (s.headAddr j r.pos) (bytesLE 4 head)
  | none => s

/-- Flags ORed into TILE_FLAGS and the job's FLAGS (R55), with one flag interrupt for each change of TILE_FLAGS
from 0 to nonzero (R72). -/
def State.raiseFlags (s : State) (t : Nat) (j : Option Nat) (f : Nat) : State :=
  let old := s.rd .TILE_FLAGS t
  let s := s.wr .TILE_FLAGS (old ||| f) t
  let s := if old = 0 && f ≠ 0 && s.bit .TILE_IRQ_EN 2 t then s.pulse (.tileFlag t) else s
  match j with
  | some j => s.wr .SCH_CTX (s.rd .SCH_CTX j 10 ||| f) j 10
  | none => s

/-- The command in slot `n` of a tile completes with OK: its flags, TILE_DONE_TAG, TILE_CMD_COUNT, its interrupt
(R69, R73). -/
def State.finish (s : State) (t n flags : Nat) : State :=
  let r := s.run t
  match r.running.find? (fun c => c.slot == n && !c.done) with
  | none => s
  | some c =>
    let s := s.raiseFlags t r.ctx flags
    let s := s.wr .TILE_DONE_TAG (tagOf c.words) t
    let s := s.bump .TILE_CMD_COUNT t
    let s := if wfld c.words 0 8 8 = 1 && s.bit .TILE_IRQ_EN 0 t then s.pulse (.tileDone t) else s
    let s := s.updRun t (fun r => { r with running := r.running.map (fun d => if d.slot = n then { d with done := true } else d) })
    let s := match r.ctx with
      | some j => if [5, 7].contains (opcodeOf c.words) && (s.gangPos j r.pos).atCheap then
          (s.setGangPos j r.pos (fun g => { g with atCheap := false })).updRun t (fun r => { r with spanAt := s.now }) else s
      | none => s
    s.retire t

/-- A stall of a gate of a plan ends (R130): its time goes into STALL_US and STALL_MAX, and WAITING stays while another
gate of the plan stalls. -/
def State.endStall (s : State) (n i : Nat) : State :=
  match alGet s.upd.plans n with
  | none => s
  | some x =>
    match alGet x.gates i with
    | none => s
    | some g =>
      if !g.stalled then s
      else
        let us := (s.now - g.since) / 1000
        let x := { x with gates := alSet x.gates i { g with stalled := false } }
        let s := { s with upd := { s.upd with plans := alSet s.upd.plans n x } }
        let s := s.wr .UPD_PLAN_STALL_US (min 0xFFFFFFFF (s.rd .UPD_PLAN_STALL_US n + us)) n
        let s := s.wr .UPD_PLAN_STALL_MAX (min 0xFFFFFF (max (s.rd .UPD_PLAN_STALL_MAX n) us)) n
        s.wrB .UPD_PLAN_STATUS 28 (x.gates.any (fun y => y.2.stalled)) n

/-- The gate of a gang position no longer waits: its GATE has ended or is abandoned. -/
def State.dropGate (s : State) (j i : Nat) : State :=
  match s.jobPlan j with
  | none => s
  | some n =>
    let s := s.endStall n i
    match alGet s.upd.plans n with
    | none => s
    | some x =>
      match alGet x.gates i with
      | none => s
      | some g => { s with upd := { s.upd with plans := alSet s.upd.plans n { x with gates := alSet x.gates i { g with gate := none } } } }

/-- TILE_ERR holds the first failing command (R71, R72). -/
def State.loadTileErr (s : State) (t status tag : Nat) : State :=
  if s.bit .TILE_ERR 31 t then s else s.wr .TILE_ERR (2 ^ 31 + status * 0x10000 + tag) t

/-- A command of job `j` on a tile ends with a status other than OK (R71): TILE_ERR, a record of class engine command, the tile's error
interrupt. -/
def State.reportStatus (s : State) (t : Nat) (j : Option Nat) (w : List Nat) (status : Nat) : State :=
  let s := s.loadTileErr t status (tagOf w)
  let p := match j with | some j => s.jobOwner j | none => 0xFF
  let s := s.record { cls := 0x05, part := p, source := t, detail := status, context := j.getD 0xFFFFFFFF, tag := tagOf w }
  if s.bit .TILE_IRQ_EN 1 t then s.pulse (.tileErr t) else s

/-- A command in progress goes on when its job stops at a command that started at raw `since` (R71, R178): it started no later, and
does not hold its queue. -/
def RunCmd.goesOn (c : RunCmd) (since : Nat) : Bool := c.done || (!holdsQueue (opcodeOf c.words) && c.started ≤ since)

/-- The next slot of a position goes back to the first of the commands that it takes up again. -/
def State.rewind (s : State) (j pos : Nat) (l : List RunCmd) : State :=
  match l with
  | c :: _ => s.setGangPos j pos (fun (g : GangPos) => { g with next := c.slot })
  | [] => s

/-- The queue of job `j` on a tile stops (R71, R198): what does not go on is dropped and runs again after a RESUME; a COLLECTIVE among it
ends with ABORTED. -/
def State.stopTile (s : State) (j since t : Nat) : State :=
  let r := s.run t
  if r.ctx ≠ some j then s
  else
    let gone := r.running.filter (fun c => !c.goesOn since)
    let s := (gone.filter (fun c => opcodeOf c.words == 9)).foldl (fun s c => s.reportStatus t (some j) c.words 7) s
    let s := s.rewind j r.pos gone
    s.updRun t (fun r => { r with stopped := true, running := r.running.filter (fun c => c.goesOn since) })

/-- The slots of a plan's gang are abandoned when its job leaves (R134): they refill from the gated layer. -/
def State.abandonSlots (s : State) (j : Nat) : State :=
  match s.jobPlan j with
  | none => s
  | some n =>
    match alGet s.upd.plans n with
    | none => s
    | some x =>
      let x' := { x with gates := x.gates.map (fun g => (g.1, { g.2 with filled := [] })) }
      { s with upd := { s.upd with plans := alSet s.upd.plans n x' } }

/-- No gate of a job's gang waits any more. -/
def State.dropGates (s : State) (j : Nat) : State := (List.range (s.jobGang j)).foldl (fun s i => s.dropGate j i) s

/-- Every queue of a job stops: the context goes to STOPPED with the status and the tag (R71, R184).  Commands that started
no later than raw `since` complete. -/
def State.stopJob (s : State) (j status tag since : Nat) : State :=
  let s := (s.tilesOf j).foldl (State.stopTile · j since ·) s
  let s := (s.dropGates j).abandonSlots j
  let s := s.setJobState j ctxStopped
  let s := (s.wrF .SCH_CTX 23 16 status j 1).wrF .SCH_CTX 15 0 tag j 1
  let s := s.setJob j { s.job j with saving := none, restoring := false, displaced := false, holdReq := false, parkFor := [] }
  s.schEvent (s.jobOwner j) 1 j

/-- A command ends with a status other than OK, those that started after it on the tile with it; the queue stands at its slot. -/
def State.endCommand (s : State) (t : Nat) (w : List Nat) (slot status : Nat) : State :=
  let r := s.run t
  let s := s.reportStatus t r.ctx w status
  let s := s.updRun t (fun r => { r with running := r.running.takeWhile (fun c => c.slot != slot || c.done) })
  match r.ctx with
  | some j => s.setGangPos j r.pos (fun g => { g with next := slot })
  | none => s

/-- A command fails (R71): it ends with its status, and the job stops. -/
def State.failCommand (s : State) (t : Nat) (w : List Nat) (slot status : Nat) : State :=
  let r := s.run t
  let since := match r.running.find? (fun c => c.slot == slot && !c.done) with | some c => c.started | none => s.now
  let s := s.endCommand t w slot status
  match r.ctx with
  | some j => s.stopJob j status (tagOf w) since
  | none => s

/-! ## Starts of commands (R62, R63, R69, R70) -/

/-- The scratch ranges of a command (offset, length): those it reads and those it writes. -/
structure Ranges where
  reads : List (Nat × Nat) := []
  writes : List (Nat × Nat) := []
  deriving DecidableEq, Repr

/-- Two lists of ranges share a byte. -/
def anyMeet (a b : List (Nat × Nat)) : Bool := a.any (fun x => b.any (fun y => rangesMeet x.1 x.2 y.1 y.2))

/-- A command with ranges `b` must wait for an earlier one with ranges `a` (R69). -/
def Ranges.conflict (a b : Ranges) : Bool :=
  anyMeet a.writes b.reads || anyMeet a.writes b.writes || anyMeet a.reads b.writes

/-- The job's partition holds every quad that a scratch range touches, and the range ends within 4 MiB (R70). -/
def State.rangeOk (s : State) (p l : Nat) (r : Nat × Nat) : Bool :=
  r.1 + r.2 ≤ 0x400000 && (blocksOf 0x100000 r.1 r.2).all (fun q => s.tileQuadHolder l q == some p)

/-- The next command of a tile's queue: the job, its position and slot, and the words. -/
structure NextCmd where
  job : Nat
  pos : Nat
  slot : Nat
  words : List Nat
  deriving DecidableEq, Repr

/-- The slot that a tile takes next, with its job and gang position: the job is RUNNING, or PARKED and on this tile not lent (R193), and has not
yielded until its next release (R190), the tile has its power (R315, R323), its queue is not stopped, nothing holds it, and software has
advanced TAIL past the slot and rung the doorbell (R62, R182). -/
def State.queued (s : State) (t : Nat) : Option (Nat × Nat × Nat) :=
  let r := s.run t
  match r.ctx with
  | none => none
  | some j =>
    let g := s.gangPos j r.pos
    if (s.jobState j = ctxRunning || s.jobState j = ctxParked) && !g.yielded && !s.pwr.gated.contains t && !s.pwr.gale && !r.stopped
        && !(s.job j).restoring && (s.job j).saving == none
        && r.running.all (fun c => c.done || !holdsQueue (opcodeOf c.words))
        && g.next ≠ g.tail then
      some (j, r.pos, g.next)
    else none

/-- The next command that a tile may start; while its slot lies in a quad that sleeps, none (R84). -/
def State.nextCmd (s : State) (t : Nat) : Option NextCmd :=
  match s.queued t with
  | none => none
  | some x =>
    if (s.sleepingQuads (s.slotAddr x.1 x.2.1 x.2.2) 64).isEmpty then some ⟨x.1, x.2.1, x.2.2, s.slotWords x.1 x.2.1 x.2.2⟩ else none

/-- The read of a tile's next slot wakes the quad it lies in (R84). -/
def State.wakeQueue (s : State) (t : Nat) : State :=
  match s.queued t with
  | none => s
  | some x => s.wakeAll (s.sleepingQuads (s.slotAddr x.1 x.2.1 x.2.2) 64)

/-- A queue position takes its next slot: the slot is read once (R62); the tile leaves its cheap point unless the
command is a WAIT or a GATE (R191). -/
def State.takeSlot (s : State) (t : Nat) (c : NextCmd) : State :=
  let keep := [5, 7].contains (opcodeOf c.words)
  let was := (s.gangPos c.job c.pos).atCheap
  let s := s.setGangPos c.job c.pos (fun g => { g with next := (c.slot + 1) % 2 ^ 32, atCheap := g.atCheap && keep })
  if was && !keep then s.updRun t (fun r => { r with spanAt := s.now }) else s

/-- The header checks of every command (R63): the reserved bit, VERIFY outside COPY, word 1 where it is reserved,
and SR and GROUP within their values. -/
def headerOk (w : List Nat) : Bool :=
  let op := opcodeOf w
  wfld w 0 15 15 = 0 && (op = 3 || wfld w 0 10 10 = 0) && ([1, 2].contains op || wordAt w 1 = 0) && wfld w 0 14 13 ≠ 3

/-- The agent of a tile working for job `j`. -/
def State.tileAgent (s : State) (t j : Nat) : Agent := .tile t (s.jobOwner j)

/-- The next command of a tile joins the commands in progress (R63). -/
def State.issueCmd (s : State) (t : Nat) (c : NextCmd) : State :=
  let s := s.takeSlot t c
  s.updRun t (fun r => { r with running := r.running ++ [⟨c.words, c.slot, s.now, false⟩] })

/-- The next command of a tile starts as an `op`: earlier commands are waited for where BARRIER, `drain` or the
ranges ask it; the front-end check runs first (R70); a failing command ends without a write.  A slot whose read is refused or fails is an
error response to the command: it ends with MEM_ERROR (R10). -/
def State.startCmd (s : State) (t op : Nat) (drain : Bool) (check : NextCmd → Nat) (ranges : List Nat → Ranges) :
    Option (NextCmd × State) :=
  match s.nextCmd t with
  | none => none
  | some c =>
    if opcodeOf c.words ≠ op then none
    else
      let live := (s.run t).running.filter (fun d => !d.done)
      let blocked := (drain || wfld c.words 0 12 12 = 1) && !live.isEmpty
        || live.any (fun d => (ranges d.words).conflict (ranges c.words))
      if blocked then none
      else
        match s.readAs (s.tileAgent t c.job) (s.slotAddr c.job c.pos c.slot) 64 with
        | (none, u) => some (c, (u.issueCmd t c).failCommand t c.words c.slot 4)
        | (some _, _) =>
          let st := if headerOk c.words then check c else 1
          let s := s.issueCmd t c
          if st = 0 then some (c, s) else some (c, s.failCommand t c.words c.slot st)

/-- The logical tile of a tile's job. -/
def State.logicalOfRun (s : State) (t : Nat) : Nat := (s.logicalOf t).getD 0

/-- A PARKED borrower that an RT job holds up on no tile any more is RUNNING again (R184). -/
def State.unpark (s : State) (k : Nat) : State :=
  if s.jobState k = ctxParked && (s.tilesOf k).all (fun u => (s.run u).ctx == some k) then
    let c := s.job k
    (s.setJobState k ctxRunning).setJob k { c with parkFor := [], sliceAt := c.sliceAt + (s.now - c.parkedAt) }
  else s

/-- A tile job unbound from a physical tile: a borrower parked under it goes on there (R193). -/
def State.unbindTile (s : State) (t : Nat) : State :=
  match (s.run t).parked with
  | some (k, i) =>
    (s.updRun t (fun r => { r with ctx := some k, pos := i, parked := none, running := [],
                                   stopped := s.jobState k == ctxStopped })).unpark k
  | none => s.updRun t (fun r => { r with ctx := none, pos := 0, running := [], stopped := false })

/-- A job leaves all its tiles. -/
def State.unbindJob (s : State) (j : Nat) : State :=
  (s.tilesOf j).foldl (fun s t =>
    if (s.run t).ctx = some j then s.unbindTile t else s.updRun t (fun r => { r with parked := none })) s

/-- The plan binding of a job released: UPD_PLANn_JOB no longer names it (R183); stalls of its gates end (R130), and nothing of
its gates, slots and routes stays for the next job. -/
def State.unbindPlan (s : State) (j : Nat) : State :=
  match s.jobPlan j with
  | some n =>
    if s.bit .UPD_PLAN_STATUS 29 n && s.fld .UPD_PLAN_JOB 9 0 n = j then
      let s := (s.dropGates j).clrB .UPD_PLAN_STATUS 29 n
      { s with upd := { s.upd with plans := s.upd.plans.map (fun y => if y.1 = n then (n, { y.2 with gates := [] }) else y) } }
    else s
  | none => s

/-- A context becomes FREE (R184): unbound, its plan released, its words cleared. -/
def State.freeJob (s : State) (j : Nat) : State :=
  if s.jobState j = ctxFree then s
  else
    let s := (s.unbindPlan j).unbindJob j
    let s := (List.range 16).foldl (fun s k => s.wr .SCH_CTX 0 j k) s
    let s := { s with sch := { s.sch with ctxs := mapErase j s.sch.ctxs } }
    s.wr .SCH_FREE_CTX (s.rd .SCH_FREE_CTX + 1)

/-- The commands of job `j` in progress on a tile end with ABORTED (R70, R71, R72). -/
def State.abortTile (s : State) (j t : Nat) : State :=
  let r := s.run t
  if r.ctx ≠ some j then s
  else
    let live := r.running.filter (fun c => !c.done)
    let s := live.foldl (fun s c => s.reportStatus t (some j) c.words 7) s
    let s := s.rewind j r.pos live
    s.updRun t (fun r => { r with stopped := true, running := [] })

/-- A job aborted by rung 1 or a fence (R184, R337): running commands end ABORTED and the context stops; a save or
restore in progress is discarded (R198).  The slots of its plan refill from the gated layer (R134). -/
def State.abortJob (s : State) (j : Nat) : State :=
  if s.jobState j = ctxRunning || s.jobState j = ctxParked then
    let tag := match s.tilesOf j with
      | t :: _ => (match (s.run t).running.find? (fun c => !c.done) with | some c => tagOf c.words | none => 0)
      | [] => 0
    let s := (s.tilesOf j).foldl (State.abortTile · j ·) s
    s.stopJob j 7 tag s.now
  else s

end Sys2Proof.Machine
end

