-- ==== Sys2Proof/Machine/Faults.lean ====
section
/-!
DEFINITION. Domains and the opening of recoveries (R336 to R340, R383): which resources a domain holds, how a new
fault meets a recovery in progress, the fence and the escalations; the bytes of a record (R332).
-/

namespace Sys2Proof.Machine

/-! ## Records as bytes -/

/-- The 64 bytes of a record (R332). -/
def FaultRecord.bytes (r : FaultRecord) : List Byte :=
  let b := bytesLE 4 r.seq ++ bytesLE 1 r.fault.cls ++ bytesLE 1 r.rung ++ bytesLE 1 r.fault.part ++ bytesLE 1 r.kind ++
    bytesLE 8 r.time ++ bytesLE 2 r.fault.source ++ bytesLE 2 r.fault.detail ++ bytesLE 4 r.fault.context ++
    bytesLE 8 r.fault.address ++ bytesLE 4 r.fault.tag ++ bytesLE 4 r.recovery ++ bytesLE 4 r.merged ++
    bytesLE 4 r.duration ++ List.replicate 12 0
  b ++ bytesLE 4 (crc32c b)

/-! ## Domains (R336) -/

/-- The resources of a domain as bit masks: job contexts, physical tiles, host cores, and the state that partition
`p` owns in engine `e` as bit 8 * e + p. -/
structure Resources where
  jobs : Nat := 0
  tiles : Nat := 0
  cores : Nat := 0
  engines : Nat := 0
  whole : Bool := false
  deriving DecidableEq, Repr

/-- The resources of one set lie in another. -/
def Resources.within (a b : Resources) : Bool :=
  b.whole || (!a.whole && a.jobs &&& b.jobs == a.jobs && a.tiles &&& b.tiles == a.tiles &&
    a.cores &&& b.cores == a.cores && a.engines &&& b.engines == a.engines)

/-- Two sets share a resource. -/
def Resources.meet (a b : Resources) : Bool :=
  a.whole || b.whole || a.jobs &&& b.jobs != 0 || a.tiles &&& b.tiles != 0 || a.cores &&& b.cores != 0 ||
    a.engines &&& b.engines != 0

/-- The resources of two sets together. -/
def Resources.join (a b : Resources) : Resources :=
  { jobs := a.jobs ||| b.jobs, tiles := a.tiles ||| b.tiles, cores := a.cores ||| b.cores,
    engines := a.engines ||| b.engines, whole := a.whole || b.whole }

/-- The owner of an engine, which only Breeze, Veer and the Crosswind engines have (R339). -/
def State.engineOwner (s : State) (e : Nat) : Option Nat :=
  let o := if e = 5 || e = 6 then s.fld .XW_CFG 31 28 else if e = 7 then s.fld .VEER_CFG 31 28
    else if e = 8 then s.fld .BRZ_CFG 31 28 else 0xF
  if o < 8 then some o else none

/-- The jobs that a physical tile carries. -/
def State.tileHolds (s : State) (t : Nat) : List Nat :=
  ((s.run t).ctx).toList ++ ((s.run t).parked).toList.map Prod.fst

/-- The resources of a domain: a tile includes the contexts bound to it, Updraft those with a plan bound, a
partition its tiles, host clusters, contexts and its state in the engines (R336). -/
def State.resources (s : State) : Domain → Resources
  | .ctx j => { jobs := 2 ^ j }
  | .tile t => { tiles := 2 ^ t, jobs := maskOfJobs (s.tileHolds t) }
  | .core n => { cores := 2 ^ n }
  | .cluster c => { cores := 0xF <<< (4 * c) }
  | .engine e => { engines := 0xFF <<< (8 * e),
                   jobs := if e = 0 then maskOfJobs (s.usedJobs.filter (fun j => (s.jobPlan j).isSome)) else 0 }
  | .part p =>
    { jobs := maskOfJobs (s.usedJobs.filter (fun j => s.jobOwner j == p))
      tiles := maskOfJobs ((List.range 68).filter (fun t => s.physOwner t == some p))
      cores := ((List.range 4).filter (fun c => s.clusterOwner c == some p)).foldl (fun m c => m ||| (0xF <<< (4 * c))) 0
      engines := (List.range 16).foldl (fun m e => m ||| 2 ^ (8 * e + p)) 0 }
  | .chip | .package => { whole := true }
where
  /-- A mask with the bits of a list. -/
  maskOfJobs (l : List Nat) : Nat := l.foldl (fun m b => m ||| 2 ^ b) 0

/-- The rung of a domain (R336). -/
def Domain.rung : Domain → Nat
  | .ctx _ => 1
  | .tile _ | .core _ | .cluster _ | .engine _ => 2
  | .part _ => 3
  | .chip => 4
  | .package => 5

/-- The partition a record of a domain names: its owner, or 0xFF. -/
def State.domainPart (s : State) : Domain → Nat
  | .ctx j => s.jobOwner j
  | .tile t => (s.physOwner t).getD 0xFF
  | .core n => (s.clusterOwner (n / 4)).getD 0xFF
  | .cluster c => (s.clusterOwner c).getD 0xFF
  | .engine e => (s.engineOwner e).getD 0xFF
  | .part p => p
  | .chip | .package => 0xFF

/-- The smallest domain that covers a set of resources (R340). -/
def State.cover (s : State) (r : Resources) : Domain :=
  let l := (List.range 68).map Domain.tile ++ (List.range 4).map Domain.cluster ++ (List.range 16).map Domain.engine ++
    s.partList.map Domain.part
  (l.find? (fun d => r.within (s.resources d))).getD .chip

/-- The next rung up from a domain (R339): the smallest domain of a higher rung that contains it; of an engine its owner, if it has
one. -/
def State.nextUp (s : State) (d : Domain) : Domain :=
  match d with
  | .chip | .package => .package
  | .part _ => .chip
  | .engine e => (match s.engineOwner e with | some p => .part p | none => .chip)
  | _ =>
    let l := (if d.rung = 1 then (List.range 68).map Domain.tile else []) ++ s.partList.map Domain.part
    (l.find? (fun x => (s.resources d).within (s.resources x))).getD .chip

/-! ## Recoveries -/

/-- FLT_STATUS shows the recoveries in progress (R345). -/
def State.showRecoveries (s : State) : State :=
  let l := s.flt.recoveries
  let s := s.wrF .FLT_STATUS 31 28 (min 15 l.length)
  s.wrF .FLT_STATUS 27 25 (l.foldl (fun m r => max m r.rung) 0)

/-- The record that closes a recovery (R383): DETAIL 0 completed, 1 escalated, 2 abandoned. -/
def State.closeRecovery (s : State) (r : Recovery) (detail : Nat) : State :=
  let s := { s with flt := { s.flt with recoveries := s.flt.recoveries.filter (fun x => x.number != r.number) } }
  let s := s.addRecord { r.fault with cls := 0x12, detail := detail } r.rung 2 r.number r.merged ((r.spent + (s.now - r.since)) / 1000)
  s.showRecoveries

/-- How often R339 has counted a domain within a number of seconds. -/
def State.escCount (s : State) (d : Domain) (sec : Nat) : Nat :=
  (s.flt.history.filter (fun e => e.domain == d && s.now < e.time + sec * 1000000000)).length

/-- The escalations of R339 that count recoveries (FLT_CFG.ESC_EN): the domain that a fourth recovery takes. -/
def State.escalate (s : State) (d : Domain) : Domain :=
  if !s.bit .FLT_CFG 19 then d
  else
    let up : Domain := if 3 ≤ s.escCount .chip 3600 then .package else .chip
    let part (p : Nat) : Domain := if 3 ≤ s.escCount (.part p) 600 && p = s.ctrl then up else .part p
    match d with
    | .engine e =>
      if 3 ≤ s.escCount d 60 then (match s.engineOwner e with | some p => part p | none => up) else d
    | .part p => part p
    | .chip => up
    | x => x

/-- A partition whose fourth rung-3 recovery in 600 s opens is held in quarantine (R339). -/
def State.quarantines (s : State) : Domain → Bool
  | .part p => s.bit .FLT_CFG 19 && 3 ≤ s.escCount (.part p) 600 && p ≠ s.ctrl
  | _ => false

/-- A load that has not begun its fence ends with ABORTED, where the recovery reaches rung 3 of its target or rung 4
(R37, R40). -/
def State.abortLoad (s : State) : State :=
  match s.spl.load with
  | none => s
  | some l =>
    let s := { s with spl := { s.spl with load := none } }
    let s := (s.clrB .SPL_BUSY 0).wrF .SPL_BUSY 11 8 0
    let s := ((s.clrB .SPL_CTRL 31 l.bank).wrF .SPL_STATUS 7 0 0x10 l.bank).setB .SPL_STATUS 9 l.bank
    (s.pulse (.loader l.bank)).record { cls := 0x04, part := l.target.getD 0xFF, source := 0x7000, detail := 0x10 }

/-- The load that a recovery of a domain ends: one before its fence whose target the rung-3 domain is, or any before
its fence at rung 4 and 5. -/
def State.endsLoad (s : State) (d : Domain) : Bool :=
  match s.spl.load with
  | none => false
  | some l => l.phase != .fence && l.phase != .apply &&
      (match d with | .part p => l.target == some p | .chip | .package => true | _ => false)

/-- The fence begins (R337): the domain starts no new work. -/
def State.fenceStart (s : State) (d : Domain) : State :=
  let r := s.resources d
  ((List.range 68).filter (fun t =>
    r.whole || bitOf r.tiles t || (match (s.run t).ctx with | some j => bitOf r.jobs j | none => false))).foldl
      (fun s t => if (s.run t).ctx.isSome then s.updRun t (fun x => { x with stopped := true }) else s) s

/-- A recovery opens (R383): its record of KIND 0, the rung's counter, the fence; a rung 4 decided during a security-version commit waits
for that before its fence begins (R28). -/
def State.startRecovery (s : State) (d : Domain) (f : FaultDesc) (since : Nat) : State :=
  let q := s.quarantines d
  let n := s.flt.nextRecovery
  let waits : Bool := d == .chip && s.spl.commit
  let s := { s with flt := { s.flt with
      recoveries := s.flt.recoveries ++ [({ number := n, rung := d.rung, domain := d, phase := if waits then .waiting else .fencing, quarantine := q, since := since, fault := f } : Recovery)]
      nextRecovery := n + 1
      history := ⟨d.rung, d, s.now⟩ :: s.flt.history } }
  let s := s.addRecord f d.rung 0 n 0 0
  let s := s.bump .FLT_RUNG_COUNT d.rung
  let s := match d with | .part p => if q then s.setB .FLT_STATUS p else s | _ => s
  let s := if s.endsLoad d then s.abortLoad else s
  (if waits then s else s.fenceStart d).showRecoveries

/-- The load of partition `p` whose fence has begun takes a fault in `p` as merged (R37). -/
def State.mergedInLoad (s : State) (d : Domain) : Bool :=
  match s.spl.load with
  | some l => (l.phase == .fence || l.phase == .apply) &&
      (match l.target with | some p => (s.resources d).within (s.resources (.part p)) | none => false)
  | none => false

/-- A fault taken to the recovery of a domain (R339, R340): merged into a recovery that contains it, with no rung taken; rung 5 during
rung 4; else it opens a recovery of the domain, or of the smallest domain that also covers the recoveries it
overlaps, which are abandoned. -/
def State.openRecovery (s : State) (d0 : Domain) (f : FaultDesc) : State :=
  if s.mergedInLoad d0 then s.addRecord f 0 1 0 0 0
  else
    let during4 := s.flt.recoveries.any (fun r => r.rung == 4)
    let d := if during4 then .package else s.escalate d0
    match s.flt.recoveries.find? (fun r => !during4 && (s.resources d).within (s.resources r.domain)) with
    | some r =>
      let s := { s with flt := { s.flt with recoveries := s.flt.recoveries.map (fun (x : Recovery) =>
            if x.number = r.number then { x with merged := x.merged + 1 } else x) } }
      s.addRecord f 0 1 r.number 0 0
    | none =>
      let hit := s.flt.recoveries.filter (fun r => (s.resources d).meet (s.resources r.domain))
      let all := hit.foldl (fun x r => x.join (s.resources r.domain)) (s.resources d)
      let d' := if hit.isEmpty || d.rung ≥ 4 then d else s.escalate (s.cover all)
      let meeting := s.flt.recoveries.filter (fun r => (s.resources d').meet (s.resources r.domain))
      let s := meeting.foldl (fun s r => s.closeRecovery r 2) s
      s.startRecovery d' { f with part := if d'.rung < 3 then f.part else s.domainPart d' } s.now

/-- The fence of a load of partition `p` has begun and the load has not ended (R34). -/
def State.reloading (s : State) (p : Nat) : Bool :=
  match s.spl.load with
  | some l => (l.phase == .fence || l.phase == .apply) && l.target == some p
  | none => false

/-- An engine does no work for a partition: a fence or a reset holds it (R337), or a gale trip has stopped its clock (R321). -/
def State.fencedEngine (s : State) (e p : Nat) : Bool :=
  s.pwr.gale || s.reloading p || s.flt.recoveries.any (fun r => r.phase != .waiting &&
    (r.domain == .engine e || r.domain == .chip || r.domain == .package || r.domain == .part p))

/-- Requests into the scratch of a physical tile are refused. -/
def State.fencedTile (s : State) (t : Nat) : Bool :=
  s.flt.recoveries.any (fun r => r.phase != .waiting && r.rung ≥ 2 && ((s.resources r.domain).whole || bitOf (s.resources r.domain).tiles t))

/-- Partition `p` is fenced as a whole. -/
def State.fencedPart (s : State) (p : Nat) : Bool :=
  s.reloading p || s.flt.recoveries.any (fun r => r.phase != .waiting && (r.domain == .part p || r.domain == .chip || r.domain == .package))

/-- A fence refuses an agent's access to a register (R337): the agent's partition is fenced, or the register's engine is. -/
def State.accessFenced (s : State) (a : Agent) (e : Option Nat) : Bool :=
  (s.agentPart a < 8 && s.fencedPart (s.agentPart a)) ||
  (match e with
  | some e => s.flt.recoveries.any (fun x => x.phase != .waiting && (x.domain == .engine e || x.domain == .chip || x.domain == .package))
  | none => false)

/-- TILE_SPAN of a tile passes 800 us (R192): an engine fault at rung 2 on the tile; its running command ends with
SPAN and the context stops.  At a cheap point TILE_SPAN stands still. -/
def execSpanWatchdog (t : Nat) (s : State) : Host.Outcome State Fault Refusal :=
  .next <|
    match (s.run t).ctx with
    | none => s
    | some j =>
      if (s.jobState j ≠ ctxRunning && s.jobState j ≠ ctxParked) || s.tileSpan t ≤ 800 then s
      else
        let id := (s.gangPos j (s.run t).pos).cheapId
        let s := match (s.run t).running.find? (fun c => !c.done) with
          | some c => s.failCommand t c.words c.slot 9
          | none => s.stopJob j 9 0 s.now
        s.openRecovery (.tile t) { cls := 0x10, part := s.jobOwner j, source := t, detail := 9, context := j, tag := id }

end Sys2Proof.Machine
end

