-- ==== Sys2Proof/Machine/Banks.lean ====
section
/-!
DEFINITION. Bank quads (R74 to R85): handover of commons quads, the background test, lull, and how an access is
served or held.
-/

namespace Sys2Proof.Machine

/-! ## Serving an access (R10, R76, R84) -/

/-- The host's read through a window is answered with its data, poisoned where a carried check does not match (R297, R330). -/
def State.deviceReply (s : State) (a : Agent) (x n : Nat) (d : List Byte) : State :=
  match a with
  | .device _ => if s.checksOk x n then s.hpAnswer (.completion d) else (s.checkFailed a x).hpAnswer (.poisoned d)
  | _ => s

/-- A request that has passed its verdict is served: its answer, and an access fault on a host core whose load ends in error
(R10). -/
def State.servePassed (s : State) (a : Agent) (op : MemOp) : State :=
  match op with
  | .read x n => match s.readPassed a x n with
    | (some d, s) => (s.respOk d).deviceReply a x n d
    | (none, s) => s.loadErr a n
  | .write x d => (s.writePassed a x d).respOk

/-- A request refused with its record (R10). -/
def State.refuseMem (s : State) (a : Agent) (op : MemOp) (v : Verdict) : State := (s.refusalRecord a v op.range.1).opErr a op

/-- The verdict on a request. -/
def State.opVerdict (s : State) (a : Agent) (op : MemOp) : Verdict :=
  match op with
  | .read x n => s.verdict a false x n
  | .write x d => s.verdict a true x d.length

/-- A request served or refused (R10). -/
def State.serveMem (s : State) (a : Agent) (op : MemOp) : State :=
  match s.opVerdict a op with
  | .ok => s.servePassed a op
  | v => s.refuseMem a op v

/-- How far a deadline has passed, in ns: both are low 32 bits of the raw counter, compared modulo 2^32 (R207). -/
def State.pastDeadline (s : State) (d : Nat) : Int := sintOf 32 (uintOf 32 ((s.now : Int) - d))

/-- A request that completes after its deadline is a miss (R207). -/
def State.hdwMiss (s : State) (w : WaitingReq) : State :=
  let p := s.agentPart w.agent
  match w.deadline with
  | some d =>
    if s.pastDeadline d ≤ 0 || 8 ≤ p then s
    else
      let s := s.bump .HDW_P_MISSES p
      let s := (s.wrF .HDW_P_EVENT 18 16 w.agent.kind p).wrF .HDW_P_EVENT 13 12 w.path p
      s.setB .HDW_P_EVENT 0 p
  | none => s

/-- A request of a path completes: its bytes are debited (R202), it is served, and a deadline it has passed is a miss (R207). -/
def State.complete (s : State) (w : WaitingReq) : State :=
  ((s.hdwDebit w.agent w.path w.op.range.2).serveMem w.agent w.op).hdwMiss w

/-- Waiting requests of the paths taken out and completed, in the order issued. -/
def State.drainWaiting (s : State) (mine : WaitingReq → Bool) : State :=
  let l := s.hdw.waiting.filter mine
  let s := { s with hdw := { s.hdw with waiting := s.hdw.waiting.filter (fun w => !mine w) } }
  l.foldl State.complete s

/-- A quad enters lull; while it wakes it does so when the accesses that wait have been served (R83). -/
def State.enterLull (s : State) (x : QuadRef) : State :=
  if s.waking x then { s with bank := { s.bank with lullAfter := x :: s.bank.lullAfter.filter (fun y => y != x) } }
  else s.setLull x true

/-- A request to the scratches or the commons that has passed its verdict: held while a quad it touches is in lull, which starts its
wake (R84), or an earlier request of the agent to its words is held (R11); else served. -/
def State.bankQueue (s : State) (a : Agent) (op : MemOp) : State :=
  match s.holdOn a op with
  | some q => s.hold q a op
  | none => s.servePassed a op

/-- An access to the scratches or the commons: who may not reach the quad is refused at once and wakes nothing (R78). -/
def State.bankAccess (s : State) (a : Agent) (op : MemOp) : State :=
  match s.opVerdict a op with
  | .ok => s.bankQueue a op
  | v => s.refuseMem a op v

/-- A wake ends: the quad serves the accesses that were held, in the order issued (R84, R11); one that another quad holds up waits on
for that. -/
def State.endWake (s : State) (x : QuadRef) : State :=
  if !s.waking x then s
  else
    let s := s.setWaking x false
    let mine := s.bank.held.filter (fun h => h.1 == x)
    let s := { s with bank := { s.bank with held := s.bank.held.filter (fun h => h.1 != x) } }
    let s := mine.foldl (fun s h => s.bankQueue h.2.1 h.2.2) s
    if s.bank.lullAfter.contains x then
      { s with bank := { s.bank with lullAfter := s.bank.lullAfter.filter (fun y => y != x) } }.setLull x true
    else s

/-! ## Handover (R79, R80) -/

/-- The writer is the owner of commons quad `q`. -/
def State.ownsQuad (s : State) (a : Agent) (q : Nat) : Bool := s.quadOwner q == some (s.agentPart a)

/-- The address of BANK_CQq_CTRL. -/
def cqCtrlAddr (q : Nat) : Nat := 0x601000 + q * 0x10

/-- CLEAR as the latest offer of a quad gave it (R80). -/
def State.recordClear (s : State) (q : Nat) (clear : Bool) : State :=
  let l := s.bank.clear.filter (fun x => x != q)
  { s with bank := { s.bank with clear := if clear then q :: l else l } }

/-- The owner offers commons quad `q` to `target` (R79 step 1, R80); a new offer replaces the old with its CLEAR.  DESIGN CHOICE (log
entry 91): an offer to a TARGET of 8 to 15, which names no partition, is no offer. -/
def execBankOffer (a : Agent) (q target : Nat) (clear : Bool) (s : State) : Host.Outcome State Fault Refusal :=
  .next <|
    if 16 ≤ q || 8 ≤ target then s
    else if s.accessFenced a none then s.respErr
    else if !s.ownsQuad a q then s.denied a (cqCtrlAddr q)
    else if s.hstate q = 2 then s.respOk
    else
      let s := (s.respOk.wrF .BANK_CQ_CTRL 27 24 target q).wrB .BANK_CQ_CTRL 28 clear q
      ((s.recordClear q clear).wrF .BANK_CQ_STATUS 27 24 target q).setHstate q 1

/-- The receiving partition accepts (R79 steps 2 and 3): the quad is fenced against the giver. -/
def execBankAccept (a : Agent) (q : Nat) (s : State) : Host.Outcome State Fault Refusal :=
  .next <|
    if 16 ≤ q then s
    else if s.accessFenced a none then s.respErr
    else if s.hstate q = 1 then
      if s.quadTarget q = s.agentPart a then s.respOk.setHstate q 2
      else s.denied a (cqCtrlAddr q)
    else if s.ownsQuad a q || (s.hstate q = 2 && s.quadTarget q = s.agentPart a) then s.respOk
    else s.denied a (cqCtrlAddr q)

/-- The owner withdraws its offer (R80). -/
def execBankCancel (a : Agent) (q : Nat) (s : State) : Host.Outcome State Fault Refusal :=
  .next <|
    if 16 ≤ q then s
    else if s.accessFenced a none then s.respErr
    else if !s.ownsQuad a q then s.denied a (cqCtrlAddr q)
    else if s.hstate q = 1 then s.respOk.setHstate q 0
    else s.respOk

/-- The drain has ended: the quad is zeroed where the offer's CLEAR asks for it (R79 step 4). -/
def State.drainEnded (s : State) (q : Nat) : State :=
  let s := { s with bank := { s.bank with drained := q :: s.bank.drained } }
  if s.bank.clear.contains q then s.zero (commonsBase + q * 0x400000) 0x400000 else s

/-- A request touches commons quad `q`. -/
def MemOp.touches (op : MemOp) (q : Nat) : Bool :=
  (blocksOf 0x400000 op.range.1 op.range.2).contains ((commonsBase + q * 0x400000) / 0x400000)

/-- A request to commons quad `q` is outstanding: it waits for a quad to wake. -/
def State.outstanding (s : State) (q : Nat) : Bool := s.bank.held.any (fun h => h.2.2.touches q)

/-- The giver's last outstanding request to the quad completes, at once if none is outstanding (R79 step 3). -/
def execHandoverDrainDone (q : Nat) (s : State) : Host.Outcome State Fault Refusal :=
  .next <|
    if 16 ≤ q || s.hstate q ≠ 2 || s.bank.drained.contains q || s.outstanding q then s
    else s.drainEnded q

/-- The drain ends with requests outstanding: they are answered with an error, and DRAIN_TIMEOUT is set (R79 step 3). -/
def State.drainExpired (s : State) (q : Nat) : State :=
  let mine := s.bank.held.filter (fun h => h.2.2.touches q)
  let s := { s with bank := { s.bank with held := s.bank.held.filter (fun h => !h.2.2.touches q) } }
  let s := mine.foldl (fun s h => s.opErr h.2.1 h.2.2) s
  (s.setB .BANK_CQ_STATUS 1 q).drainEnded q

/-- The drain timeout expires (R79 step 3). -/
def execHandoverDrainTimeout (q : Nat) (s : State) : Host.Outcome State Fault Refusal :=
  .next <|
    if 16 ≤ q || s.hstate q ≠ 2 || s.bank.drained.contains q || !s.outstanding q then s
    else s.drainExpired q

/-- The handover of quad `q` completes (R79 step 5): OWNER becomes TARGET, DONE is set, both partitions' bank interrupts
rise. -/
def State.handoverDone (s : State) (q : Nat) : State :=
  let giver := s.fld .BANK_CQ_STATUS 31 28 q
  let target := s.quadTarget q
  let s := { s with bank := { s.bank with drained := s.bank.drained.filter (fun x => x != q) } }
  let s := ((s.wrF .BANK_CQ_STATUS 31 28 target q).setHstate q 0).setB .BANK_CQ_STATUS 0 q
  (s.pulse (.bank giver)).pulse (.bank target)

/-- Zeroing has ended or was skipped (R79 step 5). -/
def execHandoverDone (q : Nat) (s : State) : Host.Outcome State Fault Refusal :=
  .next <|
    if 16 ≤ q || s.hstate q ≠ 2 || !s.bank.drained.contains q then s
    else s.handoverDone q

/-- What a reload or rung-3 reset of partition `p` does to handovers (R80): an offer is withdrawn; a quad that is
DRAINING first completes its handover. -/
def State.settleHandovers (s : State) (p : Nat) : State :=
  (List.range 16).foldl (fun s q =>
    if s.quadOwner q ≠ some p && s.quadTarget q ≠ p then s
    else if s.hstate q = 1 then s.setHstate q 0
    else if s.hstate q = 2 then
      (if s.bank.drained.contains q then s else if s.outstanding q then s.drainExpired q else s.drainEnded q).handoverDone q
    else s) s

/-! ## Background test (R81, R82) -/

/-- A unit exists. -/
def BankUnit.exists : BankUnit → Bool
  | .tile t => t < 68
  | .quad q => q < 16

/-- The region a unit tests next. -/
def State.testRegion (s : State) : BankUnit → Nat
  | .tile t => s.fld .BANK_TQ_STATUS 25 16 t
  | .quad q => s.fld .BANK_CQ_STATUS 19 10 q

/-- The region counter of a unit set, modulo 1,024. -/
def State.setTestRegion (s : State) (u : BankUnit) (r : Nat) : State :=
  match u with
  | .tile t => s.wrF .BANK_TQ_STATUS 25 16 r t
  | .quad q => s.wrF .BANK_CQ_STATUS 19 10 r q

/-- TEST_FAIL (bit 9) or REDIRECT (bit 8) of a unit. -/
def State.testBit (s : State) (u : BankUnit) (k : Nat) : Bool :=
  match u with
  | .tile t => s.bit .BANK_TQ_STATUS k t
  | .quad q => s.bit .BANK_CQ_STATUS k q

/-- That bit set. -/
def State.setTestBit (s : State) (u : BankUnit) (k : Nat) (b : Bool) : State :=
  match u with
  | .tile t => s.wrB .BANK_TQ_STATUS k b t
  | .quad q => s.wrB .BANK_CQ_STATUS k b q

/-- The quad and the bank within it that hold a region: 64 rows of one bank; a tile bank has 64 regions, a commons
bank 256 (R81).  DESIGN CHOICE (log entry 92): regions are numbered by rows within a bank, banks within a quad, quads within a tile. -/
def regionQuad (u : BankUnit) (r : Nat) : QuadRef × Nat × Nat :=
  match u with
  | .tile t => (.tile t (r / 256), r / 64 % 4, r % 64)
  | .quad q => (.commons q, r / 256, r % 256)

/-- The 64-byte words of a region, as addresses (R74: bank [7:6], row from bit 8). -/
def State.regionWords (s : State) (u : BankUnit) (r : Nat) : List Nat :=
  let x := regionQuad u r
  match s.quadRange x.1 with
  | some (b, _) => (List.range 64).map (fun k => b + (x.2.2 * 64 + k) * 256 + x.2.1 * 64)
  | none => []

/-- The code of a unit's memory (R382). -/
def BankUnit.code : BankUnit → Nat
  | .tile t => 0x3100 + t
  | .quad q => 0x3200 + q

/-- The partition of a unit. -/
def State.unitPart (s : State) : BankUnit → Nat
  | .tile t => (s.physOwner t).getD 0xFF
  | .quad q => (s.quadOwner q).getD 0xFF

/-- The test skips the region: its quad is in lull or DRAINING, or its tile is under a reset (R82). -/
def State.testSkips (s : State) (u : BankUnit) : Bool :=
  let x := (regionQuad u (s.testRegion u)).1
  s.inLull x || s.waking x ||
    (match u with | .tile t => s.fencedTile t | .quad q => s.hstate q = 2)

/-- A unit starts its next region (R81, R82): the words are saved to the shadow, which serves the region from then
on.  A region whose save read finds an uncorrectable word is not tested. -/
def execTestRegionStart (u : BankUnit) (s : State) : Host.Outcome State Fault Refusal :=
  .next <|
    if !u.exists || !s.bit .BANK_CFG 0 || s.testBit u 9 || s.bank.testing.contains u then s
    else
      let r := s.testRegion u
      if s.testSkips u then s.setTestRegion u (r + 1)
      else
        match (s.regionWords u r).find? (fun w => s.badWord.contains (w / 64)) with
        | some w =>
          (s.record { cls := 0x07, part := s.unitPart u, source := u.code,
                      address := w }).setTestRegion u (r + 1)
        | none =>
          { s with bank := { s.bank with testing := u :: s.bank.testing } }.setTestBit u 8 true

/-- A test step has found no idle cycle for 4,096 cycles: it takes one cycle in 16 at the first level (R81). -/
def execTestStarved (u : BankUnit) (s : State) : Host.Outcome State Fault Refusal :=
  .next <|
    if !s.bank.testing.contains u || s.bank.starved.contains u then s
    else { s with bank := { s.bank with starved := u :: s.bank.starved } }

/-- The March test of a region has ended (R81, R82): it is restored and the next region is the following one; on
failure it stays redirected, with TEST_FAIL and a record of class memory test, and the unit's test stops. -/
def execTestRegionDone (u : BankUnit) (passed : Bool) (s : State) : Host.Outcome State Fault Refusal :=
  .next <|
    if !s.bank.testing.contains u then s
    else
      let r := s.testRegion u
      let s := { s with bank := { s.bank with
        testing := s.bank.testing.filter (fun x => x != u)
        starved := s.bank.starved.filter (fun x => x != u) } }
      if passed then (s.setTestBit u 8 false).setTestRegion u (r + 1)
      else
        (s.setTestBit u 9 true).record
          { cls := 0x06, part := s.unitPart u, source := u.code,
            address := ((s.regionWords u r).head?).getD 0 }

/-! ## Lull (R83, R84) -/

/-- A quad has seen no access for BANK_LULL_IDLE (R83). -/
def execLullIdleExpiry (x : QuadRef) (s : State) : Host.Outcome State Fault Refusal :=
  .next <|
    if !x.exists || !s.bit .BANK_CFG 1 || s.noLull x || s.inLull x || s.waking x then s
    else s.enterLull x

/-- The holder writes LULL (R83, R85): a tile quad that the writer does not hold keeps its value without a record
where it holds another quad of the tile. -/
def execLullRequest (a : Agent) (x : QuadRef) (s : State) : Host.Outcome State Fault Refusal :=
  .next <|
    if !x.exists then s
    else if s.accessFenced a none then s.respErr
    else
      let mine := s.quadHolder x == some (s.agentPart a)
      match x with
      | .commons q => if !mine then s.denied a (cqCtrlAddr q) else if s.inLull x then s.respOk else s.respOk.enterLull x
      | .tile t _ =>
        if !(List.range 4).any (fun k => s.quadHolder (.tile t k) == some (s.agentPart a)) then
          s.denied a (0x602000 + t * 0x10)
        else if !mine || s.inLull x then s.respOk
        else s.respOk.enterLull x

/-- An access or a write of 1 to NOLULL starts the wake of a quad in lull (R84). -/
def execLullWake (x : QuadRef) (s : State) : Host.Outcome State Fault Refusal :=
  .next (if !x.exists then s else s.startWake x)

/-- 3 us after its wake starts the quad serves (R84). -/
def execWakeDone (x : QuadRef) (s : State) : Host.Outcome State Fault Refusal :=
  .next (if !x.exists then s else s.endWake x)

end Sys2Proof.Machine
end

