-- ==== Sys2Proof/Machine/FaultRows.lean ====
section
/-!
DEFINITION. The commands of the fault controller (R331 to R340, R345): detected faults, requested resets,
escalation of a fence, the log and the selection of a record.
-/

namespace Sys2Proof.Machine

/-- The domain of the unit that a SOURCE code names (R382), at rung 2; none for memories, ports and rails, which no rung resets. -/
def sourceDomain (source : Nat) : Option Domain :=
  let n := source % 0x1000
  match source / 0x1000 with
  | 0 => if n < 68 then some (.tile n) else none
  | 1 => if n < 16 then some (.core n) else if 0x100 ≤ n && n < 0x104 then some (.cluster (n - 0x100)) else none
  | 2 => if n < 16 then some (.engine n) else none
  | _ => none

/-- The first rung of a detected fault, as its domain (R331): the unit of an engine fault or of an uncorrectable word that holds a unit's
own state; the chip for the mesh (class fabric), the fault controller, and the loader once the fence of its load has begun (R37); none for
data. -/
def State.firstDomain (s : State) (f : FaultDesc) : Option Domain :=
  let loading : Bool := match s.spl.load with | some l => l.phase == .fence || l.phase == .apply | none => false
  if f.source / 0x1000 = 6 || f.cls = 0x11 || (f.source = 0x7000 && loading) then some .chip
  else if f.cls = 0x10 || f.cls = 0x07 then sourceDomain f.source
  else none

/-- A poisoned line of a core's or cluster's caches (R331): the load that meets it takes an access fault. -/
def State.poisonedLine (s : State) (f : FaultDesc) : State :=
  match f.cls, sourceDomain f.source with
  | 0x07, some (.core n) => s.pulse (.accessFault n)
  | _, _ => s

/-- A fault is detected (R331, R332): words that have become uncorrectable and segments whose check no longer matches
are the fault's own effect on memory.  Without a domain it is recorded; with one its first rung is taken (R336 to
R340).  `corrected` is the number of single-bit errors that the warm tier has corrected meanwhile (R88). -/
def execFaultDetected (f : FaultDesc) (words segs : List Nat) (corrected : Nat) (s : State) :
    Host.Outcome State Fault Refusal :=
  .next <|
    let s := { s with
      badWord := words.filter (fun w => !s.badWord.contains w) ++ s.badWord
      badCheck := segs.filter (fun g => !s.badCheck.contains g) ++ s.badCheck }
    let s := if corrected = 0 then s
      else s.wrF .MEM_WARM_STATUS 31 16 (min 0xFFFF (s.fld .MEM_WARM_STATUS 31 16 + corrected))
    let s := s.poisonedLine f
    match s.firstDomain f with
    | none => s.record f
    | some d => s.openRecovery d f

/-- The domain that FLT_RESET names (R345): rung 1 a context, rung 2 a SOURCE code, rung 3 a partition. -/
def resetDomain (rung part target : Nat) : Option Domain :=
  match rung with
  | 1 => some (.ctx target)
  | 2 =>
    if target < 68 then some (.tile target)
    else if 0x1000 ≤ target && target < 0x1010 then some (.core (target - 0x1000))
    else if 0x1100 ≤ target && target < 0x1104 then some (.cluster (target - 0x1100))
    else if 0x2000 ≤ target && target < 0x2010 then some (.engine (target - 0x2000))
    else none
  | 3 => some (.part part)
  | 4 => some .chip
  | 5 => some .package
  | _ => none

/-- What a domain names exists (R338). -/
def State.domainExists (s : State) : Domain → Bool
  | .ctx j => j < 1024 && s.jobState j != ctxFree
  | .part p => s.partExists p
  | _ => true

/-- Partition `p` may reset a domain (R338). -/
def State.mayReset (s : State) (p : Nat) (d : Domain) : Bool :=
  p < 8 && (p == s.ctrl ||
    (match d with
    | .ctx j => s.jobState j != ctxFree && s.jobOwner j == p
    | .tile t => s.physOwner t == some p
    | .cluster c => s.clusterOwner c == some p
    | .part q => q == p
    | _ => false))

/-- A request of a reset is answered in FLT_RESET_STATUS (R345). -/
def State.resetResult (s : State) (code : Nat) : State :=
  let s := s.wrF .FLT_RESET_STATUS 7 0 code
  if code = 0 then s.setB .FLT_RESET_STATUS 31 else s.setB .FLT_RESET_STATUS 30

/-- A write of GO to FLT_RESET (R338, R383): PERMISSION, TARGET and BUSY in that order; an accepted request opens its
recovery with a record of class recovery and DETAIL 3. -/
def execFltReset (a : Agent) (rung part target : Nat) (s : State) : Host.Outcome State Fault Refusal :=
  .next <|
    if s.accessFenced a none then s.respErr
    else
    let s := s.respOk
    let s := s.wr .FLT_RESET (rung % 8 * 2 ^ 28 + part % 16 * 2 ^ 24 + target % 2 ^ 16)
    let p := s.agentPart a
    match resetDomain rung part target with
    | none => s.resetResult 2
    | some d =>
      if !s.mayReset p d then (s.violation a).resetResult 1
      else if !s.domainExists d then s.resetResult 2
      else if s.flt.recoveries.any (fun r => (s.resources d).within (s.resources r.domain))
          || (rung ≤ 3 && (List.range 8).any (fun q => s.bit .FLT_STATUS q && (s.resources d).within (s.resources (.part q)))) then
        s.resetResult 3
      else
        let s := s.resetResult 0
        s.openRecovery d { cls := 0x12, part := s.domainPart d, source := a.code, detail := 3,
                           context := if rung = 3 then part else target }

/-- A unit does not confirm the fence within D + 10 us (R337, R339): the recovery is closed as escalated and the next
rung up opens, with the time of the detection kept. -/
def execFenceConfirmTimeout (n : Nat) (s : State) : Host.Outcome State Fault Refusal :=
  .next <|
    match s.flt.recoveries.find? (fun r => r.number == n && r.phase == .fencing) with
    | none => s
    | some r =>
      let d := s.nextUp r.domain
      let s := s.closeRecovery r 1
      let meeting := s.flt.recoveries.filter (fun x => (s.resources d).meet (s.resources x.domain))
      let s := meeting.foldl (fun s x => s.closeRecovery x 2) s
      s.startRecovery d { r.fault with part := if d.rung < 3 then r.fault.part else s.domainPart d } r.since

/-! ## The log (R335, R345) -/

/-- FLUSH_S after the oldest waiting record its page is programmed (R335). -/
def execLogFlushTimer (s : State) : Host.Outcome State Fault Refusal :=
  .next <|
    match s.flt.oldestWaiting with
    | some t => if t + s.fld .FLT_LOG_CTRL 15 0 * 1000000000 ≤ s.now then s.programLog else s
    | none => s

/-- A write of 1 to FLT_LOG_CTRL.FLUSH (R345): the waiting records are programmed now. -/
def execLogFlush (a : Agent) (s : State) : Host.Outcome State Fault Refusal :=
  .next (if s.accessFenced a none then s.respErr
    else if s.agentPart a ≠ s.ctrl || s.ctrl = 0xFF then s.denied a else s.respOk.programLog)

/-- The bytes of a log page: its records, padded with zero records. -/
def logPageBytes (l : List FaultRecord) : List Byte :=
  let b := l.flatMap FaultRecord.bytes
  b ++ List.replicate (0x4000 - b.length) 0

/-- A write of 1 to FLT_LOG_CTRL.READ (R345): the page FLT_LOG_PAGE is copied to FLT_LOG_ADDR.  FAIL where the
destination is misaligned or not in memory the control partition owns, or is locked against writes (R32); a page not programmed reads
0 (R97). -/
def execLogRead (a : Agent) (s : State) : Host.Outcome State Fault Refusal :=
  .next <|
    if s.accessFenced a none then s.respErr
    else if s.agentPart a ≠ s.ctrl || s.ctrl = 0xFF then s.denied a
    else
      let s := s.respOk
      let dst := s.rd .FLT_LOG_ADDR_LO + 2 ^ 32 * s.fld .FLT_LOG_ADDR_HI 15 0
      if dst % 512 ≠ 0 || !s.ownsRange s.ctrl dst 0x4000 true then s.setB .FLT_LOG_STATUS 30
      else
        let page := (alGet s.flt.log (s.fld .FLT_LOG_PAGE 16 0)).getD []
        match s.postAs (faultAgent s.ctrl) dst (logPageBytes page) with
        | (true, s) => s.setB .FLT_LOG_STATUS 31
        | (false, s) => s.setB .FLT_LOG_STATUS 30

/-- A write of FLT_REC_SEL (R345): the selection is kept for each agent. -/
def execRecSelWrite (a : Agent) (v : Word) (s : State) : Host.Outcome State Fault Refusal :=
  .next (if s.accessFenced a none then s.respErr else { s.respOk with recSel := alSet s.recSel a v })

/-- Word `k` of the record that an agent has selected; 0 for a number outside the ring (R345). -/
def State.recWord (s : State) (a : Agent) (k : Nat) : Nat :=
  match s.flt.ring.find? (fun r => some (BitVec.ofNat 32 r.seq) == alGet s.recSel a) with
  | some r => leAt r.bytes (4 * k) 4
  | none => 0

end Sys2Proof.Machine
end

