-- ==== Sys2Proof/Machine/Crypto.lean ====
section
/-!
DEFINITION. The cryptographic checks of the Sepol image (R25, R26): SHA-384 and the verification of an ECDSA
signature on NIST P-384.  PRESUMED: both are taken from their public standards (FIPS 180-4, FIPS 186), which the
manual names and does not restate.
-/

namespace Sys2Proof.Machine

/-! ## SHA-384 -/

/-- Round constants of SHA-512, part 1. -/
def shaK1 : List Nat :=
  [0x428A2F98D728AE22, 0x7137449123EF65CD, 0xB5C0FBCFEC4D3B2F, 0xE9B5DBA58189DBBC,
   0x3956C25BF348B538, 0x59F111F1B605D019, 0x923F82A4AF194F9B, 0xAB1C5ED5DA6D8118,
   0xD807AA98A3030242, 0x12835B0145706FBE, 0x243185BE4EE4B28C, 0x550C7DC3D5FFB4E2,
   0x72BE5D74F27B896F, 0x80DEB1FE3B1696B1, 0x9BDC06A725C71235, 0xC19BF174CF692694,
   0xE49B69C19EF14AD2, 0xEFBE4786384F25E3, 0x0FC19DC68B8CD5B5, 0x240CA1CC77AC9C65]

/-- Round constants of SHA-512, part 2. -/
def shaK2 : List Nat :=
  [0x2DE92C6F592B0275, 0x4A7484AA6EA6E483, 0x5CB0A9DCBD41FBD4, 0x76F988DA831153B5,
   0x983E5152EE66DFAB, 0xA831C66D2DB43210, 0xB00327C898FB213F, 0xBF597FC7BEEF0EE4,
   0xC6E00BF33DA88FC2, 0xD5A79147930AA725, 0x06CA6351E003826F, 0x142929670A0E6E70,
   0x27B70A8546D22FFC, 0x2E1B21385C26C926, 0x4D2C6DFC5AC42AED, 0x53380D139D95B3DF,
   0x650A73548BAF63DE, 0x766A0ABB3C77B2A8, 0x81C2C92E47EDAEE6, 0x92722C851482353B]

/-- Round constants of SHA-512, part 3. -/
def shaK3 : List Nat :=
  [0xA2BFE8A14CF10364, 0xA81A664BBC423001, 0xC24B8B70D0F89791, 0xC76C51A30654BE30,
   0xD192E819D6EF5218, 0xD69906245565A910, 0xF40E35855771202A, 0x106AA07032BBD1B8,
   0x19A4C116B8D2D0C8, 0x1E376C085141AB53, 0x2748774CDF8EEB99, 0x34B0BCB5E19B48A8,
   0x391C0CB3C5C95A63, 0x4ED8AA4AE3418ACB, 0x5B9CCA4F7763E373, 0x682E6FF3D6B2B8A3,
   0x748F82EE5DEFB2FC, 0x78A5636F43172F60, 0x84C87814A1F0AB72, 0x8CC702081A6439EC]

/-- Round constants of SHA-512, part 4. -/
def shaK4 : List Nat :=
  [0x90BEFFFA23631E28, 0xA4506CEBDE82BDE9, 0xBEF9A3F7B2C67915, 0xC67178F2E372532B,
   0xCA273ECEEA26619C, 0xD186B8C721C0C207, 0xEADA7DD6CDE0EB1E, 0xF57D4F7FEE6ED178,
   0x06F067AA72176FBA, 0x0A637DC5A2C898A6, 0x113F9804BEF90DAE, 0x1B710B35131C471B,
   0x28DB77F523047D84, 0x32CAAB7B40C72493, 0x3C9EBE0A15C9BEBC, 0x431D67C49C100D4C,
   0x4CC5D4BECB3E42B6, 0x597F299CFC657E2A, 0x5FCB6FAB3AD6FAEC, 0x6C44198C4A475817]

/-- The round constants of SHA-512. -/
def shaK : List Nat := shaK1 ++ shaK2 ++ shaK3 ++ shaK4

/-- The initial hash value of SHA-384. -/
def sha384Init : List Nat :=
  [0xCBBB9D5DC1059ED8, 0x629A292A367CD507, 0x9159015A3070DD17, 0x152FECD8F70E5939,
   0x67332667FFC00B31, 0x8EB44A8768581511, 0xDB0C2E0D64F98FA7, 0x47B5481DBEFA4FA4]

/-- A 64-bit word. -/
def w64 (x : Nat) : Nat := x % 2 ^ 64

/-- A 64-bit word rotated right. -/
def rotr64 (x n : Nat) : Nat := (x >>> n) ||| w64 (x <<< (64 - n))

/-- One word of the message schedule from the sixteen before it (newest first). -/
def shaNext (l : List Nat) : Nat :=
  let g (i : Nat) := l.getD (i - 1) 0
  let a := g 15
  let b := g 2
  let s0 := rotr64 a 1 ^^^ rotr64 a 8 ^^^ (a >>> 7)
  let s1 := rotr64 b 19 ^^^ rotr64 b 61 ^^^ (b >>> 6)
  w64 (g 16 + s0 + g 7 + s1)

/-- The message schedule, newest word first. -/
def shaExtend : Nat → List Nat → List Nat
  | 0, l => l
  | n + 1, l => shaExtend n (shaNext l :: l)

/-- One round on the eight working words. -/
def shaRound (h : List Nat) (kw : Nat) : List Nat :=
  match h with
  | [a, b, c, d, e, f, g, x] =>
    let t1 := x + (rotr64 e 14 ^^^ rotr64 e 18 ^^^ rotr64 e 41) + ((e &&& f) ^^^ ((2 ^ 64 - 1 - e) &&& g)) + kw
    let t2 := (rotr64 a 28 ^^^ rotr64 a 34 ^^^ rotr64 a 39) + ((a &&& b) ^^^ (a &&& c) ^^^ (b &&& c))
    [w64 (t1 + t2), a, b, c, w64 (d + t1), e, f, g]
  | _ => h

/-- The compression of one 128-byte block. -/
def shaBlock (h : List Nat) (blk : List Byte) : List Nat :=
  let w := (List.range 16).map (fun i => ofBytesBE ((blk.drop (8 * i)).take 8))
  let sched := (shaExtend 64 w.reverse).reverse
  let r := (shaK.zip sched).foldl (fun h x => shaRound h (x.1 + x.2)) h
  (h.zip r).map (fun x => w64 (x.1 + x.2))

/-- The blocks of a padded message, by the number of blocks. -/
def shaBlocks : Nat → List Nat → List Byte → List Nat
  | 0, h, _ => h
  | n + 1, h, l => shaBlocks n (shaBlock h (l.take 128)) (l.drop 128)

/-- Bytes of a number, most significant first. -/
def bytesBE (n v : Nat) : List Byte := (bytesLE n v).reverse

/-- The SHA-384 digest of a message. -/
def sha384 (m : List Byte) : List Byte :=
  let pad := (128 - (m.length + 17) % 128) % 128
  let l := m ++ [0x80] ++ List.replicate pad 0 ++ bytesBE 16 (8 * m.length)
  (((shaBlocks (l.length / 128) sha384Init l).take 6).map (bytesBE 8)).flatten

/-! ## ECDSA on P-384 -/

/-- The prime of the field. -/
def p384P : Nat := 0xFFFFFFFFFFFFFFFFFFFFFFFFFFFFFFFFFFFFFFFFFFFFFFFFFFFFFFFFFFFFFFFEFFFFFFFF0000000000000000FFFFFFFF
/-- The order of the group. -/
def p384N : Nat := 0xFFFFFFFFFFFFFFFFFFFFFFFFFFFFFFFFFFFFFFFFFFFFFFFFC7634D81F4372DDF581A0DB248B0A77AECEC196ACCC52973
/-- The coefficient b of the curve. -/
def p384B : Nat := 0xB3312FA7E23EE7E4988E056BE3F82D19181D9C6EFE8141120314088F5013875AC656398D8A2ED19D2A85C8EDD3EC2AEF
/-- The base point. -/
def p384G : Nat × Nat :=
  (0xAA87CA22BE8B05378EB1C71EF320AD746E1D3B628BA79B9859F741E082542A385502F25DBF55296C3A545E3872760AB7,
   0x3617DE4A96262C6F5D9E98BF9292DC29F8F41DBD289A147CE9DA3113B5F0B8C00A60B1CE1D7E819D7A431D7C90EA0E5F)

/-- The bits of a number below 2^n, most significant first. -/
def bitsBE (n v : Nat) : List Bool := (List.range n).reverse.map (bitOf v)

/-- A power modulo `m`, by the bits of the exponent. -/
def powMod (m b e : Nat) : Nat :=
  (bitsBE 384 e).foldl (fun r k => let q := r * r % m; if k then q * b % m else q) (1 % m)

/-- The inverse modulo a prime. -/
def invMod (m x : Nat) : Nat := powMod m x (m - 2)

/-- The sum of two points; `none` is the point at infinity. -/
def ecAdd (a b : Option (Nat × Nat)) : Option (Nat × Nat) :=
  match a, b with
  | none, q => q
  | q, none => q
  | some (x1, y1), some (x2, y2) =>
    let p := p384P
    if x1 = x2 && (y1 + y2) % p = 0 then none
    else
      let m := if x1 = x2 then (3 * x1 * x1 + (p - 3)) * invMod p (2 * y1 % p) % p
        else (y2 + p - y1) * invMod p ((x2 + p - x1) % p) % p
      let x := (m * m + 2 * p - x1 - x2) % p
      some (x, (m * (x1 + p - x) + p - y1) % p)

/-- A multiple of a point. -/
def ecMul (k : Nat) (a : Option (Nat × Nat)) : Option (Nat × Nat) :=
  (bitsBE 384 k).foldl (fun r b => let d := ecAdd r r; if b then ecAdd d a else d) none

/-- A point lies on the curve. -/
def onCurve (x y : Nat) : Bool :=
  x < p384P && y < p384P && y * y % p384P == (x * x * x + (p384P - 3) * x + p384B) % p384P

/-- The signature (r, t) of a digest verifies under the public key (x, y). -/
def ecdsaVerify (digest : List Byte) (x y r t : Nat) : Bool :=
  let n := p384N
  if !onCurve x y || r = 0 || n ≤ r || t = 0 || n ≤ t then false
  else
    let w := invMod n t
    match ecAdd (ecMul (ofBytesBE digest * w % n) (some p384G)) (ecMul (r * w % n) (some (x, y))) with
    | none => false
    | some (u, _) => u % n == r

end Sys2Proof.Machine
end

