-- ==== Sys2Proof/Machine/Image.lean ====
section
/-!
DEFINITION. The Sepol image (R20 to R30, R77, R213 to R215, R259, R281, R282, R349): its header, directory, signature
and sections, the checks in the order of R33 and the codes of R40.
-/

namespace Sys2Proof.Machine

/-- The loader's result codes (R40). -/
inductive LoadCode where
  | ok | badMagic | format | wrongPart | badCrc | badSignature | keyRevoked | rollback | scope | ownerConflict
  | range | resource | busy | state | source | permission | aborted
  deriving DecidableEq, Repr

/-- The number of a result code (R40: 0x00 to 0x10 in this order). -/
def LoadCode.num (c : LoadCode) : Nat := c.ctorIdx

/-- The first failing check of a list, in order. -/
def firstCode : List (Bool × LoadCode) → LoadCode
  | [] => .ok
  | c :: r => if c.1 then firstCode r else c.2

/-- A directory entry (R22). -/
structure DirEntry where
  type : Nat
  part : Nat
  flags : Nat
  offset : Nat
  size : Nat
  crc : Nat
  deriving DecidableEq, Repr

/-- The number of sections (R21). -/
def sectionCount (b : List Byte) : Nat := leAt b 0x0E 2

/-- The section directory at 0x40 (R20, R22). -/
def directory (b : List Byte) : List DirEntry :=
  (List.range (min 64 (sectionCount b))).map (fun k =>
    let o := 0x40 + 16 * k
    ⟨leAt b o 2, leAt b (o + 2) 1, leAt b (o + 3) 1, leAt b (o + 4) 4, leAt b (o + 8) 4, leAt b (o + 12) 4⟩)

/-- Ranges of a list do not meet one another. -/
def apart : List (Nat × Nat) → Bool
  | [] => true
  | r :: l => l.all (fun x => !rangesMeet r.1 r.2 x.1 x.2) && apart l

/-- The directory entries lie as R40's FORMAT asks: known types, multiples of 64, inside the image, clear of header,
directory, signature block and one another. -/
def placementOk (b : List Byte) : Bool :=
  let n := b.length
  let d := directory b
  d.all (fun e => 1 ≤ e.type && e.type ≤ 0xA && e.offset % 64 == 0 && e.size % 64 == 0 && e.offset + e.size ≤ n) &&
    apart ((0, 0x40 + 16 * sectionCount b) :: (n - 256, 256) :: d.map (fun e => (e.offset, e.size)))

/-- The target of a load that a header must match (R31): a partition, or the chip. -/
def headerScopeOk (b : List Byte) (target : Option Nat) (partMask : Nat) : Bool :=
  match target with
  | none => leAt b 0x0A 1 == 0 && leAt b 0x0B 1 == 0xFF
  | some p => leAt b 0x0A 1 == 1 && leAt b 0x0B 1 == p && bitOf partMask p

/-- Step 2 of R33, the header's checks. -/
def headerCode (b : List Byte) (len : Nat) (variant : Nat) (target : Option Nat) (partMask : Nat) : LoadCode :=
  firstCode [
    (leAt b 0 4 == 0x53504F4C, .badMagic),
    (leAt b 0x10 4 == len, .source),
    (leAt b 4 2 == 1 && 1 ≤ sectionCount b && sectionCount b ≤ 64 && placementOk b, .format),
    (leAt b 6 2 == 0x0960 && leAt b 8 1 == variant && leAt b 9 1 == 0xB0, .wrongPart),
    (headerScopeOk b target partMask, .scope)]

/-- The signature block's layout and the signature (R25). -/
def signatureOk (b : List Byte) (digest : Option (List Byte)) : Bool :=
  let sig := b.drop (b.length - 256)
  let key := sliceBytes sig 0 97
  let zeros (o n : Nat) := (sliceBytes sig o n).all (· == 0)
  zeros 97 31 && zeros 224 32 && leAt key 0 1 == 4 && digest == some (sha384 key) &&
    ecdsaVerify (sha384 (b.take (b.length - 256))) (ofBytesBE (sliceBytes key 1 48)) (ofBytesBE (sliceBytes key 49 48))
      (ofBytesBE (sliceBytes sig 128 48)) (ofBytesBE (sliceBytes sig 176 48))

/-- Step 3 of R33: the key slot, the signature, the security version (R25 to R27). -/
def signatureCode (b : List Byte) (f : Fuses) : LoadCode :=
  let slot := leAt b 0x0D 1
  let digest := f.digests.getD slot none
  firstCode [
    (slot ≤ 3 && digest.isSome && !bitOf f.revoked slot, .keyRevoked),
    (signatureOk b digest, .badSignature),
    (f.svn ≤ leAt b 0x0C 1, .rollback)]

/-! ## Sections (R23, R24, R29) -/

/-- The bytes of a section. -/
def sectionBytes (b : List Byte) (e : DirEntry) : List Byte := sliceBytes b e.offset e.size

/-- A section holds the fields of its type and the entries its count announces (R40, FORMAT). -/
def sectionFits (b : List Byte) (e : DirEntry) : Bool :=
  let c := sectionBytes b e
  let need := match e.type with
    | 1 => 5
    | 2 => 14
    | 3 => 16 + 24 * leAt c 8 1
    | 4 => 8
    | 5 => 16 + 16 * leAt c 0 1
    | 6 => 22
    | 7 => 33
    | 8 => 8 + 8 * leAt c 4 1
    | 9 => 64 + 64 * leAt c 0 1
    | _ => 64
  need ≤ e.size

/-- A SAFETY section is at most 8 KiB (R29). -/
def safetyFits (e : DirEntry) : Bool := e.type != 0xA || e.size ≤ 0x2000

/-- Section types of chip scope (R23). -/
def chipType (t : Nat) : Bool := [1, 6, 7, 8, 0xA].contains t

/-- How many sections have a type and a partition. -/
def countOf (d : List DirEntry) (t p : Nat) : Nat := (d.filter (fun e => e.type == t && e.part == p)).length

/-- The sections' counts and scopes (R22 to R24). -/
def countsOk (d : List DirEntry) (target : Option Nat) (partMask : Nat) : Bool :=
  let perPart (p : Nat) := countOf d 2 p == 1 && countOf d 3 p == 1 && countOf d 4 p == 1 && countOf d 5 p ≤ 1 && countOf d 9 p ≤ 1
  match target with
  | none =>
    [1, 6, 7, 8, 0xA].all (fun t => countOf d t 0xFF == 1) &&
    d.all (fun e => if chipType e.type then e.part == 0xFF else e.part < 8 && bitOf partMask e.part) &&
    (bitsSet 8 partMask).all perPart
  | some p => d.all (fun e => !chipType e.type && e.part == p) && perPart p

/-- The section of a type and partition, or no bytes. -/
def sectionOf (b : List Byte) (t p : Nat) : List Byte :=
  match (directory b).find? (fun e => e.type == t && e.part == p) with
  | some e => sectionBytes b e
  | none => []

/-- A stream entry (R213). -/
def parseStream (c : List Byte) (o : Nat) : StreamEntry :=
  let f (k n : Nat) := leAt c (o + k) n
  { number := f 0 1, source := f 1 1, port := f 2 1, select := f 3 1, kind := f 4 1, roles := f 5 1, timeSrc := f 6 1
    timeBase := f 7 1, periodUs := f 8 4, sampleBytes := f 0xC 4, bufBase := f 0x10 8, bufCount := f 0x18 2
    lateMs := f 0x1A 2, captureAdj := f 0x1C 4, sectors := f 0x20 2, suspectThr := f 0x22 1, suspectN := f 0x23 1
    widenCm := f 0x24 2, udpPort := f 0x26 2, dirBase := f 0x28 8, rangeOff := f 0x30 2, rangeStride := f 0x32 2
    rangeCount := f 0x34 4, tsOff := f 0x38 2, readLen := f 0x3A 2, cmd := f 0x3C 3, srcCfg := f 0x3F 1 }

/-- What an image gives a partition (R29). -/
def parsePart (b : List Byte) (p : Nat) : PartImage :=
  let a := sectionOf b 2 p
  let t := sectionOf b 3 p
  let k := sectionOf b 4 p
  let w := sectionOf b 5 p
  let r := sectionOf b 9 p
  { hostClusters := leAt a 0 1, netPorts := leAt a 1 1, jobContexts := leAt a 2 2, seqEntries := leAt a 4 2
    poolQuota := leAt a 6 4, pinnedQuota := leAt a 10 4
    ownMask := leAt t 0 8
    loans := (List.range (leAt t 8 1)).map (fun i => ⟨leAt t (16 + 24 * i) 1, leAt t (24 + 24 * i) 8, leAt t (32 + 24 * i) 2⟩)
    commonsMask := leAt k 0 8
    windows := (List.range (leAt w 0 1)).map (fun i =>
      ⟨leAt w (16 + 16 * i) 1, leAt w (17 + 16 * i) 1, leAt w (20 + 16 * i) 4, leAt w (24 + 16 * i) 4⟩)
    streams := (List.range (leAt r 0 1)).map (fun i => parseStream r (64 + 64 * i)) }

/-- The sections whose LOCK flag is set (R22, R39). -/
def parseLocks (b : List Byte) : List LockSection :=
  let f (t : Nat) (l : LockSection) := if (directory b).any (fun e => e.type == t && bitOf e.flags 0) then [l] else []
  f 1 .chip ++ f 6 .power ++ f 7 .time

/-- What an image gives the chip (R21, R29, R349). -/
def parseChip (b : List Byte) : ChipImage :=
  let c := sectionOf b 1 0xFF
  let w := sectionOf b 6 0xFF
  let t := sectionOf b 7 0xFF
  let l := sectionOf b 8 0xFF
  let f := sectionOf b 0xA 0xFF
  { version := leAt b 0x14 4, svn := leAt b 0x0C 1, keySlot := leAt b 0x0D 1
    ctrlPart := leAt c 0 1, partMask := leAt c 1 1, hostPort := leAt c 2 1, farTier := leAt c 3 1, revokeMask := leAt c 4 1
    cap := leAt w 0 2, capMin := leAt w 2 2, capMax := leAt w 4 2, fracs := (List.range 5).map (fun i => leAt w (6 + i) 1)
    ceilingMhz := leAt w 11 2, slewLimit := leAt w 13 1, partShare := (List.range 8).map (fun i => leAt w (14 + i) 1)
    time := (List.range 4).map (fun i => ⟨leAt t (8 * i) 1, leAt t (8 * i + 1) 1, leAt t (8 * i + 2) 1, leAt t (8 * i + 3) 1, leAt t (8 * i + 4) 2⟩)
    robotSource := leAt t 32 1
    cycleUs := leAt l 0 2, ethertype := leAt l 2 2
    nodes := (List.range (leAt l 4 1)).map (fun i => ⟨leAt l (8 + 8 * i) 1, leAt l (9 + 8 * i) 1, leAt l (10 + 8 * i) 2, leAt l (12 + 8 * i) 1⟩)
    safety := { version := leAt f 0 1, estopCat := leAt f 1 1, missMax := leAt f 2 1, overspeedCycles := leAt f 3 1
                speed := (List.range 4).map (fun i => leAt f (4 + 2 * i) 2), stopTimeMs := leAt f 0xC 2, decelMon := leAt f 0xE 2
                baseNodes := leAt f 0x10 8, velField := leAt f 0x18 1, velScale := leAt f 0x1C 4, nodeAction := leAt f 0x20 1
                heartbeatCycles := leAt f 0x21 1 }
    locks := parseLocks b }

/-! ## The rules of R30 -/

/-- `f` holds of every pair of two different elements. -/
def pairwise {α : Type} (f : α → α → Bool) : List α → Bool
  | [] => true
  | x :: l => l.all (f x) && pairwise f l

/-- Two partitions share no owned resource (R15, R30). -/
def ownersOk (a b : PartImage) : Bool :=
  a.ownMask &&& b.ownMask == 0 && a.hostClusters &&& b.hostClusters == 0 && a.commonsMask &&& b.commonsMask == 0 &&
    a.netPorts &&& b.netPorts == 0 && a.streams.all (fun x => b.streams.all (fun y => x.number != y.number))

/-- Two partitions have no overlapping windows with write access (R30). -/
def windowsOk (a b : PartImage) : Bool :=
  a.windows.all (fun x => b.windows.all (fun y =>
    !(x.tier == y.tier && bitOf x.access 1 && bitOf y.access 1 && rangesMeet x.base x.size y.base y.size)))

/-- The sum of a field over partitions. -/
def sumOf (f : PartImage → Nat) (l : List PartImage) : Nat := l.foldl (fun n p => n + f p) 0

/-- The size of a tier in 2 MiB units. -/
def tierUnits (t : Nat) : Nat := if t = 0 then 65536 else if t = 1 then 491520 else 2097152

/-- Each group of four bits is 0x0 or 0xF (R77). -/
def wholeQuads (n m : Nat) : Bool := (List.range n).all (fun q => [0, 0xF].contains (bitsOf m (4 * q + 3) (4 * q)))

/-- TDM slots, slot width and channels of a stream's CMD (R213). -/
def tdmSlots (e : StreamEntry) : Nat × Nat × Nat := (bitsOf e.cmd 7 0, bitsOf e.cmd 15 8, bitsOf e.cmd 23 16)

/-- A stream entry's values (R213, R214). -/
def streamOk (e : StreamEntry) : Bool :=
  let prox := bitOf e.roles 1
  let td := tdmSlots e
  e.number < 32 && e.source < 5 && e.kind < 6 && e.roles < 8 && e.timeSrc < 3 &&
  (if e.timeSrc = 1 then 1 ≤ e.timeBase && e.timeBase ≤ 4 else e.timeBase == 0) &&
  250 ≤ e.periodUs && e.periodUs ≤ 1000000 && e.sampleBytes % 512 == 0 && 0 < e.sampleBytes && e.sampleBytes ≤ 0x2000000 &&
  e.bufBase % 512 == 0 && e.bufBase < 2 ^ 48 && 2 ≤ e.bufCount && e.bufCount ≤ 64 && 1 ≤ e.lateMs && e.lateMs ≤ 200 &&
  1 ≤ e.suspectN && (e.source == 1 || e.udpPort == 0) &&
  (if prox then e.rangeCount != 0 && e.dirBase != 0 else e.rangeCount == 0 && e.dirBase == 0) &&
  e.dirBase < 2 ^ 48 && 2 ≤ e.rangeStride &&
  (match e.source with
   | 0 => e.port < 8 && e.select < 16 && e.readLen == 0 && e.cmd == 0 && e.srcCfg == 0
   | 1 => e.port < 8 && e.select == 0 && e.readLen ≤ 64 && e.cmd == 0 && e.srcCfg == 0
   | 2 => e.port < 4 && e.select < 4 && 1 ≤ e.readLen && e.readLen ≤ 4096 && e.readLen ≤ e.sampleBytes && bitsOf e.srcCfg 3 3 == 0
   | 3 => e.port < 4 && 1 ≤ e.readLen && e.readLen ≤ 4096 && 2 ≤ td.1 && td.1 ≤ 16 && (td.2.1 == 16 || td.2.1 == 32) &&
      1 ≤ td.2.2 && td.2.2 ≤ 16 && e.select + td.2.2 ≤ td.1 && e.readLen * td.2.2 * (td.2.1 / 8) ≤ e.sampleBytes &&
      e.srcCfg ≤ 1 && (e.srcCfg == 0 || (8000 * e.periodUs ≤ e.readLen * 1000000 && e.readLen * 1000000 ≤ 96000 * e.periodUs))
   | _ => e.port < 2 && e.select < 128 && 1 ≤ e.readLen && e.readLen ≤ 4096 && e.readLen ≤ e.sampleBytes && e.srcCfg ≤ 3)

/-- The bytes of a stream's ring (R217). -/
def ringBytes (e : StreamEntry) : Nat := 512 + e.bufCount * (512 + e.sampleBytes)

/-- A ring lies in the commons quads or warm windows of its partition (R215). -/
def ringInside (p : PartImage) (e : StreamEntry) : Bool :=
  (blocksOf 0x100000 e.bufBase (ringBytes e)).all (fun b =>
    match regionOf (max e.bufBase (b * 0x100000)) with
    | .commons q => bitOf p.commonsMask (4 * q)
    | .warm u => p.windows.any (fun w => w.tier == 0 && w.base ≤ u && u < w.base + w.size)
    | _ => false)

/-- Two streams do not share their source (R215). -/
def sourcesApart (x y : StreamEntry) : Bool :=
  !(x.source == y.source && x.port == y.port && (if x.source = 1 then x.udpPort == y.udpPort else x.select == y.select))

/-- A partition's sections hold values of R29, R30, R77 and R213 to R215. -/
def partRange (parts : List (Nat × PartImage)) (tiles farTier partMask p : Nat) (i : PartImage) : Bool :=
  i.hostClusters < 16 && i.pinnedQuota ≤ i.poolQuota && wholeQuads 16 i.commonsMask && i.loans.length ≤ 8 &&
  i.loans.all (fun l => l.borrower < 8 && l.borrower != p && (alGet parts l.borrower).isSome && bitOf partMask l.borrower &&
    l.tileMask &&& i.ownMask == l.tileMask && l.tileMask < 2 ^ tiles && wholeQuads 4 l.bankMask) &&
  i.windows.length ≤ 16 &&
  i.windows.all (fun w => w.tier < 3 && w.access < 4 && 0 < w.size && w.base + w.size ≤ tierUnits w.tier && (w.tier != 2 || farTier == 1)) &&
  i.streams.length ≤ 32 && i.streams.all (fun e => streamOk e && ringInside i e) && pairwise (fun x y => x.number != y.number) i.streams

/-- The Windline frame fits the cycle (R259), in ns. -/
def frameFits (cycleUs n : Nat) : Bool := (14 + 16 + 64 * n + 4 + 20) * 8 + n * 2000 ≤ cycleUs * 1000 / 2

/-- The chip sections hold values of R29, R30, R259, R281, R282 and R349.  DESIGN CHOICE (log entry 89): a base entry's DOMAIN above 127,
which IEEE 1588 reserves and R29 gives no range, is refused with RANGE even while MODE is 0. -/
def chipRange (c : ChipImage) : Bool :=
  let f := c.safety
  let on := c.time.filter (fun t => t.mode != 0)
  c.ctrlPart < 8 && bitOf c.partMask c.ctrlPart && c.hostPort < 3 && c.farTier < 2 && (c.farTier == 0 || c.hostPort == 1) &&
  c.revokeMask < 16 && !bitOf c.revokeMask c.keySlot &&
  c.fracs.foldl (· + ·) 0 == 64 && c.partShare.foldl (· + ·) 0 ≤ 64 &&
  c.capMin ≤ c.cap && c.cap ≤ c.capMax && [c.cap, c.capMin, c.capMax].all (fun x => 40 ≤ x && x ≤ 180) &&
  1000 ≤ c.ceilingMhz && c.ceilingMhz ≤ 1400 && c.ceilingMhz % 25 == 0 &&
  c.time.all (fun t => t.mode < 3 && t.role < 3 && t.domain < 128) && c.robotSource ≤ 4 &&
  pairwise (fun x y => !(x.mode == y.mode && x.domain == y.domain && x.portMask &&& y.portMask != 0)) on &&
  (c.robotSource == 0 || (match c.time[c.robotSource - 1]? with | some t => t.mode != 0 && t.role != 1 | none => false)) &&
  125 ≤ c.cycleUs && c.cycleUs ≤ 1000 && c.cycleUs % 5 == 0 && c.nodes.length ≤ 64 &&
  c.nodes.all (fun n => n.ringPos < c.nodes.length && 1 ≤ n.lossCycles && n.lossCycles ≤ 8) &&
  pairwise (fun x y => x.ringPos != y.ringPos && x.nodeAddr != y.nodeAddr) c.nodes && frameFits c.cycleUs c.nodes.length &&
  f.version == 1 && f.estopCat < 2 && 1 ≤ f.missMax && f.missMax ≤ 16 && 1 ≤ f.overspeedCycles && f.overspeedCycles ≤ 64 &&
  100 ≤ f.stopTimeMs && f.stopTimeMs ≤ 5000 && 10 ≤ f.decelMon && f.decelMon ≤ 500 && f.velField ≤ 12 && f.nodeAction < 2 &&
  1 ≤ f.heartbeatCycles && f.heartbeatCycles ≤ 8

/-- A range of a section's bytes is 0. -/
def zerosAt (c : List Byte) (o n : Nat) : Bool := (sliceBytes c o n).all (· == 0)

/-- The reserved bytes of header, directory and sections, and the padding, are 0 (R21, R22, R29, R30, R349). -/
def reservedZero (b : List Byte) : Bool :=
  zerosAt b 0x18 40 && (directory b).all (fun e => bitsOf e.flags 7 1 == 0 &&
    let c := sectionBytes b e
    let rest (n : Nat) := zerosAt c n (e.size - n)
    match e.type with
    | 1 => rest 5
    | 2 => rest 14
    | 3 => zerosAt c 9 7 && rest (16 + 24 * leAt c 8 1) &&
        (List.range (leAt c 8 1)).all (fun i => zerosAt c (17 + 24 * i) 7 && zerosAt c (34 + 24 * i) 6)
    | 4 => rest 8
    | 5 => zerosAt c 1 15 && rest (16 + 16 * leAt c 0 1) &&
        (List.range (leAt c 0 1)).all (fun i => zerosAt c (18 + 16 * i) 2 && zerosAt c (28 + 16 * i) 4)
    | 6 => rest 22
    | 7 => (List.range 4).all (fun i => zerosAt c (8 * i + 6) 2) && rest 33
    | 8 => zerosAt c 5 3 && rest (8 + 8 * leAt c 4 1) && (List.range (leAt c 4 1)).all (fun i => zerosAt c (13 + 8 * i) 3)
    | 9 => zerosAt c 1 63 && rest (64 + 64 * leAt c 0 1)
    | _ => zerosAt c 0x19 3 && rest 0x22)

/-- The rules of R30 in the order of its table, over all partitions and the chip (R33, step 4). -/
def consistencyCode (parts : List (Nat × PartImage)) (tiles : Nat) (c : ChipImage) : LoadCode :=
  let ps := parts.map Prod.snd
  let streams := ps.flatMap PartImage.streams
  firstCode [
    (pairwise ownersOk ps, .ownerConflict),
    (pairwise windowsOk ps, .ownerConflict),
    (ps.all (fun p => p.ownMask < 2 ^ tiles), .resource),
    (sumOf PartImage.jobContexts ps ≤ 1024 && sumOf PartImage.seqEntries ps ≤ 4096 && sumOf PartImage.poolQuota ps ≤ 65536, .resource),
    (ps.all (fun p => (p.windows.filter (fun w => w.tier == 0)).foldl (fun n w => n + w.size) 0 ≤ p.pinnedQuota), .resource),
    (chipRange c && parts.all (fun x => partRange parts tiles c.farTier c.partMask x.1 x.2) && pairwise sourcesApart streams &&
      (streams.filter (fun e => e.source == 0)).length ≤ 16, .range)]

/-- The header's SVN lies in its range (R21).  DESIGN CHOICE (log entry 89): the manual names no code for one above 63; it is refused with
RANGE, in a chip image and in a partition image. -/
def svnOk (b : List Byte) : Bool := leAt b 0x0C 1 < 64

/-- Step 4 of R33: CRCs, sizes, counts, consistency.  A chip image is checked as a whole, a partition image against
the sections now loaded. -/
def sectionsCode (b : List Byte) (target : Option Nat) (tiles : Nat) (chip : Option ChipImage) (parts : List (Nat × PartImage)) :
    LoadCode × Option Image :=
  let d := directory b
  let c := match target with | none => parseChip b | some _ => chip.getD (parseChip b)
  let ps := match target with
    | none => (bitsSet 8 c.partMask).map (fun p => (p, parsePart b p))
    | some p => alSet parts p (parsePart b p)
  let code := firstCode [
    (d.all (fun e => crc32c (sectionBytes b e) == e.crc), .badCrc),
    (d.all (sectionFits b), .format),
    (countsOk d target c.partMask, .scope),
    (consistencyCode ps tiles c == .ok, consistencyCode ps tiles c),
    (reservedZero b && d.all safetyFits && svnOk b, .range)]
  let img : Image := match target with
    | none => ⟨leAt b 0x14 4, some c, ps⟩
    | some p => ⟨leAt b 0x14 4, none, [(p, parsePart b p)]⟩
  (code, if code = .ok then some img else none)

/-- All checks of a stored chip image (R359): header, signature and sections. -/
def checkStored (b : List Byte) (variant tiles : Nat) (f : Fuses) : LoadCode × Option Image :=
  let h := headerCode b b.length variant none 0xFF
  if h ≠ .ok then (h, none)
  else
    let k := signatureCode b f
    if k ≠ .ok then (k, none) else sectionsCode b none tiles none []

end Sys2Proof.Machine
end

