-- ==== Sys2Proof/Machine/Scheduler.lean ====
section
/-!
DEFINITION. The scheduler (R180 to R195, R198): context commands, admission, placement, cheap points and RT
release.
-/

namespace Sys2Proof.Machine

/-! ## Commands (R183, R185) -/

/-- The result of a scheduler command (R199). -/
def State.schResult (s : State) (p code j : Nat) : State :=
  let s := s.wrF .SCH_P_RESULT 23 16 code p
  let s := s.wrF .SCH_P_RESULT 9 0 j p
  if code = 0 then s.setB .SCH_P_RESULT 31 p else s.setB .SCH_P_RESULT 30 p

/-- A write of OP and GO to SCH_Pp_CMD by an agent: refused for another partition's register (R13), BAD_CMD for a
nonzero reserved bit of the command or of SCH_Pp_ARG or, where the command names a context, one of another partition (R183). -/
def State.schCommand (s : State) (a : Agent) (p op rsv : Nat) (names : Bool) (run : State → Nat → Nat × State) : State :=
  if s.accessFenced a (some 3) then s.respErr
  else if s.agentPart a ≠ p || 8 ≤ p then s.denied a
  else
    let s := s.respOk
    let s := s.wr .SCH_P_CMD op p
    let j := s.fld .SCH_P_ARG 9 0 p
    if rsv ≠ 0 || s.sch.argRsv.contains p then s.schResult p 8 j
    else if names && s.jobState j ≠ ctxFree && s.jobOwner j ≠ p then s.schResult p 8 j
    else
      let r := run s j
      r.2.schResult p r.1 (if names then j else r.2.fld .SCH_P_RESULT 9 0 p)

/-- ALLOC (R180, R183): the lowest free context goes into SETUP; RESULT.CTX names it. -/
def State.allocJob (s : State) (p : Nat) : Nat × State :=
  if (s.part p).jobContexts ≤ (s.usedJobs.filter (fun j => s.jobOwner j == p)).length then (1, s)
  else match (List.range 1024).find? (fun j => s.jobState j == ctxFree) with
    | none => (1, s)
    | some j =>
      let s := s.wr .SCH_CTX (ctxSetup * 2 ^ 28 + p * 2 ^ 24) j 0
      let s := s.wr .SCH_FREE_CTX (s.rd .SCH_FREE_CTX - 1)
      (0, s.wrF .SCH_P_RESULT 9 0 j p)

/-- ALLOC. -/
def execAllocCtx (a : Agent) (p rsv : Nat) (s : State) : Host.Outcome State Fault Refusal :=
  .next (s.schCommand a p 1 rsv false (fun s _ => s.allocJob p))

/-- Partition `p` borrows logical tile `l` from its owner (R17). -/
def State.borrows (s : State) (p l : Nat) : Bool :=
  match s.tileOwner l with
  | some o => o != p && (s.part o).loans.any (fun x => x.borrower == p && bitOf x.tileMask l)
  | none => false

/-- The bytes of a queue block and of a save area (R182). -/
def State.queueBytes (s : State) (j : Nat) : Nat := 0x1000 + s.jobGang j * s.jobQsize j * 64
/-- The bytes of the save areas of a job. -/
def State.saveBytes (s : State) (j : Nat) : Nat := s.jobGang j * s.jobSaveKib j * 1024

/-- A job is admitted: READY or beyond. -/
def State.admitted (s : State) (j : Nat) : Bool := ctxReady ≤ s.jobState j

/-- The other admitted jobs. -/
def State.otherJobs (s : State) (j : Nat) : List Nat := s.usedJobs.filter (fun k => k != j && s.admitted k)

/-- An RT job's plan serves it (R132): READY, every layer tile-pinned and in scratch, TILE_MASK among the allowed
tiles with one tile for each gang position. -/
def State.rtPlanOk (s : State) (j n : Nat) : Bool :=
  match alGet s.upd.plans n with
  | some x => x.ready && x.plan.layers.all (fun l => l.reside == 3) && x.stale.isEmpty &&
      (x.plan.tileMask &&& s.jobAllowed j) == x.plan.tileMask && popcount 64 x.plan.tileMask == s.jobGang j
  | none => false

/-- A plan slot serves a job (R185, code PLAN). -/
def State.planOk (s : State) (j n : Nat) : Bool :=
  match alGet s.upd.plans n with
  | some x => n / 8 == s.jobOwner j && x.ready && !s.bit .UPD_PLAN_STATUS 29 n && x.plan.gangTiles == s.jobGang j
  | none => false

/-- The admission code of a context in SETUP: the first of R185's table that applies. -/
def State.admission (s : State) (j : Nat) : Nat :=
  let p := s.jobOwner j
  let rt := s.jobClass j = 0
  let tiles := bitsSet 64 (s.jobAllowed j)
  let q := (s.jobQbase j, s.queueBytes j)
  let v := (s.jobSave j, s.saveBytes j)
  if s.jobClass j = 3 then 8
  else if rt && (match s.jobPlan j with | some n => !s.rtPlanOk j n | none => false) then 2
  else if (match s.jobPlan j with | some n => !s.planOk j n | none => false) then 3
  else if !tiles.all (fun l => s.tileOwner l == some p || s.borrows p l) || tiles.length < s.jobGang j
      || s.jobGang j = 0 || 64 < s.jobGang j then 4
  else if s.jobMaxSpan j = 0 || 400 < s.jobMaxSpan j then 5
  else if q.1 % 0x1000 ≠ 0 || v.1 % 64 ≠ 0 || s.jobQsize j < 16 || 4096 < s.jobQsize j
      || !s.ownsRange p q.1 q.2 true || !s.ownsRange p v.1 v.2 true
      || (s.otherJobs j).any (fun k =>
        let a := [q, v]; let b := [(s.jobQbase k, s.queueBytes k), (s.jobSave k, s.saveBytes k)]
        anyMeet a b) then 6
  else if rt && ((s.otherJobs j).any (fun k => s.jobClass k = 0 && s.jobAllowed k &&& s.jobAllowed j ≠ 0)
      || (s.bit .SCH_CTX 31 j 12 && s.fld .SCH_CTX 23 16 j 12 = 0)) then 7
  else 0

/-- The queue counters of job `j` read (R182), TAIL and with `head` also the next slot from HEAD; the quads they lie in wake.  A counter whose
read is refused or fails stays as it was. -/
def State.readQueues (s : State) (j : Nat) (head : Bool) : State :=
  (List.range (s.jobGang j)).foldl (fun s i =>
    let s := s.wakeAll (s.asleep [(s.tailAddr j i, 4), (s.headAddr j i, 4)])
    let (t, s) := s.jobTail j i
    let s := s.setGangPos j i (fun g => { g with tail := t.getD g.tail })
    if head then
      let (h, s) := s.jobHead j i
      s.setGangPos j i (fun g => { g with next := h.getD g.next })
    else s) s

/-- ADMIT (R183 to R186): READY with the plan bound, or SETUP with the code in ADMIT. -/
def State.admitJob (s : State) (j : Nat) : Nat × State :=
  if s.jobState j ≠ ctxSetup then (9, s)
  else
    let code := s.admission j
    let s := s.wrF .SCH_CTX 31 24 code j 1
    if code ≠ 0 then (code, s)
    else
      let s := s.setJobState j ctxReady
      let s := match s.jobPlan j with
        | some n => (s.setB .UPD_PLAN_STATUS 29 n).wr .UPD_PLAN_JOB j n
        | none => s
      let s := s.setJob j { pos := List.replicate (s.jobGang j) {}, waitSince := s.now }
      (0, s.readQueues j true)

/-- ADMIT. -/
def execAdmitCtx (a : Agent) (p rsv : Nat) (s : State) : Host.Outcome State Fault Refusal :=
  .next (s.schCommand a p 2 rsv true State.admitJob)

/-- HOLD (R183): the job leaves at its next cheap point and is then STOPPED. -/
def State.holdJob (s : State) (j : Nat) : Nat × State :=
  if s.jobState j ≠ ctxRunning then (9, s) else (0, s.setJob j { s.job j with holdReq := true })

/-- HOLD. -/
def execHold (a : Agent) (p rsv : Nat) (s : State) : Host.Outcome State Fault Refusal :=
  .next (s.schCommand a p 3 rsv true State.holdJob)

/-- RESUME (R183): STOPPED to PREEMPTED; the queues continue from HEAD. -/
def State.resumeJob (s : State) (j : Nat) : Nat × State :=
  if s.jobState j ≠ ctxStopped then (9, s)
  else
    let s := (s.unbindJob j).setJobState j ctxPreempted
    let c := s.job j
    let s := s.setJob j { c with waitSince := s.now, displaced := false, holdReq := false, parkFor := []
                                 pos := c.pos.map (fun g => { g with yielded := false })
                                 saving := none, restoring := false, working := false }
    (0, s.readQueues j true)

/-- RESUME. -/
def execResume (a : Agent) (p rsv : Nat) (s : State) : Host.Outcome State Fault Refusal :=
  .next (s.schCommand a p 4 rsv true State.resumeJob)

/-- FREE (R183, R184). -/
def execFreeCtx (a : Agent) (p rsv : Nat) (s : State) : Host.Outcome State Fault Refusal :=
  .next (s.schCommand a p 5 rsv true (fun s j => if s.jobState j = ctxFree then (9, s) else (0, s.freeJob j)))

/-! ## Placement (R186 to R189) -/

/-- The jobs that hold a physical tile: RUNNING or PARKED on it. -/
def State.tileJobs (s : State) (t : Nat) : List Nat :=
  let r := s.run t
  let l := (match r.ctx with | some j => [j] | none => []) ++ (match r.parked with | some (k, _) => [k] | none => [])
  l.filter (fun j => s.jobState j == ctxRunning || s.jobState j == ctxParked)

/-- A recovery or a reload holds the job, or the scheduler for its partition (R337): it starts no new work. -/
def State.jobFenced (s : State) (j : Nat) : Bool :=
  s.fencedEngine 3 (s.jobOwner j) || s.flt.recoveries.any (fun r => r.phase != .waiting && bitOf (s.resources r.domain).jobs j)

/-- A job waits for tiles: READY or PREEMPTED, for RT released (R193, R194), and in no fence (R337). -/
def State.jobWaits (s : State) (j : Nat) : Bool :=
  !s.jobFenced j && (s.jobState j == ctxReady || s.jobState j == ctxPreempted) && (s.jobClass j != 0 || (s.job j).released)

/-- A tile is reserved from job `j`: an admitted RT job of its own partition holds it for placement (R186), or `j` borrows it and an
RT job of the lender has a LEAD below its MAX_SPAN (R188). -/
def State.tileReserved (s : State) (j l : Nat) : Bool :=
  (s.otherJobs j).any (fun k =>
    s.jobClass k = 0 && bitOf (s.jobAllowed k) l &&
    (if s.jobOwner k = s.jobOwner j then true
     else s.tileOwner l == some (s.jobOwner k) && s.jobLead k < s.jobMaxSpan j))

/-- The waiting job `j` displaces the running job `k` on logical tile `l` (R189). -/
def State.displaces (s : State) (j k l : Nat) : Bool :=
  let o := s.tileOwner l
  if o == some (s.jobOwner j) && o != some (s.jobOwner k) then true
  else if o != some (s.jobOwner j) && o == some (s.jobOwner k) then false
  else (s.jobClass j == 1 && s.jobClass k == 2)
    || (s.jobClass j == s.jobClass k && s.jobPrio k < s.jobPrio j)
    || (s.jobClass j == s.jobClass k && s.jobPrio j == s.jobPrio k && (s.job k).sliceEnded.isSome)

/-- A logical tile may carry job `j`: mapped, active, allowed, not reserved, in no gated or fenced unit. -/
def State.tileUsable (s : State) (j l : Nat) : Bool :=
  match s.physOf l with
  | some t => bitOf (s.jobAllowed j) l && s.fld .TILE_INFO 18 16 t == 2 && !s.tileReserved j l &&
      (s.tileOwner l == some (s.jobOwner j) || s.borrows (s.jobOwner j) l) &&
      !s.fencedTile t
  | none => false

/-- The rank of a job on logical tile `l`, higher for what ranks lower: by class and PRIO, and a borrower below every job of the tile's
owner (R17, R189). -/
def State.jobRank (s : State) (l k : Nat) : Nat :=
  s.jobClass k * 64 + (63 - s.jobPrio k) + (if s.tileOwner l == some (s.jobOwner k) then 0 else 256)

/-- The rank of a candidate tile in R188's order: intact live ranges, free, displaceable by the lowest-ranked job;
then the logical tile number. -/
def State.tileRank (s : State) (j l : Nat) : Nat :=
  let t := (s.physOf l).getD 0
  let free := (s.tileJobs t).isEmpty
  let low := (s.tileJobs t).foldl (fun m k => max m (s.jobRank l k)) 0
  let k := if free && alGet s.sch.lastJob l == some j then 0 else if free then 1 else 2 + (511 - low)
  k * 64 + l

/-- The candidates of job `j`: usable tiles that are free or carry jobs that `j` displaces, best first.  A job with
a tile-pinned plan takes exactly the tiles of TILE_MASK (R132). -/
def State.candidates (s : State) (j : Nat) : List Nat :=
  let pinned := match s.jobPlan j with
    | some n => (match alGet s.upd.plans n with | some x => x.plan.tileMask | none => 0)
    | none => 0
  let ok := (List.range 64).filter (fun l =>
    s.tileUsable j l && (pinned = 0 || bitOf pinned l) &&
    (s.tileJobs ((s.physOf l).getD 0)).all (fun k => s.displaces j k l))
  let ranked := ok.mergeSort (fun a b => s.tileRank j a ≤ s.tileRank j b)
  ranked.take (s.jobGang j)

/-- The bits of a list of positions as a number. -/
def maskOf (l : List Nat) : Nat := l.foldl (fun m b => m ||| 2 ^ b) 0

/-- The slice of a job in us (R187): INT_SLICE or BATCH_SLICE ms, 0 taken as 1, less DEBT. -/
def State.sliceUs (s : State) (j : Nat) : Nat :=
  let ms := if s.jobClass j = 1 then s.fld .SCH_CFG 15 8 else s.fld .SCH_CFG 7 0
  max 1 ms * 1000 - s.fld .SCH_CTX 31 16 j 11

/-- The tiles of a gang that has formed: until the next tick those with a clock run at the lowest of their frequencies (R325), and those
that are power-gated ask for their wake (R323). -/
def State.joinGang (s : State) (ts : List Nat) : State :=
  let f := ((ts.map (fun t => s.fld .TILE_FREQ 15 0 t)).filter (fun x => x ≠ 0)).foldl min 0xFFFF
  let s := ts.foldl (fun s t => if s.fld .TILE_FREQ 15 0 t = 0 then s else s.wrF .TILE_FREQ 15 0 f t) s
  let asks := ts.filter (fun t => s.pwr.gated.contains t)
  { s with pwr := { s.pwr with wakes := s.pwr.wakes.filter (fun x => !asks.contains x) ++ asks } }

/-- Job `j` bound to the tiles `ls` together (R184, R188): RUNNING, or with its live ranges to restore first; its
slice starts shortened by DEBT, which clears (R187). -/
def State.bindJob (s : State) (j : Nat) (ls : List Nat) : State :=
  let ls := bitsSet 64 (maskOf ls)
  let c := s.job j
  let need := (List.range ls.length).filter (fun i => c.saved && alGet s.sch.lastJob (ls.getD i 0) != some j)
  let s := (s.wr .SCH_CTX (maskOf ls % 2 ^ 32) j 5).wr .SCH_CTX (maskOf ls / 2 ^ 32) j 6
  let s := s.setJobState j ctxRunning
  let slice := s.sliceUs j
  let s := s.wrF .SCH_CTX 31 16 0 j 11
  let s := ls.zipIdx.foldl (fun s x =>
    let t := (s.physOf x.1).getD 0
    let r := s.run t
    let parked := match r.ctx with | some k => if s.jobState k = ctxParked then some (k, r.pos) else r.parked | none => r.parked
    let s := s.updRun t (fun _ => { ctx := some j, pos := x.2, parked := parked, spanAt := s.now })
    { s with sch := { s.sch with lastJob := alSet s.sch.lastJob x.1 j } }) s
  let s := s.joinGang (ls.map (fun l => (s.physOf l).getD 0))
  s.setJob j { c with sliceAt := s.now, slice := slice, sliceEnded := none, displaced := false, restoring := !need.isEmpty,
                      needRestore := need, working := s.jobClass j = 0, released := false }

/-- Job `k` is served before job `j` (R188): by class, then PRIO, then the longest wait. -/
def State.servedBefore (s : State) (k j : Nat) : Bool :=
  s.jobClass k < s.jobClass j || (s.jobClass k = s.jobClass j && (s.jobPrio j < s.jobPrio k ||
    (s.jobPrio k = s.jobPrio j && (s.job k).waitSince < (s.job j).waitSince)))

/-- Another waiting job that is served first can take tiles among the candidates of job `j` (R188). -/
def State.placedLater (s : State) (j : Nat) : Bool :=
  let ls := s.candidates j
  s.usedJobs.any (fun k => k != j && s.jobWaits k && s.servedBefore k j &&
    (let ms := s.candidates k; s.jobGang k ≤ ms.length && ms.any ls.contains))

/-- The running jobs asked to leave for job `j` at their next cheap points: a borrower under an RT job parks (R193), any other is
displaced (R189). -/
def State.askToLeave (s : State) (j t k : Nat) : State :=
  let c := s.job k
  if s.jobClass j = 0 && s.jobOwner k ≠ s.jobOwner j then
    s.setJob k { c with parkFor := if c.parkFor.contains t then c.parkFor else t :: c.parkFor }
  else s.setJob k { c with displaced := true }

/-- The jobs on a tile that keep job `j` from binding it: all but, for an RT job, borrowers already PARKED. -/
def State.inWay (s : State) (j t : Nat) : List Nat :=
  (s.tileJobs t).filter (fun k => s.jobState k == ctxRunning || s.jobClass j != 0)

/-- Placement of a waiting job (R188, R189), in its turn: it binds when all GANG tiles are free; else the jobs on its candidates
are asked to leave. -/
def State.placeJob (s : State) (j : Nat) : State :=
  let ls := s.candidates j
  if ls.length < s.jobGang j then s
  else
    let phys := ls.map (fun l => (s.physOf l).getD 0)
    if phys.all (fun t => (s.inWay j t).isEmpty) then s.bindJob j ls
    else phys.foldl (fun s t => (s.inWay j t).foldl (fun s k => s.askToLeave j t k) s) s

/-- JOB_PLACE (R188, R189). -/
def execJobPlace (j : Nat) (s : State) : Host.Outcome State Fault Refusal :=
  .next (if !s.jobWaits j || s.placedLater j then s else s.placeJob j)

/-- A slice ends (R187, R189): only an interactive or batch job that is RUNNING has one, and not before its slice has run; a waiting job
of the same class and PRIO may displace it from here on. -/
def execSliceEnd (j : Nat) (s : State) : Host.Outcome State Fault Refusal :=
  .next <|
    let c := s.job j
    let due := c.sliceAt + c.slice * 1000
    if s.jobState j = ctxRunning && s.jobClass j ≠ 0 && due ≤ s.now then
      let same := s.usedJobs.any (fun k => k != j && s.jobWaits k && s.jobClass k == s.jobClass j && s.jobPrio k == s.jobPrio j
        && s.jobAllowed k &&& s.jobPlaced j != 0)
      s.setJob j { c with sliceEnded := some (c.sliceEnded.getD due), displaced := c.displaced || same }
    else s

/-! ## Cheap points (R190 to R192) -/

/-- The live ranges that a CHEAP lists, as offset and length in 64-byte units. -/
def cheapRanges (w : List Nat) : List (Nat × Nat) :=
  (List.range (wfld w 3 3 0)).map (fun k => (wfld w (4 + k) 31 16, wfld w (4 + k) 15 0))

/-- No two ranges of a list meet. -/
def disjointRanges : List (Nat × Nat) → Bool
  | [] => true
  | r :: l => l.all (fun x => !rangesMeet r.1 r.2 x.1 x.2) && disjointRanges l

/-- The front-end check of a CHEAP (R190). -/
def State.cheapCheck (s : State) (t : Nat) (c : NextCmd) : Nat :=
  let w := c.words
  let n := wfld w 3 3 0
  let rs := cheapRanges w
  if wfld w 2 30 16 ≠ 0 || wfld w 3 31 4 ≠ 0 || 12 < n || rs.any (fun r => r.2 = 0) || !disjointRanges rs
      || (List.range (12 - n)).any (fun k => wordAt w (4 + n + k) ≠ 0) then 1
  else if !rs.all (fun r => s.rangeOk (s.jobOwner c.job) (s.logicalOfRun t) (r.1 * 64, r.2 * 64)) then 2
  else 0

/-- An RT job yields tile `t` (R193): its borrower goes on there, and is RUNNING again once none of its tiles is taken. -/
def State.yieldTile (s : State) (t : Nat) : State :=
  match (s.run t).parked with
  | none => s
  | some (k, i) =>
    (s.updRun t (fun r => { r with ctx := some k, pos := i, parked := none, running := []
                                   stopped := s.jobState k == ctxStopped })).unpark k

/-! ## RT release (R193, R194) -/

/-- The tiles of a placed RT job are ready for its next release: each carries the job itself, idle, or its parked
borrower, and nothing else. -/
def State.rtTilesReady (s : State) (j : Nat) : Bool :=
  (s.gangTiles j).all (fun l => match s.physOf l with
    | some t => (match (s.run t).ctx with
      | none => true
      | some k => k == j)
    | none => false)

/-- A tile taken for the next release of RT job `j` at gang position `i`: a PARKED borrower there waits under it. -/
def State.takeTile (s : State) (j i t : Nat) : State :=
  s.updRun t (fun r => { r with ctx := some j, pos := i, running := [], stopped := false, spanAt := s.now })

/-- An RT job that stays RUNNING between its releases starts the work of one that is due, if its tiles are ready (R194). -/
def State.rtStart (s : State) (j : Nat) : State :=
  let c := s.job j
  if s.jobState j = ctxRunning && c.released && !c.working && s.rtTilesReady j then
    let s := (s.gangTiles j).zipIdx.foldl (fun s x => s.takeTile j x.2 ((s.physOf x.1).getD 0)) s
    let c := s.job j
    s.setJob j { c with working := true, released := false, pos := c.pos.map (fun g => { g with yielded := false }) }
  else s

/-- Every RT job whose late release can start now starts it: as soon as it can (R194). -/
def State.startLate (s : State) : State :=
  (s.usedJobs.filter (fun j => s.jobClass j == 0 && (s.job j).released)).foldl State.rtStart s

/-- CHEAP (R190, R191, R193): waits for every earlier command, records the live ranges and completes; with YIELD an
RT job's work for this release ends on the tile. -/
def execCheap (t : Nat) (s : State) : Host.Outcome State Fault Refusal :=
  .next <|
    match s.startCmd t 8 true (s.cheapCheck t) (fun _ => {}) with
    | none => s.wakeQueue t
    | some (c, s) =>
      if (s.run t).stopped then s
      else
        let yld := wfld c.words 2 31 31 = 1 && s.jobClass c.job = 0
        let s := s.finish t c.slot 0
        let s := s.setGangPos c.job c.pos (fun g =>
          { g with ranges := cheapRanges c.words, cheapId := wfld c.words 2 15 0, atCheap := true, yielded := yld })
        let s := s.updRun t (fun r => { r with spanAt := s.now })
        if yld then
          let g := s.job c.job
          let s := if g.pos.all (fun x => x.yielded) then s.setJob c.job { g with working := false } else s
          (s.yieldTile t).startLate
        else s

/-- A WAIT or GATE that a switch abandons runs again on resume (R191). -/
def State.abandonWaits (s : State) (t : Nat) : State :=
  let r := s.run t
  match r.ctx, r.running.find? (fun c => !c.done && [5, 7].contains (opcodeOf c.words)) with
  | some j, some c =>
    let s := (s.dropGate j r.pos).setGangPos j r.pos (fun g => { g with next := c.slot })
    s.updRun t (fun r => { r with running := r.running.filter (fun d => d.slot != c.slot) })
  | _, _ => s

/-- The tiles on which RT jobs ask a borrower to park (R193), as far as it carries work there. -/
def State.lentTiles (s : State) (j : Nat) : List Nat :=
  (s.tilesOf j).filter (fun t => (s.job j).parkFor.contains t && (s.run t).ctx == some j)

/-- The delay of a switch past the slice end added to DEBT, OVERRUNS and SCH_OVERRUNS, with a SPAN event (R192). -/
def State.countOverrun (s : State) (j : Nat) : State :=
  match (s.job j).sliceEnded with
  | some e =>
    if e < s.now then
      let s := s.wrF .SCH_CTX 31 16 (min 0xFFFF (s.fld .SCH_CTX 31 16 j 11 + (s.now - e) / 1000)) j 11
      let s := s.bumpF .SCH_CTX 15 0 j 11
      (s.bump .SCH_OVERRUNS).schEvent (s.jobOwner j) 2 j
    else s
  | none => s

/-- A borrower that is at cheap points on the tiles asked of it is PARKED there (R184, R193). -/
def State.parkJob (s : State) (j : Nat) : State :=
  let s := (s.lentTiles j).foldl (fun s t =>
    (s.abandonWaits t).updRun t (fun r => { r with ctx := none, parked := some (j, r.pos), running := [] })) s
  (s.setJobState j ctxParked).setJob j { s.job j with parkedAt := s.now }

/-- A job whose tiles are all at cheap points starts to save its live ranges (R184, R191). -/
def State.startSave (s : State) (j : Nat) : State :=
  let s := (s.tilesOf j).foldl (fun s t => if (s.run t).ctx = some j then s.abandonWaits t else s) s
  let s := s.countOverrun j
  let c := s.job j
  s.setJob j { c with saving := some (if c.holdReq then .stopped else .preempted) }

/-- A switch at a cheap point (R184, R189, R191 to R193): a displaced or held job whose gang tiles are all at cheap
points starts to save its live ranges; a borrower asked to park is PARKED once its lent tiles are, and a late release starts.  A
displacement goes before a park (R198). -/
def execSwitchAtCheap (j : Nat) (s : State) : Host.Outcome State Fault Refusal :=
  .next <|
    let c := s.job j
    if s.jobState j ≠ ctxRunning && s.jobState j ≠ ctxParked then s
    else if c.saving.isSome || c.restoring then s
    else if c.displaced || c.holdReq then
      (if (s.tilesOf j).all (s.atCheapFor j) then s.startSave j else s)
    else if !(s.lentTiles j).isEmpty && (s.lentTiles j).all s.atCheapPoint then (s.parkJob j).startLate
    else s

/-- The bytes of a list of live ranges. -/
def rangesBytes (l : List (Nat × Nat)) : Nat := l.foldl (fun n r => n + r.2 * 64) 0

/-- One live range copied for a job (R191, R200), at the budget of its partition's copy engines: the status. -/
def State.moveRange (s : State) (a : Agent) (src dst n : Nat) : Nat × State :=
  match s.engineRead a src n with
  | (none, s) => (4, s)
  | (some d, s) => (match s.engineWrite a dst d with | (true, s) => (0, s) | (false, s) => (4, s))

/-- Live ranges copied in list order, up to one whose read or write is refused or fails. -/
def State.moveRanges (s : State) (a : Agent) : List (Nat × Nat × Nat) → Nat × State
  | [] => (0, s)
  | x :: l =>
    match s.moveRange a x.1 x.2.1 x.2.2 with
    | (0, s) => s.moveRanges a l
    | (st, s) => (st, s)

/-- The copies of a list of live ranges from a scratch into a save area: source, destination, bytes. -/
def rangeMoves (base save : Nat) : List (Nat × Nat) → List (Nat × Nat × Nat)
  | [] => []
  | r :: l => (base + r.1 * 64, save, r.2 * 64) :: rangeMoves base (save + r.2 * 64) l

/-- The copies of the live ranges of gang position `i` of a job into its save area. -/
def State.positionMoves (s : State) (j i : Nat) : List (Nat × Nat × Nat) :=
  rangeMoves (tileBase ((s.gangTiles j).getD i 0)) (s.jobSave j + i * s.jobSaveKib j * 1024) (s.gangPos j i).ranges

/-- The ranges that a list of copies touches. -/
def movedRanges (l : List (Nat × Nat × Nat)) : List (Nat × Nat) := l.flatMap (fun x => [(x.1, x.2.2), (x.2.1, x.2.2)])

/-- A job whose live ranges have been saved leaves its tiles (R184). -/
def State.leaveTiles (s : State) (j : Nat) (dest : SwitchTo) : State :=
  let s := (s.unbindJob j).abandonSlots j
  let s := s.setJob j { s.job j with saving := none, displaced := false, holdReq := false, parkFor := [], saved := true,
                                     sliceEnded := none, waitSince := s.now }
  match dest with
  | .preempted => s.setJobState j ctxPreempted
  | .stopped => (s.setJobState j ctxStopped).schEvent (s.jobOwner j) 1 j

/-- The save of a job's live ranges ends (R191, R195): the job leaves its tiles as PREEMPTED, or STOPPED after a HOLD;
a save that would pass SAVE_KIB stops the job with BOUNDS.  A save that is refused or reads an uncorrectable word stops it with
MEM_ERROR. -/
def execLiveSaveDone (j : Nat) (s : State) : Host.Outcome State Fault Refusal :=
  .next <|
    let c := s.job j
    match c.saving with
    | none => s
    | some dest =>
      if c.pos.any (fun g => s.jobSaveKib j * 1024 < rangesBytes g.ranges) then
        ((s.unbindJob j).stopJob j 2 0 s.now).startLate
      else
        let ms := (List.range (s.jobGang j)).flatMap (s.positionMoves j)
        match s.asleep (movedRanges ms) with
        | x :: l => s.wakeAll (x :: l)
        | [] =>
          match s.moveRanges (s.schAgent j) ms with
          | (0, s) => (s.leaveTiles j dest).startLate
          | (st, s) => ((s.unbindJob j).stopJob j st 0 s.now).startLate

/-- The restore of a job's live ranges ends (R191): a failed check stops the job with CHECK_FAIL, a read or write that is refused or
fails with MEM_ERROR; else its queues go on. -/
def execLiveRestoreDone (j : Nat) (s : State) : Host.Outcome State Fault Refusal :=
  .next <|
    let c := s.job j
    if !c.restoring then s
    else
      let ms := (c.needRestore.flatMap (s.positionMoves j)).map (fun x => (x.2.1, x.1, x.2.2))
      match s.asleep (movedRanges ms) with
      | x :: l => s.wakeAll (x :: l)
      | [] =>
        match ms.find? (fun x => !s.checksOk x.1 x.2.2) with
        | some x => (s.checkFailed (s.schAgent j) x.1).stopJob j 5 0 s.now
        | none =>
          match s.moveRanges (s.schAgent j) ms with
          | (0, s) => s.setJob j { s.job j with restoring := false, needRestore := [] }
          | (st, s) => s.stopJob j st 0 s.now

/-! ## Releases (R193, R194) -/

/-- The borrowers on the lent tiles of RT job `j` are asked to park (R193). -/
def State.askToPark (s : State) (j : Nat) : State :=
  let ls := bitsSet 64 (if s.jobState j = ctxRunning then s.jobPlaced j else s.jobAllowed j)
  let ts := ls.filterMap s.physOf
  ts.foldl (fun s t =>
    ((s.tileJobs t).filter (fun k => s.jobOwner k != s.jobOwner j && s.jobState k == ctxRunning)).foldl (fun s k => s.askToLeave j t k) s) s

/-- LEAD before a release of a periodic RT job (R193). -/
def execRtParkRequest (j : Nat) (s : State) : Host.Outcome State Fault Refusal :=
  .next (if s.jobClass j = 0 && s.bit .SCH_CTX 31 j 12 && s.admitted j then s.askToPark j else s)

/-- An RT job starts late (R194): LATE rises with a LATE event. -/
def State.countLate (s : State) (j : Nat) : State :=
  (s.wrF .SCH_CTX 31 16 (s.fld .SCH_CTX 31 16 j 13 + 1) j 13).schEvent (s.jobOwner j) 0 j

/-- A release of RT job `j` (R193, R194): it starts if its tiles are ready, else it is late and starts as soon as it can.  Releases that
fall while one is due are merged. -/
def State.releaseJob (s : State) (j : Nat) : State :=
  let c := s.job j
  if c.released then s
  else
    let s := s.setJob j { c with released := true }
    let s := if s.bit .SCH_CTX 31 j 12 then s else s.askToPark j
    let s := if s.jobState j = ctxRunning then s.rtStart j
      else if s.jobWaits j && !s.placedLater j then s.placeJob j else s
    if (s.job j).released then s.countLate j else s

/-- The Windline cycle count has reached a multiple of PERIOD (R193). -/
def State.periodDue (s : State) (j : Nat) : Bool := s.rd64 .WL_CYCLE_LO % max 1 (s.fld .SCH_CTX 23 16 j 12) = 0

/-- The cycle phase reaches PHASE in a cycle whose count is a multiple of PERIOD: a periodic RT job is released (R193). -/
def execRtRelease (j : Nat) (s : State) : Host.Outcome State Fault Refusal :=
  .next <|
    if s.jobClass j ≠ 0 || !s.bit .SCH_CTX 31 j 12 || !s.admitted j || s.jobState j = ctxStopped || !s.periodDue j then s
    else s.releaseJob j

/-- The span of a tile whose empty queue has new commands starts (R191, R192). -/
def State.spanFrom (s : State) (empty : List Nat) : State :=
  empty.foldl (fun s t => if s.atCheapPoint t then s else s.updRun t (fun r => { r with spanAt := s.now })) s

/-- A doorbell (R182, R194): the AL960 reads the TAIL words; a doorbell releases an RT job without PERIODIC.  A
doorbell for a context of another partition is discarded with a record. -/
def execSchedulerDoorbell (a : Agent) (p j : Nat) (s : State) : Host.Outcome State Fault Refusal :=
  .next <|
    if s.accessFenced a (some 3) then s.respErr
    else if s.agentPart a ≠ p || 8 ≤ p then s.denied a
    else if s.jobState j = ctxFree || s.jobOwner j ≠ p || 1024 ≤ j then s.respOk.violation a 0 j
    else
      let s := s.respOk
      let empty := (s.tilesOf j).filter s.atCheapPoint
      let s := (s.readQueues j false).spanFrom empty
      if s.jobClass j = 0 && !s.bit .SCH_CTX 31 j 12 && s.admitted j && s.jobState j ≠ ctxStopped then s.releaseJob j else s

end Sys2Proof.Machine
end

