-- ==== Sys2Proof/Machine/Loader.lean ====
section
/-!
DEFINITION. The image loader (R31 to R37, R40, R41) up to the fence, and the security-version commit (R28).
-/

namespace Sys2Proof.Machine

/-- A range of memory as the loader reads it: a word with an uncorrectable error returns data 0 (R10). -/
def State.loaderBytes (s : State) (a n : Nat) : List Byte :=
  (List.range n).map (fun k => if s.badWord.contains ((a + k) / 64) then 0 else s.getByte (a + k))

/-- The number of GLB_ID.VARIANT. -/
def State.variant (s : State) : Nat := if s.isS then 2 else 1

/-- A load of bank `p` ends with a result (R40, R41): OK sets DONE, any other code FAIL with a record of class image
load; the loader interrupt of the bank rises.  DESIGN CHOICE (log entry 89): the other of the two flags stays as it was until a write of 1
clears it. -/
def State.loadResult (s : State) (bank : Nat) (target : Option Nat) (c : LoadCode) : State :=
  let s := (s.wrF .SPL_STATUS 7 0 c.num bank).pulse (.loader bank)
  if c = .ok then s.setB .SPL_STATUS 8 bank
  else
    let s := s.setB .SPL_STATUS 9 bank
    s.record { cls := 0x04, part := target.getD 0xFF, source := 0x7000, detail := c.num }

/-- The running load ends: GO and SPL_BUSY clear, the source is unlocked. -/
def State.endLoad (s : State) (c : LoadCode) : State :=
  match s.spl.load with
  | none => s
  | some l =>
    let s := { s with spl := { s.spl with load := none } }
    let s := (s.clrB .SPL_BUSY 0).wrF .SPL_BUSY 11 8 0
    (s.clrB .SPL_CTRL 31 l.bank).loadResult l.bank l.target c

/-- Every byte of a range lies in a warm-tier window of a partition (R360). -/
def State.inWarmWindow (s : State) (p a n : Nat) : Bool :=
  (blocksOf 0x200000 a n).all (fun b =>
    match regionOf (max a (b * 0x200000)) with
    | .warm u => s.windowCovers p 0 u 0
    | _ => false)

/-- The checks at GO (R31, R33, R35, R360). -/
def State.goCode (s : State) (bank : Nat) (target : Option Nat) (dry : Bool) (src len : Nat) : LoadCode :=
  firstCode [
    (bank == s.ctrl || target == some bank, .permission),
    (s.spl.load.isNone && !s.spl.commit, .busy),
    (src % 64 == 0 && len % 64 == 0 && 0x1000 ≤ len && len ≤ 0x100000 && s.ownsRange bank src len &&
      (target.isSome || s.inWarmWindow bank src len), .source),
    (target.isSome || dry || s.fld .WB_STATUS 31 29 == 3, .state)]

/-- A write of GO to SPL_CTRLp (R31 to R33, R37): `w` is the word written.  GO through the bank whose own load runs has
no effect; a refusal writes nothing but the bank's status and a record; a load that starts locks its source. -/
def execLoadGo (a : Agent) (bank : Nat) (w : Word) (s : State) : Host.Outcome State Fault Refusal :=
  .next <|
    if s.accessFenced a none then s.respErr
    else if s.agentPart a ≠ bank || 8 ≤ bank then s.denied a
    else if s.spl.load.any (fun l => l.bank == bank) then s.respOk
    else
      let target := if fieldOf w 8 8 = 1 then none else some (fieldOf w 2 0)
      let dry := fieldOf w 16 16 = 1
      let src := s.rd .SPL_SRC_LO bank + 2 ^ 32 * s.fld .SPL_SRC_HI 15 0 bank
      let len := s.rd .SPL_LEN bank
      let c := s.goCode bank target dry src len
      let s := s.respOk.wr .SPL_CTRL (w.toNat &&& 0x00010107) bank
      if c ≠ .ok then s.loadResult bank target c
      else
        let s := (s.setB .SPL_CTRL 31 bank).setB .SPL_BUSY 0
        let s := s.wrF .SPL_BUSY 11 8 (target.getD 0xF)
        { s with spl := { s.spl with load := some { bank, target, dryRun := dry, src, len } } }

/-- The running load, if it waits for a step. -/
def State.loadIn (s : State) (ph : LoadPhase) : Option Load :=
  match s.spl.load with
  | some l => if l.phase = ph then some l else none
  | none => none

/-- The running load goes on to its next step. -/
def State.loadPhase (s : State) (l : Load) (ph : LoadPhase) : State :=
  { s with spl := { s.spl with load := some { l with phase := ph } } }

/-- The partition mask of the active chip image. -/
def State.partMask (s : State) : Nat := match s.spl.chip with | some c => c.partMask | none => 0

/-- The header has been read (R33, step 2). -/
def execLoadHeaderRead (s : State) : Host.Outcome State Fault Refusal :=
  .next <|
    match s.loadIn .header with
    | none => s
    | some l =>
      let b := s.loaderBytes l.src l.len
      let c := headerCode b l.len s.variant l.target s.partMask
      if c = .ok then s.loadPhase l .digest else s.endLoad c

/-- The image has been digested (R33, step 3). -/
def execLoadDigestDone (s : State) : Host.Outcome State Fault Refusal :=
  .next <|
    match s.loadIn .digest with
    | none => s
    | some l =>
      let c := signatureCode (s.loaderBytes l.src l.len) s.spl.fuses
      if c = .ok then s.loadPhase l .sections else s.endLoad c

/-- Each borrower job on a tile that partition `p` lends is asked to leave at its next cheap point (R18); one that is PARKED is at it, and
is switched out at once where its other tiles are too (R198). -/
def State.callBackLoans (s : State) (p : Nat) : State :=
  let ks := s.usedJobs.filter (fun j => s.jobOwner j != p &&
    (s.tilesOf j).any (fun t => s.physOwner t == some p))
  ks.foldl (fun s j =>
    let s := s.setJob j { s.job j with displaced := true }
    if s.jobState j = ctxParked && (s.tilesOf j).all (s.atCheapFor j) then s.startSave j else s) s

/-- The fence of a partition load begins (R34): the partition's jobs start no new work; a borrower's on its tiles goes on to its next cheap
point (R18). -/
def State.fenceJobs (s : State) (p : Nat) : State :=
  ((List.range 68).filter (fun t => match (s.run t).ctx with | some j => s.jobOwner j == p | none => false)).foldl
    (fun s t => s.updRun t (fun x => { x with stopped := true })) s

/-- The sections have been checked (R33, steps 4 and 5; R34, R35): a dry run reports, a partition load begins the
fence of its partition, a chip load resets at rung 4 with the loaded image kept for S6; its source stays locked until then (R32). -/
def execLoadSectionsChecked (s : State) : Host.Outcome State Fault Refusal :=
  .next <|
    match s.loadIn .sections with
    | none => s
    | some l =>
      let r := sectionsCode (s.loaderBytes l.src l.len) l.target s.tileCount s.spl.chip s.spl.parts
      match r.2 with
      | none => s.endLoad r.1
      | some img =>
        if l.dryRun then s.endLoad .ok
        else match l.target with
          | some p =>
            let s := { s with spl := { s.spl with load := some { l with phase := .fence, image := some img } } }
            (s.callBackLoans p).fenceJobs p
          | none =>
            let s := { s with spl := { s.spl with load := some { l with phase := .fence } }
                              boot := { s.boot with loaded := some (img, (l.src, l.len)), next := .afterLoad } }
            s.openRecovery .chip { cls := 0x12, part := 0xFF, source := 0x7000, detail := 3 }

/-! ## The security-version commit (R28) -/

/-- A write of 1 to SPL_SVN_COMMIT.COMMIT: only by the control partition; refused with an error response and a record
while a load or a commit is in progress. -/
def execSvnCommit (a : Agent) (s : State) : Host.Outcome State Fault Refusal :=
  .next <|
    if s.accessFenced a none then s.respErr
    else if s.agentPart a ≠ s.ctrl || s.ctrl = 0xFF then s.denied a
    else if s.spl.load.isSome || s.spl.commit then
      s.respErr.record { cls := 0x04, part := s.agentPart a, source := 0x7000, detail := 0x0C }
    else
      let s := (s.respOk).setB .SPL_BUSY 1
      { s with spl := { s.spl with commit := true } }

/-- SPL_SVN and SPL_KEYS show the fuses and the active chip image (R41). -/
def State.showFuses (s : State) : State :=
  let f := s.spl.fuses
  let prog := (List.range 4).foldl (fun m i => if (f.digests.getD i none).isSome then m ||| 2 ^ i else m) 0
  let act := match s.spl.chip with | some c => (c.svn, c.keySlot) | none => (0, 0)
  let s := s.wr .SPL_SVN (act.1 * 0x100 + f.svn)
  s.wr .SPL_KEYS (act.2 * 0x10000 + f.revoked * 0x100 + prog)

/-- A rung 4 that waited for a commit begins its fence (R28). -/
def State.fenceWaiting (s : State) : State :=
  if s.flt.recoveries.any (fun (r : Recovery) => r.phase == RecPhase.waiting) then
    { s with flt := { s.flt with recoveries := s.flt.recoveries.map (fun (r : Recovery) =>
        if r.phase = RecPhase.waiting then { r with phase := .fencing } else r) } }.fenceStart .chip
  else s

/-- The commit ends (R26, R28): FUSE_SVN rises to the SVN of the active chip image and its revocations are burnt. -/
def execSvnCommitDone (s : State) : Host.Outcome State Fault Refusal :=
  .next <|
    if !s.spl.commit then s
    else
      let f := match s.spl.chip with
        | some c => { s.spl.fuses with svn := max s.spl.fuses.svn c.svn, revoked := s.spl.fuses.revoked ||| c.revokeMask }
        | none => s.spl.fuses
      let s := { s with spl := { s.spl with fuses := f, commit := false } }
      ((s.clrB .SPL_BUSY 1).showFuses).fenceWaiting

end Sys2Proof.Machine
end

