-- ==== Sys2Proof/Machine/Flags.lean ====
section
/-!
DEFINITION. The arithmetic flags of R55, and results that carry flags.
-/

namespace Sys2Proof.Machine

/-- INV: an invalid operation, or a NaN converted to a format without NaN. -/
def flagInv : Nat := 1
/-- OVF: a finite floating result overflows to infinity. -/
def flagOvf : Nat := 2
/-- UNF: a nonzero floating result rounds to a subnormal or to zero. -/
def flagUnf : Nat := 4
/-- SAT: an integer or Q value, or an FP8 output, saturates. -/
def flagSat : Nat := 8
/-- NANIN: a NaN is read as an operand. -/
def flagNanIn : Nat := 16

/-- Flags without UNF, for operations whose tininess R55 does not count. -/
def noUnf (f : Nat) : Nat := f &&& 27

/-- A function with flags over a list: the results and the union of the flags. -/
def mapFlags {α β : Type} (f : α → β × Nat) (l : List α) : List β × Nat :=
  let r := l.map f
  (r.map Prod.fst, r.foldl (fun a x => a ||| x.2) 0)

/-- A list cut into blocks of `n` elements. -/
def blocksList {α : Type} (n : Nat) (l : List α) : List (List α) :=
  (List.range ((l.length + n - 1) / max 1 n)).map (fun k => (l.drop (k * n)).take n)

end Sys2Proof.Machine
end

