-- ==== Sys2Proof/Machine/Operands.lean ====
section
/-!
DEFINITION. The number formats (R45 to R52): decoding, exact values, rounding, FP32 arithmetic and conversion to an
output format.
-/

namespace Sys2Proof.Machine

/-! ## Exact values and rounding (R46, R51) -/

/-- A floating value: a NaN, an infinity, or the exact value ±m * 2^e (a zero keeps its sign). -/
inductive Fp where
  | nan
  | inf (neg : Bool)
  | fin (neg : Bool) (m : Nat) (e : Int)
  deriving DecidableEq, Repr

/-- The number of bits of a number. -/
def bitLen (m : Nat) : Nat := if m = 0 then 0 else Nat.log2 m + 1

/-- m * 2^k, or m / 2^-k rounded down. -/
def scaleInt (m : Nat) (k : Int) : Nat := if 0 ≤ k then m <<< k.toNat else m >>> (-k).toNat

/-- n / d rounded to nearest, ties to even. -/
def divEven (n d : Nat) : Nat :=
  let q := n / d
  let r := n % d
  if d < 2 * r || (d = 2 * r && q % 2 = 1) then q + 1 else q

/-- m / 2^k rounded to nearest, ties to even. -/
def shiftEven (m k : Nat) : Nat := divEven m (2 ^ k)

/-- m * 2^e rounded to the nearest integer, ties to even. -/
def roundInt (m : Nat) (e : Int) : Nat := if 0 ≤ e then m <<< e.toNat else shiftEven m (-e).toNat

/-- An integer divided by 2^k, rounded to nearest, ties to even. -/
def shiftEvenInt (x : Int) (k : Nat) : Int := if x < 0 then -(shiftEven x.natAbs k : Int) else (shiftEven x.natAbs k : Int)

/-- How a floating format ends: with infinities and NaNs, with the one NaN of E4M3, or with neither (E2M1). -/
inductive FpKind where | ieee | e4m3 | plain
  deriving DecidableEq, Repr

/-- A floating format (R45): bits of the significand with its hidden bit, bits of the exponent, bias. -/
structure FpFmt where
  p : Nat
  eb : Nat
  bias : Nat
  kind : FpKind
  deriving DecidableEq, Repr

/-- FP32. -/
def fp32 : FpFmt := ⟨24, 8, 127, .ieee⟩
/-- BF16. -/
def bf16 : FpFmt := ⟨8, 8, 127, .ieee⟩
/-- The floating format of a code; FP32 for the others. -/
def fpFmt : Nat → FpFmt
  | 1 => bf16
  | 2 => ⟨11, 5, 15, .ieee⟩
  | 3 => ⟨4, 4, 7, .e4m3⟩
  | 4 => ⟨3, 5, 15, .ieee⟩
  | 5 => ⟨2, 2, 1, .plain⟩
  | _ => fp32

/-- The exponent of the least subnormal. -/
def FpFmt.qmin (f : FpFmt) : Int := 2 - (f.bias : Int) - f.p

/-- The exponent of the last place kept at a magnitude. -/
def FpFmt.place (f : FpFmt) (m : Nat) (e : Int) : Int := max (e + bitLen m - f.p) f.qmin

/-- A magnitude rounded to a format as if its exponents were unbounded above: significand and exponent of its last place.
`sr` adds 16 random bits below the last place and truncates instead (R52). -/
def FpFmt.round (f : FpFmt) (m : Nat) (e : Int) (sr : Option Nat) : Nat × Int :=
  let q := f.place m e
  if q ≤ e then (m <<< (e - q).toNat, q)
  else
    let k := (q - e).toNat
    match sr with
    | none => (shiftEven m k, q)
    | some r => ((m * 65536 + (r % 65536) * 2 ^ k) / (65536 * 2 ^ k), q)

/-- The largest finite magnitude of a format. -/
def FpFmt.top (f : FpFmt) : Nat × Int :=
  match f.kind with
  | .ieee => (2 ^ f.p - 1, f.qmin + (2 ^ f.eb : Nat) - 3)
  | .e4m3 => (2 ^ f.p - 2, f.qmin + (2 ^ f.eb : Nat) - 2)
  | .plain => (2 ^ f.p - 1, f.qmin + (2 ^ f.eb : Nat) - 2)

/-- One magnitude is below another. -/
def magLt (a b : Nat × Int) : Bool :=
  let e := min a.2 b.2
  a.1 <<< (a.2 - e).toNat < b.1 <<< (b.2 - e).toNat

/-- The bits of a magnitude that lies on a format's grid. -/
def FpFmt.magBits (f : FpFmt) (m : Nat) (q : Int) : Nat :=
  if m = 2 ^ f.p then ((q + 1 - f.qmin + 1).toNat) <<< (f.p - 1)
  else if m < 2 ^ (f.p - 1) then m
  else ((q - f.qmin + 1).toNat) <<< (f.p - 1) ||| (m - 2 ^ (f.p - 1))

/-- The canonical NaN of a format (R46); E2M1 has none. -/
def FpFmt.nanBits (f : FpFmt) : Nat :=
  match f.kind with
  | .ieee => (2 ^ f.eb - 1) <<< (f.p - 1) ||| 2 ^ (f.p - 2)
  | .e4m3 => 0x7F
  | .plain => 0

/-- The sign bit of a format. -/
def FpFmt.signBit (f : FpFmt) (neg : Bool) : Nat := if neg then 2 ^ (f.eb + f.p - 1) else 0

/-- The value of a code of a floating format (R45). -/
def FpFmt.decode (f : FpFmt) (c : Nat) : Fp :=
  let neg := bitOf c (f.eb + f.p - 1)
  let ex := bitsOf c (f.eb + f.p - 2) (f.p - 1)
  let ma := c % 2 ^ (f.p - 1)
  let top := 2 ^ f.eb - 1
  if f.kind = .ieee && ex = top then (if ma = 0 then .inf neg else .nan)
  else if f.kind = .e4m3 && ex = top && ma = 2 ^ (f.p - 1) - 1 then .nan
  else if ex = 0 then .fin neg ma f.qmin
  else .fin neg (ma + 2 ^ (f.p - 1)) (f.qmin + ex - 1)

/-- A rounded magnitude lies below the smallest normal of its format. -/
def FpFmt.tiny (f : FpFmt) (r : Nat × Int) : Bool := magLt r (2 ^ (f.p - 1), f.qmin)

/-! ## FP32 arithmetic (R51, R54) -/

/-- An exact value rounded once to FP32, with OVF and UNF. -/
def round32 (neg : Bool) (m : Nat) (e : Int) : Fp × Nat :=
  if m = 0 then (.fin neg 0 fp32.qmin, 0)
  else
    let r := fp32.round m e none
    if magLt fp32.top r then (.inf neg, flagOvf)
    else (.fin neg r.1 r.2, if fp32.tiny r then flagUnf else 0)

/-- A value rounded to FP32. -/
def Fp.to32 : Fp → Fp × Nat
  | .fin n m e => round32 n m e
  | x => (x, 0)

/-- The FP32 bits of a value that FP32 holds. -/
def Fp.bits32 : Fp → Nat
  | .nan => fp32.nanBits
  | .inf n => fp32.signBit n ||| 255 <<< 23
  | .fin n m e => if m = 0 then fp32.signBit n else
      let r := fp32.round m e none
      fp32.signBit n ||| fp32.magBits r.1 r.2

/-- The value of FP32 bits. -/
def of32 (b : Nat) : Fp := fp32.decode b

/-- The exact sum of two finite values: a zero sum is negative only if both are. -/
def addFin (n1 : Bool) (m1 : Nat) (e1 : Int) (n2 : Bool) (m2 : Nat) (e2 : Int) : Fp :=
  let e := min e1 e2
  let sg (n : Bool) (m : Nat) : Int := if n then -(m : Int) else m
  let x := sg n1 (m1 <<< (e1 - e).toNat) + sg n2 (m2 <<< (e2 - e).toNat)
  if x = 0 then .fin (n1 && n2) 0 e else .fin (decide (x < 0)) x.natAbs e

/-- The exact sum of two values, with INV for infinities of both signs. -/
def Fp.addExact : Fp → Fp → Fp × Nat
  | .nan, _ => (.nan, 0)
  | _, .nan => (.nan, 0)
  | .inf a, .inf b => if a = b then (.inf a, 0) else (.nan, flagInv)
  | .inf a, _ => (.inf a, 0)
  | _, .inf b => (.inf b, 0)
  | .fin n1 m1 e1, .fin n2 m2 e2 => (addFin n1 m1 e1 n2 m2 e2, 0)

/-- The exact product of two values, with INV for 0 × ∞. -/
def Fp.mulExact : Fp → Fp → Fp × Nat
  | .nan, _ => (.nan, 0)
  | _, .nan => (.nan, 0)
  | .inf a, .inf b => (.inf (a != b), 0)
  | .inf a, .fin b m _ => if m = 0 then (.nan, flagInv) else (.inf (a != b), 0)
  | .fin a m _, .inf b => if m = 0 then (.nan, flagInv) else (.inf (a != b), 0)
  | .fin n1 m1 e1, .fin n2 m2 e2 => (.fin (n1 != n2) (m1 * m2) (e1 + e2), 0)

/-- A flagged value rounded to FP32. -/
def round32F (x : Fp × Nat) : Fp × Nat :=
  let r := x.1.to32
  (r.1, x.2 ||| r.2)

/-- FP32 addition. -/
def Fp.add (a b : Fp) : Fp × Nat := round32F (a.addExact b)

/-- FP32 multiplication. -/
def Fp.mul (a b : Fp) : Fp × Nat := round32F (a.mulExact b)

/-- The negated value. -/
def Fp.neg : Fp → Fp
  | .nan => .nan
  | .inf n => .inf (!n)
  | .fin n m e => .fin (!n) m e

/-- FP32 subtraction. -/
def Fp.sub (a b : Fp) : Fp × Nat := a.add b.neg

/-- The absolute value. -/
def Fp.abs : Fp → Fp
  | .nan => .nan
  | .inf _ => .inf false
  | .fin _ m e => .fin false m e

/-- A quotient of magnitudes with 64 extra bits and a sticky bit below them. -/
def divMag (m1 : Nat) (e1 : Int) (m2 : Nat) (e2 : Int) : Nat × Int :=
  let k := bitLen m2 + 64
  let n := m1 <<< k
  (2 * (n / m2) + (if n % m2 = 0 then 0 else 1), e1 - e2 - k - 1)

/-- FP32 division: INV for 0 ÷ 0 and ∞ ÷ ∞; a finite value ÷ 0 is an infinity. -/
def Fp.div : Fp → Fp → Fp × Nat
  | .nan, _ => (.nan, 0)
  | _, .nan => (.nan, 0)
  | .inf _, .inf _ => (.nan, flagInv)
  | .inf a, .fin b _ _ => (.inf (a != b), 0)
  | .fin a _ _, .inf b => (.fin (a != b) 0 fp32.qmin, 0)
  | .fin n1 m1 e1, .fin n2 m2 e2 =>
    if m2 = 0 then (if m1 = 0 then (.nan, flagInv) else (.inf (n1 != n2), 0))
    else
      let q := divMag m1 e1 m2 e2
      round32 (n1 != n2) q.1 q.2

/-- The integer square root, bit by bit from 2^k down. -/
def isqrtFrom (n : Nat) : Nat → Nat → Nat
  | 0, r => if (r + 1) * (r + 1) ≤ n then r + 1 else r
  | k + 1, r => isqrtFrom n k (if (r + 2 ^ (k + 1)) * (r + 2 ^ (k + 1)) ≤ n then r + 2 ^ (k + 1) else r)

/-- The integer square root. -/
def isqrt (n : Nat) : Nat := isqrtFrom n (bitLen n / 2) 0

/-- FP32 square root: INV for a negative value. -/
def Fp.sqrt : Fp → Fp × Nat
  | .nan => (.nan, 0)
  | .inf n => if n then (.nan, flagInv) else (.inf false, 0)
  | .fin n m e =>
    if m = 0 then (.fin n 0 fp32.qmin, 0)
    else if n then (.nan, flagInv)
    else
      let odd := e % 2
      let k : Nat := 64
      let x := (m <<< odd.toNat) <<< (2 * k)
      let r := isqrt x
      let h : Int := (e - odd) / 2
      round32 false (2 * r + (if r * r = x then 0 else 1)) (h - k - 1)

/-- a < b of two values that are not NaN. -/
def Fp.lt : Fp → Fp → Bool
  | .nan, _ => false
  | _, .nan => false
  | .inf a, .inf b => a && !b
  | .inf a, .fin _ _ _ => a
  | .fin _ _ _, .inf b => !b
  | .fin n1 m1 e1, .fin n2 m2 e2 =>
    if m1 = 0 && m2 = 0 then false
    else match addFin n1 m1 e1 (!n2) m2 e2 with
      | .fin n m _ => n && m ≠ 0
      | _ => false

/-- An integer as a value. -/
def ofInt (x : Int) (e : Int := 0) : Fp := .fin (decide (x < 0)) x.natAbs e

/-- An integer scaled by 2^e, rounded once to FP32. -/
def intTo32 (x : Int) (e : Int) : Fp × Nat := (ofInt x e).to32

/-- The FP32 value of a decimal constant m * 2^e, for constants that FP32 holds. -/
def fpConst (m : Nat) (e : Int) : Fp := .fin false m e

/-! ## Formats by code (R45, R49) -/

/-- The bits of an element of a format. -/
def fmtBits : Nat → Nat
  | 0 | 0xA | 0xB => 32
  | 1 | 2 | 8 | 9 => 16
  | 5 | 7 => 4
  | _ => 8

/-- The floating formats. -/
def isFloatFmt (f : Nat) : Bool := f ≤ 4
/-- MXFP4 and INT4, which carry scales. -/
def isBlockFmt (f : Nat) : Bool := f = 5 || f = 7
/-- The integer and Q formats without scales. -/
def isIntFmt (f : Nat) : Bool := f = 6 || f = 8 || f = 9 || f = 0xA

/-- The fraction bits of an integer or Q format. -/
def fmtFrac : Nat → Nat
  | 9 => 15
  | 0xA => 31
  | _ => 0

/-- The code of element `k` of a row of bytes: pairs of 4-bit elements share a byte, the lower index in [3:0]. -/
def elemCode (fmt : Nat) (row : List Byte) (k : Nat) : Nat :=
  let b := fmtBits fmt
  if b = 4 then bitsOf (row.getD (k / 2) 0).toNat (4 * (k % 2) + 3) (4 * (k % 2)) else leAt row (k * (b / 8)) (b / 8)

/-- The codes of a row of `n` elements. -/
def rowCodes (fmt n : Nat) (row : List Byte) : List Nat := (List.range n).map (elemCode fmt row)

/-- The bytes of a row of codes. -/
def packCodes (fmt : Nat) (c : List Nat) : List Byte :=
  if fmtBits fmt = 4 then (List.range ((c.length + 1) / 2)).map (fun k =>
    BitVec.ofNat 8 (c.getD (2 * k) 0 + 16 * c.getD (2 * k + 1) 0))
  else c.flatMap (bytesLE (fmtBits fmt / 8))

/-- The bytes of a row of `n` elements. -/
def rowBytes (fmt n : Nat) : Nat := (n * fmtBits fmt + 7) / 8

/-! ## Conversion to an output format (R50, R52) -/

/-- A value in a floating output format, with its flags. -/
def convFloat (fmt : Nat) (sr : Option Nat) (x : Fp) : Nat × Nat :=
  let f := fpFmt fmt
  match x with
  | .nan => if f.kind = .plain then (0, flagInv) else (f.nanBits, 0)
  | .inf n =>
    if fmt = 4 then (f.signBit n ||| f.magBits f.top.1 f.top.2, flagSat)
    else if fmt = 3 then (f.nanBits, flagSat)
    else if f.kind = .plain then (f.signBit n ||| f.magBits f.top.1 f.top.2, 0)
    else (f.signBit n ||| ((2 ^ f.eb - 1) <<< (f.p - 1)), 0)
  | .fin n m e =>
    if m = 0 then (f.signBit n, 0)
    else
      let r := f.round m e (if fmt = 3 || fmt = 4 || fmt = 5 then sr else none)
      if magLt f.top r then
        if fmt ≤ 2 then (f.signBit n ||| ((2 ^ f.eb - 1) <<< (f.p - 1)), flagOvf)
        else (f.signBit n ||| f.magBits f.top.1 f.top.2, if fmt = 5 then 0 else flagSat)
      else (f.signBit n ||| f.magBits r.1 r.2, if fmt ≠ 5 && f.tiny r then flagUnf else 0)

/-- An integer saturated to `b` bits, with SAT. -/
def satInt (b : Nat) (x : Int) : Int × Nat :=
  let hi : Int := (2 ^ (b - 1) : Nat) - 1
  let lo : Int := -(2 ^ (b - 1) : Nat)
  if hi < x then (hi, flagSat) else if x < lo then (lo, flagSat) else (x, 0)

/-- A value in an integer or Q output format. -/
def convInt (fmt : Nat) (x : Fp) : Nat × Nat :=
  let b := fmtBits fmt
  match x with
  | .nan => (0, flagInv)
  | .inf n => (uintOf b (if n then -(2 ^ (b - 1) : Nat) else (2 ^ (b - 1) : Nat) - 1), flagSat)
  | .fin n m e =>
    let v := roundInt m (e + fmtFrac fmt)
    let r := satInt b (if n then -(v : Int) else v)
    (uintOf b r.1, r.2)

/-- The generator of R52 advanced once. -/
def srNext (x : Nat) : Nat :=
  let x := x ^^^ (x <<< 13) % 2 ^ 32
  let x := x ^^^ (x >>> 17)
  x ^^^ (x <<< 5) % 2 ^ 32

/-- The generator's state at the start of a command. -/
def srSeed (seed : Nat) : Nat := if seed = 0 then 0x9E3779B9 else seed

/-- Elements converted one after another, the generator advancing before each where `sr` is set. -/
def convSeq (conv : Option Nat → Fp → Nat × Nat) (sr : Bool) : Nat → List Fp → Nat × List Nat × Nat
  | x, [] => (x, [], 0)
  | x, v :: r =>
    let x := if sr then srNext x else x
    let c := conv (if sr then some (x / 65536) else none) v
    let t := convSeq conv sr x r
    (t.1, c.1 :: t.2.1, c.2 ||| t.2.2)

/-- floor(log2) of a nonzero magnitude. -/
def floorLog2 (m : Nat) (e : Int) : Int := e + bitLen m - 1

/-- The largest magnitude of a list of values. -/
def maxMag (l : List Fp) : Nat × Int :=
  l.foldl (fun a x => match x with | .fin _ m e => if magLt a (m, e) then (m, e) else a | _ => a) (0, 0)

/-- An infinity. -/
def Fp.isInf : Fp → Bool | .inf _ => true | _ => false
/-- A NaN. -/
def Fp.isNan : Fp → Bool | .nan => true | _ => false

/-- A value times 2^k. -/
def Fp.scale (x : Fp) (k : Int) : Fp := match x with | .fin n m e => .fin n m (e + k) | x => x

/-- A block of 32 values as MXFP4 (R50): the generator, the scale, the codes, the flags. -/
def quantMx (sr : Bool) (x : Nat) (l : List Fp) : Nat × Nat × List Nat × Nat :=
  if l.any Fp.isNan then
    ((List.range l.length).foldl (fun x _ => if sr then srNext x else x) x, 0xFF, l.map (fun _ => 0), flagInv)
  else
    let a := maxMag l
    let inf := l.any Fp.isInf
    let s : Int := if inf then 254 else if a.1 = 0 then 0 else clampInt 0 254 (floorLog2 a.1 a.2 - 2 + 127)
    let t := convSeq (convFloat 5) sr x (l.map (fun v => v.scale (127 - s)))
    (t.1, s.toNat, t.2.1, if inf then flagSat else 0)

/-- A group of values as INT4 (R50): the BF16 scale, the codes, the flags. -/
def quantInt4 (l : List Fp) : Nat × List Nat × Nat :=
  if l.any Fp.isNan then (0x7FC0, l.map (fun _ => 0), flagInv)
  else
    let a := maxMag l
    let inf := l.any Fp.isInf
    let q := divMag a.1 a.2 7 0
    let sc := if inf then 0x7F7F else if a.1 = 0 then 0 else (convFloat 1 none (.fin false q.1 q.2)).1
    let el (v : Fp) : Nat :=
      match v, bf16.decode sc with
      | .inf n, _ => if n then 8 else 7
      | .fin n m e, .fin _ sm se =>
        if m = 0 then 0
        else if sm = 0 then Config.int4Elem v.bits32 % 16
        else
          let d := e - se
          let r := divEven (m <<< d.toNat) (sm <<< (-d).toNat)
          uintOf 4 (clampInt (-8) 7 (if n then -(r : Int) else r))
      | _, _ => 0
    (sc, l.map el, if inf then flagSat else 0)

/-- A row converted to an output format (R50, R52): the generator, the codes, the scales, the flags. -/
def convRow (fmt group : Nat) (sr : Bool) (x : Nat) (l : List Fp) : Nat × List Nat × List Nat × Nat :=
  if fmt = 5 then
    (blocksList 32 l).foldl (fun a b =>
      let r := quantMx sr a.1 b
      (r.1, a.2.1 ++ r.2.2.1, a.2.2.1 ++ [r.2.1], a.2.2.2 ||| r.2.2.2)) (x, [], [], 0)
  else if fmt = 7 then
    (blocksList group l).foldl (fun a b =>
      let r := quantInt4 b
      (x, a.2.1 ++ r.2.1, a.2.2.1 ++ [r.1], a.2.2.2 ||| r.2.2)) (x, [], [], 0)
  else
    let conv (r : Option Nat) (v : Fp) : Nat × Nat :=
      if isIntFmt fmt then convInt fmt v else if fmt = 0xB then (v.bits32, 0) else convFloat fmt r v
    let t := convSeq conv (sr && (fmt = 3 || fmt = 4)) x l
    (t.1, t.2.1, [], t.2.2)

end Sys2Proof.Machine
end

