-- ==== Sys2Proof/Machine/Cholesky.lean ====
section
/-!
DEFINITION. The Cholesky unit's solve of M x = w (R270) in FP32.  The manual names no order of operations.  Whether a pivot is not
positive is decided where every order decides it, and free elsewhere; a solution is free among those that some order of FP32 operations
may give (log entry 104).
-/

namespace Sys2Proof.Machine

/-- A finite FP32 value as a multiple of 2^-149. -/
def unitsOf32 (b : Nat) : Option Int :=
  let e := bitsOf b 30 23
  let m := if e = 0 then bitsOf b 22 0 else bitsOf b 22 0 + 2 ^ 23
  if e = 255 then none else some ((if bitOf b 31 then -1 else 1) * (m * 2 ^ (max e 1 - 1) : Nat))

/-- The rows of a 64 x 64 matrix. -/
def rowsOf (m : List Int) : List (List Int) := (List.range 64).map (fun r => (m.drop (64 * r)).take 64)

/-- Every leading minor of a square integer matrix is positive: elimination without fractions, each step divided by the pivot before
it. -/
def minorsPositive : Nat → Int → List (List Int) → Bool
  | 0, _, _ => true
  | _, _, [] => true
  | f + 1, prev, row :: rest =>
    let p := row.headD 0
    decide (0 < p) && minorsPositive f p (rest.map (fun (r : List Int) =>
      (r.zip row).tail.map (fun (x : Int × Int) => (p * x.1 - r.headD 0 * x.2) / prev)))

/-- The matrix times 2^10, its diagonal moved by `d` parts in 2^10. -/
def shiftDiagonal (d : Int) (m : List Int) : List (List Int) :=
  (rowsOf m).zipIdx.map (fun (x : List Int × Nat) => x.1.zipIdx.map (fun (y : Int × Nat) =>
    if y.2 = x.2 then y.1 * (1024 + d) else y.1 * 1024))

/-- A pivot is not positive: not so where the matrix is positive definite by more than FP32's errors, so where it is not positive
definite by more than them, or where its first pivot is not positive; free between. -/
def cholFails (m : List Nat) (u : List Int) : Bool :=
  if u.headD 0 ≤ 0 then true
  else if minorsPositive 64 1 (shiftDiagonal (-1) u) then false
  else if !minorsPositive 64 1 (shiftDiagonal 1 u) then true
  else Config.cholPivot m ≠ 0

/-- A sum of products subtracted term by term, each step rounded (R51). -/
def lessProducts (x : Fp) (l : List (Fp × Fp)) : Fp := l.foldl (fun (t : Fp) y => (t.sub (y.1.mul y.2).1).1) x

/-- The rows of the lower triangle L of M = L x L^T, row by row, each operation rounded (R51). -/
def cholRows (m : Nat → Nat → Fp) (n : Nat) : List (List Fp) :=
  (List.range n).foldl (fun (rows : List (List Fp)) i =>
    rows ++ [(List.range (i + 1)).foldl (fun (row : List Fp) j =>
      let other := if j = i then row else rows.getD j []
      let t := lessProducts (m i j) (row.zip other)
      row ++ [if j = i then t.sqrt.1 else (t.div (other.getD j .nan)).1]) []]) []

/-- The solution of L y = w, forwards. -/
def forwardSolve (l : List (List Fp)) (w : List Fp) : List Fp :=
  l.foldl (fun (y : List Fp) row =>
    y ++ [((lessProducts (w.getD y.length .nan) (row.zip y)).div (row.getD y.length .nan)).1]) []

/-- The solution of L^T x = y, backwards. -/
def backwardSolve (l : List (List Fp)) (y : List Fp) : List Fp :=
  (List.range l.length).reverse.foldl (fun (x : List Fp) i =>
    let col := (l.drop (i + 1)).map (fun (r : List Fp) => r.getD i .nan)
    ((lessProducts (y.getD i .nan) (col.zip x)).div ((l.getD i []).getD i .nan)).1 :: x) []

/-- The solution by rows, each operation rounded once. -/
def rowSolution (m w : List Nat) : List Nat :=
  let l := cholRows (fun i j => of32 (m.getD (64 * i + j) 0)) 64
  (backwardSolve l (forwardSolve l (w.map of32))).map Fp.bits32

/-- A solution answers the equations within FP32's errors: every residual is at most 2^-14 of the largest diagonal element times the sum
of the solution's magnitudes. -/
def residualOk (m w : List Nat) (x : List Nat) : Bool :=
  let at_ (l : List Nat) (k : Nat) : Option Int := unitsOf32 (l.getD k 0)
  let d := ((List.range 64).map (fun k => ((at_ m (65 * k)).getD 0).natAbs)).foldl max 0
  x.length = 64 && x.all (fun b => (unitsOf32 b).isSome) &&
    (List.range 64).all (fun i =>
      let terms := (List.range 64).map (fun j => ((at_ m (64 * i + j)).getD 0) * ((at_ x j).getD 0))
      let r := terms.foldl (fun (a b : Int) => a + b) 0 - ((at_ w i).getD 0) * 2 ^ 149
      decide (r.natAbs * 2 ^ 14 ≤ d * ((x.map (fun b => ((unitsOf32 b).getD 0).natAbs)).foldl (fun a b => a + b) 0)))

/-- M is symmetric, and M and w are finite. -/
def cholPlain (m w : List Nat) : Bool :=
  (m.take 4096).all (fun b => (unitsOf32 b).isSome) && w.all (fun b => (unitsOf32 b).isSome) &&
    (List.range 64).all (fun i => (List.range i).all (fun j => m.getD (64 * i + j) 0 == m.getD (64 * j + i) 0))

/-- The solution of M x = w and whether a pivot is not positive, which makes it all NaN (R270).  A matrix that is not symmetric, or
operands that are not finite, leave both free, but for the first pivot. -/
def cholSolve (m w : List Nat) : List Nat × Bool :=
  let free := (List.range 64).map (fun k => Config.cholSolution m w k % 2 ^ 32)
  let bad := (List.replicate 64 Fp.nan.bits32, true)
  if !(fpConst 0 0).lt (of32 (m.getD 0 0)) then bad
  else if !cholPlain m w then (if Config.cholPivot m ≠ 0 then bad else (free, false))
  else if cholFails m ((m.take 4096).map (fun b => (unitsOf32 b).getD 0)) then bad
  else
    let plain := rowSolution m w
    (if residualOk m w free || !residualOk m w plain then free else plain, false)

end Sys2Proof.Machine
end

