-- ==== Sys2Proof/Machine/Library.lean ====
section
/-!
DEFINITION. The function library of R57: the exact value of each function to far more bits than FP32 has, and the largest error that
R57 allows a result.  The library's own results are not published: a result is whatever Config.fnResult gives within that error.
-/

namespace Sys2Proof.Machine

/-! ## Numbers m * 2^e of up to 512 bits -/

/-- A number m * 2^e. -/
abbrev Big := Int × Int

/-- The fraction bits of the fixed-point steps, and the bits that a number keeps. -/
def bigBits : Nat := 512

/-- A number cut to its upper 512 bits. -/
def Big.trim (x : Big) : Big :=
  let k := bitLen x.1.natAbs
  if k ≤ bigBits then x else (x.1 / (2 ^ (k - bigBits) : Nat), x.2 + (k - bigBits : Nat))

/-- The sum. -/
def Big.add (x y : Big) : Big :=
  let e := min x.2 y.2
  Big.trim (x.1 * (2 ^ (x.2 - e).toNat : Nat) + y.1 * (2 ^ (y.2 - e).toNat : Nat), e)

/-- The product. -/
def Big.mul (x y : Big) : Big := Big.trim (x.1 * y.1, x.2 + y.2)

/-- The quotient. -/
def Big.div (x y : Big) : Big :=
  let k := bitLen y.1.natAbs + bigBits
  Big.trim (x.1 * (2 ^ k : Nat) / y.1, x.2 - y.2 - k)

/-- The negated number. -/
def Big.neg (x : Big) : Big := (-x.1, x.2)

/-- The magnitude. -/
def Big.abs (x : Big) : Big := (x.1.natAbs, x.2)

/-- The number in units of 2^-512, rounded down. -/
def Big.fixed (x : Big) : Int :=
  let k := x.2 + bigBits
  if 0 ≤ k then x.1 * (2 ^ k.toNat : Nat) else x.1 / (2 ^ (-k).toNat : Nat)

/-- A number kept between -400 and 400, beyond which an exponential is as good as 0 or infinite for FP32. -/
def Big.near (x : Big) : Big :=
  if 0 < (x.add (-400, 0)).1 then (400, 0) else if (x.add (400, 0)).1 < 0 then (-400, 0) else x

/-- The natural logarithm of 2 in units of 2^-512. -/
def ln2Fixed : Int :=
  0xb17217f7d1cf79abc9e3b39803f2f6af40f343267298b62d8a0d175b8baafa2be7b876206debac98559552fb4afa1b10ed2eae35c138214427573b291169b825

/-- The square root of 2 / pi. -/
def sqrtTwoOverPi : Big :=
  (0xcc42299ea1b284687e59e2805d5c717fa7053e60a24e0db1808e369004c73a5d3bf158aa88fa7b6e47eba75766e9d11bd6284ef2e17c2a264f1d32688be119ff, -512)

/-- Two over the square root of pi. -/
def twoOverSqrtPi : Big :=
  (0x120dd750429b6d11ae3a914fed7fd8688281341d7587cea2e7342b06199cc416180eb39f0b24e1e2281806c12d98f35d77a3e9ddc91c394f0e9eedf0efffd84a3, -512)

/-- The square root of one half. -/
def sqrtHalf : Big :=
  (0xb504f333f9de6484597d89b3754abe9f1d6f60ba893ba84ced17ac85833399154afc83043ab8a2c3a8b1fe6fdc83db390f74a85e439c7b4a780487363dfa2769, -512)

/-! ## Elementary functions by their series -/

/-- The terms of a power series summed in fixed point: `next n t` is the term after term `n`. -/
def series (next : Nat → Int → Int) : Nat → Nat → Int → Int
  | 0, _, _ => 0
  | k + 1, n, t => t + series next k (n + 1) (next n t)

/-- A fixed-point product. -/
def fixMul (x y : Int) : Int := x * y / (2 ^ bigBits : Nat)

/-- exp of a number between -400 and 400: 2^k times the series of exp on the rest. -/
def Big.exp (x : Big) : Big :=
  let v := x.near.fixed
  let k := (2 * v + ln2Fixed) / (2 * ln2Fixed)
  let r := v - k * ln2Fixed
  Big.trim (series (fun n t => fixMul t r / (n + 1)) 100 0 (2 ^ bigBits : Nat), k - bigBits)

/-- 2 artanh(t) = log((1 + t) / (1 - t)), for t up to 1/3. -/
def Big.logRatio (t : Big) : Big :=
  let v := t.fixed
  let q := fixMul v v
  let odd (n : Nat) (x : Int) : Int := x / (2 * n + 1 : Nat)
  let powers (k : Nat) : List Int := ((List.range k).foldl (fun (l : List Int × Int) _ => (l.2 :: l.1, fixMul l.2 q)) ([], v)).1.reverse
  Big.trim (2 * ((powers 165).zipIdx.foldl (fun a x => a + odd x.2 x.1) 0), -(bigBits : Int))

/-- log(1 + t) for t from 0 to 1. -/
def Big.logOnePlus (t : Big) : Big := (t.div (t.add (2, 0))).logRatio

/-- log of a positive number: k log 2 and the logarithm of the rest, which lies between 1/sqrt 2 and sqrt 2. -/
def Big.log (x : Big) : Big :=
  let k0 : Int := floorLog2 x.1.natAbs x.2
  let z0 : Big := (x.1, x.2 - k0)
  let up := decide (0 < (z0.add (Big.mul sqrtHalf (-2, 0))).1)
  let k := if up then k0 + 1 else k0
  let z : Big := (x.1, x.2 - k)
  (Big.mul (k, 0) (ln2Fixed, -(bigBits : Int))).add ((z.add (-1, 0)).div (z.add (1, 0))).logRatio

/-- The logistic function. -/
def Big.sigmoid (x : Big) : Big :=
  let e := x.abs.neg.exp
  if x.1 < 0 then e.div (e.add (1, 0)) else Big.div (1, 0) (e.add (1, 0))

/-- The normal distribution function: erf by its series of positive terms. -/
def Big.normal (x : Big) : Big :=
  if (x.add (15, 0)).1 < 0 then (0, 0)
  else if 0 < (x.add (-15, 0)).1 then (1, 0)
  else
    let z := (x.abs.mul sqrtHalf).fixed
    let q := 2 * fixMul z z
    let sum := series (fun n t => fixMul t q / (2 * n + 3)) 900 0 z
    let half := x.abs.mul x.abs
    let erf := (twoOverSqrtPi.mul (Big.exp (-half.1, half.2 - 1))).mul (sum, -(bigBits : Int))
    let e := if x.1 < 0 then erf.neg else erf
    Big.mul (e.add (1, 0)) (1, -1)

/-! ## The functions of R57 -/

/-- A function of R57 at a finite value, for the codes whose results are not exact; none for the others. -/
def bigFn (fn : Nat) (x : Big) : Option Big :=
  match fn with
  | 2 => some x.sigmoid
  | 3 =>
    let e := (x.abs.mul (-2, 0)).exp
    let t := Big.div (e.neg.add (1, 0)) (e.add (1, 0))
    some (if x.1 < 0 then t.neg else t)
  | 4 => some (x.mul x.sigmoid)
  | 5 =>
    let u := sqrtTwoOverPi.mul (x.add (Big.mul (Big.div (44715, 0) (1000000, 0)) (x.mul (x.mul x))))
    some (x.mul (u.mul (2, 0)).sigmoid)
  | 6 => some (x.mul x.normal)
  | 7 => some x.exp
  | 8 => some x.log
  | 9 => some (Big.div (1, 0) x)
  | 10 =>
    let odd := x.2 % 2
    let m := x.1 * (2 ^ (odd.toNat + 2 * bigBits) : Nat)
    some (Big.div (1, 0) (isqrt m.natAbs, (x.2 - odd) / 2 - bigBits))
  | 12 =>
    let t := x.abs.neg.exp.logOnePlus
    some (if x.1 < 0 then t else x.add t)
  | 13 => some (x.mul x)
  | _ => none

/-- The exact result of a function of R57 as a value, where the manual names the function's value: none elsewhere. -/
def fnExact (fn : Nat) (x : Fp) : Option Fp :=
  let zero : Fp := .fin false 0 0
  match x with
  | .nan => none
  | .inf n =>
    (match fn with
    | 2 => some (if n then zero else .fin false 1 0)
    | 3 => some (.fin n 1 0)
    | 7 | 12 => some (if n then zero else .inf false)
    | 4 | 5 | 6 => if n then none else some (.inf false)
    | 8 => some (.inf false)
    | 9 => some (.fin n 0 0)
    | 10 => some zero
    | _ => none)
  | .fin n m e =>
    if fn = 10 && m = 0 then some (.inf n)
    else (bigFn fn ((if n then -(m : Int) else m), e)).map (fun y => .fin (decide (y.1 < 0)) y.1.natAbs y.2)

/-- The largest error of a function in units of the last place (R57). -/
def fnUlps (fn : Nat) : Nat := match fn with | 2 | 3 | 12 => 2 | 4 => 3 | 5 | 6 => 4 | _ => 1

/-- A magnitude of at least 2^-100, where the bounds of R57 in ulp hold. -/
def ulpRange (m : Nat) (e : Int) : Bool := !magLt (m, e) (1, -100)

/-- A result lies within the largest error of R57: so many ulp of the exact value, or 2^-126 where that is below 2^-100.  An infinity
stands for 2^128, the first value that FP32 does not hold. -/
def fnWithin (k : Nat) (y r : Fp) : Bool :=
  match y, r with
  | .inf a, .inf b => a == b
  | .fin n m e, .inf b => n == b && !magLt (m, e) ((2 ^ 24 - k : Nat), 104)
  | .fin n m e, .fin n' m' e' =>
    (match addFin n m e (!n') m' e' with
    | .fin _ d q => !magLt (if ulpRange m e then (k, fp32.place m e) else (1, -126)) (d, q)
    | _ => false)
  | _, _ => false

/-- What the function library gives: its own result where that lies within the error that R57 allows, so that it is whatever the manual
allows and nothing else. -/
def libResult (fn : Nat) (x : Fp) : Fp :=
  let c := of32 (Config.fnResult fn x.bits32 % 2 ^ 32)
  match fnExact fn x with
  | some y => if fnWithin (fnUlps fn) y c then c else y.to32.1
  | none => c

end Sys2Proof.Machine
end

