-- ==== Sys2Proof/Machine/Pipeline.lean ====
section
/-!
DEFINITION. The array and the element-wise pipeline (R42 to R57, R65, R66, R381): what MATMUL and EWISE compute from
the bytes of a scratch.
-/

namespace Sys2Proof.Machine

/-! ## Functions (R57) -/

/-- A function's value is exactly zero at `x`, so that a zero result has not underflowed. -/
def fnZeroAt (fn : Nat) (x : Fp) : Bool :=
  match x with
  | .fin _ m _ => if [3, 4, 5, 6].contains fn then m = 0 else if fn = 8 then x.bits32 = 0x3F800000 else false
  | _ => true

/-- A result of the function library: NaN sets INV, an infinity that stands for a finite value OVF, a zero or subnormal UNF. -/
def libFn (fn : Nat) (x : Fp) : Fp × Nat :=
  let y := libResult fn x
  match y with
  | .nan => (.nan, flagInv)
  | .inf _ => (y, if x.isInf || fnExact fn x == some y then 0 else flagOvf)
  | .fin _ m e => (y, if fp32.tiny (m, e) && !fnZeroAt fn x then flagUnf else 0)

/-- A function of R57 on an FP32 value. -/
def fnApply (fn : Nat) (x : Fp) : Fp × Nat :=
  match x with
  | .nan => (.nan, 0)
  | .inf n =>
    (match fn with
    | 0 => (x, 0)
    | 1 => (if n then .fin false 0 fp32.qmin else x, 0)
    | 13 => (.inf false, 0)
    | 14 => (.inf false, 0)
    | 11 => x.sqrt
    | 8 | 10 => if n then (.nan, flagInv) else libFn fn x
    | _ => libFn fn x)
  | .fin n m e =>
    (match fn with
    | 0 => (x, 0)
    | 1 => (if n then .fin false 0 fp32.qmin else x, 0)
    | 8 => if m = 0 then (.inf true, 0) else if n then (.nan, flagInv) else libFn 8 x
    | 9 => if m = 0 then (.inf n, 0) else libFn 9 x
    | 10 => if n && m ≠ 0 then (.nan, flagInv) else libFn 10 x
    | 11 => x.sqrt
    | 13 => if m = 0 || ulpRange (m * m) (2 * e) then x.mul x else libFn 13 x
    | 14 => (x.abs, 0)
    | _ => libFn fn x)

/-! ## Operands in scratch (R45, R47 to R49, R65) -/

/-- A scratch as its bytes by offset. -/
abbrev Scratch := Nat → Byte

/-- `n` bytes of a scratch. -/
def Scratch.bytes (g : Scratch) (o n : Nat) : List Byte := (List.range n).map (fun k => g (o + k))

/-- The group size of a command (R63). -/
def groupSize (w : List Nat) : Nat := match wfld w 0 14 13 with | 0 => 32 | 1 => 64 | _ => 128

/-- The elements of a scale block of a format. -/
def blockSize (fmt group : Nat) : Nat := if fmt = 5 then 32 else group

/-- The bytes of a row of scales, padded to 64 (R65). -/
def scaleStride (fmt group n : Nat) : Nat :=
  ((if fmt = 5 then n / 32 else 2 * n / group) + 63) / 64 * 64

/-- The value of an element with its format, without a block scale. -/
def elemValue (fmt c : Nat) : Fp :=
  if isIntFmt fmt || fmt = 7 then ofInt (sintOf (fmtBits fmt) c) (-(fmtFrac fmt : Int)) else (fpFmt fmt).decode c

/-- The value of scale `j` of a row of scales. -/
def scaleValue (fmt : Nat) (sc : List Byte) (j : Nat) : Fp :=
  if fmt = 5 then (if leAt sc j 1 = 255 then .nan else .fin false 1 ((leAt sc j 1 : Int) - 127))
  else bf16.decode (leAt sc (2 * j) 2)

/-- Row `i` of an operand: its codes and its scales. -/
structure OpRow where
  codes : List Nat
  scales : List Fp
  deriving DecidableEq, Repr

/-- Row `i` of an operand of `n` columns at an offset with a stride in bytes, and NANIN where it holds a NaN. -/
def readRow (g : Scratch) (fmt group off stride scOff i n : Nat) : OpRow × Nat :=
  let codes := rowCodes fmt n (g.bytes (off + i * stride) (rowBytes fmt n))
  let sc := if isBlockFmt fmt then
      let l := n / blockSize fmt group
      let raw := g.bytes (scOff + i * scaleStride fmt group n) (if fmt = 5 then l else 2 * l)
      (List.range l).map (scaleValue fmt raw)
    else []
  let nan := sc.any Fp.isNan || (isFloatFmt fmt && codes.any (fun c => ((fpFmt fmt).decode c).isNan))
  (⟨codes, sc⟩, if nan then flagNanIn else 0)

/-- The exact values of a row, block scales applied; INV for a zero element under an infinite scale (R55). -/
def OpRow.values (r : OpRow) (fmt group : Nat) : List Fp × Nat :=
  if isBlockFmt fmt then
    mapFlags (fun (x : Nat × Nat) => (elemValue fmt x.1).mulExact (r.scales.getD (x.2 / blockSize fmt group) .nan)) r.codes.zipIdx
  else (r.codes.map (elemValue fmt), 0)

/-! ## Accumulation (R54) -/

/-- What the array hands to the pipeline: an FP32 value, or an INT32 accumulator. -/
inductive Acc where
  | fp (x : Fp)
  | int (n : Int)
  deriving DecidableEq, Repr

/-- The FP32 sum of exact terms in order: it starts from the first one, and rounds once for each. -/
def sumTerms (l : List (Fp × Nat)) : Fp × Nat :=
  match l with
  | [] => (.fin false 0 fp32.qmin, 0)
  | t :: r =>
    let first := round32F t
    r.foldl (fun a t =>
      let x := round32F (a.1.addExact t.1)
      (x.1, a.2 ||| t.2 ||| noUnf x.2)) (first.1, noUnf first.2)

/-- The sum of one block of products, exact, times both scales (R54): a zero sum is negative only if every product is. -/
def blockTerm (fmt : Nat) (a b : List Nat) (sa sb : Fp) : Fp × Nat :=
  let pr : List Fp := (a.zip b).map (fun x => ((elemValue fmt x.1).mulExact (elemValue fmt x.2)).1)
  let s : Fp := pr.foldl (fun acc x => match acc, x with
    | .fin n1 m1 e1, .fin n2 m2 e2 => addFin n1 m1 e1 n2 m2 e2
    | _, _ => .nan) (.fin false 0 0)
  let negs := pr.all (fun x => match x with | .fin n m _ => n && m = 0 | _ => false)
  let s : Fp := match s with | .fin n m e => .fin (if m = 0 then negs && fmt = 5 else n) m e | x => x
  let p := s.mulExact sa
  let q := p.1.mulExact sb
  (q.1, p.2 ||| q.2)

/-- One element of A × Bᵀ (R54). -/
def dotRow (fmt group : Nat) (a b : OpRow) : Acc × Nat :=
  if isIntFmt fmt then
    let bits := fmtBits fmt
    let r := (a.codes.zip b.codes).foldl (fun (x : Int × Nat) c =>
      let y := satInt 32 (x.1 + sintOf bits c.1 * sintOf bits c.2)
      (y.1, x.2 ||| y.2)) (0, 0)
    (.int r.1, r.2)
  else if isBlockFmt fmt then
    let n := blockSize fmt group
    let terms := ((blocksList n a.codes).zip (blocksList n b.codes)).mapIdx (fun k x =>
      blockTerm fmt x.1 x.2 (a.scales.getD k .nan) (b.scales.getD k .nan))
    let r := sumTerms terms
    (.fp r.1, r.2)
  else
    let r := sumTerms ((a.codes.zip b.codes).map (fun x => (elemValue fmt x.1).mulExact (elemValue fmt x.2)))
    (.fp r.1, r.2)

/-! ## The stages in FP32 (R56) -/

/-- The element-wise program of a command. -/
structure EwProg where
  v1 : Nat
  fn : Nat
  comb : Nat
  v2 : Nat
  reduce : Nat
  deriving DecidableEq, Repr

/-- The program in word 12 of a MATMUL or EWISE. -/
def ewProg (w : List Nat) : EwProg :=
  { v1 := wfld w 12 4 0, fn := wfld w 12 8 5, comb := wfld w 12 12 9, v2 := wfld w 12 16 13,
    reduce := if opcodeOf w = 2 then wfld w 12 20 17 else 0 }

/-- Pair mode. -/
def EwProg.pair (p : EwProg) : Bool := p.comb = 1 || p.comb = 2

/-- The columns of the output of a program over `n` columns. -/
def EwProg.cols (p : EwProg) (n : Nat) : Nat := if p.pair then n / 2 else n

/-- A stage that may use its per-column vector (R56): add, multiply, multiply then add; `add` and `mul` are the
arithmetic of the path. -/
def vecStage {α : Type} (add mul : α → α → α × Nat) (zero : α) (op : Nat) (c l : List α) : List α × Nat :=
  let n := l.length
  match op with
  | 1 => mapFlags (fun (x : α × α) => add x.1 x.2) (l.zip c)
  | 2 => mapFlags (fun (x : α × α) => mul x.1 x.2) (l.zip c)
  | 3 => mapFlags (fun (x : α × Nat) =>
      let y := mul x.1 (c.getD x.2 zero)
      let z := add y.1 (c.getD (n + x.2) zero)
      (z.1, y.2 ||| z.2)) (l.zip (List.range n))
  | _ => (l, 0)

/-- Stages 3 and 4: the function, then pairing or the operand (R56). -/
def fnComb {α : Type} (add mul : α → α → α × Nat) (fn : α → α × Nat) (zero : α) (comb : Nat) (aux l : List α) : List α × Nat :=
  let op := if comb = 1 || comb = 3 then mul else add
  if comb = 1 || comb = 2 then
    mapFlags (fun (k : Nat) =>
      let b := k / 64
      let x := fn (l.getD (128 * b + k % 64) zero)
      let y := op x.1 (l.getD (128 * b + 64 + k % 64) zero)
      (y.1, x.2 ||| y.2)) (List.range (l.length / 2))
  else
    let r := mapFlags fn l
    if comb = 3 || comb = 4 then
      let t := mapFlags (fun (x : α × α) => op x.1 x.2) (r.1.zip aux)
      (t.1, r.2 ||| t.2)
    else r

/-- Stages 2 to 5 of one row (R56). -/
def stages {α : Type} (add mul : α → α → α × Nat) (fn : Nat → α → α × Nat) (zero : α) (p : EwProg)
    (c1 c2 aux l : List α) : List α × Nat :=
  let a := vecStage add mul zero p.v1 c1 l
  let b := fnComb add mul (fn p.fn) zero p.comb aux a.1
  let c := vecStage add mul zero p.v2 c2 b.1
  (c.1, a.2 ||| b.2 ||| c.2)

/-- The larger of two values: NaN wins, −0 ranks below +0 (R56). -/
def fpMax (a b : Fp) : Fp :=
  if a.isNan || b.isNan then .nan
  else if a.lt b then b
  else match a, b with
    | .fin n m _, .fin n' m' _ => if m = 0 && m' = 0 && n && !n' then b else a
    | _, _ => a

/-- Stage 6 in FP32 (R56): 1 sum, 2 maximum, 3 sum of squares, in increasing column order.  DESIGN CHOICE (log entry 97): each square is
rounded before it is added, and a sum starts from the first element. -/
def reduceFp (mode : Nat) (l : List Fp) : Fp × Nat :=
  let sq := if mode = 3 then mapFlags (fun (x : Fp) => x.mul x) l else (l, 0)
  match sq.1 with
  | [] => (.fin false 0 fp32.qmin, 0)
  | x :: r =>
    if mode = 2 then (r.foldl fpMax x, if l.any Fp.isNan then flagNanIn else 0)
    else
      let t := r.foldl (fun (a : Fp × Nat) y => let z := a.1.add y; (z.1, a.2 ||| z.2)) (x, 0)
      (t.1, sq.2 ||| t.2)

/-! ## The fixed-point path (R381) -/

/-- The fixed-point path applies to values of format `fin` with output `fout`. -/
def fixedPath (fin fout : Nat) : Bool := isIntFmt fin && (fout = 9 || fout = 0xA || fout = 0xB)

/-- A working value saturated to 64 bits. -/
def satW (x : Int) : Int × Nat := satInt 64 x

/-- Addition of working values. -/
def wAdd (a b : Int) : Int × Nat := satW (a + b)

/-- Multiplication of working values. -/
def wMul (a b : Int) : Int × Nat := satW (shiftEvenInt (a * b) 31)

/-- The functions of the fixed-point path. -/
def wFn (fn : Nat) (x : Int) : Int × Nat :=
  match fn with
  | 1 => (max 0 x, 0)
  | 13 => wMul x x
  | 14 => satW x.natAbs
  | _ => (x, 0)

/-- A floating value enters the path. -/
def wOfFp (x : Fp) : Int × Nat :=
  match x with
  | .nan => (0, flagInv)
  | .inf n => satW (if n then -(2 ^ 64 : Nat) else (2 ^ 64 : Nat))
  | .fin n m e =>
    let v := roundInt m (e + 31)
    satW (if n then -(v : Int) else v)

/-- Stage 6 in fixed point: the result in FP32. -/
def reduceW (mode : Nat) (l : List Int) : Fp × Nat :=
  let sq := if mode = 3 then mapFlags (fun (x : Int) => wMul x x) l else (l, 0)
  match sq.1 with
  | [] => (.fin false 0 fp32.qmin, 0)
  | x :: r =>
    let t := r.foldl (fun (a : Int × Nat) y => if mode = 2 then (max a.1 y, a.2) else
      let z := wAdd a.1 y; (z.1, a.2 ||| z.2)) (x, 0)
    let y := intTo32 t.1 (-31)
    (y.1, sq.2 ||| t.2 ||| y.2)

/-- Stage 7 in fixed point: `frac` is the scale of ACC32. -/
def convW (fout frac : Nat) (x : Int) : Nat × Nat :=
  let r := if fout = 9 then satInt 16 (shiftEvenInt x 16) else if fout = 0xA then satInt 32 x
    else satInt 32 (shiftEvenInt x (31 - frac))
  (uintOf (if fout = 9 then 16 else 32) r.1, r.2)

/-! ## Whole commands (R65, R66) -/

/-- What a MATMUL or EWISE writes: bytes at scratch offsets, and its flags. -/
structure EwOut where
  writes : List (Nat × List Byte) := []
  flags : Nat := 0
  rng : Nat := 0
  deriving DecidableEq, Repr

/-- A vector of FP32 values in scratch, with NANIN. -/
def readVec (g : Scratch) (off n : Nat) : List Fp × Nat :=
  let l := (List.range n).map (fun k => of32 (leAt (g.bytes (off + 4 * k) 4) 0 4))
  (l, if l.any Fp.isNan then flagNanIn else 0)

/-- The bytes of a row of scales, padded (R65). -/
def packScales (fmt group n : Nat) (sc : List Nat) : List Byte :=
  let b := sc.flatMap (fun x => bytesLE (if fmt = 5 then 1 else 2) x)
  b ++ List.replicate (scaleStride fmt group n - b.length) 0

/-- The writes of one output row: its elements and its scales. -/
def rowWrites (fout group outOff stride oscOff i n : Nat) (codes scales : List Nat) : List (Nat × List Byte) :=
  (outOff + i * stride, packCodes fout codes) ::
    (if isBlockFmt fout then [(oscOff + i * scaleStride fout group n, packScales fout group n scales)] else [])

/-- One row of the pipeline (R56, R381): `row` enters stage 2 with format `fin` and `frac` fraction bits; the row is
written, and its reduction at `redOff`. -/
def ewRow (p : EwProg) (fin frac fout group : Nat) (sr : Bool) (v1 v2 aux : List Fp) (auxInt : Option (List Int))
    (outOff stride oscOff redOff i : Nat) (row : List Acc) (o : EwOut) : EwOut :=
  let n := p.cols row.length
  if fixedPath fin fout then
    let ent := row.map (fun a => match a with | .int x => x * (2 ^ (31 - frac) : Nat) | .fp _ => 0)
    let c1 := mapFlags wOfFp v1
    let c2 := mapFlags wOfFp v2
    let ax := match auxInt with | some l => (l, 0) | none => mapFlags wOfFp aux
    let r := stages wAdd wMul wFn 0 p c1.1 c2.1 ax.1 ent
    let red := reduceW p.reduce r.1
    let c := mapFlags (convW fout frac) r.1
    { writes := o.writes ++ rowWrites fout group outOff stride oscOff i n c.1 [] ++
        (if p.reduce = 0 then [] else [(redOff + 4 * i, bytesLE 4 red.1.bits32)])
      flags := o.flags ||| c1.2 ||| c2.2 ||| ax.2 ||| r.2 ||| c.2 ||| (if p.reduce = 0 then 0 else red.2)
      rng := o.rng }
  else
    let ent := mapFlags (fun (a : Acc) => match a with
      | .fp x => x.to32
      | .int x => intTo32 x (-(frac : Int))) row
    let ax := mapFlags Fp.to32 aux
    let r := stages Fp.add Fp.mul fnApply (.fin false 0 0) p v1 v2 ax.1 ent.1
    let red := reduceFp p.reduce r.1
    let plain := fout = 0xB && p.v1 = 0 && p.fn = 0 && p.comb = 0 && p.v2 = 0
    let c := convRow fout group sr o.rng r.1
    let codes := if plain then row.map (fun a => match a with | .fp x => x.to32.1.bits32 | .int x => uintOf 32 x) else c.2.1
    { writes := o.writes ++ rowWrites fout group outOff stride oscOff i n codes c.2.2.1 ++
        (if p.reduce = 0 then [] else [(redOff + 4 * i, bytesLE 4 red.1.bits32)])
      flags := o.flags ||| noUnf ent.2 ||| noUnf ax.2 ||| r.2 ||| c.2.2.2 ||| (if p.reduce = 0 then 0 else red.2)
      rng := c.1 }

/-- An offset in a command word. -/
def offAt (w : List Nat) (k : Nat) : Nat := wfld w k 21 0

/-- The format of a MATMUL's COMB operand, which the manual does not name. -/
def auxFmt (w : List Nat) : Nat :=
  [0, 1, 2, 3, 4, 6, 8, 9, 0xA].getD (Config.auxFormat (wfld w 9 27 24) (wfld w 9 31 28) % 9) 0

/-- The integers of a COMB operand in an integer or Q format, as working values (R381).  DESIGN CHOICE (log entry 98): an operand in
MXFP4 or INT4, which R381 does not name, enters the path as a floating one does. -/
def auxWorking (fmt : Nat) (r : OpRow) : Option (List Int) :=
  if isIntFmt fmt then some (r.codes.map (fun c => sintOf (fmtBits fmt) c * (2 ^ (31 - fmtFrac fmt) : Nat))) else none

/-- MATMUL (R65): C = EW(A × Bᵀ). -/
def matmul (w : List Nat) (g : Scratch) : EwOut :=
  let p := ewProg w
  let m := wfld w 8 15 0
  let n := wfld w 8 31 16
  let k := wfld w 9 23 0
  let fin := wfld w 9 27 24
  let fout := wfld w 9 31 28
  let group := groupSize w
  let b := mapFlags (fun (j : Nat) => readRow g fin group (offAt w 3) (64 * wfld w 10 31 16) (offAt w 7) j k) (List.range n)
  let v1 := readVec g (offAt w 13) (if p.v1 = 0 then 0 else if p.v1 = 3 then 2 * n else n)
  let no := p.cols n
  let v2 := readVec g (offAt w 14) (if p.v2 = 0 then 0 else if p.v2 = 3 then 2 * no else no)
  let start : EwOut := { flags := b.2 ||| v1.2 ||| v2.2, rng := srSeed (wordAt w 1) }
  (List.range m).foldl (fun o i =>
    let a := readRow g fin group (offAt w 2) (64 * wfld w 10 15 0) (offAt w 6) i k
    let row := mapFlags (fun (x : OpRow) => dotRow fin group a.1 x) b.1
    let ax : (List Fp × Option (List Int)) × Nat := if p.comb = 3 || p.comb = 4 then
        let r := readRow g (auxFmt w) group (offAt w 5) (64 * wfld w 11 31 16) 0 i no
        let v := r.1.values (auxFmt w) group
        ((v.1, auxWorking (auxFmt w) r.1), r.2 ||| v.2)
      else (([], none), 0)
    let o := { o with flags := o.flags ||| a.2 ||| row.2 ||| ax.2 }
    ewRow p fin (if fin = 9 then 30 else 0) fout group (wfld w 0 11 11 = 1) v1.1 v2.1 ax.1.1
      ax.1.2 (offAt w 4) (64 * wfld w 11 15 0) (offAt w 15) 0 i row.1 o) start

/-- The values of an EWISE input row as they enter stage 1. -/
def ewEntry (fmt group : Nat) (r : OpRow) : List Acc × Nat :=
  if isIntFmt fmt then (r.codes.map (fun c => .int (sintOf (fmtBits fmt) c)), 0)
  else
    let v := r.values fmt group
    (v.1.map .fp, v.2)

/-- EWISE (R66): Z = EW(X, Y). -/
def ewise (w : List Nat) (g : Scratch) : EwOut :=
  let p := ewProg w
  let m := wfld w 8 15 0
  let n := wfld w 8 31 16
  let fx := wfld w 9 27 24
  let fy := wfld w 9 23 20
  let fout := wfld w 9 31 28
  let group := groupSize w
  let v1 := readVec g (offAt w 13) (if p.v1 = 0 then 0 else if p.v1 = 3 then 2 * n else n)
  let no := p.cols n
  let v2 := readVec g (offAt w 14) (if p.v2 = 0 then 0 else if p.v2 = 3 then 2 * no else no)
  let start : EwOut := { flags := v1.2 ||| v2.2, rng := srSeed (wordAt w 1) }
  (List.range m).foldl (fun o i =>
    let x := readRow g fx group (offAt w 2) (64 * wfld w 10 15 0) (offAt w 6) i n
    let y := if p.comb = 3 || p.comb = 4 then readRow g fy group (offAt w 3) (64 * wfld w 10 31 16) (offAt w 7) i n
      else (⟨[], []⟩, 0)
    let ent := ewEntry fx group x.1
    let yv := y.1.values fy group
    let o := { o with flags := o.flags ||| x.2 ||| y.2 ||| ent.2 ||| yv.2 }
    ewRow p fx (fmtFrac fx) fout group (wfld w 0 11 11 = 1) v1.1 v2.1 yv.1 (auxWorking fy y.1)
      (offAt w 4) (64 * wfld w 11 15 0) (offAt w 15) (offAt w 5) i ent.1 o) start

/-! ## Front-end checks (R70) and ranges (R69) -/

/-- The rows of an operand as one range from its first to its last byte, or row by row where rows lie apart. -/
def rowRanges (off stride rows n : Nat) : List (Nat × Nat) :=
  if rows = 0 || n = 0 then []
  else if stride ≤ n then [(off, (rows - 1) * stride + n)]
  else (List.range rows).map (fun i => (off + i * stride, n))

/-- The scale rows of an operand. -/
def scaleRanges (fmt group off rows n : Nat) : List (Nat × Nat) :=
  if isBlockFmt fmt then rowRanges off (scaleStride fmt group n) rows (scaleStride fmt group n) else []

/-- The ranges of the vectors of a program. -/
def vecRanges (w : List Nat) (n : Nat) : List (Nat × Nat) :=
  let p := ewProg w
  let no := p.cols n
  (if p.v1 = 0 then [] else [(offAt w 13, 4 * (if p.v1 = 3 then 2 * n else n))]) ++
  (if p.v2 = 0 then [] else [(offAt w 14, 4 * (if p.v2 = 3 then 2 * no else no))])

/-- The ranges of a MATMUL. -/
def matmulRanges (w : List Nat) : Ranges :=
  let p := ewProg w
  let m := wfld w 8 15 0
  let n := wfld w 8 31 16
  let k := wfld w 9 23 0
  let fin := wfld w 9 27 24
  let fout := wfld w 9 31 28
  let g := groupSize w
  let no := p.cols n
  { reads := rowRanges (offAt w 2) (64 * wfld w 10 15 0) m (rowBytes fin k) ++
      rowRanges (offAt w 3) (64 * wfld w 10 31 16) n (rowBytes fin k) ++
      scaleRanges fin g (offAt w 6) m k ++ scaleRanges fin g (offAt w 7) n k ++ vecRanges w n ++
      (if p.comb = 3 || p.comb = 4 then rowRanges (offAt w 5) (64 * wfld w 11 31 16) m (rowBytes (auxFmt w) no) else [])
    writes := rowRanges (offAt w 4) (64 * wfld w 11 15 0) m (rowBytes fout no) ++ scaleRanges fout g (offAt w 15) m no }

/-- The ranges of an EWISE. -/
def ewiseRanges (w : List Nat) : Ranges :=
  let p := ewProg w
  let m := wfld w 8 15 0
  let n := wfld w 8 31 16
  let fx := wfld w 9 27 24
  let fy := wfld w 9 23 20
  let fout := wfld w 9 31 28
  let g := groupSize w
  let no := p.cols n
  { reads := rowRanges (offAt w 2) (64 * wfld w 10 15 0) m (rowBytes fx n) ++ scaleRanges fx g (offAt w 6) m n ++
      vecRanges w n ++
      (if p.comb = 3 || p.comb = 4 then
        rowRanges (offAt w 3) (64 * wfld w 10 31 16) m (rowBytes fy n) ++ scaleRanges fy g (offAt w 7) m n else [])
    writes := rowRanges (offAt w 4) (64 * wfld w 11 15 0) m (rowBytes fout no) ++ scaleRanges fout g (offAt w 15) m no ++
      (if p.reduce = 0 then [] else [(offAt w 5, 4 * m)]) }

/-- An offset word is aligned to 64 bytes, lies in bits [21:0], and is 0 where it is not used (R65). -/
def offOk (w : List Nat) (k : Nat) (used : Bool) : Bool :=
  wordAt w k < 2 ^ 22 && wordAt w k % 64 = 0 && (used || wordAt w k = 0)

/-- BAD_CMD of a MATMUL or EWISE (R65, R66, R70). -/
def ewBadCmd (w : List Nat) : Bool :=
  let p := ewProg w
  let mm : Bool := opcodeOf w = 1
  let n := wfld w 8 31 16
  let opnd : Bool := p.comb = 3 || p.comb = 4
  let fin := wfld w 9 27 24
  let fy := wfld w 9 23 20
  let words : Bool := if mm then wfld w 12 31 17 = 0 else wfld w 12 31 21 = 0 && wfld w 9 19 0 = 0 && wfld w 11 31 16 = 0
  let sizes : Bool := n ≠ 0 && wfld w 8 15 0 ≠ 0 && (!mm || wfld w 9 23 0 ≠ 0)
  let ops : Bool := p.v1 ≤ 3 && p.v2 ≤ 3 && p.comb ≤ 4 && p.reduce ≤ 3 && p.fn ≠ 15 && (!p.pair || n % 128 = 0)
  let offs : Bool := offOk w 2 true && offOk w 3 (mm || opnd) && offOk w 4 true && offOk w 5 (if mm then opnd else p.reduce ≠ 0) &&
    offOk w 6 (isBlockFmt fin) && offOk w 7 (if mm then isBlockFmt fin else opnd && isBlockFmt fy) &&
    offOk w 13 (p.v1 ≠ 0) && offOk w 14 (p.v2 ≠ 0) && offOk w 15 (isBlockFmt (wfld w 9 31 28))
  !(words && sizes && ops && offs)

/-- FORMAT of a MATMUL or EWISE (R45, R49, R50, R70, R381). -/
def ewBadFormat (w : List Nat) : Bool :=
  let p := ewProg w
  let mm : Bool := opcodeOf w = 1
  let n := wfld w 8 31 16
  let opnd : Bool := p.comb = 3 || p.comb = 4
  let fin := wfld w 9 27 24
  let fy := wfld w 9 23 20
  let fout := wfld w 9 31 28
  let g := groupSize w
  let len := if mm then wfld w 9 23 0 else n
  0xB ≤ fin || 0xB < fout || (mm && fin = 0xA) || (opnd && !mm && 0xB ≤ fy) ||
    (isBlockFmt fin && len % blockSize fin g ≠ 0) || (opnd && !mm && isBlockFmt fy && n % blockSize fy g ≠ 0) ||
    (isBlockFmt fout && p.cols n % blockSize fout g ≠ 0) ||
    (fixedPath fin fout && !([0, 1, 13, 14].contains p.fn))

end Sys2Proof.Machine
end

