-- ==== Sys2Proof/Machine/Curve.lean ====
section
/-!
DEFINITION. The shared curve unit (R58 to R61).
-/

namespace Sys2Proof.Machine

/-- The registers of a slot, which are its staging copy (R61): X0, X1, the 33 knots. -/
def State.curveStaged (s : State) (c : Nat) : CurveTable :=
  s.rd .BRZ_CURVE_X0 c :: s.rd .BRZ_CURVE_X1 c :: (List.range 33).map (fun k => s.rd .BRZ_CURVE_Y c k)

/-- The published copy of a slot; slots 0 and 1 are fixed, the others are empty before their first COMMIT. -/
def State.curveTable (s : State) (c : Nat) : CurveTable :=
  if c < 2 then s.curveStaged c else (alGet s.curves c).getD (List.replicate 35 0)

/-- The integer part of a value that is 0 or above, brought into 0 to 31. -/
def knotIndex (x : Fp) : Nat :=
  match x with
  | .nan => 0
  | .inf n => if n then 0 else 31
  | .fin n m e => if n then 0 else min 31 (scaleInt m e)

/-- A value brought into 0 to 1. -/
def clampUnit (x : Fp) : Fp :=
  if x.lt (fpConst 0 0) then fpConst 0 0 else if (fpConst 1 0).lt x then fpConst 1 0 else x

/-- The curve of a table at `x` (R58), each step rounded. -/
def curveAt (t : CurveTable) (extrap : Bool) (x : Fp) : Fp × Nat :=
  let x0 := of32 (t.getD 0 0)
  let x1 := of32 (t.getD 1 0)
  let d := x.sub x0
  let w := x1.sub x0
  let q := (fpConst 32 0).div w.1
  let sv := d.1.mul q.1
  let fl := d.2 ||| w.2 ||| q.2 ||| sv.2
  if sv.1.isNan then (.nan, noUnf fl)
  else
    let i := knotIndex sv.1
    let f := sv.1.sub (ofInt i)
    let fr := if extrap then f.1 else clampUnit f.1
    let y0 := of32 (t.getD (2 + i) 0)
    let dy := (of32 (t.getD (3 + i) 0)).sub y0
    let p := fr.mul dy.1
    let y := y0.add p.1
    (y.1, noUnf (fl ||| f.2 ||| dy.2 ||| p.2) ||| y.2)

/-- An evaluation of a slot (R58, R61): NaN with INV while VALID is 0 or X0 is not below X1. -/
def State.curve (s : State) (c : Nat) (x : Fp) : Fp × Nat :=
  let t := s.curveTable c
  if !s.bit .BRZ_CURVE_CTRL 0 c || !(of32 (t.getD 0 0)).lt (of32 (t.getD 1 0)) then (.nan, flagInv)
  else if x.isNan then (.nan, flagNanIn)
  else curveAt t (s.bit .BRZ_CURVE_CTRL 1 c) x

/-- The curve registers are read only (R39, R60): the slot is a fixed one, or the active image has locked the CHIP section. -/
def State.curveLocked (s : State) (c : Nat) : Bool :=
  c < 2 || (match s.spl.chip with | some x => x.locks.contains .chip | none => false)

/-- A write of 1 to COMMIT (R60, R61): chip scope; ignored where the slot is read only. -/
def execCurveCommit (a : Agent) (c : Nat) (s : State) : Host.Outcome State Fault Refusal :=
  .next <|
    if 32 ≤ c then s
    else if s.accessFenced a (some 14) then s.respErr
    else if s.agentPart a ≠ s.ctrl || s.ctrl = 0xFF then s.denied a (0xCC0008 + c * 0x100)
    else if s.curveLocked c then s.respOk
    else { s.respOk with curves := alSet s.curves c (s.curveStaged c) }

end Sys2Proof.Machine
end

