-- ==== Sys2Proof/Machine/Windbreak.lean ====
section
/-!
DEFINITION. Windbreak (R346 to R356): causes, safe stop, safe-torque-off, release, the lockstep pairs and the refused
writes to its registers.
-/

namespace Sys2Proof.Machine

/-- The cause bits of WB_CAUSE (R356). -/
inductive WbCause where
  | noSection | estop | fusion | overspeed | breezeMiss | flutter | node | heartbeat | request | gale | stoIgnored | pair
  deriving DecidableEq, Repr

/-- The bit of a cause. -/
def WbCause.num (c : WbCause) : Nat := c.ctorIdx

/-- WB_STATUS.STATE: 0 RUN, 1 LIMIT, 2 STOPPING, 3 STO. -/
def State.wbState (s : State) : Nat := s.fld .WB_STATUS 31 29

/-- The SAFETY parameters, or the defaults of R349 while none is applied. -/
def State.safety (s : State) : Safety := s.wb.safety.getD {}

/-- WB_STATUS.STATE changed, with the STATE event (R356). -/
def State.setWbState (s : State) (st : Nat) : State :=
  if s.wbState = st then s else (s.wrF .WB_STATUS 31 29 st).setB .WB_EVENT 0

/-- A cause recorded as it acts (R351): its condition counts as present in this cycle. -/
def State.wbCauseSet (s : State) (c : WbCause) : State :=
  let s := s.setB .WB_CAUSE c.num
  { s with wb := { s.wb with absent := alSet s.wb.absent c.num 0 } }

/-- SAFE_STOP_N driven (R353, R356): asserted is low. -/
def State.safeStopOut (s : State) (on : Bool) : State :=
  let s := s.wrB .WB_STATUS 27 on
  { s with pins := { s.pins with safeStopN := !on } }

/-- Safe-torque-off (R353): every WL_STO bit, SAFE_STOP_N asserted, STATE STO. -/
def State.sto (s : State) : State :=
  let s := (s.wr .WL_STO_LO 0xFFFFFFFF).wr .WL_STO_HI 0xFFFFFFFF
  (s.safeStopOut true).setWbState 3

/-- An STO cause (R351, R355): STO at once. -/
def State.wbSto (s : State) (c : WbCause) : State := (s.wbCauseSet c).sto

/-- A safe-stop cause (R351, R352, R355): from RUN or LIMIT it records v0 and the time and goes to STOPPING; during
STOPPING and STO it is recorded only. -/
def State.safeStop (s : State) (c : WbCause) : State :=
  let s := s.wbCauseSet c
  if s.wbState = 0 || s.wbState = 1 then
    let s := { s with wb := { s.wb with v0 := s.wb.speed, stopAt := s.now, boundFails := 0, slow := 0 } }
    s.setWbState 2
  else s

/-- A ring position that becomes LOST, or reports FAULT (R351, R353): under NODE_ACTION 1 its own WL_STO bit as well
as a safe stop of the others. -/
def State.wbNode (s : State) (k : Nat) : State :=
  let s := if s.safety.nodeAction = 1 then
      (if k < 32 then s.setB .WL_STO_LO k else s.setB .WL_STO_HI (k - 32)) else s
  s.safeStop .node

/-- A sample of ESTOP_IN_N (R351): low in three consecutive samples it acts under ESTOP_CAT. -/
def execEstopSample (low : Bool) (s : State) : Host.Outcome State Fault Refusal :=
  .next <|
    let n := if low then s.wb.estopLow + 1 else 0
    let s := { s with pins := { s.pins with estopInN := !low }, wb := { s.wb with estopLow := min n 3 } }
    let s := s.wrB .WB_STATUS 28 low
    if 3 ≤ n then (if s.safety.estopCat = 0 then s.wbSto .estop else s.safeStop .estop) else s

/-- Nanoseconds in a second. -/
def nsPerS : Nat := 1000000000

/-- STOP_TIME_MS has passed since the safe stop's entry (R352). -/
def State.stopTimeUp (s : State) : Bool := s.safety.stopTimeMs * (nsPerS / 1000) ≤ s.now - s.wb.stopAt

/-- STOP_TIME_MS passes while STOPPING (R352): STO at once. -/
def execStopTimeExpiry (s : State) : Host.Outcome State Fault Refusal :=
  .next (if s.wbState = 2 && s.stopTimeUp then s.sto else s)

/-- A write of 1 to WB_REQ.STOP by the control partition (R351, R356). -/
def execWbStop (a : Agent) (s : State) : Host.Outcome State Fault Refusal :=
  .next (if s.accessFenced a none then s.respErr
    else if s.agentPart a ≠ s.ctrl || s.ctrl = 0xFF then s.denied a else s.respOk.safeStop .request)

/-- The number of ring positions. -/
def State.nodeCount (s : State) : Nat := match s.spl.chip with | some c => c.nodes.length | none => 0

/-- Ring position `k` is OK (R265). -/
def State.nodeOk (s : State) (k : Nat) : Bool := s.fld .WL_N_STATUS 31 30 k = 1

/-- A recorded cause persists: its condition holds, or has not been absent for 100 consecutive cycles (R354). -/
def State.causePersists (s : State) : Bool :=
  (bitsSet 12 (s.rd .WB_CAUSE)).any (fun c => s.wb.present.contains c || (alGet s.wb.absent c).getD 100 < 100)

/-- The fusion level (R235). -/
def State.fusionLevel (s : State) : Nat := s.fld .XW_LEVEL 31 28

/-- RELEASE is refused (R354): a cause persists, ESTOP_IN_N is low, a ring position is not OK, no SAFETY section is
applied, or both pairs have failed (R346). -/
def State.releaseRefused (s : State) : Bool :=
  s.wb.held || s.wb.safety.isNone || s.causePersists || !s.pins.estopInN ||
    (List.range s.nodeCount).any (fun k => !s.nodeOk k)

/-- The limit in force at a fusion level, in cm/s (R351); F4 has none of its own. -/
def State.speedLimit (s : State) : Nat := s.safety.speed.getD (min s.fusionLevel 3) 0

/-- A write of 1 to WB_REQ.RELEASE by the control partition (R354): from STO it goes to RUN or LIMIT where nothing refuses it; during
STOPPING it is refused, and in RUN and LIMIT there is nothing to release. -/
def execWbRelease (a : Agent) (s : State) : Host.Outcome State Fault Refusal :=
  .next <|
    if s.accessFenced a none then s.respErr
    else if s.agentPart a ≠ s.ctrl || s.ctrl = 0xFF then s.denied a
    else
      let s := s.respOk
      if s.wbState < 2 then s
      else if s.wbState = 2 || s.releaseRefused then s.setB .WB_EVENT 2
      else
        let ok := (List.range s.nodeCount).filter s.nodeOk
        let m := maskOf64 ok
        let s := (s.wr .WL_STO_LO (s.rd .WL_STO_LO &&& (2 ^ 32 - 1 - m % 2 ^ 32))).wr .WL_STO_HI
          (s.rd .WL_STO_HI &&& (2 ^ 32 - 1 - m / 2 ^ 32))
        let s := (s.safeStopOut false).wr .WB_CAUSE 0
        let s := { s with wb := { s.wb with absent := [], excess := 0, misses := [], noCommit := 0, noFrame := 0 } }
        let s := s.setWbState (if 2 ≤ s.fusionLevel then 1 else 0)
        (s.wrF .WB_LIMIT 31 16 s.speedLimit).setB .WB_EVENT 1
where
  /-- A mask with the bits of a list. -/
  maskOf64 (l : List Nat) : Nat := l.foldl (fun m b => m ||| 2 ^ b) 0

/-- A lockstep mismatch (R346, R347): `active` and `standby` say which pair's comparator found it.  A mismatch of the
active pair hands the outputs to the other with SINGLE set and a record; one of the remaining pair, or of both at
once, asserts SAFE_STOP_N and every WL_STO bit until rung 5. -/
def execLockstepMismatch (active standby : Bool) (s : State) : Host.Outcome State Fault Refusal :=
  .next <|
    if !active && !standby then s
    else
      let single := s.bit .WB_STATUS 25
      let act := s.fld .WB_STATUS 26 26
      let s := s.bumpSatF .WB_PAIR 31 16
      let s := if active then s.clrB .WB_PAIR act else s
      let s := if standby then s.clrB .WB_PAIR (1 - act) else s
      if (active && standby) || (active && single) then
        let s := { s with wb := { s.wb with held := true } }
        (s.wbSto .pair).record { cls := 0x14, part := 8, source := 0x8000 }
      else if single then s
      else
        let s := s.setB .WB_STATUS 25
        let s := if active then s.wrF .WB_STATUS 26 26 (1 - act) else s
        s.record { cls := 0x14, part := 8, source := 0x8000 }

/-- A write to a WBO register by an agent other than Windbreak (R348): discarded without an error response, counted,
recorded at most once per 100 ms for each source. -/
def execWboWriteReject (a : Agent) (r : Reg) (s : State) : Host.Outcome State Fault Refusal :=
  .next <|
    if !r.name.info.wbo || a = .windbreak then s
    else
      let s := ((s.respOk).bump .WB_REJECTS).setB .WB_EVENT 2
      s.recordRated { cls := 0x14, code := 1, unit := 0, agent := some a }
        { cls := 0x14, part := s.agentPart a, source := a.code, detail := 1 }

/-! ## Each Windline cycle (R350 to R352, R354) -/

/-- The magnitude of an FP32 value times an integer, in millionths; an infinite or NaN scale counts as the largest
speed. -/
def scaledMicro (fp : Nat) (x : Int) : Nat :=
  let e := bitsOf fp 30 23
  let m := if e = 0 then bitsOf fp 22 0 else bitsOf fp 22 0 + 2 ^ 23
  let e := max e 1
  if bitsOf fp 30 23 = 255 then 0xFFFF * 10000 * 100
  else
    let v := m * x.natAbs * 1000000
    if 150 ≤ e then v * 2 ^ (e - 150) else (quotEven v (2 ^ (150 - e) : Nat)).toNat

/-- The base speed in millionths of a metre per second, from the velocity fields of the base's ring positions. -/
def State.baseSpeed (s : State) (fields : Nat → Int) : Nat :=
  ((bitsSet 64 s.safety.baseNodes).map (fun k => scaledMicro s.safety.velScale (fields k))).foldl max 0

/-- The conditions that hold now refresh their causes; a cause absent for a cycle counts one more (R354).  Of FUSION that is level F4:
a release at F2 or F3 goes to LIMIT. -/
def State.ageCauses (s : State) (present : List Nat) : State :=
  { s with wb := { s.wb with
      present := present
      absent := s.wb.absent.map (fun x => (x.1, if present.contains x.1 then 0 else x.2 + 1)) } }

/-- The fusion level's limit at a cycle (R351, R354): F2 and F3 put it in force, F4 is a safe stop, F0 and F1 end a
limit. -/
def State.wbFusion (s : State) : State :=
  let lv := s.fusionLevel
  if lv = 4 then s.safeStop .fusion
  else if lv = 2 || lv = 3 then
    if s.wbState = 0 then (s.wbCauseSet .fusion).setWbState 1
    else if s.wbState = 1 then s.wbCauseSet .fusion else s
  else if s.wbState = 1 then s.setWbState 0
  else s

/-- OVERSPEED (R351): above the limit for OVERSPEED_CYCLES consecutive cycles is a safe stop. -/
def State.wbOverspeed (s : State) (excess : Bool) : State :=
  let n := if excess then s.wb.excess + 1 else 0
  let s := { s with wb := { s.wb with excess := n } }
  if s.safety.overspeedCycles ≤ n && (s.wbState = 0 || s.wbState = 1) then s.safeStop .overspeed else s

/-- The bound of a safe stop in force (R352), in millionths of a metre per second: v0 less DECEL_MON times the time since
entry, at least 0, plus 5 cm/s. -/
def State.stopBound (s : State) : Nat :=
  let dt := s.now - s.wb.stopAt
  s.wb.v0 - (quotEven (s.safety.decelMon * dt : Nat) 100000).toNat + 50000

/-- A cycle of STOPPING (R352): it goes to STO when its bound has failed for OVERSPEED_CYCLES cycles, when the base has
stayed below 2 cm/s for 40, or when STOP_TIME_MS has passed. -/
def State.wbStopping (s : State) (v : Nat) : State :=
  if s.wbState ≠ 2 then s
  else
    let fails := if s.stopBound < v then s.wb.boundFails + 1 else 0
    let slow := if v < 20000 then s.wb.slow + 1 else 0
    let s := { s with wb := { s.wb with boundFails := fails, slow := slow } }
    if s.safety.overspeedCycles ≤ fails || 40 ≤ slow || s.stopTimeUp then s.sto else s

/-- What Windbreak does at the first RX_DEADLINE of a cycle with base speed `v` in millionths of a metre per second (R350
to R352): the limit of the fusion level, overspeed, the bound of a safe stop, and its end. -/
def State.wbCycle (s : State) (v : Nat) : State :=
  let lv := s.fusionLevel
  let limit := s.speedLimit
  let excess : Bool := limit * 10000 < v
  let s := { s with wb := { s.wb with speed := v } }
  let s := (s.wrF .WB_LIMIT 15 0 (min 0xFFFF (quotEven v 10000).toNat)).wrF .WB_LIMIT 31 16 limit
  let s := s.wrF .WB_STATUS 18 16 lv
  let s := s.ageCauses
    ((if lv = 4 then [WbCause.fusion.num] else []) ++ (if excess then [WbCause.overspeed.num] else []) ++
     (if !s.pins.estopInN then [WbCause.estop.num] else []))
  ((s.wbFusion).wbOverspeed excess).wbStopping v

/-- One run of a loop misses DEADLINE or not (R351, BREEZE_MISS). -/
def State.wbLoopMiss (s : State) (loop : Nat) (missed : Bool) : State :=
  let n := if missed then (alGet s.wb.misses loop).getD 0 + 1 else 0
  let s := { s with wb := { s.wb with misses := alSet s.wb.misses loop n } }
  if s.safety.missMax ≤ n && missed then s.safeStop .breezeMiss else s

/-- A cycle without a frame (R351, HEARTBEAT) while the master is not enabled. -/
def State.wbNoFrame (s : State) : State :=
  let b := s.wb.noFrame + 1
  let s := { s with wb := { s.wb with noFrame := b } }
  if s.safety.heartbeatCycles ≤ b then s.wbSto .heartbeat else s

/-- The HEARTBEAT of a cycle (R351): `due` says that an enabled loop was due, `commit` that one committed, `frame` that
the master sent a frame. -/
def State.wbHeartbeat (s : State) (due commit frame : Bool) : State :=
  let a := if commit then 0 else if due then s.wb.noCommit + 1 else s.wb.noCommit
  let b := if frame then 0 else s.wb.noFrame + 1
  let s := { s with wb := { s.wb with noCommit := a, noFrame := b } }
  if s.safety.heartbeatCycles ≤ a || s.safety.heartbeatCycles ≤ b then s.wbSto .heartbeat else s

end Sys2Proof.Machine
end

