-- ==== Sys2Proof/Machine/Windline.lean ====
section
/-!
DEFINITION. The Windline master (R257 to R266, R287): cycles, frames, slots, node states, ring breaks.
-/

namespace Sys2Proof.Machine

/-- The node entry of a ring position (R29). -/
def State.node (s : State) (k : Nat) : Option NodeEntry :=
  s.spl.chip.bind (fun c => c.nodes.find? (fun n => n.ringPos == k))

/-- CYCLE_US of the WINDLINE section. -/
def State.cycleUs (s : State) : Nat := match s.spl.chip with | some c => c.cycleUs | none => 250

/-- The phase of a raw instant (R257, R287), while the cycles run. -/
def State.wlPhase (s : State) : Nat :=
  match s.wl.cycle with
  | none => 0
  | some _ =>
    let p := max 1 (s.cycleUs * 1000)
    65536 * ((s.now - s.time.origin) % p) / p

/-- The length of a cycle in ns. -/
def State.cycleNs (s : State) : Nat := max 1 (s.cycleUs * 1000)

/-- The cycle in progress has reached a phase (R257, R258). -/
def State.wlPast (s : State) (phase : Nat) : Bool :=
  s.wl.startAt ≤ s.now && phase * s.cycleNs ≤ 65536 * (s.now - s.wl.startAt)

/-- The cycle in progress has reached RX_DEADLINE. -/
def State.wlLate (s : State) : Bool := s.wl.rxDone || s.wlPast (s.fld .WL_TIMING 31 16)

/-- A violation by a Windline partner (R266): of ring position `pos`, or of a path. -/
def State.wlViolation (s : State) (pos : Option Nat) (code : Nat) : State :=
  let s := match pos with
    | some k => (s.bump .WL_N_ERRORS k).wrF .WL_N_STATUS 23 16 code k
    | none => s
  let s := s.setB .WL_EVENT 2
  if code = 1 then s
  else s.recordRated { cls := 0x0A, code := code, unit := pos.getD 0xFF }
    { cls := 0x0A, source := 0x2009, detail := code, context := pos.getD 0xFFFFFFFF }

/-! ## Frames (R260, R261) -/

/-- A number of `n` bytes, most significant first. -/
def bytesMsb (n v : Nat) : List Byte := (bytesLE n v).reverse

/-- The mask of WL_STO. -/
def State.stoMask (s : State) : Nat := s.rd .WL_STO_LO + 2 ^ 32 * s.rd .WL_STO_HI

/-- The downlink slot of a ring position in cycle `c` (R261). -/
def State.downlink (s : State) (c k : Nat) : List Byte :=
  let held : Bool := s.wl.held.any (fun h => h.1 == k)
  let body := bytesLE 1 (bitOf s.stoMask k).toNat ++ bytesLE 1 held.toNat ++ bytesLE 2 c ++
    ((List.range 14).map (fun f => bytesLE 4 ((alGet s.wl.outs (k, f)).getD 0))).flatten
  body ++ bytesLE 4 (crc32c body)

/-- The frame that leaves a port (R260), without its FCS: path 0 from port A, 1 from port B.  APPLY_NS and HOP_NS are rounded under
R51. -/
def State.wlFrame (s : State) (c path : Nat) (slots : List (List Byte)) : List Byte :=
  let n := s.nodeCount
  let rtt := if path = 0 then s.fld .WL_RTT 31 16 else s.fld .WL_RTT 15 0
  let ethertype := match s.spl.chip with | some i => i.ethertype | none => 0x88B5
  bytesMsb 6 (s.rd64 .WL_DA_LO) ++ bytesMsb 6 (s.rd64 .WL_SA_LO) ++ bytesMsb 2 ethertype ++
  bytesLE 1 1 ++ bytesLE 1 path ++ bytesLE 1 n ++ bytesLE 1 0 ++ bytesLE 4 c ++
  bytesLE 4 (quotEven (s.fld .WL_TIMING 15 0 * s.cycleUs * 1000 : Nat) 65536).toNat ++
  bytesLE 2 (quotEven (rtt * 10 : Nat) (n + 1 : Nat)).toNat ++ bytesLE 2 s.cycleUs ++
  slots.flatten

/-- A port is enabled. -/
def State.wlPort (s : State) (p : Nat) : Bool := s.bit .WL_CTRL p

/-! ## Enable (R265, R287) -/

/-- Every node goes to ABSENT (R265). -/
def State.wlAbsent (s : State) : State :=
  let s := (List.range 64).foldl (fun s k => s.wrF .WL_N_STATUS 31 24 0 k) s
  let s := (s.wr .WL_LOST_LO 0).wr .WL_LOST_HI 0
  let s := s.wr .WL_STATUS 0
  { s with
    wl := { s.wl with
      cycle := none, slots := [], sent := [], returned := [], copies := [], noReturn := [], down := [], runs := [], ignored := []
      quiet := false }
    brz := { s.brz with due := [], runs := [], chol := [] } }

/-- WINDLINE_ENABLE (R277, R287): a write of WL_CTRL.  With ENABLE rising, frames start at the next phase 0; with
ENABLE cleared, the nodes are ABSENT. -/
def execWindlineEnable (a : Agent) (w : Word) (s : State) : Host.Outcome State Fault Refusal :=
  .next <|
    if s.accessFenced a (some 9) then s.respErr
    else if s.agentPart a ≠ s.ctrl || s.ctrl = 0xFF then s.denied a 0xD00000
    else
      let on := bitOf w.toNat 31
      let s := (s.respOk.wrB .WL_CTRL 31 on).wrF .WL_CTRL 1 0 w.toNat
      if on then s else s.wlAbsent

/-! ## Returned frames (R262, R263, R266) -/

/-- The parts of an uplink slot (R262). -/
def uplinkValues (b : List Byte) : List Nat := (List.range 13).map (fun f => leAt b (8 + 4 * f) 4)

/-- Why a copy of a slot is invalid (R263, R266): no code when it is valid.  The other fields of a slot whose CRC does not match say
nothing. -/
def State.copyCodes (s : State) (c k : Nat) (b : List Byte) : List Nat :=
  if leAt b 60 4 ≠ crc32c (b.take 60) then [1]
  else
    (if (s.node k).map (fun (n : NodeEntry) => n.nodeAddr) = some (leAt b 1 1) then [] else [3]) ++
    (if leAt b 2 2 = c % 65536 then [] else [4])

/-- A valid copy is kept; path A's values, or else path B's, are the ring position's (R263). -/
def State.takeCopy (s : State) (k path : Nat) (b : List Byte) : State :=
  let first : Bool := path = 0 || (alGet s.wl.copies (k, 0)).isNone
  let s := { s with wl := { s.wl with copies := alSet s.wl.copies (k, path) b } }
  if !first then s
  else
    let s := (s.wrF .WL_N_STATUS 15 8 (leAt b 0 1) k).wrF .WL_N_STATUS 7 0 (leAt b 1 1) k
    let s := s.wr .WL_N_TSAMPLE (leAt b 4 4) k
    { s with wl := { s.wl with values := alSet s.wl.values k (uplinkValues b) } }

/-- The slots of a returned frame; in a frame that has been turned back, a slot that still holds the downlink was not
reached. -/
def State.takeSlots (s : State) (c path : Nat) (turned : Bool) (frame : List Byte) : State :=
  (List.range s.nodeCount).foldl (fun s k =>
    let b := sliceBytes frame (30 + 64 * k) 64
    if turned && b == s.wl.slots.getD k [] then s
    else match s.copyCodes c k b with
      | [] => s.takeCopy k path b
      | l => l.foldl (fun (s : State) code => s.wlViolation (some k) code) s) s

/-- The ring positions with a valid copy on a path. -/
def State.validOn (s : State) (path : Nat) : List Nat :=
  (List.range 64).filter (fun k => (alGet s.wl.copies (k, path)).isSome)

/-- A frame turned back shows the last position that its path reached (R266, code 0x09). -/
def State.showBreak (s : State) (path : Nat) : State :=
  let l := s.validOn path
  let s := (s.wlViolation none 9).setB .WL_EVENT 1
  if path = 0 then s.wrF .WL_STATUS 29 24 (l.foldl max 0) else s.wrF .WL_STATUS 21 16 (l.foldl min 63)

/-- The round trip of a path whose frame has returned (R277), in 10 ns units, and no more cycles without a return (R266). -/
def State.pathReturn (s : State) (path : Nat) : State :=
  let rtt := min 0xFFFF (quotEven (s.now - s.wl.startAt : Nat) 10).toNat
  let s := if path = 0 then s.wrF .WL_RTT 31 16 rtt else s.wrF .WL_RTT 15 0 rtt
  { s with wl := { s.wl with noReturn := alSet s.wl.noReturn path 0, down := s.wl.down.filter (fun p => p ≠ path) } }

/-- WINDLINE_FRAME_RETURN (R263, R266): a frame arrives on a Windline port; `fcsOk` is the MAC's check. -/
def execWindlineFrameReturn (frame : List Byte) (fcsOk : Bool) (s : State) : Host.Outcome State Fault Refusal :=
  .next <|
    match s.wl.cycle with
    | none => s
    | some c =>
      let ethertype := match s.spl.chip with | some i => i.ethertype | none => 0x88B5
      let path := leAt frame 15 1 % 2
      let turned := bitOf (leAt frame 15 1) 1
      if ofBytesBE (sliceBytes frame 0 6) ≠ s.rd64 .WL_DA_LO || ofBytesBE (sliceBytes frame 12 2) ≠ ethertype then s.wlViolation none 7
      else if !fcsOk || frame.length ≠ 30 + 64 * s.nodeCount || leAt frame 14 1 ≠ 1 || leAt frame 16 1 ≠ s.nodeCount ||
          leAt frame 18 4 ≠ c % 2 ^ 32 then s.wlViolation none 6
      else if s.wlLate then ((s.pathReturn path).wlViolation none 8).setB .WL_EVENT 3
      else
        let s := s.pathReturn path
        let s := { s with wl := { s.wl with returned := alSet s.wl.returned path turned } }
        let s := s.takeSlots c path turned frame
        if turned then s.showBreak path else s

/-- A path is down (R266, code 0x0C): the other path alone. -/
def State.pathDown (s : State) (p : Nat) : State :=
  if s.wl.down.contains p then s
  else
    let s := (s.wlViolation none 0xC).setB .WL_EVENT 4
    { s with wl := { s.wl with down := p :: s.wl.down } }

/-- WINDLINE_PORT_DOWN (R266): a port loses its link, or a path gets no return for 3 cycles. -/
def execWindlinePortDown (p : Nat) (s : State) : Host.Outcome State Fault Refusal :=
  .next (if p < 2 && s.bit .WL_CTRL 31 && s.wlPort p then s.pathDown p else s)

/-! ## RX_DEADLINE (R263, R265, R266, R350) -/

/-- STATE of a ring position. -/
def State.nodeState (s : State) (k : Nat) : Nat := s.fld .WL_N_STATUS 31 30 k
/-- MISSED of a ring position. -/
def State.nodeMissed (s : State) (k : Nat) : Nat := s.fld .WL_N_STATUS 29 24 k
/-- LOSS_CYCLES of a ring position. -/
def State.lossCycles (s : State) (k : Nat) : Nat := match s.node k with | some n => n.lossCycles | none => 3

/-- STATE and MISSED of a ring position set. -/
def State.setNode (s : State) (k st missed : Nat) : State :=
  (s.wrF .WL_N_STATUS 31 30 st k).wrF .WL_N_STATUS 29 24 (min 63 missed) k

/-- The LOST bit of a ring position. -/
def State.setLost (s : State) (k : Nat) (b : Bool) : State :=
  if k < 32 then s.wrB .WL_LOST_LO k b else s.wrB .WL_LOST_HI (k - 32) b

/-- NODE_LOST (R265): the LOST bit, the LOST event, code 0x0D, Windbreak informed. -/
def State.nodeLost (s : State) (k missed : Nat) : State :=
  let s := ((s.setNode k 3 missed).setLost k true).setB .WL_EVENT 0
  let s := { s with wl := { s.wl with runs := alSet s.wl.runs k 0 } }
  (s.wlViolation (some k) 0xD).wbNode k

/-- The state table of R265 for one cycle. -/
def State.nodeStep (s : State) (k : Nat) (valid : Bool) : State :=
  let st := s.nodeState k
  let m := s.nodeMissed k
  let loss := s.lossCycles k
  if st = 3 then
    if valid then
      let r := (alGet s.wl.runs k).getD 0 + 1
      let s := { s with wl := { s.wl with runs := alSet s.wl.runs k r } }
      if loss ≤ r then (s.setNode k 1 0).setLost k false else s
    else { (s.setNode k 3 (m + 1)) with wl := { s.wl with runs := alSet s.wl.runs k 0 } }
  else if valid then (if st = 1 then s else s.setNode k 1 0)
  else if st = 0 then s
  else
    let n := if st = 1 then 1 else m + 1
    if n < loss then s.setNode k 2 n else s.nodeLost k n

/-- Both copies of a slot are valid but different (R266, code 0x05). -/
def State.copiesDiffer (s : State) (k : Nat) : Bool :=
  match alGet s.wl.copies (k, 0), alGet s.wl.copies (k, 1) with
  | some x, some y => x != y
  | _, _ => false

/-- The cycles in a row in which a node has left IN_STO clear while CMD was STO (R266, code 0x0B). -/
def State.stoIgnored (s : State) (k : Nat) : Nat :=
  let sto : Bool := leAt (s.wl.slots.getD k []) 0 1 = 1
  if sto && !bitOf (s.fld .WL_N_STATUS 15 8 k) 2 then (alGet s.wl.ignored k).getD 0 + 1 else 0

/-- The uplink of a ring position that is valid in this cycle (R266, codes 0x05, 0x0A, 0x0B). -/
def State.judgeUplink (s : State) (k : Nat) : State :=
  let s := if s.copiesDiffer k then s.wlViolation (some k) 5 else s
  let s := if bitOf (s.fld .WL_N_STATUS 15 8 k) 1 then (s.wlViolation (some k) 0xA).wbNode k else s
  let n := s.stoIgnored k
  let s := { s with wl := { s.wl with ignored := alSet s.wl.ignored k n } }
  if 2 ≤ n then (s.wlViolation (some k) 0xB).wbSto .stoIgnored else s

/-- A ring position has a valid slot in this cycle (R263). -/
def State.slotValid (s : State) (k : Nat) : Bool :=
  (alGet s.wl.copies (k, 0)).isSome || (alGet s.wl.copies (k, 1)).isSome

/-- What RX_DEADLINE makes of one ring position (R263, R265, R266). -/
def State.nodeDeadline (s : State) (k : Nat) : State :=
  if s.slotValid k then (s.judgeUplink k).nodeStep k true else (s.wlViolation (some k) 2).nodeStep k false

/-- A path whose frame has not returned (R266, codes 0x08 and 0x0C). -/
def State.pathDeadline (s : State) (p : Nat) : State :=
  if (alGet s.wl.returned p).isSome then s
  else
    let s := (s.wlViolation none 8).setB .WL_EVENT 3
    let n := (alGet s.wl.noReturn p).getD 0 + 1
    let s := { s with wl := { s.wl with noReturn := alSet s.wl.noReturn p n } }
    if 3 ≤ n then s.pathDown p else s

/-- RING and NODES_OK of WL_STATUS (R277). -/
def State.showRing (s : State) : State :=
  let got (p : Nat) : Bool := (alGet s.wl.returned p).isSome
  let ring := if s.wl.returned.any (fun r => r.2) then 2 else if got 0 && got 1 then 1 else if got 0 || got 1 then 3 else 0
  (s.wrF .WL_STATUS 31 30 ring).wrF .WL_STATUS 6 0 ((List.range 64).filter s.nodeOk).length

/-- The values of a ring position's field as signed integers. -/
def State.uplinkInt (s : State) (k f : Nat) : Int := sintOf 32 (((alGet s.wl.values k).getD []).getD f 0)

/-- RX_DEADLINE (R263, R265, R266, R350): the slots not received count as missing, the node states advance, and Windbreak takes
the base speed. -/
def execRxDeadline (s : State) : Host.Outcome State Fault Refusal :=
  .next <|
    if s.wl.cycle.isNone || s.wl.rxDone || !s.wlLate then s
    else
      let s := { s with wl := { s.wl with rxDone := true } }
      let s := if s.wl.quiet then s else
        ((List.range s.nodeCount).foldl State.nodeDeadline ((s.wl.sent.map (fun f => f.1)).foldl State.pathDeadline s)).showRing
      s.wbCycle (s.baseSpeed (fun k => s.uplinkInt k s.safety.velField))

end Sys2Proof.Machine
end

