-- ==== Sys2Proof/Machine/Breeze.lean ====
section
/-!
DEFINITION. Breeze (R257, R258, R267 to R275): the control cycle, setpoints, the control-law instructions, commit and flutter.
-/

namespace Sys2Proof.Machine

/-! ## Owner and refused writes (R13, R258, R271) -/

/-- The partition in BRZ_CFG.OWNER; 0xFF for none. -/
def State.brzOwner (s : State) : Nat :=
  let o := s.fld .BRZ_CFG 31 28
  if s.partExists o then o else 0xFF

/-- Breeze runs: it is enabled, and no gale trip has stopped its clock (R276, R321). -/
def State.brzRuns (s : State) : Bool := s.bit .BRZ_CFG 0 && !s.pwr.gale

/-- A refused write of Breeze or Windline: an error response and a record of class engine command. -/
def State.brzRefused (s : State) (a : Agent) (src : Nat) : State :=
  s.respErr.record { cls := 0x05, part := s.agentPart a, source := src }

/-- A write by an agent of Breeze's owner, outside its fence (R13, R275). -/
def State.brzDenied (s : State) (a : Agent) : Bool := s.agentPart a ≠ s.brzOwner || s.brzOwner = 0xFF

/-- PHASE_WRITE (R258): a write of BRZ_PHASE by Breeze's owner, or of WL_TIMING by the control partition, keeps
LATCH below RX_DEADLINE below DEADLINE. -/
def execPhaseWrite (a : Agent) (timing : Bool) (w : Word) (s : State) : Host.Outcome State Fault Refusal :=
  .next <|
    if s.accessFenced a (some (if timing then 9 else 8)) then s.respErr
    else if (if timing then s.agentPart a ≠ s.ctrl || s.ctrl = 0xFF else s.brzDenied a) then
      s.denied a (if timing then 0xD00014 else 0xC80004)
    else
      let latch := if timing then s.fld .BRZ_PHASE 31 16 else fieldOf w 31 16
      let deadline := if timing then s.fld .BRZ_PHASE 15 0 else fieldOf w 15 0
      let rx := if timing then fieldOf w 31 16 else s.fld .WL_TIMING 31 16
      if latch < rx && rx < deadline then
        if timing then s.respOk.wr .WL_TIMING w.toNat else s.respOk.wr .BRZ_PHASE w.toNat
      else s.brzRefused a (if timing then 0x2009 else 0x2008)

/-! ## Programs (R269 to R271) -/

/-- An instruction of a control-law program (R269). -/
structure BrzWord where
  op : Nat
  f : Bool
  d : Nat
  a : Nat
  b : Nat
  imm : Nat
  deriving DecidableEq, Repr

/-- The instruction at an index of program memory. -/
def State.brzWord (s : State) (i : Nat) : BrzWord :=
  let hi := s.rd .BRZ_PROG_HI i
  { op := bitsOf hi 31 26, f := bitOf hi 25, d := bitsOf hi 24 20, a := bitsOf hi 19 15, b := bitsOf hi 14 10
    imm := s.rd .BRZ_PROG_LO i }

/-- The instructions of loop `n` from START to its END: none without an END within LEN. -/
def State.brzProgram (s : State) (n : Nat) : Option (List BrzWord) :=
  let start := s.fld .BRZ_L_PROG 29 16 n
  let l := ((List.range (s.fld .BRZ_L_PROG 7 0 n)).filter (fun k => start + k < 16384)).map (fun k => s.brzWord (start + k))
  match l.findIdx? (fun w => w.op == 0) with
  | some k => some (l.take (k + 1))
  | none => none

/-- The ring position that LDIN and OUT name. -/
def BrzWord.pos (w : BrzWord) : Nat := bitsOf w.imm 13 8
/-- The field that LDIN and OUT name. -/
def BrzWord.field (w : BrzWord) : Nat := bitsOf w.imm 3 0

/-- The fields that loop `n` writes, and the ring positions that it reads. -/
def State.brzOuts (s : State) (n : Nat) : List (Nat × Nat) :=
  (((s.brzProgram n).getD []).filter (fun w => w.op == 6)).map (fun w => (w.pos, w.field))
/-- The ring positions that loop `n` reads. -/
def State.brzReads (s : State) (n : Nat) : List Nat :=
  (((s.brzProgram n).getD []).filter (fun w => w.op == 1)).map BrzWord.pos

/-- ENABLE of loop `n`. -/
def State.loopOn (s : State) (n : Nat) : Bool := s.bit .BRZ_L_CTRL 31 n

/-- An instruction that R271 refuses in a chip with `nodes` ring positions. -/
def BrzWord.bad (w : BrzWord) (nodes : Nat) : Bool :=
  0x17 < w.op || ((w.op = 0x10 || w.op = 0x11) && !w.f) ||
  (w.op = 1 && (12 < w.field || nodes ≤ w.pos)) || (w.op = 6 && (13 < w.field || nodes ≤ w.pos))

/-- The program of loop `n` may be enabled (R271). -/
def State.loopOk (s : State) (n : Nat) : Bool :=
  match s.brzProgram n with
  | none => false
  | some l => l.all (fun w => !w.bad s.nodeCount) &&
      (List.range 128).all (fun m => m = n || !s.loopOn m || (s.brzOuts m).all (fun o => !(s.brzOuts n).contains o))

/-- LOOP_ENABLE (R271, R276): a write of BRZ_Ln_CTRL by the owner; ENABLE is refused for a program that R271 rejects. -/
def execLoopEnable (a : Agent) (n : Nat) (w : Word) (s : State) : Host.Outcome State Fault Refusal :=
  .next <|
    if 128 ≤ n then s
    else if s.accessFenced a (some 8) then s.respErr
    else if s.brzDenied a then s.denied a (0xC81000 + 0x20 * n)
    else if bitOf w.toNat 31 && !s.loopOk n then s.brzRefused a 0x2008
    else
      let s := s.respOk.wr .BRZ_L_CTRL (w.toNat / 2 ^ 18 * 2 ^ 18) n
      if bitOf w.toNat 31 then s
      else { s with brz := { s.brz with runs := mapErase n s.brz.runs, due := s.brz.due.filter (fun m => m ≠ n), chol := s.brz.chol.filter (fun m => m ≠ n) } }

/-- MATRIX_COMMIT (R270, R276): the banks of a mask are published at the next cycle start. -/
def execMatrixCommit (a : Agent) (mask : Nat) (s : State) : Host.Outcome State Fault Refusal :=
  .next <|
    if s.accessFenced a (some 8) then s.respErr
    else if s.brzDenied a then s.denied a 0xC80024
    else s.respOk.wrF .BRZ_MAT_CTRL 7 0 (s.fld .BRZ_MAT_CTRL 7 0 ||| mask % 256)

/-! ## The cycle (R257, R258, R267) -/

/-- The staged matrix and vector of a bank. -/
def State.stagedBank (s : State) (k : Nat) : List Nat × List Nat :=
  ((List.range 4096).map (fun j => s.rd .BRZ_MAT k j), (List.range 64).map (fun e => s.rd .BRZ_VEC k e))

/-- The published banks of a cycle start, and the working vectors reloaded from them (R270). -/
def State.publishBanks (s : State) : State :=
  let new := (bitsSet 8 (s.fld .BRZ_MAT_CTRL 7 0)).map (fun k => (k, s.stagedBank k))
  let banks := new.foldl (fun m x => alSet m x.1 x.2) s.brz.banks
  let s := s.wrF .BRZ_MAT_CTRL 7 0 0
  { s with brz := { s.brz with banks := banks, work := banks.map (fun x => (x.1, x.2.2)) } }

/-- The loops due in cycle `c` (R267). -/
def State.dueLoops (s : State) (c : Nat) : List Nat :=
  if !s.bit .BRZ_CFG 0 then []
  else (List.range 128).filter (fun n => s.loopOn n && c % (s.fld .BRZ_L_CTRL 23 21 n + 1) = s.fld .BRZ_L_CTRL 20 18 n)

/-- The frames of a cycle leave the enabled ports (R260): none while a rung-2 recovery of the master lasts, for at most two cycles
(R275). -/
def State.sendFrames (s : State) (c : Nat) : State :=
  let slots := (List.range s.nodeCount).map (s.downlink c)
  let sent := ((List.range 2).filter s.wlPort).map (fun p => (p, s.wlFrame c p slots))
  if 0 < s.wl.mute && s.flt.recoveries.any (fun (r : Recovery) => r.domain == .engine 9) then
    { s with wl := { s.wl with mute := s.wl.mute - 1, sent := [], slots := [], quiet := true, framed := false } }
  else { s with wl := { s.wl with mute := 0, sent := sent, slots := slots, quiet := false, framed := !sent.isEmpty } }

/-- The next cycle may begin (R257, R258): CYCLE_US has passed since the start of the last one, and its DEADLINE. -/
def State.cycleDue (s : State) : Bool := s.wl.cycle.isNone || (s.wl.dlDone && s.wl.startAt + s.cycleNs ≤ s.now)

/-- A cycle of CYCLE_US in which the master is not enabled and sends no frame (R351). -/
def State.idleCycle (s : State) : State :=
  if s.now < s.wl.startAt + s.cycleNs then s else ({ s with wl := { s.wl with startAt := s.now } }).wbNoFrame

/-- CYCLE_START (R257, R258, R270, R287): the next cycle begins; the first one after ENABLE is cycle 0 and sets the origin, and every
further one starts CYCLE_US after the one before it. -/
def execCycleStart (s : State) : Host.Outcome State Fault Refusal :=
  .next <|
    if s.spl.chip.isNone || !s.cycleDue then s
    else if !s.bit .WL_CTRL 31 then s.idleCycle
    else
      let c := match s.wl.cycle with | some c => c + 1 | none => 0
      let s := if s.wl.cycle.isNone then
          ({ s with time := { s.time with origin := s.now } }).wr64 .TIME_WL_ORIGIN_LO s.now
        else s
      let s := s.wr64 .WL_CYCLE_LO c
      let s := { s with wl := { s.wl with cycle := some c, startAt := s.time.origin + c * s.cycleNs, returned := [], copies := [], rxDone := false, dlDone := false } }
      let s := (s.sendFrames c).publishBanks
      { s with brz := { s.brz with due := s.dueLoops c, runs := [], chol := [], latched := false, down := false } }

/-! ## Setpoints (R268) -/

/-- The setpoint block's address. -/
def State.spBase (s : State) : Nat := s.rd64 .BRZ_SP_BASE_LO % 2 ^ 48

/-- The setpoint block lies aligned in commons quads of the owner (R268). -/
def State.spOk (s : State) : Bool :=
  s.spBase % 512 = 0 && (blocksOf 0x100000 s.spBase 5632).all (fun b =>
    match regionOf (max s.spBase (b * 0x100000)) with
    | .commons q => s.quadOwner q == some s.brzOwner
    | _ => false)

/-- A cycle without a new block (R268): after STALE_CYCLES of them SP_STALE is set in every enabled loop. -/
def State.spMissed (s : State) : State :=
  let n := s.brz.noBlock + 1
  let s := { s with brz := { s.brz with noBlock := n } }
  if max 1 (s.fld .BRZ_SP_CTRL 7 0) ≤ n then
    (((List.range 128).filter s.loopOn).foldl (fun s k => s.setB .BRZ_L_FLAGS 7 k) s).setB .BRZ_EVENT 2
  else s

/-- The setpoints of a buffer's 2,560 bytes, four for each loop. -/
def bufferSetpoints (d : List Byte) : List (Nat × List Nat) :=
  (List.range 128).map (fun n => (n, (List.range 4).map (fun j => leAt d (64 + 16 * n + 4 * j) 4)))

/-- LATCH (R258, R268, R330): the newest published block is latched, if its checks match.  A block that cannot be read is latched no
more than one whose check fails. -/
def execLatch (s : State) : Host.Outcome State Fault Refusal :=
  .next <|
    if s.wl.cycle.isNone || s.brz.latched || s.wl.rxDone || !s.wlPast (s.fld .BRZ_PHASE 31 16) || !s.brzRuns ||
        !s.bit .BRZ_SP_CTRL 31 then s
    else
      let s := { s with brz := { s.brz with latched := true } }
      let me : Agent := .engine 8 s.brzOwner
      match s.fetch me s.spBase 4 with
      | (none, s) => s.spMissed
      | (some d, s) =>
        let pub := leAt d 0 4
        let buf := s.spBase + 512 + pub % 2 * 2560
        if pub = s.brz.published then s.spMissed
        else match s.fetch me buf 2560 with
        | (none, s) => s.spMissed
        | (some d, s) =>
          if !s.checksOk buf 2560 then ((s.checkFailed me buf).setB .BRZ_EVENT 3).spMissed
          else
            let s := s.wr .BRZ_SP_SEQ (leAt d 0 4)
            { s with brz := { s.brz with setpoints := bufferSetpoints d, published := pub, noBlock := 0 } }

/-! ## Runs (R269 to R272) -/

/-- The run of loop `n`. -/
def State.brzRun (s : State) (n : Nat) : Option BrzRun := alGet s.brz.runs n

/-- That set. -/
def State.setBrzRun (s : State) (n : Nat) (r : BrzRun) : State :=
  { s with brz := { s.brz with runs := alSet s.brz.runs n r } }

/-- LANE of loop `n`. -/
def State.laneOf (s : State) (n : Nat) : Nat := s.fld .BRZ_L_CTRL 27 24 n

/-- Loop `n` may start now (R267): it is due, every loop before it on its lane has ended, and every node it reads has a valid slot or
RX_DEADLINE has passed. -/
def State.mayStart (s : State) (n : Nat) : Bool :=
  s.brzRuns && s.brz.due.contains n && (s.brzRun n).isNone && !s.brz.down && !s.wl.dlDone &&
  (s.brz.due.filter (fun m => m < n && s.laneOf m = s.laneOf n)).all (fun m =>
    match s.brzRun m with | some r => r.done | none => false) &&
  (s.wl.rxDone || (s.brzReads n).all s.slotValid)

/-- LOOP_RUN_START (R267, R269): v0 to v31 start at 0; the run has LEN instructions, and the gain set in force now (R275). -/
def execLoopRunStart (n : Nat) (s : State) : Host.Outcome State Fault Refusal :=
  .next <|
    if s.mayStart n then
      let start := s.fld .BRZ_L_PROG 29 16 n
      s.setBrzRun n
        { pc := start, state := (List.range 16).map (fun k => s.rd .BRZ_L_S n k)
          stop := min 16384 (start + s.fld .BRZ_L_PROG 7 0 n), gainSet := s.fld .BRZ_L_CTRL 30 30 n }
    else s

/-- The run of loop `n` and its next instruction, if that is of operation `op`: no run goes past its LEN instructions (R269). -/
def State.brzNext (s : State) (n op : Nat) : Option (BrzRun × BrzWord) :=
  match s.brzRun n with
  | some r => if r.done || r.solve.isSome || r.stop ≤ r.pc || !s.brzRuns || s.wl.dlDone || (s.brzWord r.pc).op ≠ op then none else some (r, s.brzWord r.pc)
  | none => none

/-- The run moves on to its next instruction. -/
def BrzRun.step (r : BrzRun) : BrzRun := { r with pc := r.pc + 1 }
/-- A register set to 32 bits. -/
def BrzRun.setV (r : BrzRun) (d x : Nat) : BrzRun := { r with v := listUpdate r.v d (fun _ => x % 2 ^ 32) }
/-- A register read. -/
def BrzRun.getV (r : BrzRun) (k : Nat) : Nat := r.v.getD k 0
/-- Flags ORed in. -/
def BrzRun.flag (r : BrzRun) (f : Nat) : BrzRun := { r with flags := r.flags ||| f }

/-- An instruction of loop `n` that only changes its run. -/
def State.brzDo (s : State) (n op : Nat) (f : BrzRun → BrzWord → BrzRun) : State :=
  match s.brzNext n op with
  | some (r, w) => s.setBrzRun n (f r.step w)
  | none => s

/-- The bits of an FP32 result; a NaN is the canonical one. -/
def fpBits (x : Fp) : Nat := x.bits32

/-- NANIN for a NaN operand. -/
def nanIn (l : List Fp) : Nat := if l.any Fp.isNan then flagNanIn else 0

/-- A Q31 result saturated, as its bits with SAT. -/
def q31 (x : Int) : Nat × Nat := let r := satInt 32 x; (uintOf 32 r.1, r.2)

/-- The smaller of two FP32 values; zeros of both signs are told apart by neither operand. -/
def fpMin2 (op x y : Nat) : Nat :=
  let a := of32 x
  let b := of32 y
  if b.lt a then y else if a.lt b then x else if x = y then x else if Config.equalZeros op % 2 = 0 then x else y

/-- The larger of two FP32 values. -/
def fpMax2 (op x y : Nat) : Nat :=
  let a := of32 x
  let b := of32 y
  if a.lt b then y else if b.lt a then x else if x = y then x else if Config.equalZeros op % 2 = 0 then x else y

/-- An instruction with two operands (R270, R272): FP32 or Q31 by F. -/
def brzBin (fp : Fp → Fp → Fp × Nat) (q : Int → Int → Nat × Nat) (r : BrzRun) (w : BrzWord) : BrzRun :=
  let x := r.getV w.a
  let y := r.getV w.b
  if w.f then
    let z := fp (of32 x) (of32 y)
    (r.setV w.d (fpBits z.1)).flag (z.2 ||| nanIn [of32 x, of32 y])
  else
    let z := q (sintOf 32 x) (sintOf 32 y)
    (r.setV w.d z.1).flag z.2

/-- A comparison instruction (R270) on bits: FP32 or Q31 by F; a NaN operand gives the canonical NaN. -/
def brzPick (fp : Nat → Nat → Nat) (q : Int → Int → Int) (x y : Nat) (f : Bool) : Nat × Nat :=
  if f then
    if (of32 x).isNan || (of32 y).isNan then (fpBits .nan, flagNanIn) else (fp x y, 0)
  else (uintOf 32 (q (sintOf 32 x) (sintOf 32 y)), 0)

/-- END (R270): the run has reached END. -/
def execEndRun (n : Nat) (s : State) : Host.Outcome State Fault Refusal :=
  .next (s.brzDo n 0 (fun r _ => { r with done := true }))

/-- LDIN (R270, R272): an uplink field; of a missing slot the held value, with STALE. -/
def execLdin (n : Nat) (s : State) : Host.Outcome State Fault Refusal :=
  .next (s.brzDo n 1 (fun r w =>
    (r.setV w.d (((alGet s.wl.values w.pos).getD []).getD w.field 0)).flag (if s.slotValid w.pos then 0 else 0x40)))

/-- LDSP (R270): a latched setpoint of this loop. -/
def execLdsp (n : Nat) (s : State) : Host.Outcome State Fault Refusal :=
  .next (s.brzDo n 2 (fun r w => r.setV w.d (((alGet s.brz.setpoints n).getD []).getD (bitsOf w.imm 1 0) 0)))

/-- LDK (R270): a gain of the active gain set; a run reads each gain word once (R275). -/
def execLdk (n : Nat) (s : State) : Host.Outcome State Fault Refusal :=
  .next (s.brzDo n 3 (fun r w =>
    let j := bitsOf w.imm 3 0
    let x := (alGet r.gains j).getD (s.rd .BRZ_L_K n (16 * r.gainSet + j))
    { r.setV w.d x with gains := alSet r.gains j x }))

/-- LDS (R270): a state word. -/
def execLds (n : Nat) (s : State) : Host.Outcome State Fault Refusal :=
  .next (s.brzDo n 4 (fun r w => r.setV w.d (r.state.getD (bitsOf w.imm 3 0) 0)))

/-- STS (R270, R273): a state word of the run, committed at DEADLINE. -/
def execSts (n : Nat) (s : State) : Host.Outcome State Fault Refusal :=
  .next (s.brzDo n 5 (fun r w => { r with state := listUpdate r.state (bitsOf w.imm 3 0) (fun _ => r.getV w.a) }))

/-- OUT (R270, R273): a downlink field, committed at DEADLINE. -/
def execOutOp (n : Nat) (s : State) : Host.Outcome State Fault Refusal :=
  .next (s.brzDo n 6 (fun r w => { r with outs := alSet r.outs (w.pos, w.field) (r.getV w.a) }))

/-- ADD (R270, R272). -/
def execAddOp (n : Nat) (s : State) : Host.Outcome State Fault Refusal :=
  .next (s.brzDo n 7 (brzBin Fp.add (fun x y => q31 (x + y))))

/-- SUB (R270, R272). -/
def execSubOp (n : Nat) (s : State) : Host.Outcome State Fault Refusal :=
  .next (s.brzDo n 8 (brzBin Fp.sub (fun x y => q31 (x - y))))

/-- MUL (R270, R272): the exact product shifted right by 31, rounded to nearest even, saturated. -/
def execMulOp (n : Nat) (s : State) : Host.Outcome State Fault Refusal :=
  .next (s.brzDo n 9 (brzBin Fp.mul (fun x y => q31 (shiftEvenInt (x * y) 31))))

/-- The sum D + A x B in FP32: rounded once, or after the product too (R272 does not say). -/
def fpMac (d a b : Fp) : Fp × Nat :=
  if Config.macRounding = 0 then
    let p := a.mulExact b
    let t := d.addExact p.1
    round32F (t.1, p.2 ||| t.2)
  else
    let p := a.mul b
    let t := d.add p.1
    (t.1, p.2 ||| t.2)

/-- MAC (R270, R272): D + A x B, in Q31 formed exactly, rounded and saturated once. -/
def execMac (n : Nat) (s : State) : Host.Outcome State Fault Refusal :=
  .next (s.brzDo n 0xA (fun r w =>
    let d := r.getV w.d
    let r' := brzBin (fun a b => fpMac (of32 d) a b) (fun x y => q31 (shiftEvenInt (sintOf 32 d * 2 ^ 31 + x * y) 31)) r w
    r'.flag (if w.f then nanIn [of32 d] else 0)))

/-- CLAMP (R270): min(max(vA, vB), vB+1). -/
def execClamp (n : Nat) (s : State) : Host.Outcome State Fault Refusal :=
  .next (s.brzDo n 0xB (fun r w =>
    let lo := brzPick (fpMax2 0xB) max (r.getV w.a) (r.getV w.b) w.f
    let z := brzPick (fpMin2 0xB) min lo.1 (r.getV ((w.b + 1) % 32)) w.f
    (r.setV w.d z.1).flag (lo.2 ||| z.2)))

/-- MIN (R270). -/
def execMinOp (n : Nat) (s : State) : Host.Outcome State Fault Refusal :=
  .next (s.brzDo n 0xC (fun r w =>
    let z := brzPick (fpMin2 0xC) min (r.getV w.a) (r.getV w.b) w.f
    (r.setV w.d z.1).flag z.2))

/-- MAX (R270). -/
def execMaxOp (n : Nat) (s : State) : Host.Outcome State Fault Refusal :=
  .next (s.brzDo n 0xD (fun r w =>
    let z := brzPick (fpMax2 0xD) max (r.getV w.a) (r.getV w.b) w.f
    (r.setV w.d z.1).flag z.2))

/-- NEG (R270, R272). -/
def execNegOp (n : Nat) (s : State) : Host.Outcome State Fault Refusal :=
  .next (s.brzDo n 0xE (fun r w =>
    let x := r.getV w.a
    if w.f then (r.setV w.d (fpBits (of32 x).neg)).flag (nanIn [of32 x])
    else let z := q31 (-(sintOf 32 x)); (r.setV w.d z.1).flag z.2))

/-- ABS (R270, R272). -/
def execAbsOp (n : Nat) (s : State) : Host.Outcome State Fault Refusal :=
  .next (s.brzDo n 0xF (fun r w =>
    let x := r.getV w.a
    if w.f then (r.setV w.d (fpBits (of32 x).abs)).flag (nanIn [of32 x])
    else let z := q31 ((sintOf 32 x).natAbs); (r.setV w.d z.1).flag z.2))

/-- DIV (R270): FP32 only. -/
def execDivOp (n : Nat) (s : State) : Host.Outcome State Fault Refusal :=
  .next (s.brzDo n 0x10 (fun r w =>
    let z := (of32 (r.getV w.a)).div (of32 (r.getV w.b))
    (r.setV w.d (fpBits z.1)).flag (z.2 ||| nanIn [of32 (r.getV w.a), of32 (r.getV w.b)])))

/-- SQRT (R270): FP32 only. -/
def execSqrtOp (n : Nat) (s : State) : Host.Outcome State Fault Refusal :=
  .next (s.brzDo n 0x11 (fun r w =>
    let z := (of32 (r.getV w.a)).sqrt
    (r.setV w.d (fpBits z.1)).flag (z.2 ||| nanIn [of32 (r.getV w.a)])))

/-- CURVE (R58, R270): curve slot IMM[4:0]; Q31 operands and results are converted. -/
def execCurve (n : Nat) (s : State) : Host.Outcome State Fault Refusal :=
  .next (s.brzDo n 0x12 (fun r w =>
    let x := r.getV w.a
    if w.f then
      let z := s.curve (bitsOf w.imm 4 0) (of32 x)
      (r.setV w.d (fpBits z.1)).flag z.2
    else
      let z := s.curve (bitsOf w.imm 4 0) (intTo32 (sintOf 32 x) (-31)).1
      let q := convInt 0xA z.1
      (r.setV w.d q.1).flag (z.2 ||| q.2)))

/-- CVT (R50, R270): Q31 to FP32 with F, FP32 to Q31 without. -/
def execCvt (n : Nat) (s : State) : Host.Outcome State Fault Refusal :=
  .next (s.brzDo n 0x13 (fun r w =>
    let x := r.getV w.a
    if w.f then let z := intTo32 (sintOf 32 x) (-31); (r.setV w.d (fpBits z.1)).flag z.2
    else let q := convInt 0xA (of32 x); (r.setV w.d q.1).flag (q.2 ||| nanIn [of32 x])))

/-- ERR (R270, R274): vA is this run's flutter sample, in format F. -/
def execErr (n : Nat) (s : State) : Host.Outcome State Fault Refusal :=
  .next (s.brzDo n 0x14 (fun r w => { r with err := some (r.getV w.a, w.f) }))

/-- A working vector (R270). -/
def State.workVec (s : State) (k : Nat) : List Nat := (alGet s.brz.work k).getD (List.replicate 64 0)

/-- LDV (R270): an element of a working vector. -/
def execLdv (n : Nat) (s : State) : Host.Outcome State Fault Refusal :=
  .next (s.brzDo n 0x15 (fun r w => r.setV w.d ((s.workVec (bitsOf w.imm 10 8)).getD (bitsOf w.imm 5 0) 0)))

/-- A working vector replaced. -/
def State.setWork (s : State) (k : Nat) (l : List Nat) : State := { s with brz := { s.brz with work := alSet s.brz.work k l } }

/-- STV (R270): an element of a working vector is written. -/
def execStv (n : Nat) (s : State) : Host.Outcome State Fault Refusal :=
  .next <|
    match s.brzNext n 0x16 with
    | some (r, w) =>
      let k := bitsOf w.imm 10 8
      (s.setWork k (listUpdate (s.workVec k) (bitsOf w.imm 5 0) (fun _ => r.getV w.a))).setBrzRun n r.step
    | none => s

/-- CHOL (R270): a solve starts, or waits while another lane uses the unit. -/
def execChol (n : Nat) (s : State) : Host.Outcome State Fault Refusal :=
  .next <|
    match s.brzNext n 0x17 with
    | some (r, w) =>
      let s := s.setBrzRun n { r.step with solve := some (bitsOf w.imm 2 0) }
      { s with brz := { s.brz with chol := s.brz.chol ++ [n] } }
    | none => s

/-- CHOL_DONE (R270): the solution replaces the working vector, the run goes on, and the next solve has the unit. -/
def execCholDone (s : State) : Host.Outcome State Fault Refusal :=
  .next <|
    match s.brz.chol with
    | [] => s
    | n :: rest =>
      let s := { s with brz := { s.brz with chol := rest } }
      match s.brzRun n with
      | none => s
      | some r =>
        match r.solve with
        | none => s
        | some k =>
          let (x, bad) := cholSolve ((alGet s.brz.banks k).getD ([], [])).1 (s.workVec k)
          (s.setWork k x).setBrzRun n (({ r with solve := none }).flag (if bad then flagInv else 0))

/-! ## DEADLINE (R273, R274) -/

/-- The sign changes between consecutive samples. -/
def signChanges : List FlutterSample → Nat
  | x :: y :: l => (if x.neg = y.neg then 0 else 1) + signChanges (y :: l)
  | _ => 0

/-- The sign of a sample: 0 for a zero or a NaN. -/
def sampleSign (x : Nat × Bool) : Int :=
  if x.2 then (match of32 x.1 with | .nan => 0 | .inf n => if n then -1 else 1 | .fin n m _ => if m = 0 then 0 else if n then -1 else 1)
  else sintOf 32 x.1

/-- The amplitude of the samples reaches FLAMP, in the format of the newest one (R274): largest - smallest, formed
exactly. -/
def amplitudeReached (l : List FlutterSample) (fp : Bool) (flamp : Nat) : Bool :=
  if fp then
    let v := (l.map (fun x => of32 x.bits)).filter (fun x => !x.isNan)
    match v with
    | [] => false
    | x :: r =>
      let hi := r.foldl (fun a b => if a.lt b then b else a) x
      let lo := r.foldl (fun a b => if b.lt a then b else a) x
      let d := (hi.addExact lo.neg).1
      !d.isNan && !(of32 flamp).isNan && !d.lt (of32 flamp)
  else
    match l.map (fun x => sintOf 32 x.bits) with
    | [] => false
    | x :: r => sintOf 32 flamp ≤ r.foldl max x - r.foldl min x

/-- The window of loop `n` replaced. -/
def State.setWindow (s : State) (n : Nat) (l : List FlutterSample) : State :=
  { s with brz := { s.brz with windows := alSet s.brz.windows n l } }

/-- The window of loop `n` with a committed sample (R274): its last 64 samples; a sample of zero takes the sign of the one before
it. -/
def State.flutterWindow (s : State) (n : Nat) (x : Nat × Bool) : List FlutterSample :=
  let sign := sampleSign x
  let neg : Bool := if sign = 0 then (alGet s.brz.signs n).getD false else decide (sign < 0)
  let l := ((alGet s.brz.windows n).getD []) ++ [{ bits := x.1, fp := x.2, neg := neg }]
  l.drop (l.length - 64)

/-- FL_ACT of loop `n` (R274). -/
def State.flutterAct (s : State) (n : Nat) : State :=
  match s.fld .BRZ_L_CTRL 29 28 n with
  | 1 => s.setB .BRZ_L_CTRL 30 n
  | 2 => s.safeStop .flutter
  | _ => s

/-- The flutter detector of loop `n` takes a committed sample (R274); FLUTTER_FIRE. -/
def State.flutter (s : State) (n : Nat) (x : Nat × Bool) : State :=
  let l := s.flutterWindow n x
  let s := { s with brz := { s.brz with signs := alSet s.brz.signs n (l.getLast?.any FlutterSample.neg) } }
  if s.bit .BRZ_L_FLUTTER 23 n && s.fld .BRZ_L_FLUTTER 31 24 n ≤ signChanges l && amplitudeReached l x.2 (s.rd .BRZ_L_FLAMP n) then
    ((((s.setWindow n []).setB .BRZ_L_FLAGS 8 n).bump .BRZ_L_FIRES n).setB .BRZ_EVENT 1).flutterAct n
  else s.setWindow n l

/-- A run that reached END commits (R273): its OUT fields, its state words, its flutter sample, its flags. -/
def State.commitRun (s : State) (n c : Nat) (r : BrzRun) : State :=
  let s := { s with wl := { s.wl with
    outs := r.outs.foldr (fun (o : (Nat × Nat) × Nat) m => alSet m o.1 o.2) s.wl.outs
    held := s.wl.held.filter (fun h => !r.outs.any (fun o => o.1 == h)) } }
  let s := r.state.zipIdx.foldl (fun s x => s.wr .BRZ_L_S x.1 n x.2) s
  let s := (s.wr .BRZ_L_FLAGS (s.rd .BRZ_L_FLAGS n ||| r.flags) n).wr .BRZ_L_LAST c n
  let s := match r.err with | some x => s.flutter n x | none => s
  s.wbLoopMiss n false

/-- A run still going at DEADLINE is abandoned (R273): its fields repeat their last values with HELD. -/
def State.abandonRun (s : State) (n : Nat) : State :=
  let outs := s.brzOuts n
  let s := { s with wl := { s.wl with held := outs ++ s.wl.held.filter (fun h => !outs.contains h) } }
  let s := (((s.setB .BRZ_L_FLAGS 5 n).bump .BRZ_L_MISSES n).bump .BRZ_MISSES).setB .BRZ_EVENT 0
  let s := s.recordRated { cls := 0x05, code := 0x2008, unit := n }
    { cls := 0x05, part := s.brzOwner, source := 0x2008, context := n }
  s.wbLoopMiss n true

/-- DEADLINE (R273): the due runs commit or are abandoned, and Windbreak takes the HEARTBEAT of the cycle. -/
def execDeadline (s : State) : Host.Outcome State Fault Refusal :=
  .next <|
    match s.wl.cycle with
    | none => s
    | some c =>
      if s.wl.dlDone || !s.wl.rxDone || !s.wlPast (s.fld .BRZ_PHASE 15 0) then s
      else
        let due := if s.brzRuns then s.brz.due.filter s.loopOn else []
        let ended (n : Nat) : Option BrzRun := match s.brzRun n with | some r => if r.done && !s.brz.down then some r else none | none => none
        let frame : Bool := s.wl.framed
        let commit : Bool := due.any (fun n => (ended n).isSome)
        let s := due.foldl (fun s n => match ended n with | some r => s.commitRun n c r | none => if s.brz.down then s else s.abandonRun n) s
        let s := { s with
          brz := { s.brz with due := [], runs := [], chol := [] }
          wl := { s.wl with dlDone := true } }
        s.wbHeartbeat (!due.isEmpty) commit frame

/-! ## Resets (R275) -/

/-- Rung 2 of Breeze: the runs are given up and the last committed downlink goes out with HELD; the loops resume at the next
cycle start. -/
def State.brzRung2 (s : State) : State :=
  { s with
    brz := { s.brz with runs := [], chol := [], down := true }
    wl := { s.wl with held := s.wl.outs.map (fun o => o.1) } }

/-- Rung 2 of the Windline master: no frames for 2 cycles. -/
def State.wlRung2 (s : State) : State := { s with wl := { s.wl with mute := 2, sent := [], quiet := true } }

/-- A fence or rung 3 of Breeze's owner: setpoint latching ends. -/
def State.brzFence (s : State) : State := s.clrB .BRZ_SP_CTRL 31

end Sys2Proof.Machine
end

