-- ==== Sys2Proof/Machine/Geometry.lean ====
section
/-!
DEFINITION. Plane and space geometry of Crosswind and Veer: sines and cosines to far more bits than any result keeps, poses, the
motion between two of them, mounted sensors.  The manual gives these results as real quantities and no arithmetic for them; the model
takes the exact quantity and rounds it once, as R51 says, or leaves it free within what FP32 arithmetic can give.
-/

namespace Sys2Proof.Machine

/-! ## Angles -/

/-- Pi in units of 2^-512. -/
def piFixed : Int :=
  0x3243f6a8885a308d313198a2e03707344a4093822299f31d0082efa98ec4e6c89452821e638d01377be5466cf34e90c6cc0ac29b7c97c50dd3f84d5b5b5470917

/-- One in units of 2^-512. -/
def oneFixed : Int := 2 ^ bigBits

/-- An angle brought to between -pi and pi. -/
def foldAngle (v : Int) : Int := v - (v + piFixed) / (2 * piFixed) * (2 * piFixed)

/-- The sine of an angle in units of 2^-512. -/
def sinFixed (v : Int) : Int :=
  let r := foldAngle v
  series (fun n t => -(fixMul (fixMul t r) r) / ((2 * n + 2) * (2 * n + 3) : Nat)) 80 0 r

/-- The cosine of an angle in units of 2^-512. -/
def cosFixed (v : Int) : Int :=
  let r := foldAngle v
  series (fun n t => -(fixMul (fixMul t r) r) / ((2 * n + 1) * (2 * n + 2) : Nat)) 80 0 oneFixed

/-- An angle given in units of 2 pi / 65,536. -/
def turnFixed (u : Int) : Int := u * (2 * piFixed) / 65536

/-! ## Values in FP32 -/

/-- An FP32 value in units of 2^-512; none for an infinity or NaN. -/
def fixedOf32 (b : Nat) : Option Int :=
  match of32 (b % 2 ^ 32) with
  | .fin n m e => some (Big.fixed (if n then -(m : Int) else m, e))
  | _ => none

/-- A value in units of 2^-512 rounded to FP32. -/
def fixedTo32 (x : Int) : Nat := ((Fp.fin (decide (x < 0)) x.natAbs (-(bigBits : Int))).to32).1.bits32

/-- What FP32 arithmetic gives for an exact value: the implementation's own result `c` where it lies within `tol` of it, so that it is
whatever such arithmetic can give and nothing else. -/
def fixedNear (x tol : Int) (c : Nat) : Nat :=
  match fixedOf32 c with
  | some y => if (y - x).natAbs ≤ tol.natAbs then c % 2 ^ 32 else fixedTo32 x
  | none => fixedTo32 x

/-- `k` roundings of FP32 on values up to a magnitude. -/
def roundings (k : Nat) (x : Int) : Int := (k * x.natAbs : Nat) / (2 ^ 24 : Nat) + 2 ^ (bigBits - 149)

/-- An FP16 value in units of 2^-512; none for an infinity or NaN. -/
def fixedOf16 (b : Nat) : Option Int :=
  match (fpFmt 2).decode (b % 65536) with
  | .fin n m e => some (Big.fixed (if n then -(m : Int) else m, e))
  | _ => none

/-- The length of a vector in units of 2^-512. -/
def lengthFixed (x y : Int) : Int := (isqrt ((x * x + y * y).natAbs) : Nat)

/-! ## Poses (R228) -/

/-- A motion in the plane: cosine and sine of the turn, then the shift, in units of 2^-512. -/
structure Motion where
  c : Int
  s : Int
  tx : Int
  ty : Int
  deriving DecidableEq, Repr

/-- A point moved. -/
def Motion.move (m : Motion) (x y : Int) : Int × Int :=
  (fixMul m.c x - fixMul m.s y + m.tx, fixMul m.s x + fixMul m.c y + m.ty)

/-- The three values of a pose (x, y, yaw as FP32 words); none where one is no number. -/
def poseFixed (p : List Nat) : Option (Int × Int × Int) :=
  match fixedOf32 (p.getD 0 0), fixedOf32 (p.getD 1 0), fixedOf32 (p.getD 2 0) with
  | some x, some y, some w => some (x, y, w)
  | _, _, _ => none

/-- The motion that takes a point of the robot's frame at pose `a` to its frame at pose `b`, in units of 1 / `k` m. -/
def motionBetween (k : Int) (a b : List Nat) : Option Motion :=
  match poseFixed a, poseFixed b with
  | some p, some q =>
    let dx := k * (p.1 - q.1)
    let dy := k * (p.2.1 - q.2.1)
    let c := cosFixed q.2.2
    let s := sinFixed q.2.2
    some { c := cosFixed (p.2.2 - q.2.2), s := sinFixed (p.2.2 - q.2.2), tx := fixMul c dx + fixMul s dy, ty := fixMul c dy - fixMul s dx }
  | _, _ => none

/-- The pose between two entries of the pose ring (R228): each value interpolated linearly in time, rounded once; a value that is no
number stays free. -/
def poseBetween (a b : List Nat) (ta tb : Nat) (t : Int) : List Nat :=
  (List.range 3).map (fun i =>
    match fixedOf32 (a.getD i 0), fixedOf32 (b.getD i 0) with
    | some x, some y => fixedTo32 (quotEven (x * ((tb : Int) - t) + y * (t - ta)) ((tb : Int) - ta))
    | _, _ => Config.poseBetween a b ta tb t i)

/-! ## Cells of the grid (R228 to R230) -/

/-- Half the side of a cell of an n x n grid, in cm: 5 of a 10 cm cell, 10 of a 20 cm cell. -/
def halfCell (n : Nat) : Int := if n = 128 then 10 else 5

/-- The coordinate of row or column `i` of an n x n grid in cm, in units of 2^-512. -/
def cellAt (n i : Nat) : Int := (2 * (i : Int) - (n - 1 : Nat)) * halfCell n * oneFixed

/-- The row or column nearest to a coordinate; none outside the grid. -/
def cellNear (n : Nat) (x : Int) : Option Nat :=
  let k := quotEven (x + ((n - 1 : Nat) : Int) * halfCell n * oneFixed) (2 * halfCell n * oneFixed)
  if 0 ≤ k && k < n then some k.toNat else none

/-- The cell nearest to where a motion takes the centre of a cell. -/
def Motion.cell (m : Motion) (n c : Nat) : Option Nat :=
  let q := m.move (cellAt n (c % n)) (cellAt n (c / n))
  match cellNear n q.2, cellNear n q.1 with
  | some i, some j => some (i * n + j)
  | _, _ => none

/-! ## Mounted sensors (R213, R231, R239) -/

/-- A point turned by an angle in the plane of its first two coordinates. -/
def turned (u : Int) (p : Int × Int) : Int × Int :=
  let c := cosFixed (turnFixed u)
  let s := sinFixed (turnFixed u)
  (fixMul c p.1 - fixMul s p.2, fixMul s p.1 + fixMul c p.2)

/-- A range in mm in a direction (azimuth, then elevation, as the two int16 of a word) as a point of the sensor's frame. -/
def rangePoint (r dir : Nat) : Int × Int × Int :=
  let az := sintOf 16 (dir % 65536)
  let el := turned (sintOf 16 (dir / 65536 % 65536)) ((r : Int) * oneFixed, 0)
  let q := turned az (el.1, 0)
  (q.1, q.2, el.2)

/-- A point of a sensor's frame in the robot's frame, by its mounting words: roll about x, then pitch about y, then yaw about z, then the
shift.  PRESUMED (log entry 101): R239 names the angles and not their order or the sense of pitch. -/
def mounted (w : List Nat) (p : Int × Int × Int) : Int × Int × Int :=
  let half (k hi : Nat) : Int := sintOf 16 (bitsOf (w.getD k 0) (hi + 15) hi)
  let a := turned (half 2 0) (p.2.1, p.2.2)
  let b := turned (half 2 16) (a.2, p.1)
  let c := turned (half 1 16) (b.2, a.1)
  (c.1 + half 0 0 * oneFixed, c.2 + half 0 16 * oneFixed, b.1 + half 1 0 * oneFixed)

/-- The sector of a direction in the plane (R213): sector 0 starts at the heading, each takes 22.5 degrees counter-clockwise. -/
def inSector (j : Nat) (x y : Int) : Bool :=
  let side (k : Nat) : Int := cosFixed (turnFixed (4096 * k)) * y - sinFixed (turnFixed (4096 * k)) * x
  0 ≤ side j && side (j + 1) < 0

/-- A horizontal distance in whole cm, of a point in mm in units of 2^-512, rounded once (R51). -/
def distanceCm (x y : Int) : Nat := (quotEven (lengthFixed x y) (10 * oneFixed)).toNat

/-- The vector from a point to the nearest point of a segment, by the vector to its start and the vector along it. -/
def toSegment (x y vx vy : Int) : Int × Int :=
  let len := vx * vx + vy * vy
  let along := -(x * vx + y * vy)
  if len = 0 || along ≤ 0 then (x, y)
  else if len ≤ along then (x + vx, y + vy)
  else (x + vx * along / len, y + vy * along / len)

/-- A cost that falls linearly from `top` at the inner radius to 0 over a width (R240), rounded once. -/
def falling (top : Nat) (d inner width : Int) : Nat :=
  if width ≤ 0 || inner + width ≤ d then 0 else (quotEven (top * (inner + width - d)) width).toNat

end Sys2Proof.Machine
end

