-- ==== Sys2Proof/Machine/TimeUnit.lean ====
section
/-!
DEFINITION. The time unit (R278 to R290): robot time, the four domain time bases and the PTP messages.
-/

namespace Sys2Proof.Machine

/-- The slew of an adjustment, 1,000 ppm in units of 2^-40 (R279, R280). -/
def slewRate : Int := 1099511628

/-- Base STATE codes (R290). -/
def tbOff : Nat := 0
/-- LISTENING. -/
def tbListening : Nat := 1
/-- LOCKING. -/
def tbLocking : Nat := 2
/-- LOCKED. -/
def tbLocked : Nat := 3
/-- HOLDOVER. -/
def tbHoldover : Nat := 4
/-- FREERUN. -/
def tbFreerun : Nat := 5
/-- MASTER. -/
def tbMaster : Nat := 6

/-- Base `k` (1 to 4): what no register shows. -/
def State.tbase (s : State) (k : Nat) : TimeBase := s.time.bases.getD (k - 1) {}

/-- That changed. -/
def State.setBase (s : State) (k : Nat) (f : TimeBase → TimeBase) : State :=
  { s with time := { s.time with bases := listUpdate s.time.bases (k - 1) f } }

/-- STATE of base `k`. -/
def State.baseState (s : State) (k : Nat) : Nat := s.fld .TIME_B_STATUS 31 28 k

/-- Domain time of base `k` at a raw instant (R283): 0 while OFF. -/
def State.baseAt (s : State) (k r : Nat) : Int :=
  if s.baseState k = tbOff then 0 else (paramsAt (s.tbase k).params r).1.at r

/-- The conversion of a stamp to domain time (R288): one that precedes the oldest kept parameters counts in TIME_OLD_CONV. -/
def State.stampConverted (s : State) (k r : Nat) : State :=
  if s.baseState k ≠ tbOff && (paramsAt (s.tbase k).params r).2 then s.bump .TIME_OLD_CONV else s

/-- Domain time of base `k` now, as a 64-bit count. -/
def State.baseNow (s : State) (k : Nat) : Nat := uintOf 64 (s.baseAt k s.now)

/-- The robot rate in force, the slew of a pending adjustment included (R279). -/
def State.rateEff (s : State) : Int :=
  s.time.robotRate + (if 0 < s.time.adj then slewRate else if s.time.adj < 0 then -slewRate else 0)

/-- A change of the robot rate or of the adjustment takes force at raw instant `r`, in robot time and in every MASTER base, which
runs at the robot rate (R279, R283). -/
def State.applyRateAt (s : State) (r : Nat) : State :=
  let s := { s with time := { s.time with robot := rerate s.time.robot r s.rateEff } }
  (List.range 4).foldl (fun s i =>
    if s.baseState (i + 1) = tbMaster then
      (s.setBase (i + 1) (fun b => { b with params := rerate b.params r s.rateEff })).wr .TIME_B_RATE
        (uintOf 32 s.time.robotRate) (i + 1)
    else s) s

/-- That now. -/
def State.applyRate (s : State) : State := s.applyRateAt s.now

/-- The raw instant at which the pending adjustment is consumed (R280), or the last change of the rate if that is later. -/
def State.slewEnd (s : State) : Nat :=
  max (s.time.adjAt + 1000 * s.time.adj.natAbs) (((s.time.robot.head?).getD {}).since)

/-- The part of the adjustment that is still to be slewed out (R280, R290): 1 ns in 1,000 ns of raw time. -/
def State.adjLeft (s : State) : Int :=
  let used : Int := (s.now - s.time.adjAt) / 1000
  if 0 < s.time.adj then max 0 (s.time.adj - used) else min 0 (s.time.adj + used)

/-- A refused write of the time unit: an error response and a record of class engine command (R280). -/
def State.timeRefused (s : State) (a : Agent) : State :=
  s.respErr.record { cls := 0x05, part := s.agentPart a, source := 0x200A }

/-- ROBOT_SOURCE of the active image (R281). -/
def State.robotSource (s : State) : Nat := match s.spl.chip with | some c => c.robotSource | none => 0

/-- A write of TIME_ROB_RATE (R280): refused outside +-1,000 ppm and while robot time is steered. -/
def execRobRateWrite (a : Agent) (v : Word) (s : State) : Host.Outcome State Fault Refusal :=
  .next <|
    if s.accessFenced a (some 10) then s.respErr
    else if s.agentPart a ≠ s.ctrl || s.ctrl = 0xFF then s.denied a
    else
      let r := v.toInt
      if r < -slewRate || slewRate < r || s.robotSource ≠ 0 then s.timeRefused a
      else
        let s := s.respOk.wr .TIME_ROB_RATE v.toNat
        ({ s with time := { s.time with robotRate := r } }).applyRate

/-- A write of TIME_ROB_ADJ (R280): it replaces the pending adjustment. -/
def execRobAdjWrite (a : Agent) (v : Word) (s : State) : Host.Outcome State Fault Refusal :=
  .next <|
    if s.accessFenced a (some 10) then s.respErr
    else if s.agentPart a ≠ s.ctrl || s.ctrl = 0xFF then s.denied a
    else
      let s := s.respOk.wr .TIME_ROB_ADJ v.toNat
      let s := { s with time := { s.time with adj := v.toInt, adjAt := s.now } }
      (s.applyRate).wrB .TIME_ROB_STATUS 27 (v ≠ 0)

/-- The adjustment has been consumed (R280): the slew has ended when 1,000 ns per ns of it had passed, and SLEW_DONE is set. -/
def execSlewDone (s : State) : Host.Outcome State Fault Refusal :=
  .next <|
    if s.time.adj = 0 || s.adjLeft ≠ 0 then s
    else
      let r := s.slewEnd
      let s := { s with time := { s.time with adj := 0, adjAt := s.now } }
      (((s.applyRateAt r).wr .TIME_ROB_ADJ 0).clrB .TIME_ROB_STATUS 27).setB .TIME_EVENT 0

/-- A write of 1 to TIME_SNAP.TAKE (R290): all times captured at one instant. -/
def execTimeSnap (a : Agent) (s : State) : Host.Outcome State Fault Refusal :=
  .next <|
    if s.accessFenced a (some 10) then s.respErr
    else if s.agentPart a ≠ s.ctrl || s.ctrl = 0xFF then s.denied a
    else
      let v := [s.now, s.robotNow, s.baseNow 1, s.baseNow 2, s.baseNow 3, s.baseNow 4]
      v.zipIdx.foldl (fun s x => s.wr64 .TIME_SNAPJ_LO x.1 x.2) s.respOk

/-! ## Domain time bases (R283, R284) -/

/-- A base's STATE changes; robot time shows whether its steering base is LOCKED (R281). -/
def State.setBaseState (s : State) (k st : Nat) : State :=
  let s := s.wrF .TIME_B_STATUS 31 28 st k
  if s.robotSource = k then s.wrB .TIME_ROB_STATUS 26 (st ≠ tbLocked) else s

/-- TIME_Bk_UNC of a base now (R284). -/
def State.baseUnc (s : State) (k : Nat) : Nat :=
  let b := s.tbase k
  let st := s.baseState k
  if st = tbMaster then 0
  else if st = tbLocking || st = tbLocked then
    min 0xFFFFFFFF (b.offsets.foldl max 0 + s.fld .TIME_B_ASYM 15 0 k)
  else if st = tbHoldover || st = tbFreerun then
    min 0xFFFFFFFF (b.uncAtLoss + (quotEven (s.fld .TIME_B_HOLD 15 0 k * (s.now - b.lostAt) : Nat) 1000000000).toNat)
  else 0xFFFFFFFF

/-- TIME_Bk_UNC written. -/
def State.showUnc (s : State) (k : Nat) : State := s.wr .TIME_B_UNC (s.baseUnc k) k

/-- The master of a base is lost (R283): LOCKED goes to HOLDOVER with a HOLDOVER event, LOCKING to LISTENING. -/
def State.masterLost (s : State) (k : Nat) : State :=
  let st := s.baseState k
  let unc := s.baseUnc k
  let s := (s.setBase k (fun b => { b with best := none, sync := none })).wrF .TIME_B_STATUS 27 24 0xF k
  if st = tbLocked then
    let s := s.setBase k (fun b => { b with uncAtLoss := unc, lostAt := s.now })
    ((s.setBaseState k tbHoldover).setB .TIME_EVENT 2).showUnc k
  else if st = tbLocking then (s.setBaseState k tbListening).showUnc k
  else s

/-- A violation by a PTP peer (R285). -/
def State.ptpViolation (s : State) (k code : Nat) : State :=
  let s := ((s.bump .TIME_B_ERRORS k).wrF .TIME_B_STATUS 23 16 code k).setB .TIME_EVENT 4
  s.recordRated { cls := 0x0B, code := code, unit := k } { cls := 0x0B, part := 0xFF, source := 0x200A, detail := code }

/-- The latencies of a port's speed in ns, receive and transmit (R286). -/
def portLatency (speed : Nat) : Nat × Nat :=
  [(36, 24), (64, 44), (128, 88), (256, 176), (640, 440), (6400, 4400)].getD speed (0, 0)

/-- The corrected stamp of a received message (R286). -/
def State.rxStamp (s : State) (port mac : Nat) : Nat :=
  let l := (portLatency (s.fld .NET_P_STATUS 2 0 port)).1
  ((mac : Int) - l + sintOf 16 (s.fld .TIME_P_ADJ 31 16 port)).toNat

/-- The corrected stamp of a transmitted message (R286). -/
def State.txStamp (s : State) (port mac : Nat) : Nat :=
  let l := (portLatency (s.fld .NET_P_STATUS 2 0 port)).2
  ((mac : Int) + l + sintOf 16 (s.fld .TIME_P_ADJ 15 0 port)).toNat

/-- An interval of 2^log seconds in ns; `f` is the signed 8-bit log field. -/
def logInterval (f : Nat) : Nat :=
  match sintOf 8 f with
  | .ofNat n => 1000000000 * 2 ^ n
  | .negSucc n => 1000000000 / 2 ^ (n + 1)

/-- The configured interval of a message kind: of Sync (0) and Follow_Up (8), of Announce (11), else of the delay messages. -/
def State.msgInterval (s : State) (k kind : Nat) : Nat :=
  logInterval (if kind = 0 || kind = 8 then s.fld .TIME_B_INTERVAL 31 24 k else if kind = 11 then s.fld .TIME_B_INTERVAL 23 16 k
    else s.fld .TIME_B_INTERVAL 15 8 k)

/-- The checks that every PTP message of a base meets first (R285, codes 0x02 and 0x06): `true` where it is taken.  `kind` is its
messageType of IEEE 1588; the rate is counted for each sender and kind. -/
def State.ptpTake (s : State) (k kind : Nat) (m : PtpMsg) : Bool × State :=
  let b := s.tbase k
  if s.baseState k = tbOff || !bitOf b.entry.portMask m.port || k = 0 || 4 < k then (false, s)
  else if m.version ≠ 2 || m.domain ≠ b.entry.domain || !m.lengthOk then (false, s.ptpViolation k 2)
  else
    let near := b.recent.filter (fun x => s.now < x.2 + s.msgInterval k x.1.1)
    if 4 ≤ (near.filter (fun x => x.1 == (kind, m.sender))).length then (false, s.ptpViolation k 6)
    else (true, s.setBase k (fun b => { b with recent := ((kind, m.sender), s.now) :: near }))

/-- A port's peer is single (R285, code 0x05), which MODE 2 needs. -/
def State.asCapable (s : State) (k port : Nat) : Bool :=
  (s.tbase k).entry.mode != 2 || ((s.tbase k).peers.all (fun p => p.port != port || 3 ≤ p.single))

/-- The rate of base `k` from its servo.  The manual gives no rule for the value: it is a free value.  It is the robot rate too while
the base steers robot time and is LOCKED (R281). -/
def State.servoRate (s : State) (k : Nat) : State :=
  let f := s.fresh
  let r := sintOf 32 f.1
  let s := f.2.wr .TIME_B_RATE (uintOf 32 r) k
  let s := s.setBase k (fun b => { b with params := rerate b.params s.now r })
  if s.robotSource = k && s.baseState k = tbLocked then
    let s := s.wr .TIME_ROB_RATE (uintOf 32 r)
    ({ s with time := { s.time with robotRate := r } }).applyRate
  else s

/-- Domain time steps to the master (R283). -/
def State.baseStep (s : State) (k : Nat) (d : Int) : State :=
  s.setBase k (fun b => { b with params := stepParams b.params s.now d })

/-- A Sync with its time (R283, R284): `stamp` is the corrected raw stamp, `t` the master's time in the message.  The
first one steps and locks on; a later one whose offset exceeds 1 ms steps and counts; 16 within 1 us lock; three steps
within 60 s from one master disqualify it. -/
def State.syncDone (s : State) (k port sender stamp : Nat) (t : Int) : State :=
  let s := s.stampConverted k stamp
  let b := s.tbase k
  let there := t + b.meanDelay + sintOf 16 (s.fld .TIME_B_ASYM 31 16 k)
  let off := s.baseAt k stamp - there
  let nowAt := there + ((s.now : Int) - stamp)
  let s := s.setBase k (fun b => { b with sync := none, lastSync := some (t, stamp) })
  let st := s.baseState k
  if st = tbListening || st = tbHoldover || st = tbFreerun then
    let s := if st = tbListening then s.baseStep k nowAt else s
    let s := s.setBase k (fun b => { b with
      within := 0, offsets := if st = tbListening then [] else (off.natAbs :: b.offsets).take 16 })
    ((s.setBaseState k tbLocking).wrF .TIME_B_STATUS 27 24 port k).servoRate k |>.showUnc k
  else if st = tbLocking || st = tbLocked then
    if 1000000 < off.natAbs then
      let s := s.baseStep k nowAt
      let s := ((s.bumpF .TIME_B_STATUS 15 8 k).setB .TIME_EVENT 3).setBaseState k tbLocking
      let steps := s.now :: b.stepTimes.filter (fun x => s.now < x + 60000000000)
      let s := s.setBase k (fun b => { b with within := 0, offsets := (off.natAbs :: b.offsets).take 16, stepTimes := steps })
      if 3 ≤ steps.length then
        let s := s.setBase k (fun b => { b with disqualified := sender :: b.disqualified, stepTimes := [] })
        (s.ptpViolation k 4).masterLost k
      else s.showUnc k
    else
      let w := if off.natAbs ≤ 1000 then b.within + 1 else 0
      let s := s.setBase k (fun b => { b with within := w, offsets := (off.natAbs :: b.offsets).take 16 })
      let s := if st = tbLocking && 16 ≤ w then (s.setBaseState k tbLocked).setB .TIME_EVENT 1 else s
      (s.servoRate k).showUnc k
  else s

/-- The sender is the master that the base has selected, and not disqualified. -/
def State.fromMaster (s : State) (k : Nat) (m : PtpMsg) : Bool :=
  !(s.tbase k).disqualified.contains m.sender && s.asCapable k m.port &&
  (match (s.tbase k).best with | some (a, port) => a.identity == m.sender && port == m.port | none => false)

/-- A two-step Sync still waits for its Follow_Up although one Sync interval has passed (R285, code 0x01). -/
def State.followUpLate (s : State) (k : Nat) : Bool :=
  match (s.tbase k).sync with
  | some (_, stamp, _) => stamp + s.msgInterval k 0 ≤ s.now
  | none => false

/-- A Sync arrives (R282, R286): one-step it is used at once, two-step it waits for its Follow_Up.  MODE 2 is two-step only. -/
def execPtpSyncRx (k : Nat) (m : PtpMsg) (twoStep : Bool) (s : State) : Host.Outcome State Fault Refusal :=
  .next <|
    match s.ptpTake k 0 m with
    | (false, s) => s
    | (true, s) =>
      if !s.fromMaster k m then s
      else
        let stamp := s.rxStamp m.port m.mac
        if twoStep then
          let s := if (s.tbase k).sync.isSome then s.ptpViolation k 1 else s
          s.setBase k (fun b => { b with sync := some (m.seq, stamp, m.port) })
        else if (s.tbase k).entry.mode = 2 then s
        else s.syncDone k m.port m.sender stamp m.time

/-- A Follow_Up arrives (R282, R285 code 0x01). -/
def execPtpFollowUpRx (k : Nat) (m : PtpMsg) (s : State) : Host.Outcome State Fault Refusal :=
  .next <|
    match s.ptpTake k 8 m with
    | (false, s) => s
    | (true, s) =>
      if !s.fromMaster k m then s
      else match (s.tbase k).sync with
        | none => s
        | some (seq, stamp, port) =>
          if seq = m.seq && port = m.port && !s.followUpLate k then s.syncDone k m.port m.sender stamp m.time
          else (s.setBase k (fun b => { b with sync := none })).ptpViolation k 1

/-- The order of IEEE 1588 on two announced data sets: the first is better (R282). -/
def betterMaster (a b : Announce) : Bool :=
  let l (x : Announce) := [x.priority1, x.clockClass, x.accuracy, x.variance, x.priority2, x.identity, x.stepsRemoved]
  decide (l a < l b)

/-- The data set of the part itself.  PRESUMED: class 248, accuracy 0xFE and variance 0xFFFF, the defaults of IEEE
1588. -/
def State.ownAnnounce (s : State) (k : Nat) : Announce :=
  ⟨s.fld .TIME_B_PRIO 15 8 k, 248, 0xFE, 0xFFFF, s.fld .TIME_B_PRIO 7 0 k, Config.clockIdentity, 0⟩

/-- An Announce arrives (R283): a better master is selected; a ROLE 2 base that serves goes back to LISTENING; a ROLE 1
base stays grandmaster. -/
def execPtpAnnounceRx (k : Nat) (m : PtpMsg) (an : Announce) (s : State) : Host.Outcome State Fault Refusal :=
  .next <|
    match s.ptpTake k 11 m with
    | (false, s) => s
    | (true, s) =>
      let b := s.tbase k
      if b.entry.role = 1 || b.disqualified.contains an.identity then s
      else if b.entry.role = 2 && !betterMaster an (s.ownAnnounce k) then s
      else
        let take := match b.best with
          | none => true
          | some (x, _) => x.identity == an.identity || betterMaster an x
        if !take then s
        else
          let same : Bool := match b.best with | some (x, _) => x.identity == an.identity | none => false
          let s := s.setBase k (fun b => { b with best := some (an, m.port), stepTimes := if same then b.stepTimes else [] })
          let s := s.wrF .TIME_B_STATUS 27 24 m.port k
          if s.baseState k = tbMaster then (s.setBaseState k tbListening).showUnc k else s

/-- The mean path delay measured (R285, code 0x03): negative or above 100 us it is discarded. -/
def State.newDelay (s : State) (k : Nat) (d : Int) : State :=
  if d < 0 || 100000 < d then s.ptpViolation k 3 else s.setBase k (fun b => { b with meanDelay := d })

/-- A Delay_Resp arrives (R282, MODE 1): the mean path delay is half of the two legs. -/
def execPtpDelayRespRx (k : Nat) (m : PtpMsg) (s : State) : Host.Outcome State Fault Refusal :=
  .next <|
    match s.ptpTake k 9 m with
    | (false, s) => s
    | (true, s) =>
      let b := s.tbase k
      match b.delayReq, b.lastSync with
      | some (seq, t3), some (t1, t2) =>
        if seq ≠ m.seq || !s.fromMaster k m then s
        else
          let s := ((s.setBase k (fun b => { b with delayReq := none })).stampConverted k t2).stampConverted k t3
          s.newDelay k (quotEven ((s.baseAt k t2 - t1) + (m.time - s.baseAt k t3)) 2)
      | _, _ => s

/-- A message of a base is transmitted on a port: two-step, stamped at the pins (R282, R286). -/
def State.ptpSend (s : State) (k kind port seq : Nat) (t : Int) : State :=
  { s with time := { s.time with sent := s.time.sent ++ [⟨k, kind, port, seq, t, s.txStamp port s.now⟩] } }

/-- The ports that a base serves as master: all its ports while MASTER, all but the master's while it follows one. -/
def State.servedPorts (s : State) (k : Nat) : List Nat :=
  let ports := bitsSet 8 (s.tbase k).entry.portMask
  let st := s.baseState k
  if st = tbMaster then ports
  else if st = tbLocked || st = tbHoldover then ports.filter (fun p => p != s.fld .TIME_B_STATUS 27 24 k) else []

/-- A Delay_Req arrives at a base that serves the port as master (R282, MODE 1): it is answered with the domain time of
its stamp. -/
def execPtpDelayReqRx (k : Nat) (m : PtpMsg) (s : State) : Host.Outcome State Fault Refusal :=
  .next <|
    match s.ptpTake k 1 m with
    | (false, s) => s
    | (true, s) =>
      if (s.tbase k).entry.mode = 1 && (s.servedPorts k).contains m.port then
        (s.stampConverted k (s.rxStamp m.port m.mac)).ptpSend k 9 m.port m.seq (s.baseAt k (s.rxStamp m.port m.mac))
      else s

/-- A Pdelay_Req arrives (R282, MODE 2): it is answered with the time it was held. -/
def execPtpPdelayReqRx (k : Nat) (m : PtpMsg) (s : State) : Host.Outcome State Fault Refusal :=
  .next <|
    match s.ptpTake k 2 m with
    | (false, s) => s
    | (true, s) =>
      if (s.tbase k).entry.mode = 2 then
        s.ptpSend k 3 m.port m.seq ((s.txStamp m.port s.now : Int) - s.rxStamp m.port m.mac)
      else s

/-- A Pdelay_Resp arrives (R282, R285): `m.time` is the time the peer held the request.  A second responder on a port
takes asCapable away until a single one remains for 3 intervals. -/
def execPtpPdelayRespRx (k : Nat) (m : PtpMsg) (s : State) : Host.Outcome State Fault Refusal :=
  .next <|
    match s.ptpTake k 3 m with
    | (false, s) => s
    | (true, s) =>
      let b := s.tbase k
      match b.pdelayReq.find? (fun r => r.1 == m.port && r.2.1 == m.seq) with
      | none => s
      | some (_, _, t1) =>
        let old := b.peers.find? (fun p => p.port == m.port)
        let rest := b.peers.filter (fun p => p.port != m.port)
        match old with
        | some p =>
          if p.identity ≠ m.sender then
            (s.setBase k (fun b => { b with peers := ⟨m.port, m.sender, 0⟩ :: rest })).ptpViolation k 5
          else
            let s := s.setBase k (fun b => { b with peers := ⟨m.port, m.sender, min 3 (p.single + 1)⟩ :: rest })
            s.newDelay k (quotEven ((s.rxStamp m.port m.mac : Int) - t1 - m.time) 2)
        | none =>
          let s := s.setBase k (fun b => { b with peers := ⟨m.port, m.sender, 3⟩ :: rest })
          s.newDelay k (quotEven ((s.rxStamp m.port m.mac : Int) - t1 - m.time) 2)

/-- A Sync interval passes (R282, R285 code 0x01): a base that serves sends Sync and Follow_Up; a two-step Sync still
without its Follow_Up is discarded. -/
def execPtpSyncInterval (k : Nat) (s : State) : Host.Outcome State Fault Refusal :=
  .next <|
    if s.baseState k = tbOff || k = 0 || 4 < k then s
    else
      let s := if s.followUpLate k then (s.setBase k (fun b => { b with sync := none })).ptpViolation k 1 else s
      let q := (s.tbase k).txSeq
      let s := (s.servedPorts k).foldl (fun s p =>
        let t := s.baseAt k (s.txStamp p s.now)
        (s.ptpSend k 0 p q t).ptpSend k 8 p q t) s
      s.setBase k (fun b => { b with txSeq := (q + 1) % 0x10000 })

/-- An Announce interval passes (R282): a base that serves announces itself. -/
def execPtpAnnounceInterval (k : Nat) (s : State) : Host.Outcome State Fault Refusal :=
  .next <|
    if s.baseState k = tbOff || k = 0 || 4 < k then s
    else
      let q := (s.tbase k).txSeq
      let s := (s.servedPorts k).foldl (fun s p => s.ptpSend k 11 p q (s.baseAt k s.now)) s
      s.setBase k (fun b => { b with txSeq := (q + 1) % 0x10000 })

/-- A delay-request interval passes (R282): MODE 1 sends Delay_Req toward its master, MODE 2 Pdelay_Req on each port. -/
def execPtpDelayReqInterval (k : Nat) (s : State) : Host.Outcome State Fault Refusal :=
  .next <|
    if s.baseState k = tbOff || k = 0 || 4 < k then s
    else
      let b := s.tbase k
      let q := b.txSeq
      let s := s.setBase k (fun b => { b with txSeq := (q + 1) % 0x10000 })
      if b.entry.mode = 2 then
        let ports := bitsSet 8 b.entry.portMask
        let s := ports.foldl (fun s p => s.ptpSend k 2 p q 0) s
        s.setBase k (fun b => { b with pdelayReq := ports.map (fun p => (p, q, s.txStamp p s.now)) })
      else match b.best with
        | some (_, port) =>
          (s.ptpSend k 1 port q 0).setBase k (fun b => { b with delayReq := some (q, s.txStamp port s.now) })
        | none => s

/-- A base becomes MASTER (R283): it goes on from the time it reads, at the robot rate. -/
def State.serve (s : State) (k : Nat) : State :=
  let s := s.setBaseState k tbMaster
  ((s.setBase k (fun b => { b with params := rerate b.params s.now s.rateEff })).wr .TIME_B_RATE (uintOf 32 s.time.robotRate) k).showUnc k

/-- ANN_TIMEOUT announce intervals without an Announce (R283): the master is lost; a ROLE 2 base that LISTENs serves. -/
def execAnnounceTimeout (k : Nat) (s : State) : Host.Outcome State Fault Refusal :=
  .next <|
    if k = 0 || 4 < k then s
    else if s.baseState k = tbListening && (s.tbase k).entry.role = 2 then
      (s.setBase k (fun b => { b with best := none })).wrF .TIME_B_STATUS 27 24 0xF k |>.serve k
    else s.masterLost k

/-- The link of a switch port goes down: the master of every base that it leads to is lost (R283). -/
def State.linkLost (s : State) (port : Nat) : State :=
  (List.range 4).foldl (fun s i => if s.fld .TIME_B_STATUS 27 24 (i + 1) = port then s.masterLost (i + 1) else s) s

/-- HOLDOVER_S has elapsed (R283): the base runs on at its last rate in FREERUN. -/
def execHoldoverExpiry (k : Nat) (s : State) : Host.Outcome State Fault Refusal :=
  .next (if s.baseState k = tbHoldover then (s.setBaseState k tbFreerun).showUnc k else s)

/-- The 60 s of a disqualified master end (R285, code 0x04). -/
def execMasterDisqualifyExpiry (k sender : Nat) (s : State) : Host.Outcome State Fault Refusal :=
  .next (if k = 0 then s else s.setBase k (fun b => { b with disqualified := b.disqualified.filter (· != sender) }))

/-! ## Starts and loads (R283, R289) -/

/-- A base from its TIME entry after OFF (R283): LISTENING from zero parameters, or MASTER from robot time. -/
def State.startBase (s : State) (k : Nat) (e : TimeEntry) : State :=
  let s := s.setBase k (fun _ => { entry := e })
  let s := s.wr .TIME_B_STATUS 0x0F000000 k
  let s := s.wr .TIME_B_RATE 0 k
  if e.mode = 0 then (s.setBaseState k tbOff).showUnc k
  else if e.role = 1 then
    let s := s.setBase k (fun b => { b with params := [{ since := s.now, off := s.robotAt s.now - s.now, org := s.now, rate := s.rateEff }] })
    ((s.setBaseState k tbMaster).wr .TIME_B_RATE (uintOf 32 s.time.robotRate) k).showUnc k
  else (s.setBaseState k tbListening).showUnc k

/-- Rung 4 (R289): LOCKED bases go to HOLDOVER, MASTER and OFF bases stay, the others go to LISTENING. -/
def State.timeRung4 (s : State) : State :=
  (List.range 4).foldl (fun s i =>
    let k := i + 1
    let st := s.baseState k
    if st = tbLocked then s.masterLost k
    else if st = tbOff || st = tbMaster then s
    else
      let s := (s.setBase k (fun b => { b with best := none, sync := none, within := 0 })).wrF .TIME_B_STATUS 27 24 0xF k
      (s.setBaseState k tbListening).showUnc k) s

/-- The TIME section of a chip image applied (R281, R289): a base whose entry changes restarts from OFF; robot time
takes its source. -/
def State.applyTime (s : State) (c : ChipImage) : State :=
  let s := s.wrF .TIME_ROB_STATUS 31 28 c.robotSource
  let s := c.time.zipIdx.foldl (fun s x =>
    let k := x.2 + 1
    if (s.tbase k).entry = x.1 && s.baseState k ≠ tbOff then s else s.startBase k x.1) s
  s.wrB .TIME_ROB_STATUS 26 (c.robotSource ≠ 0 && s.baseState c.robotSource ≠ tbLocked)

end Sys2Proof.Machine
end

