-- ==== Sys2Proof/Machine/Fusion.lean ====
section
/-!
DEFINITION. What sensor ingress and Crosswind share (R217, R222, R223, R226 to R228): the conditions of a stream,
counters of a ring in memory, the pose ring and how a contribution finds its instant.
-/

namespace Sys2Proof.Machine

/-- Stream `n`: what no register shows. -/
def State.strm (s : State) (n : Nat) : StreamRun := (alGet s.sns.streams n).getD {}

/-- That changed. -/
def State.setStrm (s : State) (n : Nat) (f : StreamRun → StreamRun) : State :=
  { s with sns := { s.sns with streams := alSet s.sns.streams n (f (s.strm n)) } }

/-- The flags of R223 other than RUN, by their bits in SNS_Sn_STATUS. -/
def flagDegraded : Nat := 30
/-- UNSYNC. -/
def flagUnsync : Nat := 29
/-- SUSPECT. -/
def flagSuspect : Nat := 28
/-- LOST. -/
def flagLost : Nat := 27

/-- A flag of stream `n`. -/
def State.strmFlag (s : State) (n f : Nat) : Bool := s.bit .SNS_S_STATUS f n

/-- RUN of stream `n`. -/
def State.strmRun (s : State) (n : Nat) : Bool := s.bit .SNS_S_STATUS 31 n

/-- RUN follows ENABLE and the other flags (R223). -/
def State.showRun (s : State) (n : Nat) : State :=
  let run : Bool := s.bit .SNS_S_CTRL 31 n && !(s.strmFlag n flagDegraded || s.strmFlag n flagUnsync ||
    s.strmFlag n flagSuspect || s.strmFlag n flagLost)
  if run = s.strmRun n then s else (s.wrB .SNS_S_STATUS 31 run n).setB .SNS_S_EVENT 0 n

/-- A flag of R223 takes a value; a change sets CHANGE. -/
def State.setStrmFlag (s : State) (n f : Nat) (b : Bool) : State :=
  let s := if s.strmFlag n f = b then s else (s.wrB .SNS_S_STATUS f b n).setB .SNS_S_EVENT 0 n
  s.showRun n

/-- A violation by a sensor or its link (R222): counted, shown and, but for code 0x01, recorded. -/
def State.sensorViolation (s : State) (n code : Nat) : State :=
  let s := ((s.bump .SNS_S_ERRORS n).wrF .SNS_S_STATUS 7 0 code n).setB .SNS_S_EVENT 1 n
  if code = 1 then s
  else s.recordRated { cls := 0x09, code := code, unit := n }
    { cls := 0x09, part := (s.streamOwner n).getD 0xFF, source := 0x2004, detail := code, context := n }

/-- Traffic that matches no stream (R222, code 0x07). -/
def State.sensorStray (s : State) : State :=
  (s.bump .SNS_PORT_ERRORS).recordRated { cls := 0x09, code := 7, unit := 0xFF }
    { cls := 0x09, source := 0x2004, detail := 7 }

/-- A record of class engine command by an engine, at most once per `ns` for its code. -/
def State.recordEvery (s : State) (k : RateKey) (ns : Nat) (f : FaultDesc) : State :=
  match alGet s.flt.rates k with
  | some t =>
    if s.now < t + ns then s
    else ({ s with flt := { s.flt with rates := alSet s.flt.rates k s.now } }).record f
  | none => ({ s with flt := { s.flt with rates := alSet s.flt.rates k s.now } }).record f

/-- DEGRADED follows LATEMAP (R223): set above 8 of the last 32, cleared at 2 or fewer. -/
def State.judgeLate (s : State) (n : Nat) : State :=
  let c := popcount 32 (s.rd .SNS_S_LATEMAP n)
  if 8 < c then s.setStrmFlag n flagDegraded true
  else if c ≤ 2 then s.setStrmFlag n flagDegraded false else s

/-! ## Rings with two counters (R217, R229, R253) -/

/-- Entry `k` of a ring of `count` buffers is free: RELEASE has reached k - count + 1 (R217). -/
def ringFree (k release count : Nat) : Bool := (k + 2 ^ 32 - release) % 2 ^ 32 < count

/-- A write by an engine that carries checks over every segment it touches (R220, R229, R253). -/
def State.storeChecked (s : State) (p a : Nat) (d : List Byte) : State :=
  let t := s.storeFor p a d
  { t with badCheck := t.badCheck.filter (fun g => !(blocksOf 512 a d.length).contains g) }

/-! ## Poses (R228) -/

/-- The partition that Crosswind serves (R239), if it serves one. -/
def State.xwOwner (s : State) : Option Nat :=
  let o := s.fld .XW_CFG 31 28
  if s.partExists o then some o else none

/-- The entries of the pose ring: the time and the words x, y, yaw of each. -/
def State.poseRing (s : State) : List (Nat × List Nat) :=
  match s.xwOwner with
  | none => []
  | some p =>
    let base := s.rd64 .XW_POSE_BASE_LO
    let n := s.fld .XW_POSE_CTRL 7 0
    match s.readAs (.engine 5 p) base (n * 32) with
    | (some d, _) => (List.range n).map (fun k => (leAt d (32 * k) 8, (List.range 3).map (fun i => leAt d (32 * k + 8 + 4 * i) 4)))
    | (none, _) => []

/-- What reading the pose ring does: traffic of Crosswind, and the record of a read that is refused or fails. -/
def State.readPoses (s : State) : State :=
  match s.xwOwner with
  | none => s
  | some p => (s.fetch (.engine 5 p) (s.rd64 .XW_POSE_BASE_LO) (s.fld .XW_POSE_CTRL 7 0 * 32)).2

/-- The newest entry at or before a time, and the oldest at or after it. -/
def poseBracket (l : List (Nat × List Nat)) (t : Int) : Option (Nat × List Nat) × Option (Nat × List Nat) :=
  let before := l.filter (fun e => (e.1 : Int) ≤ t)
  let after := l.filter (fun e => t ≤ (e.1 : Int))
  (before.foldl (fun b e => match b with | some x => if x.1 ≤ e.1 then some e else b | none => some e) none,
   after.foldl (fun b e => match b with | some x => if e.1 < x.1 then some e else b | none => some e) none)

/-- The pose at a time (R228): interpolated between the two entries that bracket it; none outside the ring's span. -/
def State.poseAt (s : State) (t : Int) : Option (List Nat) :=
  match poseBracket s.poseRing t with
  | (some a, some b) =>
    if a.1 = b.1 then some a.2 else some (poseBetween a.2 b.2 a.1 b.1 t)
  | _ => none

/-- The pose at a time, from outside the ring's span too. -/
def State.poseNear (s : State) (t : Int) : List Nat :=
  match s.poseAt t with
  | some p => p
  | none =>
    let newest := s.poseRing.foldl (fun (b : Nat × List Nat) e => if b.1 ≤ e.1 then e else b) (0, [0, 0, 0])
    (List.range 3).map (Config.poseBeyond newest.2 t)

/-! ## Contributions (R225, R226) -/

/-- The grid period in ns. -/
def State.gridPeriod (s : State) : Nat := 1000 * max 1 (s.fld .XW_GRID 15 0)

/-- The instant that a capture time belongs to (R225): the first not before it. -/
def State.instantOf (s : State) (capture : Int) : Int := -((-capture) / (s.gridPeriod : Int))

/-- A contribution dropped and counted (R226, R330). -/
def State.dropContribution (s : State) (n : Nat) : State := s.bump .SNS_S_DROPPED n

/-- A contribution of a stream arrives (R226, R228, R236): it waits for its instant; one whose instant is frozen is late, and folds
into the next instant within `lateMs` of that emission; one of a stream that is UNSYNC or SUSPECT is dropped, its lateness still
recorded; a capture outside the pose ring's span drops it. -/
def State.contribute (s : State) (n lateMs : Nat) (capture : Int) (kind : ContribKind) (data : List Byte) : State :=
  let out : Bool := s.strmFlag n flagUnsync || s.strmFlag n flagSuspect
  let s := s.readPoses
  match s.poseAt capture with
  | none => s.setB .XW_EVENT 2
  | some pose =>
    let k := s.instantOf capture
    let c : Contribution := { stream := n, capture, pose, instant := k, kind, data }
    let put (s : State) (c : Contribution) : State := if out then s else { s with xw := { s.xw with waiting := s.xw.waiting ++ [c] } }
    match s.xw.last with
    | none => put s c
    | some m =>
      if (m : Int) < k then put s c
      else
        let s := (s.setB .SNS_S_LATEMAP 0 n).judgeLate n
        let near : Bool := match alGet s.xw.emitAt k.toNat with
          | some r => s.now ≤ r + lateMs * 1000000
          | none => false
        if near && !out then put s { c with instant := (m + 1 : Nat), late := true }
        else (s.dropContribution n).setB .XW_EVENT 1

/-- The uncertainty of a contribution's sample lets it in (R223): alignment stays within half a period. -/
def State.aligned (s : State) (n unc : Nat) : Bool :=
  match s.stream n with
  | some e => 2 * unc ≤ e.periodUs
  | none => false

end Sys2Proof.Machine
end

