-- ==== Sys2Proof/Machine/Sensors.lean ====
section
/-!
DEFINITION. Sensor ingress (R212 to R223, R236): samples from their sources, their stamps, the write of a sample, the conditions of a
stream.
-/

namespace Sys2Proof.Machine

/-! ## Streams -/

/-- The enabled stream that a source, port and selector name (R213). -/
def State.streamBy (s : State) (source port sel : Nat) : Option StreamEntry :=
  ((List.range 32).filterMap s.stream).find? (fun e =>
    e.source == source && e.port == port && (if source = 1 then e.udpPort == sel else e.select == sel) &&
    s.bit .SNS_S_CTRL 31 e.number)

/-- The entry of stream `n` while it is enabled and its source is `source`. -/
def State.streamOf (s : State) (n source : Nat) : Option StreamEntry :=
  match s.stream n with
  | some e => if e.source = source && s.bit .SNS_S_CTRL 31 n then some e else none
  | none => none

/-- The receiving sample of a stream is given up. -/
def State.dropOpen (s : State) (n : Nat) : State := s.setStrm n (fun r => { r with cur := none })

/-- A sample of stream `n` at its stamp, with the thresholds and flags as they stand (R216, R218). -/
def State.newSample (s : State) (n raw : Nat) : OpenSample :=
  { raw, tune0 := s.rd .SNS_S_TUNE0 n, tune1 := s.rd .SNS_S_TUNE1 n, adj := s.rd .SNS_S_ADJ n
    marks := (s.strmFlag n flagUnsync).toNat + 2 * (s.strmFlag n flagSuspect).toNat }

/-- A sample opens with its raw stamp. -/
def State.openSample (s : State) (n raw : Nat) : State := s.setStrm n (fun r => { r with cur := some (s.newSample n raw) })

/-- A sample is complete: it waits to be written; the samples after code 0x0A are dropped until 2 periods have
passed. -/
def State.completeSample (s : State) (n : Nat) (o : OpenSample) : State :=
  s.setStrm n (fun r =>
    if 0 < r.skip then { r with cur := none, skip := r.skip - 1 }
    else { r with cur := none, ready := r.ready ++ [o] })

/-- The bursts of stream `n` that wait on an SPI port are given up. -/
def State.dropBursts (s : State) (n : Nat) : State :=
  { s with sns := { s.sns with spi := s.sns.spi.map (fun q => (q.1, q.2.filter (fun x => x.1 != n))) } }

/-- A write of SNS_Sn_CTRL.ENABLE (R217, R223): a stream that starts counts SEQ from 0; one that stops gives up its
sample. -/
def State.enableStream (s : State) (n : Nat) (on : Bool) : State :=
  if s.bit .SNS_S_CTRL 31 n = on then s
  else
    let s := (s.wrB .SNS_S_CTRL 31 on n).wrB .SNS_ACTIVE n on
    let s := s.setStrm n (fun r =>
      if on then { r with next := 0, cur := none, ready := [], lastRaw := none, lastSensor := none, fit := [], recs := [], skip := 0 }
      else { r with cur := none, ready := [] })
    (s.dropBursts n).showRun n

/-- SNS_ENABLE (R223): a write of ENABLE by the stream's owner. -/
def execSnsEnable (a : Agent) (n : Nat) (on : Bool) (s : State) : Host.Outcome State Fault Refusal :=
  .next <|
    if 32 ≤ n then s
    else if s.streamOwner n ≠ some (s.agentPart a) then s.denied a
    else if s.fencedEngine 4 (s.agentPart a) then s.respErr
    else s.respOk.enableStream n on

/-- A write of 1 to SNS_Sn_CTRL.CLEAR_SUSPECT by the stream's owner (R223). -/
def execClearSuspect (a : Agent) (n : Nat) (s : State) : Host.Outcome State Fault Refusal :=
  .next <|
    if 32 ≤ n then s
    else if s.streamOwner n ≠ some (s.agentPart a) then s.denied a
    else if s.fencedEngine 4 (s.agentPart a) then s.respErr
    else (s.respOk.setStrm n (fun r => { r with disagree := 0 })).setStrmFlag n flagSuspect false

/-! ## Samples from their sources (R214, R219, R222) -/

/-- A CSI-2 Frame Start on a port and virtual channel (R214, R219); `ecc` is 0 for a good header, 1 for one with a corrected
bit, 2 for an uncorrectable one or a start-of-transmission error. -/
def execCsi2FrameStart (port vc ecc : Nat) (s : State) : Host.Outcome State Fault Refusal :=
  .next <|
    match s.streamBy 0 port vc with
    | none => s.sensorStray
    | some e =>
      let n := e.number
      let s := if (s.strm n).cur.isSome then (s.sensorViolation n 4).dropOpen n else s
      let s := if ecc = 1 then s.sensorViolation n 1 else s
      if 2 ≤ ecc then s.sensorViolation n 2 else s.openSample n s.now

/-- A CSI-2 Frame End (R214) with the frame's payload; `crcBad` says that a long packet's CRC did not match. -/
def execCsi2FrameEnd (port vc ecc : Nat) (payload : List Byte) (crcBad : Bool) (s : State) : Host.Outcome State Fault Refusal :=
  .next <|
    match s.streamBy 0 port vc with
    | none => s.sensorStray
    | some e =>
      let n := e.number
      let s := if ecc = 1 then s.sensorViolation n 1 else s
      match (s.strm n).cur with
      | none => s
      | some o =>
        if 2 ≤ ecc then (s.sensorViolation n 2).dropOpen n
        else if crcBad then (s.sensorViolation n 3).dropOpen n
        else s.completeSample n { o with data := payload, count := 1 }

/-- A UDP datagram to a stream's port (R214, R219): the first opens the sample with the MAC's corrected stamp, the last completes it. -/
def execEthSampleDatagram (port udp mac : Nat) (data : List Byte) (s : State) : Host.Outcome State Fault Refusal :=
  .next <|
    match s.streamBy 1 port udp with
    | none => s.sensorStray
    | some e =>
      let n := e.number
      let o := (s.strm n).cur.getD (s.newSample n (s.rxStamp port mac))
      let o := { o with data := o.data ++ data, count := o.count + 1 }
      if max 1 e.readLen ≤ o.count then s.completeSample n o
      else s.setStrm n (fun r => { r with cur := some o })

/-- The bursts that wait on an SPI port. -/
def State.spiQueue (s : State) (port : Nat) : List (Nat × OpenSample) := (alGet s.sns.spi port).getD []

/-- They changed. -/
def State.setSpi (s : State) (port : Nat) (l : List (Nat × OpenSample)) : State :=
  { s with sns := { s.sns with spi := alSet s.sns.spi port l } }

/-- The command bytes of a stream's transfer go out on its port (R214): the first SRC_CFG[1:0] bytes of CMD. -/
def State.sendCmd (s : State) (e : StreamEntry) : State :=
  let d := (bytesLE 3 e.cmd).take (bitsOf e.srcCfg 1 0)
  { s with sns := { s.sns with sent := alSet s.sns.sent (if e.source = 4 then 1 else 0, e.port) d } }

/-- A data-ready edge of stream `n` (R214, R219): stamped now; bursts on one port run in the order of their edges. -/
def execSpiDataReady (n : Nat) (s : State) : Host.Outcome State Fault Refusal :=
  .next <|
    match s.streamOf n 2 with
    | none => s.sensorStray
    | some e => s.setSpi e.port (s.spiQueue e.port ++ [(n, s.newSample n s.now)])

/-- The burst of stream `n`, its command bytes sent, ends with the bytes read (R214); one without a data-ready edge is code 0x0A. -/
def execSpiBurstDone (n : Nat) (data : List Byte) (s : State) : Host.Outcome State Fault Refusal :=
  .next <|
    match s.streamOf n 2 with
    | none => s.sensorStray
    | some e =>
      match s.spiQueue e.port with
      | x :: r =>
        if x.1 = n then ((s.setSpi e.port r).sendCmd e).completeSample n { x.2 with data := sliceBytes data 0 e.readLen, count := 1 }
        else if (s.spiQueue e.port).any (fun y => y.1 == n) then s
        else (s.sensorViolation n 0xA).setStrm n (fun q => { q with skip := 2 })
      | [] => (s.sensorViolation n 0xA).setStrm n (fun q => { q with skip := 2 })

/-- An I3C in-band interrupt from a dynamic address (R214, R219). -/
def execI3cIbi (port addr : Nat) (s : State) : Host.Outcome State Fault Refusal :=
  .next <|
    match s.streamBy 4 port addr with
    | none => s.sensorStray
    | some e => s.openSample e.number s.now

/-- The private read of an I3C stream, its command bytes written before, ends with the bytes read (R214). -/
def execI3cReadDone (port addr : Nat) (data : List Byte) (s : State) : Host.Outcome State Fault Refusal :=
  .next <|
    match s.streamBy 4 port addr with
    | none => s.sensorStray
    | some e =>
      match (s.strm e.number).cur with
      | none => s
      | some o => (s.sendCmd e).completeSample e.number { o with data := sliceBytes data 0 e.readLen, count := 1 }

/-- The payload bytes of one TDM frame (R214): the channels from slot SELECT upward, each little-endian in the slot's
width. -/
def tdmFrame (e : StreamEntry) (slots : List Nat) : List Byte :=
  let width := bitsOf e.cmd 15 8 / 8
  let channels := bitsOf e.cmd 23 16
  ((List.range channels).map (fun c => bytesLE width (slots.getD (e.select + c) 0))).flatten

/-- A TDM frame sync of stream `n` with its frame's slot words (R214, R219): the first stamps the sample, frame READ_LEN completes
it. -/
def execTdmFrameSync (n : Nat) (slots : List Nat) (s : State) : Host.Outcome State Fault Refusal :=
  .next <|
    match s.streamOf n 3 with
    | none => s.sensorStray
    | some e =>
      let o := (s.strm n).cur.getD (s.newSample n s.now)
      let o := { o with data := o.data ++ tdmFrame e slots, count := o.count + 1 }
      if e.readLen ≤ o.count then s.completeSample n o
      else s.setStrm n (fun r => { r with cur := some o })

/-- A TDM port loses its frame sync or bit clock (R222, code 0x0A): the samples of its streams are dropped until 2 correct periods
pass. -/
def execTdmClockLoss (port : Nat) (s : State) : Host.Outcome State Fault Refusal :=
  .next <|
    ((List.range 32).filter (fun n => match s.streamOf n 3 with | some e => e.port == port | none => false)).foldl
      (fun s n => (s.sensorViolation n 0xA).setStrm n (fun r => { r with cur := none, skip := 2 })) s

/-- 2 x PERIOD_US have passed since a CSI-2 or Ethernet sample opened (R222, code 0x04). -/
def execSampleIncompleteTimeout (n : Nat) (s : State) : Host.Outcome State Fault Refusal :=
  .next <|
    match s.stream n with
    | some e => if e.source ≤ 1 && (s.strm n).cur.isSome then (s.sensorViolation n 4).dropOpen n else s
    | none => s

/-! ## Capture time and uncertainty (R219, R221) -/

/-- A least-squares line of sensor counter against RAW through (raw, counter) pairs (R221), as the sums that give it: the
count, the sums of raw and of counter, and the numerator and denominator of the slope; none without a rising line. -/
def fitLine (l : List (Nat × Nat)) : Option (Int × Int × Int × Int × Int) :=
  let n : Int := l.length
  let sx : Int := l.foldl (fun a p => a + p.1) 0
  let sy : Int := l.foldl (fun a p => a + p.2) 0
  let sxx : Int := l.foldl (fun a p => a + (p.1 : Int) * p.1) 0
  let sxy : Int := l.foldl (fun a p => a + (p.1 : Int) * p.2) 0
  let num := n * sxy - sx * sy
  let den := n * sxx - sx * sx
  if 0 < num && 0 < den then some (n, sx, sy, num, den) else none

/-- The raw instant at which the line reads a counter value, in whole ns, rounded as R51 says. -/
def lineRaw (f : Int × Int × Int × Int × Int) (c : Nat) : Int :=
  let (n, sx, sy, num, den) := f
  quotEven (((c : Int) * n - sy) * den + num * sx) (n * num)

/-- What ingress makes of a sample's time (R219, R221, R284, R288): the capture time before CAPTURE_ADJ, UNC_US, whether the oldest
kept parameters were used, and the state (a free value is drawn for a line that does not exist).  Every conversion takes the parameters
in force at the stamp's raw time. -/
def State.sampleTime (s : State) (n : Nat) (e : StreamEntry) (o : OpenSample) : Int × Nat × Bool × State :=
  let x := leAt o.data e.tsOff 8
  if e.timeSrc = 1 then
    let b := paramsAt (s.tbase e.timeBase).params o.raw
    let p := paramsAt s.time.robot o.raw
    (p.1.at (b.1.rawAt (sintOf 64 x)).toNat, (s.baseUnc e.timeBase + 999) / 1000, b.2 || p.2, s)
  else if e.timeSrc = 2 then
    let fit := ((o.raw, x) :: (s.strm n).fit).take 64
    let s := s.setStrm n (fun r => { r with fit := fit })
    match fitLine fit with
    | some f =>
      let r := (lineRaw f x).toNat
      let worst := (fit.map (fun p => (lineRaw f p.2 - (p.1 : Int)).natAbs)).foldl max 0
      let p := paramsAt s.time.robot o.raw
      (p.1.at r, (quotEven worst 1000).toNat + 1, p.2, s)
    | none =>
      let (v, s) := s.fresh
      let (u, s) := s.fresh
      (sintOf 64 v, u, false, s)
  else
    let p := paramsAt s.time.robot o.raw
    (p.1.at o.raw, 1, p.2, s)

/-- The 512-byte header segment of a sample (R218). -/
def sampleHeader (n flags seq : Nat) (capture : Int) (raw unc len : Nat) : List Byte :=
  bytesLE 1 n ++ bytesLE 1 flags ++ bytesLE 2 0 ++ bytesLE 4 seq ++ bytesLE 8 (uintOf 64 capture) ++ bytesLE 8 raw ++
  bytesLE 4 unc ++ bytesLE 4 len ++ List.replicate 480 0

/-- The address of buffer `i` of a stream's ring (R217). -/
def StreamEntry.buffer (e : StreamEntry) (i : Nat) : Nat := e.bufBase + 512 + i * (512 + e.sampleBytes)

/-- The ranges of a sample (R213), in mm. -/
def StreamEntry.ranges (e : StreamEntry) (data : List Byte) : List Nat :=
  (List.range e.rangeCount).map (fun k => leAt data (e.rangeOff + k * e.rangeStride) 2)

/-- The directions of a stream's ranges, as the words of its table (R213), read by engine `g` for the stream's partition; none where that
read is refused or fails. -/
def State.directions (s : State) (g p : Nat) (e : StreamEntry) : Option (List Nat) :=
  (s.readAs (.engine g p) e.dirBase (4 * e.rangeCount)).1.map (fun d => (List.range e.rangeCount).map (fun k => leAt d (4 * k) 4))

/-- What reading that table does: traffic, and the record of a read that is refused or fails. -/
def State.readDirections (s : State) (g p : Nat) (e : StreamEntry) : State := (s.fetch (.engine g p) e.dirBase (4 * e.rangeCount)).2

/-- Role bits of a stream (R213). -/
def StreamEntry.grid (e : StreamEntry) : Bool := bitOf e.roles 0
/-- PROX. -/
def StreamEntry.prox (e : StreamEntry) : Bool := bitOf e.roles 1

/-- A written sample of a GRID stream with ranges contributes its occupancy (R227). -/
def State.contributeRanges (s : State) (n p : Nat) (e : StreamEntry) (o : OpenSample) (capture : Int) (unc : Nat) : State :=
  if !e.grid || e.rangeCount = 0 || s.xwOwner.isNone then s
  else if !s.strmFlag n flagUnsync && !s.aligned n unc then s.dropContribution n
  else
    let s := s.readDirections 4 p e
    match s.directions 4 p e with
    | some dirs => s.contribute n (bitsOf o.tune0 31 16) capture (.ranges dirs) (((e.ranges o.data).map (bytesLE 2)).flatten)
    | none => s.dropContribution n

/-- The buffer of the next sample takes it (R217, R218, R220): payload, header, then ARRIVE. -/
def State.writeSample (s : State) (n p : Nat) (e : StreamEntry) (o : OpenSample) (capture : Int) (unc : Nat) (old : Bool) : State :=
  let seq := (s.strm n).next
  let b := e.buffer (seq % max 1 e.bufCount)
  let s := s.traffic (.engine 4 p) e.bufBase (o.data.length + 516)
  let s := s.storeChecked p (b + 512) o.data
  let s := s.storeChecked p b (sampleHeader n (o.marks + 4 * old.toNat) seq capture o.raw (min 0xFFFFFFFF unc) o.data.length)
  let s := s.storeChecked p e.bufBase (bytesLE 4 (s.getNum e.bufBase 4 + 1))
  let s := (s.wr .SNS_S_SEQ seq n).wr .SNS_S_LATEMAP (s.rd .SNS_S_LATEMAP n * 2) n
  let s := s.setStrm n (fun r => { r with
    next := (seq + 1) % 2 ^ 32
    lastRaw := some o.raw
    recs := (({ seq, capture, unc, raw := o.raw, tune0 := o.tune0, tune1 := o.tune1 } : SampleRec) :: r.recs).take 64 })
  ((s.setStrmFlag n flagLost false).judgeLate n).contributeRanges n p e o capture unc

/-- The bytes of a stream's ring (R217). -/
def StreamEntry.ringSize (e : StreamEntry) : Nat := 512 + e.bufCount * (512 + e.sampleBytes)

/-- SAMPLE_WRITE (R217 to R223, R236): the first complete sample of a stream is checked, stamped and written, once the quads of its ring are
awake (R84); without a free buffer it is dropped. -/
def execSampleWrite (n : Nat) (s : State) : Host.Outcome State Fault Refusal :=
  .next <|
    match (s.strm n).ready, s.stream n, s.streamOwner n with
    | o :: rest, some e, some p =>
      let asleep := s.sleepingQuads e.bufBase e.ringSize
      if !asleep.isEmpty then s.wakeAll asleep
      else
        let s := s.setStrm n (fun r => { r with ready := rest })
        let close : Bool := match (s.strm n).lastRaw with | some r0 => 2 * (o.raw - r0) < e.periodUs * 1000 | none => false
        let stale : Bool := e.timeSrc ≠ 0 && (match (s.strm n).lastSensor with | some c => leAt o.data e.tsOff 8 ≤ c | none => false)
        if !s.bit .SNS_S_CTRL 31 n then s
        else if e.sampleBytes < o.data.length then s.sensorViolation n 5
        else if close then s.sensorViolation n 6
        else if stale then s.sensorViolation n 8
        else
          let (t, unc, old, s) := s.sampleTime n e o
          let far : Bool := e.timeSrc ≠ 0 && 1000000000 < (t - s.robotAt o.raw).natAbs
          let s := if e.timeSrc = 0 then s else s.setStrm n (fun r => { r with lastSensor := some (leAt o.data e.tsOff 8) })
          let s := if old then s.bump .TIME_OLD_CONV else s
          if far then (s.sensorViolation n 9).setStrmFlag n flagUnsync true
          else
            let s := s.wr .SNS_S_UNC (min 0xFFFFFFFF unc) n
            let s := if e.periodUs < unc then s.setStrmFlag n flagUnsync true else s
            let adj := sintOf 32 o.adj
            let release := s.getNum (e.bufBase + 4) 4
            let v := s.verdict (.engine 4 p) true e.bufBase e.ringSize
            if v ≠ .ok then (s.dropContribution n).refusalRecord (.engine 4 p) v e.bufBase
            else if !ringFree (s.strm n).next release e.bufCount then s.dropContribution n
            else s.writeSample n p e o (t + adj) unc old
    | _, _, _ => s

/-! ## Conditions over time (R223) -/

/-- No sample of an enabled stream for 4 x PERIOD_US (R223). -/
def execStreamLostTimeout (n : Nat) (s : State) : Host.Outcome State Fault Refusal :=
  .next (if n < 32 && s.bit .SNS_S_CTRL 31 n then s.setStrmFlag n flagLost true else s)

/-- UNC_US has stayed below PERIOD_US / 2 for 2 s (R223). -/
def execUnsyncClearTimeout (n : Nat) (s : State) : Host.Outcome State Fault Refusal :=
  .next <|
    match s.stream n with
    | some e => if s.strmFlag n flagUnsync && 2 * s.rd .SNS_S_UNC n < e.periodUs then s.setStrmFlag n flagUnsync false else s
    | none => s

/-- A stream at a fence of its owner (R236): its sample is given up, it reads LOST until its first sample, and SEQ
restarts at 0. -/
def State.restartStream (s : State) (n : Nat) : State :=
  let s := s.setStrm n (fun r => { r with cur := none, ready := [], next := 0, lastRaw := none, lastSensor := none, fit := [], recs := [], skip := 0 })
  let s := s.dropBursts n
  if s.bit .SNS_S_CTRL 31 n then s.setStrmFlag n flagLost true else s

end Sys2Proof.Machine
end

