-- ==== Sys2Proof/Machine/Kinematics.lean ====
section
/-!
DEFINITION. The robot model of Veer (R244): its links' frames in a configuration, and where its spheres lie.  Lengths are in m and angles
in rad, in units of 2^-512.  DEDUCED (log entry 102): a link's frame is its parent's frame, shifted and turned by the link's translation
and rotation, then moved by the joint along or about its z axis; a rotation quaternion is scaled to length 1; link 0 is the base itself.
-/

namespace Sys2Proof.Machine

/-! ## Frames -/

/-- A frame: the rows of its rotation, and its origin. -/
structure Frame where
  rows : List (List Int)
  origin : List Int
  deriving DecidableEq, Repr

/-- The sum of products of two vectors. -/
def dotFixed (a b : List Int) : Int := ((a.zip b).map (fun x => fixMul x.1 x.2)).foldl (fun u v => u + v) 0

/-- A point of a frame in the frame's own surroundings. -/
def Frame.point (f : Frame) (p : List Int) : List Int := (f.rows.zip f.origin).map (fun x => dotFixed x.1 p + x.2)

/-- A frame given inside another. -/
def Frame.inside (f g : Frame) : Frame :=
  { rows := f.rows.map (fun row => (List.range 3).map (fun k => dotFixed row (g.rows.map (fun x => x.getD k 0))))
    origin := f.point g.origin }

/-- The base's own frame. -/
def Frame.base : Frame := ⟨[[oneFixed, 0, 0], [0, oneFixed, 0], [0, 0, oneFixed]], [0, 0, 0]⟩

/-- The frame of a shift and a rotation quaternion (x, y, z, w), scaled to length 1; a quaternion of zeros turns nothing. -/
def Frame.ofQuaternion (origin q : List Int) : Frame :=
  let x := q.getD 0 0
  let y := q.getD 1 0
  let z := q.getD 2 0
  let w := q.getD 3 0
  let n := x * x + y * y + z * z + w * w
  if n = 0 then { Frame.base with origin }
  else
    let e (v : Int) : Int := 2 * v * oneFixed / n
    ⟨[[oneFixed - e (y * y + z * z), e (x * y - z * w), e (x * z + y * w)],
      [e (x * y + z * w), oneFixed - e (x * x + z * z), e (y * z - x * w)],
      [e (x * z - y * w), e (y * z + x * w), oneFixed - e (x * x + y * y)]], origin⟩

/-- The frame that a joint adds: about the z axis (1), along it (2). -/
def Frame.ofJoint (kind : Nat) (v : Int) : Frame :=
  if kind = 1 then { Frame.base with rows := [[cosFixed v, -sinFixed v, 0], [sinFixed v, cosFixed v, 0], [0, 0, oneFixed]] }
  else if kind = 2 then { Frame.base with origin := [0, 0, v] }
  else Frame.base

/-! ## The model (R244) -/

/-- All of a list's values, if each is one. -/
def allSome (l : List (Option Int)) : Option (List Int) := if l.all Option.isSome then some (l.filterMap id) else none

/-- A link's frame inside its parent's, by its bytes and the joint values; none where a word is no number. -/
def linkFrame (b : List Byte) (joints : List Int) : Option Frame :=
  match allSome ((List.range 3).map (fun k => fixedOf32 (leAt b (4 + 4 * k) 4))),
      allSome ((List.range 4).map (fun k => fixedOf16 (leAt b (16 + 2 * k) 2))) with
  | some o, some q => some ((Frame.ofQuaternion o q).inside (Frame.ofJoint (leAt b 2 1) (joints.getD (leAt b 1 1) 0)))
  | _, _ => none

/-- The frames of the links in the base frame, link 0 first: a PARENT stands before its link. -/
def RobotModel.frames (m : RobotModel) (joints : List Int) : Option (List Frame) :=
  (m.links.drop 1).foldl (fun acc b =>
    match acc, linkFrame b joints with
    | some l, some f => some (l ++ [(l.getD (leAt b 0 1) Frame.base).inside f])
    | _, _ => none) (some [Frame.base])

/-- A sphere of a model: its link, its radius in m, its centre in the base frame. -/
structure SphereAt where
  link : Nat
  radius : Int
  centre : List Int
  deriving DecidableEq, Repr

/-- The spheres of a model in a configuration of its joints. -/
def RobotModel.spheresAt (m : RobotModel) (joints : List Int) : Option (List SphereAt) :=
  match m.frames joints with
  | none => none
  | some fs =>
    m.spheres.foldl (fun acc b =>
      match acc, allSome ((List.range 3).map (fun k => fixedOf32 (leAt b (4 + 4 * k) 4))) with
      | some l, some c =>
        some (l ++ [⟨leAt b 0 1, (leAt b 1 1 : Nat) * oneFixed / 1000, (fs.getD (leAt b 0 1) Frame.base).point c⟩])
      | _, _ => none) (some [])

/-- VLIM of a joint, by the first link that it moves; none where no link or no number gives one. -/
def RobotModel.speedLimit (m : RobotModel) (j : Nat) : Option Int :=
  (m.links.find? (fun b => leAt b 1 1 == j && leAt b 2 1 != 0)).bind (fun b => fixedOf32 (leAt b 24 4))

/-- A joint is prismatic. -/
def RobotModel.slides (m : RobotModel) (j : Nat) : Bool := m.links.any (fun b => leAt b 1 1 == j && leAt b 2 1 == 2)

end Sys2Proof.Machine
end

