-- ==== Sys2Proof/Machine/Veer.lean ====
section
/-!
DEFINITION. Veer (R240 to R256): the cost map and its epochs, collision checks, queries, the three stages and the output
gate.
-/

namespace Sys2Proof.Machine

/-! ## Owner, results and records (R254, R256) -/

/-- The partition that Veer serves, if it serves one and runs. -/
def State.veerOwner (s : State) : Option Nat :=
  let o := s.fld .VEER_CFG 31 28
  if s.partExists o && s.bit .VEER_CFG 0 && !s.fencedEngine 7 o then some o else none

/-- The record of a result from 0x04 to 0x0B (R254), at most once per second for each code. -/
def State.veerRecord (s : State) (p code : Nat) : State :=
  if code < 4 || 0xB < code then s
  else s.recordEvery { cls := 0x05, code := code, unit := 0x2007 } 1000000000
    { cls := 0x05, part := p, source := 0x2007, detail := code }

/-- The stages' fields of VEER_STATUS: GLOBAL, REPAIR, OUTPUT. -/
def VeerStage.shift : VeerStage → Nat
  | .globalSearch => 24 | .repair => 16 | .output => 8 | .arm => 0

/-- A stage ends with a result: VEER_STATUS shows it, TIMEOUT and NO_PATH set their events (the blocked results are
handled as NO_PATH, R249), and it is recorded. -/
def State.stageResult (s : State) (p : Nat) (st : VeerStage) (code : Nat) : State :=
  let s := if st = .arm then s else s.wrF .VEER_STATUS (st.shift + 7) st.shift code
  let s := if code = 5 then s.setB .VEER_EVENT 1 else if code = 4 || (6 ≤ code && code ≤ 8) then s.setB .VEER_EVENT 0 else s
  s.veerRecord p code

/-- VEER_CHECKS moves on by the checks of a search or a test (R245). -/
def State.countChecks (s : State) : State :=
  let (v, s) := s.fresh
  s.wr .VEER_CHECKS (s.rd .VEER_CHECKS + Config.checkCount v)

/-! ## Planes (R240 to R242) -/

/-- Cells of a window plane. -/
def planeCells : Nat := 262144

/-- The value of a cell. -/
def Plane.at (p : Plane) (c : Nat) : Nat := (alGet p c).getD 0

/-- A plane from its cells' values. -/
def planeOf (n : Nat) (f : Nat → Nat) : Plane :=
  (List.range n).filterMap (fun c => let v := f c; if v = 0 then none else some (c, v))

/-- A plane as bytes, row by row. -/
def Plane.bytes (p : Plane) : List Byte := (List.range planeCells).map (fun c => BitVec.ofNat 8 (Plane.at p c))

/-- A plane after the window has moved by (dx, dy) cells: its cells shift, new ones are 0. -/
def Plane.shift (p : Plane) (dx dy : Int) : Plane :=
  p.filterMap (fun e =>
    let i : Int := (e.1 / 512 : Nat) - dy
    let j : Int := (e.1 % 512 : Nat) - dx
    if 0 ≤ i && i < 512 && 0 ≤ j && j < 512 then some (i.toNat * 512 + j.toNat, e.2) else none)

/-- The world map's place and length: its two planes. -/
def State.worldRange (s : State) : Nat × Nat :=
  (s.rd64 .VEER_WORLD_BASE_LO, 2 * (s.fld .VEER_WORLD_SIZE 31 16 * s.fld .VEER_WORLD_SIZE 15 0))

/-- Veer may read the world map for partition `p`. -/
def State.worldOpen (s : State) (p : Nat) : Bool :=
  s.verdict (.engine 7 p) false s.worldRange.1 s.worldRange.2 == .ok && s.readable s.worldRange.1 s.worldRange.2

/-- What reading the world map does: traffic, and the record of a read that is refused or fails. -/
def State.readWorld (s : State) (p : Nat) : State := (s.fetch (.engine 7 p) s.worldRange.1 s.worldRange.2).2

/-- A cell of the world map (R242): the static plane, or the semantic one; outside the map, and where its read is refused or fails,
static 255, semantic 0. -/
def State.worldCell (s : State) (p : Nat) (semantic : Bool) (i j : Int) : Nat :=
  let w := s.fld .VEER_WORLD_SIZE 31 16
  let h := s.fld .VEER_WORLD_SIZE 15 0
  if 0 ≤ i && i < h && 0 ≤ j && j < w && s.worldOpen p then
    let a := s.rd64 .VEER_WORLD_BASE_LO + i.toNat * w + j.toNat + (if semantic then w * h else 0)
    (s.memByte p a).toNat
  else if semantic then 0 else 255

/-- A layer from the world map after a re-centre: cells that stay keep their values, new ones are copied. -/
def State.worldLayer (s : State) (p : Nat) (semantic : Bool) (old : Option Plane) (dx dy ox oy : Int) : Plane :=
  planeOf planeCells (fun c =>
    let i : Int := (c / 512 : Nat)
    let j : Int := (c % 512 : Nat)
    match old with
    | some q =>
      if 0 ≤ i + dy && i + dy < 512 && 0 ≤ j + dx && j + dx < 512 then
        Plane.at q ((i + dy).toNat * 512 + (j + dx).toNat)
      else s.worldCell p semantic (oy + i) (ox + j)
    | none => s.worldCell p semantic (oy + i) (ox + j))

/-- How many steps of 64 cells the window moves along an axis (R242), for the robot's coordinate and the window's origin there: 0, or
what brings the robot within 32 cells of the centre. -/
def recentreSteps (x : Nat) (o : Int) : Int × Bool :=
  match fixedOf32 x with
  | none => (0, false)
  | some v =>
    let d := 40 * v - (2 * o + 511) * oneFixed
    (quotEven d (128 * oneFixed), decide (128 * oneFixed < d) || decide (d < -(128 * oneFixed)))

/-- The coordinate of a window cell in cm, in units of 2^-512, by the window's origin and the cell's row or column (R242). -/
def windowAt (o : Int) (k : Nat) : Int := (o + k) * 5 * oneFixed

/-- The fused cell under the centre of a window cell (R240), by the motion from the world to the fused grid's pose; none outside the grid. -/
def cellUnder (m : Motion) (n : Nat) (ox oy : Int) (c : Nat) : Option Nat :=
  let q := m.move (windowAt ox (c % 512)) (windowAt oy (c / 512))
  match cellNear n q.2, cellNear n q.1 with
  | some i, some j => some (i * n + j)
  | _, _ => none

/-- The world's own pose. -/
def worldPose : List Nat := [0, 0, 0]

/-- The dynamic layer (R240): by the fused cell under each centre; cells that the fused grid does not cover keep their
value. -/
def dynamicLayer (f : Fused) (old : Plane) (ox oy : Int) : Plane :=
  let m := motionBetween 100 worldPose f.pose
  planeOf planeCells (fun c =>
    match m.bind (fun m => cellUnder m f.size ox oy c) with
    | none => Plane.at old c
    | some k =>
      let lo := sintOf 8 (Plane.at f.cells k)
      if 16 ≤ lo then 255 else if lo ≤ -16 then 0 else 128)

/-- A person of an epoch in the world, in cm in units of 2^-512: the position predicted to the epoch, and the way of one second. -/
structure Person where
  x : Int
  y : Int
  vx : Int
  vy : Int
  deriving DecidableEq, Repr

/-- The persons among an epoch's tracks (R240), whose coordinates are those of the pose at its instant. -/
def Fused.people (f : Fused) (personClass : Nat) : List Person :=
  f.tracks.filterMap (fun w =>
    let st := bitsOf (w.getD 0 0) 23 16
    if (st = 2 || st = 3) && bitsOf (w.getD 0 0) 31 24 = personClass then
      match motionBetween 100 f.pose worldPose, fixedOf32 (w.getD 2 0), fixedOf32 (w.getD 3 0), fixedOf32 (w.getD 5 0), fixedOf32 (w.getD 6 0) with
      | some m, some x, some y, some vx, some vy =>
        let ns := f.time - ((w.getD 11 0 + 2 ^ 32 * w.getD 12 0 : Nat) : Int)
        let q := m.move (100 * (x + quotEven (vx * ns) 1000000000)) (100 * (y + quotEven (vy * ns) 1000000000))
        let v := (fixMul m.c (100 * vx) - fixMul m.s (100 * vy), fixMul m.s (100 * vx) + fixMul m.c (100 * vy))
        some ⟨q.1, q.2, v.1, v.2⟩
      | _, _, _, _, _ => none
    else none)

/-- What a person costs a cell (R240): 255 within the radius of the position, 200 within it of the segment, then a fall to 0 over 50 cm. -/
def Person.cost (q : Person) (rCm : Nat) (x y : Int) : Nat :=
  let d0 := lengthFixed (q.x - x) (q.y - y)
  let v := toSegment (q.x - x) (q.y - y) q.vx q.vy
  let d1 := lengthFixed v.1 v.2
  if d0 ≤ rCm * oneFixed then 255 else if d1 ≤ rCm * oneFixed then 200 else falling 200 d1 (rCm * oneFixed) (50 * oneFixed)

/-- The people layer (R240). -/
def peopleLayer (f : Fused) (personClass rCm : Nat) (ox oy : Int) : Plane :=
  let people := f.people personClass
  planeOf planeCells (fun c =>
    (people.map (fun q => q.cost rCm (windowAt ox (c % 512)) (windowAt oy (c / 512)))).foldl max 0)

/-- The inflation layer (R240): 254 within the radius of a source cell, then from 253 down to 0. -/
def inflationLayer (sources : List Nat) (rCm fallCm : Nat) : Plane :=
  planeOf planeCells (fun c =>
    (sources.map (fun q =>
      let d := lengthFixed (windowAt 0 (c % 512) - windowAt 0 (q % 512)) (windowAt 0 (c / 512) - windowAt 0 (q / 512))
      if d ≤ rCm * oneFixed then 254 else falling 253 d (rCm * oneFixed) (fallCm * oneFixed))).foldl max 0)

/-- The composite of a cell (R241). -/
def compositeCell (l0 l1 l2 l3 l4 l5 l6 : Nat) : Nat :=
  let m := max (max (max l0 l1) (max l2 l3)) (max l5 l6)
  if l4 = 255 then 255 else if 254 ≤ m then m else min 253 (m + l4)

/-- Layers 0 to 7 from layers 0, 1, 2, 4, 5 and 6 (R240, R241). -/
def allLayers (l0 l1 l2 l4 l5 l6 : Plane) (rCm fallCm : Nat) : List Plane :=
  let sources := ((l0 ++ l1 ++ l2 ++ l5 ++ l6).filter (fun e => 254 ≤ e.2)).map (fun e => e.1)
  let l3 := inflationLayer sources rCm fallCm
  [l0, l1, l2, l3, l4, l5, l6,
    planeOf planeCells (fun c => compositeCell (Plane.at l0 c) (Plane.at l1 c) (Plane.at l2 c) (Plane.at l3 c)
      (Plane.at l4 c) (Plane.at l5 c) (Plane.at l6 c))]

/-- A layer of an epoch. -/
def MapEpoch.layer (e : MapEpoch) (k : Nat) : Plane := e.layers.getD k []

/-- An emitted instant opens map epoch e + 1 (R243). -/
def State.openEpoch (s : State) (f : Fused) : State :=
  if s.bit .VEER_CFG 0 then { s with veer := { s.veer with opening := some f } } else s

/-- The epoch built from an opening instant (R240 to R243), and whether the window moved. -/
def State.buildEpoch (s : State) (p : Nat) (f : Fused) : MapEpoch × Bool :=
  let ox0 := sintOf 16 (s.fld .VEER_ORIGIN 31 16)
  let oy0 := sintOf 16 (s.fld .VEER_ORIGIN 15 0)
  let (sx, farX) := recentreSteps (f.pose.getD 0 0) ox0
  let (sy, farY) := recentreSteps (f.pose.getD 1 0) oy0
  let move := farX || farY
  let dx := if move then 64 * sx else 0
  let dy := if move then 64 * sy else 0
  let ox := ox0 + dx
  let oy := oy0 + dy
  let old (k : Nat) : Option Plane := s.veer.epoch.map (fun e => e.layer k)
  let kept (k : Nat) : Plane := Plane.shift ((old k).getD []) dx dy
  let user (k : Nat) : Plane := match alGet s.veer.users k with | some q => q | none => kept k
  let l0 := if move || s.veer.epoch.isNone then s.worldLayer p false (old 0) dx dy ox oy else (old 0).getD []
  let l4 := if move || s.veer.epoch.isNone then s.worldLayer p true (old 4) dx dy ox oy else (old 4).getD []
  let l1 := dynamicLayer f (kept 1) ox oy
  let l2 := peopleLayer f (s.fld .VEER_COST 7 0) (s.fld .VEER_COST 15 8) ox oy
  ({ number := (s.rd .VEER_EPOCH + 1) % 2 ^ 32, ox, oy, pose := f.pose, model := s.veer.model, voxels := s.veer.voxels
     layers := allLayers l0 l1 l2 l4 (user 5) (user 6) (s.fld .VEER_COST 31 24) (s.fld .VEER_COST 23 16) }, move)

/-- EPOCH_PUBLISHED (R242, R243): the epoch being built becomes the newest one, at once. -/
def execEpochPublished (s : State) : Host.Outcome State Fault Refusal :=
  .next <|
    match s.veerOwner, s.veer.opening with
    | some p, some f =>
      let (e, moved) := s.buildEpoch p f
      let s := if moved || s.veer.epoch.isNone then s.readWorld p else s
      let s := s.wr .VEER_EPOCH e.number
      let s := (s.wrF .VEER_ORIGIN 31 16 (uintOf 16 e.ox)).wrF .VEER_ORIGIN 15 0 (uintOf 16 e.oy)
      let s := if moved then s.setB .VEER_EVENT 3 else s
      { s with veer := { s.veer with epoch := some e, opening := none, users := [], lostAt := none } }
    | _, _ => s

/-! ## Collision checks (R245) -/

/-- The squared distance of two points. -/
def dist2 (a b : List Int) : Int :=
  ((a.zip b).map (fun x => (x.1 - x.2) * (x.1 - x.2))).foldl (fun u v => u + v) 0

/-- A sphere of link 0 against layer 7 (R245), by its radius and its centre in the world, in m in units of 2^-512. -/
def sphereOnMap (e : MapEpoch) (thr : Nat) (radius x y : Int) : Bool :=
  (e.layer 7).all (fun c =>
    c.2 < thr || radius * radius < dist2 [(e.ox + (c.1 % 512 : Nat)) * oneFixed / 20, (e.oy + (c.1 / 512 : Nat)) * oneFixed / 20] [x, y])

/-- A sphere against the voxel grid (R245, R246), by its radius and its centre in the base frame: no occupied voxel's centre lies within the
radius.  A grid whose corner is no number is met nowhere. -/
def sphereOnVoxels (g : VoxelGrid) (radius : Int) (centre : List Int) : Bool :=
  match allSome (g.corner.map fixedOf32) with
  | none => true
  | some corner =>
    g.occupied.all (fun v =>
      let at_ : List Nat := [v % 256, v / 256 % 256, v / 65536]
      radius * radius < dist2 ((corner.zip at_).map (fun x => x.1 + (2 * x.2 + 1 : Nat) * oneFixed / 200)) centre)

/-- A configuration (the words of a base pose, the values of its joints) passes R245 against an epoch; one in which a value is no number
does not. -/
def MapEpoch.passes (e : MapEpoch) (thr : Nat) (base : List Nat) (joints : List (Option Int)) : Bool :=
  match e.model with
  | none => true
  | some m =>
    match (allSome (joints.take m.joints)).bind m.spheresAt, poseFixed base with
    | some l, some p =>
      l.all (fun q =>
        (q.link ≠ 0 ||
          (let c := cosFixed p.2.2
           let d := sinFixed p.2.2
           let x := q.centre.getD 0 0
           let y := q.centre.getD 1 0
           sphereOnMap e thr q.radius (fixMul c x - fixMul d y + p.1) (fixMul d x + fixMul c y + p.2.1))) &&
        (match e.voxels with | some g => sphereOnVoxels g q.radius q.centre | none => true))
    | _, _ => false

/-- The values of FP16 joint words. -/
def joints16 (l : List Nat) : List (Option Int) := l.map fixedOf16

/-- LETHAL_THR. -/
def State.lethal (s : State) : Nat := s.fld .VEER_CFG 15 8

/-- The cap of a fusion level in cm/s (R251). -/
def State.speedCap (s : State) (level : Nat) : Nat :=
  [s.fld .VEER_SPEED 31 24, s.fld .VEER_SPEED 23 16, s.fld .VEER_SPEED 15 8, s.fld .VEER_SPEED 7 0].getD level 0

/-- The speed of a point stays within a cap in cm/s. -/
def TrajPoint.within (pt : TrajPoint) (cap : Nat) : Bool :=
  !(of32 (pt.base.getD 3 0)).isNan && !Fp.lt (ofInt cap) (((of32 (pt.base.getD 3 0)).abs.mulExact (ofInt 100)).1)

/-- A trajectory is valid (R250): every point at or after the tick passes R245, and its speed stays within the cap. -/
def State.validTraj (s : State) (e : MapEpoch) (t : Trajectory) : Bool :=
  t.points.all (fun pt => e.passes s.lethal (pt.base.take 3) (joints16 pt.joints) && pt.within (s.speedCap (s.fld .XW_LEVEL 31 28)))

end Sys2Proof.Machine
end

