-- ==== Sys2Proof/Machine/Crosswind.lean ====
section
/-!
DEFINITION. Crosswind (R224 to R237): contributions, the common grid, tracks, the proximity path, the fusion level.
-/

namespace Sys2Proof.Machine

/-! ## The input ring (R227) -/

/-- The length of a FEATURE or DETECT block, and its kind; none for an entry R227 does not allow. -/
def entryKind (e : List Byte) (grid : Nat) : Option (ContribKind × Nat) :=
  if leAt e 0 1 = 0 then
    let x0 := leAt e 0x10 2
    let y0 := leAt e 0x12 2
    let w := leAt e 0x14 2
    let h := leAt e 0x16 2
    let c := leAt e 0x18 1
    if c = 0 || 64 < c || grid < x0 + w || grid < y0 + h then none
    else some (.feature x0 y0 w h c, w * h * (2 + c))
  else if leAt e 0 1 = 1 then some (.detect (leAt e 0x10 2), 32 * leAt e 0x10 2)
  else none

/-- Cells on a side of the grid of the current mode (R229, R230). -/
def State.gridSize (s : State) : Nat := if s.bit .XW_CFG 24 then 128 else 256

/-- An entry of the input ring becomes a contribution, or is dropped (R226, R227, R228, R236). -/
def State.takeEntry (s : State) (p : Nat) (e : List Byte) : State :=
  let n := leAt e 1 1
  let addr := leAt e 8 8
  match entryKind e s.gridSize, (s.strm n).recs.find? (fun r => r.seq == leAt e 4 4) with
  | none, _ => s
  | some _, none => s.setB .XW_EVENT 5
  | some (kind, len), some r =>
    if !s.strmFlag n flagUnsync && !s.aligned n r.unc then s.dropContribution n
    else match s.fetch (.engine 5 p) addr len with
    | (none, s) => s.dropContribution n
    | (some d, s) =>
      if !s.checksOk addr len then (s.checkFailed (.engine 5 p) addr).dropContribution n
      else s.contribute n (bitsOf r.tune0 31 16) r.capture kind d

/-- XW_INPUT_ENTRY (R227): the entry at HEAD is read, once the quad that holds it is awake (R84), and HEAD moves on. -/
def execXwInputEntry (s : State) : Host.Outcome State Fault Refusal :=
  .next <|
    match s.xwOwner with
    | none => s
    | some p =>
      let h := s.fld .XW_IN_HEAD 11 0
      if !s.bit .XW_IN_CTRL 31 || h = s.fld .XW_IN_TAIL 11 0 || s.fencedEngine 5 p then s
      else if !(s.sleepingQuads (s.rd64 .XW_IN_BASE_LO + 32 * h) 32).isEmpty then
        s.wakeAll (s.sleepingQuads (s.rd64 .XW_IN_BASE_LO + 32 * h) 32)
      else
        let s := match s.engineRead (.engine 5 p) (s.rd64 .XW_IN_BASE_LO + 32 * h) 32 with
          | (some e, s) => s.takeEntry p e
          | (none, s) => s
        s.wrF .XW_IN_HEAD 11 0 ((h + 1) % max 1 (s.fld .XW_IN_CTRL 11 0))

/-! ## Emission (R225) -/

/-- The streams with a role bit in the stream tables. -/
def State.roleStreams (s : State) (b : Nat) : List StreamEntry :=
  ((List.range 32).filterMap s.stream).filter (fun e => bitOf e.roles b)

/-- The streams that an instant awaits: the GRID streams with RUN. -/
def State.awaited (s : State) : List Nat :=
  ((s.roleStreams 0).map (fun e => e.number)).filter s.strmRun

/-- A stream has contributed to an instant. -/
def State.contributed (s : State) (k n : Nat) : Bool :=
  s.xw.waiting.any (fun c => c.stream == n && c.instant == k && !c.late)

/-- The contribution set of instant `k` freezes and its emission starts (R225). -/
def State.freeze (s : State) (k : Nat) : State :=
  let missing := (s.awaited.filter (fun n => !s.contributed k n)).foldl (fun m n => m ||| 2 ^ n) 0
  { s with xw := { s.xw with
      emission := some { instant := k, contribs := s.xw.waiting.filter (fun c => c.instant ≤ k), missing }
      waiting := s.xw.waiting.filter (fun c => decide ((k : Int) < c.instant))
      last := some k
      emitAt := ((k, s.now) :: s.xw.emitAt).take 32 } }

/-- Crosswind may emit instant `k`: its output ring runs, no emission is in progress and no later instant is frozen. -/
def State.mayEmit (s : State) (k : Nat) : Bool :=
  s.bit .XW_OUT_CTRL 31 && s.xw.emission.isNone &&
  (match s.xwOwner with | some p => !s.fencedEngine 5 p | none => false) &&
  (match s.xw.last with | some m => m < k | none => true)

/-- INSTANT_EMIT (R225): every awaited stream has contributed to instant `k`. -/
def execInstantEmit (k : Nat) (s : State) : Host.Outcome State Fault Refusal :=
  .next (if s.mayEmit k && s.awaited.all (s.contributed k) then s.freeze k else s)

/-- GRID_HOLD_EXPIRY (R225): HOLD_MS after instant `k`. -/
def execGridHoldExpiry (k : Nat) (s : State) : Host.Outcome State Fault Refusal :=
  .next (if s.mayEmit k then s.freeze k else s)

/-- AUCTION_TIMEOUT (R233): the solver reaches MAX_US; what it has not assigned goes unassigned. -/
def execAuctionTimeout (s : State) : Host.Outcome State Fault Refusal :=
  .next <|
    match s.xw.emission with
    | some e => ({ s with xw := { s.xw with emission := some { e with trunc := true } } }).setB .XW_EVENT 4
    | none => s

/-! ## The grid (R227, R228) -/

/-- How a contribution's pose turns a cell of the instant's grid into one of its own: the motion from the instant's pose to the pose at
its capture, if both poses are numbers. -/
def Contribution.motion (c : Contribution) (pose : List Nat) : Option Motion := motionBetween 100 pose c.pose

/-- The cell of an n x n grid that a cell of the instant's grid takes from a contribution's pose, the nearest one (R228): none outside.
Where a pose is no number, the manual says nothing. -/
def movedCell (n : Nat) (m : Option Motion) (a b : List Nat) (c : Nat) : Option Nat :=
  if a = b then some c
  else match m with
    | some m => m.cell n c
    | none => match Config.moveCell n a b c with | 0 => none | k + 1 => some (k % (n * n))

/-- The mounting words of a stream (R239). -/
def State.mounting (s : State) (n : Nat) : List Nat := (List.range 3).map (fun k => s.rd .XW_MOUNT n k)

/-- What a contribution gives a cell: log-odds, weight, and the byte offset of the cell's first feature channel with the
number of channels. -/
def State.contribCell (s : State) (n : Nat) (pose : List Nat) (x : Contribution × Option Motion) (cell : Nat) : Option (Int × Nat × Nat × Nat) :=
  let c := x.1
  match movedCell n x.2 c.pose pose cell with
  | none => none
  | some k =>
    match c.kind with
    | .detect _ => none
    | .feature x0 y0 w h ch =>
      let i := k / n
      let j := k % n
      if x0 ≤ j && j < x0 + w && y0 ≤ i && i < y0 + h then
        let r := (i - y0) * w + (j - x0)
        some (sintOf 8 (leAt c.data (2 * r) 1), leAt c.data (2 * r + 1) 1, 2 * w * h + r * ch, ch)
      else none
    | .ranges dirs =>
      let v := Config.rangeCell ((List.range (c.data.length / 2)).map (fun m => leAt c.data (2 * m) 2)) dirs (s.mounting c.stream) n k
      some (sintOf 8 (bitsOf v 7 0), bitsOf v 15 8, 0, 0)

/-- Contributions, each with the motion of its cells. -/
def withMotion (pose : List Nat) (cs : List Contribution) : List (Contribution × Option Motion) := cs.map (fun c => (c, c.motion pose))

/-- The weight of a cell from its contributions. -/
def fusedWeight : List Nat → Nat
  | [] => 0
  | [w] => w
  | l => Config.cellWeight l % 256

/-- The log-odds of a cell: the sum with saturation at +-127. -/
def fusedOdds (l : List Int) : Int := l.foldl (fun a x => clampInt (-127) 127 (a + x)) 0

/-- An occupancy cell as 16 bits: log-odds, then weight. -/
def packCell (lo : Int) (w : Nat) : Nat := uintOf 8 lo + 256 * w

/-- The occupancy of a cell fused from some contributions. -/
def State.fusedCell (s : State) (n : Nat) (pose : List Nat) (cs : List (Contribution × Option Motion)) (cell : Nat) : Nat :=
  let l := cs.filterMap (fun c => s.contribCell n pose c cell)
  packCell (fusedOdds (l.map (fun x => x.1))) (fusedWeight (l.map (fun x => x.2.1)))

/-- The weighted mean of feature values in FP32 (R227): the exact mean within what FP32 arithmetic makes of it in any order of
operations; a mean without weight is free. -/
def featureMean (l : List (Nat × Nat)) : Nat :=
  let w : Int := ((l.map Prod.snd).sum : Nat)
  let xs := l.filterMap (fun x => (fixedOf32 x.1).map (fun v => (v, x.2)))
  if w = 0 || xs.length ≠ l.length then Config.featMean l
  else
    let sum := xs.foldl (fun a x => a + x.1 * (x.2 : Int)) 0
    let mag := xs.foldl (fun a x => a + x.1.natAbs * (x.2 : Int)) 0
    fixedNear (quotEven sum w) (roundings (l.length + 2) (mag / w)) (Config.featMean l)

/-- A feature channel of a cell (R227): the weighted mean, rounded once to the output format; 0 without a contribution. -/
def State.fusedFeature (s : State) (n : Nat) (pose : List Nat) (cs : List (Contribution × Option Motion)) (fmt cell ch : Nat) : Nat :=
  let l := cs.filterMap (fun c =>
    match s.contribCell n pose c cell with
    | some (_, w, o, k) => if ch < k then some ((fpFmt 3).decode (leAt c.1.data (o + ch) 1), w) else none
    | none => none)
  match l with
  | [] => 0
  | [(x, w)] => if w = 0 then (convFloat fmt none (of32 (Config.featMean [(x.bits32, w)]))).1 else (convFloat fmt none x).1
  | l => (convFloat fmt none (of32 (featureMean (l.map (fun y => (y.1.bits32, y.2)))))).1

/-! ## SUSPECT_JUDGE (R224) -/

/-- The disagreement of a stream with the others: the cells that both sides weigh, and those in which one reads occupied and
the other free. -/
def disagreement (mine others : List Nat) : Nat × Nat :=
  let both := (mine.zip others).filter (fun x => 16 ≤ x.1 / 256 && 16 ≤ x.2 / 256)
  let lo (v : Nat) : Int := sintOf 8 (v % 256)
  let bad := both.filter (fun x => (16 ≤ lo x.1 && lo x.2 ≤ -16) || (lo x.1 ≤ -16 && 16 ≤ lo x.2))
  (both.length, bad.length)

/-- Every GRID stream that overlaps at least two others is judged, by the thresholds of its newest sample (R216, R224). -/
def State.judgeSuspects (s : State) (n : Nat) (pose : List Nat) (cs : List (Contribution × Option Motion)) : State :=
  let grid := s.roleStreams 0
  grid.foldl (fun s e =>
    let others := grid.filter (fun o => o.number ≠ e.number && (o.sectors &&& e.sectors) ≠ 0)
    if others.length < 2 then s
    else
      let cells (f : Contribution → Bool) := (List.range (n * n)).map (s.fusedCell n pose (cs.filter (fun c => f c.1)))
      let (all, bad) := disagreement (cells (fun c => c.stream == e.number))
        (cells (fun c => others.any (fun o => o.number == c.stream)))
      let tune := match (s.strm e.number).recs with | r :: _ => r.tune0 | [] => s.rd .SNS_S_TUNE0 e.number
      let thr := bitsOf tune 15 8
      let m := if thr * all < 256 * bad then (s.strm e.number).disagree + 1 else 0
      let s := s.setStrm e.number (fun r => { r with disagree := m })
      if max 1 (bitsOf tune 7 0) ≤ m then s.setStrmFlag e.number flagSuspect true else s) s

/-! ## Tracks (R232, R233) -/

/-- The words of track `i`. -/
def State.trackWords (s : State) (i : Nat) : List Nat := (List.range 16).map (fun k => s.rd .XW_TRK i k)

/-- Track words written. -/
def State.setTrack (s : State) (i : Nat) (w : List Nat) : State :=
  (w.take 16).zipIdx.foldl (fun s x => s.wr .XW_TRK x.1 i x.2) s

/-- STATE of a track: 0 free, 1 tentative, 2 confirmed, 3 coasting. -/
def trackState (w : List Nat) : Nat := bitsOf (w.getD 0 0) 23 16
/-- HITS. -/
def trackHits (w : List Nat) : Nat := bitsOf (w.getD 1 0) 7 0
/-- MISSES. -/
def trackMisses (w : List Nat) : Nat := bitsOf (w.getD 1 0) 15 8

/-- A field of a track word replaced. -/
def putField (w : List Nat) (k hi lo v : Nat) : List Nat :=
  listUpdate w k (fun x => (fieldSet (BitVec.ofNat 32 x) hi lo v).toNat)

/-- STATE set. -/
def withState (w : List Nat) (st : Nat) : List Nat := putField w 0 23 16 st

/-- The time of the last update of a track. -/
def trackTime (w : List Nat) : Nat := w.getD 11 0 + 2 ^ 32 * w.getD 12 0

/-- A coordinate after `ns` at a velocity, in FP32: free within its arithmetic. -/
def advanced (x v : Nat) (ns : Int) (c : Nat) : Nat :=
  match fixedOf32 x, fixedOf32 v with
  | some x, some v =>
    let d := quotEven (v * ns) 1000000000
    fixedNear (x + d) (roundings 1 (x.natAbs + 4 * d.natAbs : Nat)) c
  | _, _ => c

/-- A track predicted to an instant at constant velocity (R232): x and y advance, z and the velocities stay; the variances are free, as R232
gives no process noise. -/
def predicted (t : Int) (w : List Nat) : List Nat :=
  let ns := t - trackTime w
  let own := Config.predictTrack w ns
  w.zipIdx.map (fun x =>
    if x.2 = 2 || x.2 = 3 then advanced x.1 (w.getD (x.2 + 3) 0) ns (own x.2)
    else if 7 ≤ x.2 && x.2 < 11 then own x.2 else x.1)

/-- The exact ratio dx^2 / (p + q) as a fraction of integers, for FP32 words: none when it is no number. -/
def normSq (x1 x2 p q : Nat) : Option (Nat × Nat) :=
  let d := ((of32 x1).addExact (of32 x2).neg).1
  let v := ((of32 p).addExact (of32 q)).1
  match d, v with
  | .fin _ m e, .fin false (n + 1) f =>
    let a := m * m
    let k := 2 * e - f
    if 0 ≤ k then some (a * 2 ^ k.toNat, n + 1) else some (a, (n + 1) * 2 ^ (-k).toNat)
  | _, _ => none

/-- The cost of a detection against a track (R233). -/
def pairCostOf (w d : List Nat) : Nat :=
  match normSq (w.getD 2 0) (d.getD 0 0) (w.getD 7 0) (d.getD 3 0), normSq (w.getD 3 0) (d.getD 1 0) (w.getD 8 0) (d.getD 4 0) with
  | some (a, b), some (c, e) => min 0xFFFE (divEven (64 * (a * e + c * b)) (b * e))
  | _, _ => min 0xFFFE (Config.pairCost (w ++ d))

/-- Every assignment of detections to tracks with its cost: pairs above MISS_COST are forbidden, a detection may go unassigned at
MISS_COST (R233). -/
def assignments (cost : Nat → Nat → Nat) (miss : Nat) : List Nat → List Nat → List (List (Nat × Nat) × Nat)
  | [], _ => [([], 0)]
  | d :: ds, ts =>
    ((assignments cost miss ds ts).map (fun x => (x.1, x.2 + miss))) ++
    ((ts.filter (fun t => cost d t ≤ miss)).map (fun t =>
      (assignments cost miss ds (ts.erase t)).map (fun x => ((d, t) :: x.1, x.2 + cost d t)))).flatten

/-- The assignment that the solver finds (R233): one whose total is at most the minimum plus n x epsilon; any one after a time-out. -/
def assign (cost : Nat → Nat → Nat) (miss eps : Nat) (trunc : Bool) (ds ts : List Nat) : List (Nat × Nat) :=
  let all := assignments cost miss ds ts
  let least := (minBy (fun x => x) (all.map (fun x => x.2))).getD 0
  let good := if trunc then all else all.filter (fun x => x.2 * 1024 ≤ least * 1024 + ds.length * eps)
  let k := Config.assignment (good.map (fun x => x.2))
  ((good.getD (k % max 1 good.length) ([], 0))).1

/-- A detection's words moved from one pose to another (R228): x and y by the motion, within what FP32 makes of it; z stays; the
variances, which a turn mixes with a covariance that no entry holds, are free. -/
def movedDetection (a b w : List Nat) : List Nat :=
  let own := Config.movePoint a b w
  match motionBetween 1 a b, fixedOf32 (w.getD 0 0), fixedOf32 (w.getD 1 0) with
  | some m, some x, some y =>
    let q := m.move x y
    let tol := roundings 8 (x.natAbs + y.natAbs + m.tx.natAbs + m.ty.natAbs : Nat)
    w.zipIdx.map (fun v =>
      if v.2 = 0 then fixedNear q.1 tol (own 0)
      else if v.2 = 1 then fixedNear q.2 tol (own 1)
      else if v.2 = 3 || v.2 = 4 then own v.2 else v.1)
  | _, _, _ => w.zipIdx.map (fun v => if v.2 < 5 then own v.2 else v.1)

/-- The detections of a contribution, as their eight words moved to the instant's pose (R232). -/
def Contribution.detections (c : Contribution) (pose : List Nat) : List (List Nat) :=
  match c.kind with
  | .detect n => (List.range n).map (fun k =>
      let w := (List.range 8).map (fun i => leAt c.data (32 * k + 4 * i) 4)
      if c.pose = pose then w else movedDetection c.pose pose w)
  | _ => []

/-- A Kalman update of one coordinate and its variance by a measured value and its variance (R232): x + K (z - x) and (1 - K) P with
K = P / (P + R), within what FP32 makes of them; free where P + R is not positive or a word is no number. -/
def kalman (x p z r cx cp : Nat) : Nat × Nat :=
  match fixedOf32 x, fixedOf32 p, fixedOf32 z, fixedOf32 r with
  | some x, some p, some z, some r =>
    if p < 0 || r < 0 || p + r = 0 then (cx, cp)
    else
      let d := quotEven (p * (z - x)) (p + r)
      (fixedNear (x + d) (roundings 1 (x.natAbs + 6 * d.natAbs : Nat)) cx, fixedNear (quotEven (p * r) (p + r)) (roundings 6 p) cp)
  | _, _, _, _ => (cx, cp)

/-- A matched track (R232): the Kalman update, MISSES 0, HITS one higher, confirmed at 3.  The update of x, y and their variances follows
from the words of track and detection; that of z and of the velocities rests on covariances that no entry holds, and is free. -/
def matchedTrack (t : Int) (w d : List Nat) : List Nat :=
  let own := Config.updateTrack w d
  let x := kalman (w.getD 2 0) (w.getD 7 0) (d.getD 0 0) (d.getD 3 0) (own 2) (own 7)
  let y := kalman (w.getD 3 0) (w.getD 8 0) (d.getD 1 0) (d.getD 4 0) (own 3) (own 8)
  let u := w.zipIdx.map (fun v =>
    match v.2 with
    | 2 => x.1
    | 3 => y.1
    | 7 => x.2
    | 8 => y.2
    | 4 | 5 | 6 | 9 | 10 => own v.2
    | _ => v.1)
  let h := min 255 (trackHits w + 1)
  let u := putField (putField u 1 7 0 h) 1 15 8 0
  let u := listUpdate (listUpdate u 11 (fun _ => uintOf 64 t % 2 ^ 32)) 12 (fun _ => uintOf 64 t / 2 ^ 32)
  if trackState w = 3 || 3 ≤ h then withState u 2 else u

/-- An unmatched track (R232): MISSES one higher; it coasts, or is freed. -/
def missedTrack (coast : Nat) (w : List Nat) : List Nat :=
  let m := trackMisses w + 1
  let u := putField w 1 15 8 (min 255 m)
  if coast < m || (trackState w = 1 && 2 < m) then withState u 0
  else if trackState w = 2 then withState u 3 else u

/-- The words of a track that a detection opens (R232), with its ID. -/
def openedTrack (t : Int) (id : Nat) (d : List Nat) : List Nat :=
  [id % 2 ^ 16 + 2 ^ 16 + 2 ^ 24 * bitsOf (d.getD 5 0) 7 0, 1, d.getD 0 0, d.getD 1 0, d.getD 2 0,
    Config.openTrack d 0, Config.openTrack d 1, d.getD 3 0, d.getD 4 0, Config.openTrack d 2, Config.openTrack d 3,
    uintOf 64 t % 2 ^ 32, uintOf 64 t / 2 ^ 32, 0, 0, 0]

/-- A detection without a track opens a tentative one in the lowest free entry (R232). -/
def State.openTrack (s : State) (t : Int) (d : List Nat) : State :=
  match (List.range 512).find? (fun i => trackState (s.trackWords i) = 0) with
  | none => s.setB .XW_EVENT 3
  | some i =>
    let (id, s) := s.fresh
    s.setTrack i (openedTrack t id d)

/-- TRACK_UPDATE (R232, R233): the tracks are predicted to the instant, assigned and updated. -/
def State.updateTracks (s : State) (t : Int) (pose : List Nat) (e : Emission) : State :=
  let live := (List.range 512).filter (fun i => trackState (s.trackWords i) ≠ 0)
  let pred := live.map (fun i => (i, predicted t (s.trackWords i)))
  let dets := ((e.contribs.map (fun c => c.detections pose)).flatten).take 512
  let word (i : Nat) : List Nat := (alGet pred i).getD []
  let pairs := assign (fun d i => pairCostOf (word i) (dets.getD d [])) (s.fld .XW_TRACK 31 16) (s.fld .XW_AUCTION 31 16) e.trunc
    (List.range dets.length) live
  let s := live.foldl (fun s i =>
    match pairs.find? (fun x => x.2 == i) with
    | some x => s.setTrack i (matchedTrack t (word i) (dets.getD x.1 []))
    | none => s.setTrack i (missedTrack (s.fld .XW_TRACK 7 0) (word i))) s
  (dets.zipIdx.filter (fun x => !pairs.any (fun y => y.1 == x.2))).foldl (fun s x => s.openTrack t x.1) s

/-! ## The output ring (R229, R230) -/

/-- Channels, bytes of a feature and its format (R229, R230). -/
def State.featureForm (s : State) : Nat × Nat × Nat :=
  if s.bit .XW_CFG 24 then (16, 2, 2)
  else if s.fld .XW_CFG 23 20 = 1 then (64, 2, 1) else (64, 1, 3)

/-- The bytes of an output buffer. -/
def State.bufferBytes (s : State) : Nat :=
  let n := s.gridSize
  let (ch, b, _) := s.featureForm
  512 + 2 * n * n + n * n * ch * b + 32768

/-- The header of an emitted instant (R229). -/
def instantHeader (instant level late tracks contrib missing : Nat) (t : Int) (pose : List Nat) : List Byte :=
  sliceBytes (bytesLE 4 instant ++ bytesLE 1 level ++ bytesLE 1 late ++ bytesLE 2 tracks ++ bytesLE 4 contrib ++
    bytesLE 4 missing ++ bytesLE 8 (uintOf 64 t) ++ ((List.range 3).map (fun k => bytesLE 4 (pose.getD k 0))).flatten) 0 512

/-- The output buffer of an instant (R229, R230). -/
def State.instantBytes (s : State) (e : Emission) (t : Int) (pose : List Nat) : List Byte :=
  let n := s.gridSize
  let (ch, b, fmt) := s.featureForm
  let tracks := (List.range 512).map s.trackWords
  let cs := withMotion pose e.contribs
  let contrib := e.contribs.foldl (fun m c => m ||| 2 ^ c.stream) 0
  let late := (e.contribs.filter (fun c => c.late)).length
  instantHeader e.instant (s.fld .XW_LEVEL 31 28) late (tracks.filter (fun w => trackState w ≠ 0)).length contrib e.missing t pose ++
  ((List.range (n * n)).map (fun c => bytesLE 2 (s.fusedCell n pose cs c))).flatten ++
  ((List.range (n * n * ch)).map (fun k => bytesLE b (s.fusedFeature n pose cs fmt (k / ch) (k % ch)))).flatten ++
  ((tracks.map (fun w => (w.map (bytesLE 4)).flatten)).flatten)

/-- The fused grid and the tracks as Veer takes them (R240). -/
def State.fusedOf (s : State) (e : Emission) (t : Int) (pose : List Nat) : Fused :=
  let n := s.gridSize
  { size := n, pose, time := t, cells := planeOf (n * n) (s.fusedCell n pose (withMotion pose e.contribs))
    tracks := ((List.range 512).map s.trackWords).filter (fun w => trackState w ≠ 0) }

/-- EMISSION_DONE (R224, R229, R232, R243): the buffer is written once RELEASE leaves it free and the quads of the ring are awake (R84),
EMITTED rises, and a Veer epoch opens. -/
def execEmissionDone (s : State) : Host.Outcome State Fault Refusal :=
  .next <|
    match s.xw.emission, s.xwOwner with
    | some e, some p =>
      let base := s.rd64 .XW_OUT_BASE_LO
      let count := s.fld .XW_OUT_CTRL 3 0
      let k := s.getNum base 4
      let size := 512 + count * s.bufferBytes
      let v := s.verdict (.engine 5 p) true base size
      if v ≠ .ok then ({ s with xw := { s.xw with emission := none } }).refusalRecord (.engine 5 p) v base
      else if !(s.sleepingQuads base size).isEmpty then s.wakeAll (s.sleepingQuads base size)
      else if !ringFree k (s.getNum (base + 4) 4) count then s
      else
        let t : Int := e.instant * s.gridPeriod
        let s := s.readPoses
        let pose := s.poseNear t
        let s := s.updateTracks t pose e
        let s := s.judgeSuspects s.gridSize pose (withMotion pose e.contribs)
        let d := s.instantBytes e t pose
        let f := s.fusedOf e t pose
        let s := s.traffic (.engine 5 p) base (s.bufferBytes + 4)
        let s := s.storeChecked p (base + 512 + (k % max 1 count) * s.bufferBytes) d
        let s := s.storeChecked p base (bytesLE 4 (k + 1))
        let s := (s.bump .XW_INSTANT).openEpoch f
        { s with xw := { s.xw with emission := none, lastEmit := some s.now, gridDown := false } }
    | _, _ => s

/-! ## Proximity and level (R231, R234, R235) -/

/-- A sector's distance field. -/
def State.setSector (s : State) (j v : Nat) : State :=
  s.wrF .XW_PROX_SEC (16 * (j % 2) + 15) (16 * (j % 2)) v (j / 2)

/-- The payload of a stream's newest sample: where it lies. -/
def State.newestData (s : State) (e : StreamEntry) : Nat := e.buffer (s.rd .SNS_S_SEQ e.number % max 1 e.bufCount) + 512

/-- A range in mm, shortened by a margin in cm (R231); 0 stays no return. -/
def shortened (cut r : Nat) : Nat := if r = 0 then 0 else max 1 (r - 10 * cut)

/-- A sample of a PROX stream that the proximity path takes: its record, the pose at its capture, its ranges, shortened by WIDEN_CM
while the stream is UNSYNC, and their directions. -/
structure ProxSample where
  stream : StreamEntry
  record : SampleRec
  pose : List Nat
  ranges : List Nat
  dirs : List Nat
  deriving DecidableEq, Repr

/-- The newest sample of a PROX stream as the proximity path takes it: the stream is neither SUSPECT nor LOST, the sample's checks match,
its capture lies in the pose ring's span. -/
def State.proxSample (s : State) (e : StreamEntry) : Option ProxSample :=
  let p := (s.streamOwner e.number).getD 0xFF
  let b := s.newestData e
  let cut (r : SampleRec) : Nat := if s.strmFlag e.number flagUnsync then bitsOf r.tune1 15 0 else 0
  if s.strmFlag e.number flagSuspect || s.strmFlag e.number flagLost || !s.checksOk b e.sampleBytes then none
  else match (s.strm e.number).recs with
    | r :: _ =>
      (match s.poseAt r.capture, (s.readAs (.engine 6 p) b e.sampleBytes).1, s.directions 6 p e with
      | some q, some d, some dirs => some ⟨e, r, q, (e.ranges d).map (shortened (cut r)), dirs⟩
      | _, _, _ => none)
    | [] => none

/-- What reading the samples of the PROX streams does: traffic, and the records of reads that are refused or fail. -/
def State.readProx (s : State) : State :=
  (s.roleStreams 1).foldl (fun s e =>
    let p := (s.streamOwner e.number).getD 0xFF
    if (s.strm e.number).recs.isEmpty || s.strmFlag e.number flagSuspect || s.strmFlag e.number flagLost then s
    else ((s.fetch (.engine 6 p) (s.newestData e) e.sampleBytes).2).readDirections 6 p e) s.readPoses

/-- The points of a sample in the robot's frame at the current pose (R231), in mm in units of 2^-512: those whose height lies in the
band.  None where a pose is no number. -/
def ProxSample.points (x : ProxSample) (mounting now : List Nat) (lo hi : Int) : Option (List (Int × Int)) :=
  (motionBetween 1000 x.pose now).map (fun m =>
    ((x.ranges.zip x.dirs).filter (fun r => r.1 ≠ 0)).filterMap (fun r =>
      let q := mounted mounting (rangePoint r.1 r.2)
      if lo * oneFixed ≤ q.2.2 && q.2.2 ≤ hi * oneFixed then some (m.move q.1 q.2.1) else none))

/-- The distances of the 16 sectors (R231): none without valid proximity data; the shortest horizontal distance of the points in the
sector; free where valid data holds no point there. -/
def State.sectorDistances (s : State) : List (Option Nat) :=
  let now := s.poseNear s.robotNow
  let samples := (s.roleStreams 1).filterMap s.proxSample
  let points := samples.map (fun x =>
    (x, x.points (s.mounting x.stream.number) now (s.fld .XW_PROX_Z 15 0) (s.fld .XW_PROX_Z 31 16)))
  (List.range 16).map (fun j =>
    if !samples.any (fun x => bitOf x.stream.sectors j && decide (s.now < x.record.raw + 2000 * x.stream.periodUs)) then none
    else
      let ds := points.flatMap (fun x => match x.2 with
        | some l => (l.filter (fun q => inSector j q.1 q.2)).map (fun q => distanceCm q.1 q.2)
        | none => [Config.proxDistance x.1.ranges x.1.dirs (s.mounting x.1.stream.number) x.1.pose now j])
      match ds with
      | [] => some (Config.emptySector j % 0xFFFF)
      | d :: l => some (min 0xFFFE (l.foldl min d)))

/-- A GRID stream that is not UNSYNC, with RUN or DEGRADED, covers a sector (R234). -/
def State.gridCovers (s : State) (j : Nat) : Bool :=
  (s.roleStreams 0).any (fun e => bitOf e.sectors j && !s.strmFlag e.number flagUnsync &&
    (s.strmRun e.number || s.strmFlag e.number flagDegraded))

/-- The level of the table of R234 with the bit of its cause, before the step for UNSYNC. -/
def State.tableLevel (s : State) : Nat × Nat :=
  let roles := ((List.range 32).filterMap s.stream).filter (fun e => e.roles % 8 ≠ 0 && !s.strmFlag e.number flagUnsync)
  let grid3 : Bool := s.xw.gridDown || (match s.xw.lastEmit with
    | some r => decide (r + 3 * s.gridPeriod < s.now)
    | none => true)
  if s.xw.proxDown || s.xw.noProx.any (fun n => 3 ≤ n) then (4, 8)
  else if grid3 then (3, 4)
  else if (List.range 16).any (fun j => !s.gridCovers j) then (2, 2)
  else if roles.any (fun e => !s.strmRun e.number) then (1, 1)
  else (0, 0)

/-- The level of R234: one step higher, to at most F4, while a stream is UNSYNC; with its causes. -/
def State.dueLevel (s : State) : Nat × Nat :=
  let (l, c) := s.tableLevel
  if (List.range 32).any (fun n => (s.stream n).isSome && s.strmFlag n flagUnsync) then (min 4 (l + 1), c + 16) else (l, c)

/-- The level set, with its causes; a change sets LEVEL (R235). -/
def State.setLevel (s : State) (l c : Nat) : State :=
  let s := if s.fld .XW_LEVEL 31 28 = l then s else s.setB .XW_EVENT 0
  (s.wrF .XW_LEVEL 31 28 l).wrF .XW_LEVEL 20 16 c

/-- PROX_TICK (R228, R231, R234, R235): the distances of the 16 sectors, then the fusion level, which rises at once. -/
def execProxTick (s : State) : Host.Outcome State Fault Refusal :=
  .next <|
    let noPose : Bool := (s.roleStreams 1).any (fun e =>
      !s.strmFlag e.number flagSuspect && !s.strmFlag e.number flagLost &&
      (match (s.strm e.number).recs with | r :: _ => (s.poseAt r.capture).isNone | [] => false))
    let s := s.readProx
    let d := s.sectorDistances
    let s := if noPose then s.setB .XW_EVENT 2 else s
    let s := d.zipIdx.foldl (fun s x => s.setSector x.2 (x.1.getD 0xFFFF)) s
    let counts := d.zipIdx.map (fun x => if x.1.isSome then 0 else min 3 (s.xw.noProx.getD x.2 3 + 1))
    let s := { s with xw := { s.xw with noProx := counts, proxDown := false } }
    let lost := ((List.range 16).filter (fun j => !s.gridCovers j || (d.getD j none).isNone)).foldl (fun m j => m ||| 2 ^ j) 0
    let s := s.wrF .XW_LEVEL 15 0 lost
    let (l, c) := s.dueLevel
    if s.fld .XW_LEVEL 31 28 ≤ l then s.setLevel l c else s

/-- LEVEL_HOLD_EXPIRY (R235): a lower level's condition has held for XW_LEVEL_HOLD; the level falls one step. -/
def execLevelHoldExpiry (s : State) : Host.Outcome State Fault Refusal :=
  .next <|
    let cur := s.fld .XW_LEVEL 31 28
    let (l, c) := s.dueLevel
    if l < cur then s.setLevel (cur - 1) (if l = cur - 1 then c else s.fld .XW_LEVEL 20 16) else s

/-! ## Resets (R236, R237) -/

/-- Rung 2 of the grid and track engine: the instant in progress is discarded, its contributions fold into the next one
as late; F3 until the next emission. -/
def State.gridRung2 (s : State) : State :=
  match s.xw.emission with
  | some e =>
    { s with xw := { s.xw with
        emission := none, gridDown := true
        waiting := (e.contribs.map (fun c => { c with instant := (e.instant + 1 : Nat), late := true })) ++ s.xw.waiting } }
  | none => { s with xw := { s.xw with gridDown := true } }

/-- Rung 2 of the proximity engine: F4 until the next proximity period completes. -/
def State.proxRung2 (s : State) : State :=
  ({ s with xw := { s.xw with proxDown := true } }).setLevel 4 8

end Sys2Proof.Machine
end

