-- ==== Sys2Proof/Machine/Pool.lean ====
section
/-!
DEFINITION. The pool of warm-tier extents (R89 to R95): who holds what, the choice of an extent and its eviction,
assignment, software extents; and the pages of sequences, which an eviction ends (R154, R157, R158).
-/

namespace Sys2Proof.Machine

/-! ## Who holds what (R89, R90) -/

/-- The number of extents in the pool. -/
def poolSize : Nat := 65536

/-- The warm-tier windows of a partition, which hold their extents pinned. -/
def State.warmWindows (s : State) (p : Nat) : List Window := (s.part p).windows.filter (fun w => w.tier == 0)

/-- The extents in a partition's warm-tier windows. -/
def State.windowExtents (s : State) (p : Nat) : Nat := ((s.warmWindows p).map (fun w => w.size)).sum

/-- The extents that a partition holds, windows and allocations in progress included. -/
def State.heldBy (s : State) (p : Nat) : Nat :=
  s.windowExtents p + (s.upool.extents.filter (fun x => x.2.part == p)).length +
    (s.upool.grants.filter (fun g => g.taker.part == p)).length

/-- The pinned extents of a partition. -/
def State.pinnedBy (s : State) (p : Nat) : Nat :=
  s.windowExtents p + (s.upool.extents.filter (fun x => x.2.part == p && x.2.pinned)).length +
    (s.upool.grants.filter (fun g => g.taker.part == p && g.taker.pinned)).length

/-- An extent is held, or being assigned. -/
def State.extentTaken (s : State) (e : Nat) : Bool :=
  (alGet s.upool.extents e).isSome || s.upool.grants.any (fun g => g.ext == e) ||
    s.partList.any (fun p => (s.warmWindows p).any (fun w => w.base ≤ e && e < w.base + w.size))

/-- The free extent with the lowest index: it is extent 0, or it follows a held one. -/
def State.lowestFree (s : State) : Option Nat :=
  let after := 0 :: (s.upool.extents.map (fun x => x.1 + 1) ++ s.upool.grants.map (fun g => g.ext + 1) ++
    s.partList.flatMap (fun p => (s.warmWindows p).map (fun w => w.base + w.size)))
  minBy id (after.filter (fun e => e < poolSize && !s.extentTaken e))

/-- The free extents (MEM_POOL_FREE); none before a chip image is active. -/
def State.freeExtents (s : State) : Nat :=
  if s.spl.chip.isNone then 0 else poolSize - ((List.range 8).map s.heldBy).sum

/-- The surplus of R90 (MEM_POOL_SURPLUS). -/
def State.surplusExtents (s : State) : Nat :=
  if s.spl.chip.isNone then 0 else poolSize - ((List.range 8).map (fun p => (s.part p).poolQuota)).sum

/-! ## Pages of sequences (R139, R142, R157, R158) -/

/-- The register entry word of a sequence. -/
def State.seqWord (s : State) (n k : Nat) : Nat := s.rd .SEQ_ENT n k

/-- STATE of a sequence: 0 FREE, 1 IDLE, 2 ACTIVE, 3 PAGE_WAIT, 4 CLOSING, 5 ENDED. -/
def State.seqState (s : State) (n : Nat) : Nat := s.fld .SEQ_ENT 31 28 n 0

/-- STATE set. -/
def State.setSeqState (s : State) (n st : Nat) : State := s.wrF .SEQ_ENT 31 28 st n 0

/-- PAGES per layer of a sequence. -/
def State.seqPages (s : State) (n : Nat) : Nat := s.rd .SEQ_ENT n 6

/-- What the engine keeps of a sequence. -/
def State.seqRec (s : State) (n : Nat) : SeqRec := (alGet s.sqe.seqs n).getD ⟨0, 0, 0, 1, 1⟩

/-- The address of entry `k` of the page table of layer `l` (R139). -/
def SeqRec.entryAt (r : SeqRec) (l k : Nat) : Nat := r.mem + r.layers * 0x10000 + l * 4 * r.stride + 4 * k

/-- The page numbers of layer `l` of a sequence, in table order. -/
def State.seqTable (s : State) (n l : Nat) : List Nat :=
  (List.range (s.seqPages n)).map (fun k => bitsOf (s.getNum ((s.seqRec n).entryAt l k) 4) 20 0)

/-- Every page of a sequence, once for each place in its tables. -/
def State.seqAllPages (s : State) (n : Nat) : List Nat := (List.range (s.seqRec n).layers).flatMap (s.seqTable n)

/-- What the engine keeps of a partition. -/
def State.seqPart (s : State) (p : Nat) : SeqPart := (alGet s.sqe.parts p).getD {}

/-- That set. -/
def State.setSeqPart (s : State) (p : Nat) (x : SeqPart) : State :=
  { s with sqe := { s.sqe with parts := alSet s.sqe.parts p x } }

/-- A page is in a feed of its partition: to be sent, or sent and not yet released. -/
def SeqPart.feeds? (x : SeqPart) (g : Nat) : Bool :=
  x.feeds.any (fun f => f.2.queue.any (fun y => y.2 == g) || f.2.sent.any (fun y => y.2 == g))

/-- The pages that keep an extent of the engine busy (R152, R159): pages of a sequence in an open step or in the feed, the new pages of a
flush in progress, and released pages before their epoch. -/
def State.pageBusy (s : State) (g : Nat) : Bool :=
  match alGet s.sqe.pages g with
  | none => false
  | some pg =>
    pg.count = 0 || (s.seqPart pg.part).feeds? g || (s.seqPart pg.part).builds.any (fun b => b.pages.contains g) ||
      (s.seqPart pg.part).steps.any (fun st => st.ents.any (fun e => (s.seqAllPages e.seq).contains g))

/-- The pages of an extent. -/
def pagesOf (e : Nat) : List Nat := (List.range 32).map (fun k => 32 * e + k)

/-- An extent goes back to the pool; the partition that held it is remembered (R93). -/
def State.releaseExtent (s : State) (e : Nat) : State :=
  match alGet s.upool.extents e with
  | none => s
  | some x =>
    { s with upool := { s.upool with
        extents := mapErase e s.upool.extents
        lastPart := alSet s.upool.lastPart e x.part } }

/-- A 32-bit counter has reached a value. -/
def reached (c v : Nat) : Bool := 0 ≤ sintOf 32 (uintOf 32 ((c : Int) - v))

/-- Pages of a partition whose count is 0 and whose REL_EPOCH has ended return to the free list; an extent of the
engine whose 32 pages are all free returns to the pool (R158). -/
def State.reapPages (s : State) (p : Nat) : State :=
  let gone := (s.sqe.pages.filter (fun x => x.2.part == p && x.2.count == 0 && reached (s.seqPart p).ended x.2.rel)).map Prod.fst
  let s := { s with sqe := { s.sqe with pages := s.sqe.pages.filter (fun x => !gone.contains x.1) } }
  (gone.map (fun g => g / 32)).eraseDups.foldl (fun s e =>
    if (pagesOf e).all (fun g => (alGet s.sqe.pages g).isNone) then s.releaseExtent e else s) s

/-- A release of a page (R158): its count falls by 1 and REL_EPOCH is the newest epoch begun. -/
def State.releasePage (s : State) (g : Nat) : State :=
  match alGet s.sqe.pages g with
  | none => s
  | some pg =>
    { s with sqe := { s.sqe with
        pages := alSet s.sqe.pages g { pg with count := pg.count - 1, rel := s.rd .SEQ_P_EPOCH pg.part } } }

/-- A sequence releases all its pages. -/
def State.releaseSeqPages (s : State) (n : Nat) : State :=
  let r := s.seqRec n
  let s := (s.seqAllPages n).foldl State.releasePage s
  let s := s.wr .SEQ_ENT 0 n 6
  let s := s.zero r.table.1 r.table.2
  s.reapPages r.part

/-- A sequence becomes ENDED with a status (R143, R161): its pages are released, a record of class engine command, the interrupt
where IRQ_EN.ENDED asks for it (R163). -/
def State.endSequence (s : State) (n status : Nat) : State :=
  let r := s.seqRec n
  let s := s.releaseSeqPages n
  let s := if s.bit .SEQ_P_IRQ_EN 2 r.part then s.pulse (.sequence r.part) else s
  let s := (s.setSeqState n 5).wrF .SEQ_ENT 23 16 status n 0
  s.record { cls := 0x05, part := r.part, source := 0x2002, detail := status, context := n }

/-- A sequence becomes FREE (R143): its pages are released and its entry is cleared. -/
def State.freeSequence (s : State) (n : Nat) : State :=
  let s := s.releaseSeqPages n
  let s := (List.range 16).foldl (fun s k => s.wr .SEQ_ENT 0 n k) s
  { s with sqe := { s.sqe with seqs := mapErase n s.sqe.seqs } }

/-- The open sequences of a partition. -/
def State.seqsOf (s : State) (p : Nat) : List Nat := (s.sqe.seqs.filter (fun x => x.2.part == p)).map Prod.fst

/-! ## Eviction (R91, R92, R133, R134, R154) -/

/-- What Updraft keeps of a plan slot. -/
def State.plan? (s : State) (n : Nat) : Option PlanState := alGet s.upd.plans n

/-- That set. -/
def State.setPlan (s : State) (n : Nat) (x : PlanState) : State :=
  { s with upd := { s.upd with plans := alSet s.upd.plans n x } }

/-- A held extent may be taken from its holder once it is not busy: unpinned, and used by its holder. -/
def State.droppable (s : State) (e : Nat) (x : Extent) : Bool :=
  !x.pinned && (match x.holder with
    | .software => false
    | .updraft n => (match s.plan? n with | some y => !y.spare.contains e | none => true)
    | .seqEngine => true)

/-- The holder has an operation in flight on the extent (R91, R152, R159). -/
def State.extentBusy (s : State) (e : Nat) (x : Extent) : Bool :=
  x.busy || (match x.holder with | .seqEngine => (pagesOf e).any s.pageBusy | _ => false)

/-- A held extent may be evicted: unpinned and not busy. -/
def State.evictable (s : State) (e : Nat) (x : Extent) : Bool := s.droppable e x && !s.extentBusy e x

/-- Extents marked busy, or no longer (R91). -/
def State.markBusy (s : State) (l : List Nat) (b : Bool) : State :=
  { s with upool := { s.upool with
      extents := s.upool.extents.map (fun x => if l.contains x.1 then (x.1, { x.2 with busy := b }) else x) } }

/-- The kind of a holder. -/
def Holder.kind : Holder → Nat
  | .software => 0
  | .updraft _ => 1
  | .seqEngine => 2

/-- The oldest extent of a partition among those that `may` be taken, lowest index among equal ages. -/
def State.oldestOf (s : State) (may : Nat → Extent → Bool) (p : Nat) (f : Holder → Bool) : Option Nat :=
  (minBy (fun x => (255 - x.2.age) * poolSize + x.1)
    (s.upool.extents.filter (fun x => x.2.part == p && f x.2.holder && may x.1 x.2))).map Prod.fst

/-- The extents that hold the expert or the warm-cached layer whose extents include `e`, and the plan without it. -/
def PlanState.dropExtent (x : PlanState) (e : Nat) : List Nat × PlanState :=
  let ex := x.experts.filter (fun y => y.2.contains e)
  let la := x.layers.filter (fun y => y.2.contains e)
  ((ex ++ la).flatMap Prod.snd,
    { x with experts := x.experts.filter (fun y => !y.2.contains e)
             layers := x.layers.filter (fun y => !y.2.contains e)
             spare := x.spare.filter (fun y => y != e) })

/-- A request touches extent `e`. -/
def MemOp.inExtent (op : MemOp) (e : Nat) : Bool :=
  (blocksOf 0x200000 op.range.1 op.range.2).contains (warmBase / 0x200000 + e)

/-- An extent is evicted (R92): the requests to it that its holder has outstanding complete (R93), and its holder is notified.  Updraft drops the whole expert or layer (R133, R134); every
sequence with a page in it ends with EVICTED (R154), and its pages are pages of the engine no more.  Nothing is written back. -/
def State.evict (s : State) (e : Nat) : State :=
  match alGet s.upool.extents e with
  | none => s
  | some x =>
    let s := (s.drainWaiting (fun w => w.op.inExtent e)).bump .MEM_P_EVICTS x.part
    match x.holder with
    | .software => s.releaseExtent e
    | .updraft n =>
      (match s.plan? n with
      | some y =>
        let d := y.dropExtent e
        ((s.setPlan n d.2).releaseExtent e) |> fun s => d.1.foldl State.releaseExtent s
      | none => s.releaseExtent e)
    | .seqEngine =>
      let hit := (s.seqsOf x.part).filter (fun n => (s.seqAllPages n).any (fun g => g / 32 == e))
      let s := hit.foldl (fun s n => s.endSequence n 4) s
      let s := { s with sqe := { s.sqe with pages := s.sqe.pages.filter (fun y => y.1 / 32 != e) } }
      s.releaseExtent e

/-- How far a partition is above its quota. -/
def State.aboveQuota (s : State) (p : Nat) : Nat := s.heldBy p - (s.part p).poolQuota

/-- The partition furthest above its quota that has an extent to give, with that extent. -/
def State.furthestVictim (s : State) (may : Nat → Extent → Bool) : Option Nat :=
  let l := (s.partList.filter (fun p => 0 < s.aboveQuota p)).filterMap (fun p =>
    (s.oldestOf may p (fun _ => true)).map (fun e => (poolSize - s.aboveQuota p, e)))
  (minBy Prod.fst l).map Prod.snd

/-- The extent that a request takes (R92, R94) of those that `may` be taken: the first row that applies; the flag says that it is
evicted first. -/
def State.chooseFrom (s : State) (may : Nat → Extent → Bool) (p : Nat) (h : Holder) (pinned : Bool) : Option (Nat × Bool) :=
  let q := s.part p
  if pinned && q.pinnedQuota ≤ s.pinnedBy p then none
  else
    let own := (s.oldestOf may p (fun x => x.kind == h.kind)).orElse (fun _ => s.oldestOf may p (fun _ => true))
    if s.heldBy p < q.poolQuota then
      match s.lowestFree with
      | some e => some (e, false)
      | none => (s.furthestVictim may).map (fun e => (e, true))
    else
      match s.lowestFree with
      | some e => if s.bit .MEM_CFG 1 && !pinned then some (e, false) else own.map (fun e => (e, true))
      | none => own.map (fun e => (e, true))

/-- The extent that a request takes now. -/
def State.chooseExtent (s : State) (p : Nat) (h : Holder) (pinned : Bool) : Option (Nat × Bool) := s.chooseFrom s.evictable p h pinned

/-- A request finds no extent now but would find one among those that are busy: it waits for them to clear (R91). -/
def State.mustWait (s : State) (p : Nat) (h : Holder) (pinned : Bool) : Bool :=
  (s.chooseExtent p h pinned).isNone && (s.chooseFrom s.droppable p h pinned).isSome

/-- An extent changes partition: it is zeroed before its new holder receives it (R93). -/
def State.zeroIfForeign (s : State) (e p : Nat) : State :=
  match alGet s.upool.lastPart e with
  | some q => if q = p then s else s.zero (warmBase + e * 0x200000) 0x200000
  | none => s

/-- A request of a holder for one extent, begun (R92, R93): the victim's holder is notified and the extent is being
assigned. -/
def State.requestExtent (s : State) (p : Nat) (h : Holder) (pinned : Bool) : Option (Nat × State) :=
  (s.chooseExtent p h pinned).map (fun c =>
    let s := if c.2 then s.evict c.1 else s
    let g : ExtentGrant := { ext := c.1, taker := { part := p, holder := h, pinned := pinned } }
    (c.1, { s with upool := { s.upool with grants := s.upool.grants ++ [g] } }))

/-- An extent is assigned to its taker (R93). -/
def State.assignExtent (s : State) (g : ExtentGrant) : State :=
  let s := s.zeroIfForeign g.ext g.taker.part
  { s with upool := { s.upool with
      grants := s.upool.grants.filter (fun x => x.ext != g.ext)
      extents := s.upool.extents ++ [(g.ext, g.taker)] } }

/-- A request of an engine served whole: the extent, assigned. -/
def State.takeExtent (s : State) (p : Nat) (h : Holder) (pinned : Bool) : Option (Nat × State) :=
  (s.requestExtent p h pinned).map (fun r =>
    (r.1, r.2.assignExtent { ext := r.1, taker := { part := p, holder := h, pinned := pinned } }))

/-- `k` extents taken one after another, in order; one that the request has just taken is busy, so that the next does not take it
again. -/
def State.grabExtents (s : State) (p : Nat) (h : Holder) (pinned : Bool) : Nat → Option (List Nat × State)
  | 0 => some ([], s)
  | k + 1 =>
    match s.grabExtents p h pinned k with
    | none => none
    | some (l, s) => match s.takeExtent p h pinned with
      | none => none
      | some (e, s) => some (l ++ [e], s.markBusy [e] true)

/-- `k` extents taken for one request. -/
def State.takeExtents (s : State) (p : Nat) (h : Holder) (pinned : Bool) (k : Nat) : Option (List Nat × State) :=
  (s.grabExtents p h pinned k).map (fun r => (r.1, r.2.markBusy r.1 false))

/-- An access by its holder clears an extent's age (R91). -/
def State.touchExtent (s : State) (e : Nat) : State :=
  { s with upool := { s.upool with
      extents := s.upool.extents.map (fun x => if x.1 = e then (x.1, { x.2 with age := 0 }) else x) } }

/-! ## Commands -/

/-- A request that no extent can serve (R94): software finds FAIL. -/
def State.refuseExtent (s : State) (x : Extent) : State :=
  match x.holder with
  | .software => s.wr .MEM_P_ALLOC 0x20000000 x.part
  | _ => s

/-- A request for one extent begun, kept waiting for a busy one to clear (R91), or refused (R92, R94). -/
def State.seekExtent (s : State) (x : Extent) : State :=
  match s.requestExtent x.part x.holder x.pinned with
  | some (_, s) => s
  | none =>
    if s.mustWait x.part x.holder x.pinned then { s with upool := { s.upool with wants := s.upool.wants ++ [x] } }
    else s.refuseExtent x

/-- The requests that wait for a busy extent are tried again, in order. -/
def State.retryExtents (s : State) : State :=
  let l := s.upool.wants
  l.foldl State.seekExtent { s with upool := { s.upool with wants := [] } }

/-- The unpinned extents that a plan's cached layers and experts hold. -/
def PlanState.cached (x : PlanState) : Nat := ((x.layers ++ x.experts).map (fun y => y.2.length)).sum + x.spare.length

/-- The unpinned extents that plan slot `n` holds or has asked for (R119). -/
def State.cacheUsed (s : State) (n : Nat) : Nat :=
  let mine (x : Extent) : Bool := x.holder == .updraft n && !x.pinned
  (match s.plan? n with | some x => x.cached | none => 0) + (s.upool.grants.filter (fun g => mine g.taker)).length +
    (s.upool.wants.filter mine).length

/-- Holder `h` of partition `p` may ask for an extent by itself: software always as pinned (R94); Updraft for a READY plan of `p`,
below its CACHE_EXTENTS (R119): its pinned extents come with the load (R124); the sequence engine unpinned. -/
def State.mayAsk (s : State) (p : Nat) (h : Holder) (pinned : Bool) : Bool :=
  match h with
  | .updraft n => (match s.plan? n with
    | some x => n / 8 = p && !pinned && x.ready && s.cacheUsed n < x.plan.cacheExtents
    | none => false)
  | _ => true

/-- A holder requests one extent (R92, R94).  A refused request of software sets FAIL. -/
def execExtentRequest (p : Nat) (h : Holder) (pinned : Bool) (s : State) : Host.Outcome State Fault Refusal :=
  .next <|
    if !s.partExists p || !s.mayAsk p h pinned then s
    else
      let pin := match h with | .software => true | .updraft _ => pinned | .seqEngine => false
      s.seekExtent { part := p, holder := h, pinned := pin }

/-- The drain and zeroing have completed: the extent is assigned (R93).  Software finds it in MEM_Pp_ALLOC; Updraft
keeps it for its next fill, the sequence engine has 32 more free pages. -/
def execExtentAssigned (e : Nat) (s : State) : Host.Outcome State Fault Refusal :=
  .next <|
    match s.upool.grants.find? (fun g => g.ext == e) with
    | none => s
    | some g =>
      let s := s.assignExtent g
      match g.taker.holder with
      | .software => s.wr .MEM_P_ALLOC (0x40000000 + e) g.taker.part
      | .updraft n => (match s.plan? n with
        | some x => s.setPlan n { x with spare := x.spare ++ [e] }
        | none => s.releaseExtent e)
      | .seqEngine => s

/-- A write of REQ to MEM_Pp_ALLOC (R94): REQ reads 1 until the extent is assigned; a refused request sets FAIL. -/
def execSoftwareAlloc (a : Agent) (p : Nat) (s : State) : Host.Outcome State Fault Refusal :=
  .next <|
    if s.accessFenced a none then s.respErr
    else if s.agentPart a ≠ p || 8 ≤ p then s.denied a (0x70100C + p * 0x100)
    else
      let s := s.respOk
      if s.bit .MEM_P_ALLOC 31 p then s
      else (s.wr .MEM_P_ALLOC 0x80000000 p).seekExtent { part := p, holder := .software, pinned := true }

/-- A write of an extent to MEM_Pp_FREE (R89, R117): one that software of `p` does not hold is ignored with a record. -/
def execSoftwareFree (a : Agent) (p e : Nat) (s : State) : Host.Outcome State Fault Refusal :=
  .next <|
    if s.accessFenced a none then s.respErr
    else if s.agentPart a ≠ p || 8 ≤ p then s.denied a (0x701010 + p * 0x100)
    else if s.softwareExtent p e then s.respOk.releaseExtent e
    else s.respOk.violation a (0x701010 + p * 0x100)

/-- Every software extent of a partition is released. -/
def State.freeSoftware (s : State) (p : Nat) : State :=
  ((s.upool.extents.filter (fun x => x.2.part == p && x.2.holder == .software)).map Prod.fst).foldl State.releaseExtent s

/-- A write of ALL to MEM_Pp_FREE (R95). -/
def execSoftwareFreeAll (a : Agent) (p : Nat) (s : State) : Host.Outcome State Fault Refusal :=
  .next <|
    if s.accessFenced a none then s.respErr
    else if s.agentPart a ≠ p || 8 ≤ p then s.denied a (0x701010 + p * 0x100)
    else s.respOk.freeSoftware p

/-- Every MEM_AGE_TICK the age of each unpinned extent rises by 1, up to 255 (R91); requests that wait are tried again. -/
def execAgeTick (s : State) : Host.Outcome State Fault Refusal :=
  .next (State.retryExtents { s with upool := { s.upool with
    extents := s.upool.extents.map (fun x =>
      if x.2.pinned then x else (x.1, { x.2 with age := min 255 (x.2.age + 1) })) } })

end Sys2Proof.Machine
end

