-- ==== Sys2Proof/Machine/Deep.lean ====
section
/-!
DEFINITION. The deep tier (R96 to R112): its command queues, page programs and erases, wear, refresh and scrubbing,
the energy check before stores; and the far tier's keys (R115).
-/

namespace Sys2Proof.Machine

/-! ## Blocks, pages and die-blocks (R96, R105) -/

/-- The pages of a deep block. -/
def deepPages : Nat := 32768

/-- The die of a page, by its number in the tier (R96). -/
def dieOf (g : Nat) : Nat := ((g ^^^ (g >>> 7)) ^^^ (g >>> 14)) % 128 ^^^ ((g >>> 21) % 32)

/-- The state of a deep block. -/
def State.deepBlock (s : State) (b : Nat) : DeepBlock := (alGet s.deep.blocks b).getD {}

/-- That set. -/
def State.setDeepBlock (s : State) (b : Nat) (x : DeepBlock) : State :=
  { s with deep := { s.deep with blocks := alSet s.deep.blocks b x } }

/-- The die-block behind a deep block on a die. -/
def State.dieBlock (s : State) (b die : Nat) : Nat := (alGet s.deep.remap (b, die)).getD b

/-- The spare die-blocks of a die: 124 serve replacement and refresh, 4 hold the log. -/
def State.spareOf (s : State) (die : Nat) : List Nat :=
  (alGet s.deep.spare die).getD ((List.range 124).map (fun k => 1924 + k))

/-- The erase count of a die-block. -/
def State.wearOf (s : State) (die db : Nat) : Nat := (alGet s.deep.wear (die, db)).getD 0

/-- The page reads of a die-block. -/
def State.readsOf (s : State) (die db : Nat) : Nat := (alGet s.deep.reads (die, db)).getD 0

/-- MEM_DEEP_WEAR shows the highest erase count and the fewest spares; a record is written when the spares fall below 8.
The manual names no class for it: a free value. -/
def State.showWear (s : State) : State :=
  let pe := (s.deep.wear.map Prod.snd).foldl max 0
  let few := (s.deep.spare.map (fun x => x.2.length)).foldl min 124
  let before := s.fld .MEM_DEEP_WEAR 7 0
  let s := s.wr .MEM_DEEP_WEAR (min 0xFFFF pe * 0x10000 + few)
  if few < 8 && 8 ≤ before then
    let f := s.fresh
    f.2.record { cls := f.1 % 256, source := 0x3001 }
  else s

/-- A die-block erased once more; its reads start again. -/
def State.eraseDieBlock (s : State) (die db : Nat) : State :=
  { s with deep := { s.deep with
      wear := alSet s.deep.wear (die, db) (s.wearOf die db + 1)
      reads := mapErase (die, db) s.deep.reads } }

/-- The die-block behind a deep block on a die moves to the least-worn spare (R105); none where the die has no spare.
The old one becomes a spare where `keep` says so. -/
def State.moveDieBlock (s : State) (b die : Nat) (keep : Bool) : Option State :=
  let l := s.spareOf die
  (minBy (s.wearOf die) l).map (fun x =>
    let old := s.dieBlock b die
    let rest := l.filter (fun y => y != x) ++ (if keep then [old] else [])
    { s with deep := { s.deep with
        remap := alSet s.deep.remap (b, die) x
        spare := alSet s.deep.spare die rest } })

/-! ## Energy and deferral (R108, R111, R112) -/

/-- The page programs accepted and not completed (R111): those of all queues, and one page of each refresh. -/
def State.pagesInFlight (s : State) : Nat :=
  (s.deep.queues.map (fun q => q.2.inFlight.length)).sum + s.deep.refreshing.length

/-- The check of R111 for one more page.  With code `c` of the 12-bit converter (4,095 is 1.0 V) the bank voltage is
c * DIV * 100 / (4095 * 256) in 10 mV units. -/
def State.storeOk (s : State) : Bool :=
  let n := s.deep.vSense * s.fld .MEM_HOLDUP_CFG 31 16 * 100
  let d := 4095 * 256
  let vmin := s.fld .MEM_HOLDUP_CFG 15 0
  let cap := s.fld .MEM_HOLDUP_CAP 15 0
  let need := s.fld .MEM_HOLDUP_ENERGY 31 16 * 1000 + (s.pagesInFlight + 1) * s.fld .MEM_HOLDUP_ENERGY 15 0
  cap ≠ 0 && decide (2000 * need * (d * d) ≤ cap * (n * n - vmin * vmin * (d * d)))

/-- The bank voltage in 10 mV units, rounded as R51 says. -/
def State.bankVoltage (s : State) : Nat := (quotEven (s.deep.vSense * s.fld .MEM_HOLDUP_CFG 31 16 * 100 : Nat) (4095 * 256)).toNat

/-- MEM_HOLDUP_STATUS shows the last sample. -/
def State.showHoldup (s : State) : State :=
  s.wr .MEM_HOLDUP_STATUS (s.storeOk.toNat * 2 ^ 31 + min 0xFFFF s.bankVoltage)

/-- Why a store waits: 3 power fail, 2 temperature, 1 hold-up energy, 0 it need not. -/
def State.storeDefer (s : State) : Nat :=
  if !s.pins.pfailN then 3 else if s.bit .MEM_DEEP_STATUS 23 then 2 else if !s.storeOk then 1 else 0

/-- Why an erase waits. -/
def State.eraseDefer (s : State) : Nat := if s.storeDefer = 1 then 0 else s.storeDefer

/-! ## Queues (R99) -/

/-- The address of descriptor `k` of a queue. -/
def State.dqAddr (s : State) (p k : Nat) : Nat :=
  s.rd .MEM_P_DQ_BASE_LO p + 2 ^ 32 * s.fld .MEM_P_DQ_BASE_HI 15 0 p + 32 * k

/-- The deep command queue of partition `p` as a requester (R200).  DESIGN CHOICE (log entry 95): R382 names no instance for it, so that
its SOURCE is 0xFFFF, a unit that no other instance describes. -/
def deepAgent (p : Nat) : Agent := .engine 0xDFFF p

/-- The next descriptor that a queue may start may be fetched: the queue is enabled, HEAD has not reached TAIL, nothing runs and no fence
holds the partition. -/
def State.deepReady (s : State) (p : Nat) : Bool :=
  p < 8 && s.bit .MEM_P_DQ_CTRL 31 p && s.fld .MEM_P_DQ_HEAD 11 0 p ≠ s.fld .MEM_P_DQ_TAIL 11 0 p && (alGet s.deep.queues p).isNone &&
    !s.fencedPart p

/-- A queue fetches the descriptor at HEAD: none where it may not, or where the quad that holds it sleeps, which starts its wake (R84).
DESIGN CHOICE (log entry 95): one that cannot be read counts as eight words of 0. -/
def State.nextDeep (s : State) (p : Nat) : Option DeepRun × State :=
  let h := s.fld .MEM_P_DQ_HEAD 11 0 p
  let a := s.dqAddr p h
  if !s.deepReady p then (none, s)
  else match s.asleep [(a, 32)] with
    | q :: l => (none, s.wakeAll (q :: l))
    | [] => match s.engineRead (deepAgent p) a 32 with
      | (some d, s) => (some { slot := h, words := (List.range 8).map (fun i => leAt d (4 * i) 4) }, s)
      | (none, s) => (some { slot := h, words := List.replicate 8 0 }, s)

/-- What a queue runs set. -/
def State.setDeepRun (s : State) (p : Nat) (r : DeepRun) : State :=
  { s with deep := { s.deep with queues := alSet s.deep.queues p r } }

/-- DEEP of a descriptor, the offset from the tier's start. -/
def DeepRun.deep (r : DeepRun) : Nat := wordAt r.words 2 + 2 ^ 32 * wfld r.words 3 7 0
/-- ADDR of a descriptor. -/
def DeepRun.addr (r : DeepRun) : Nat := wordAt r.words 4 + 2 ^ 32 * wfld r.words 5 15 0
/-- LENGTH of a descriptor. -/
def DeepRun.len (r : DeepRun) : Nat := wordAt r.words 6
/-- OPCODE of a descriptor. -/
def DeepRun.op (r : DeepRun) : Nat := wfld r.words 0 7 0

/-- The reserved fields of a descriptor are 0 and DEEP lies in the usable range. -/
def DeepRun.fieldsOk (r : DeepRun) : Bool :=
  wfld r.words 0 15 8 = 0 && wordAt r.words 1 = 0 && wfld r.words 3 31 8 = 0 && wfld r.words 5 31 16 = 0 && wordAt r.words 7 = 0

/-- A window of partition `p` covers the whole deep block with an ACCESS bit (R100). -/
def State.deepWindow (s : State) (p b k : Nat) : Bool :=
  (s.part p).windows.any (fun w => w.tier == 1 && w.base ≤ b * 256 && b * 256 + 256 ≤ w.base + w.size && bitOf w.access k)

/-- A start of a command of a queue whose opcode is `op`: `go` gives the run, or the reason to defer it. -/
def State.startDeep (s : State) (p op : Nat) (go : State → DeepRun → State × (DeepRun ⊕ Nat)) : State :=
  match s.nextDeep p with
  | (none, s) => s
  | (some r, t) =>
    if r.op ≠ op then s
    else match go t r with
      | (s, .inl r) => (s.wrF .MEM_P_DQ_STATUS 3 2 0 p).setDeepRun p r
      | (s, .inr d) => s.wrF .MEM_P_DQ_STATUS 3 2 d p

/-- A write of MEM_Pp_DQ_TAIL (R99): the descriptors before it are submitted. -/
def execDeepQueueTail (a : Agent) (p tail : Nat) (s : State) : Host.Outcome State Fault Refusal :=
  .next <|
    if s.accessFenced a none then s.respErr
    else if s.agentPart a ≠ p || 8 ≤ p then s.denied a (0x701030 + p * 0x100)
    else s.respOk.wrF .MEM_P_DQ_TAIL 11 0 tail p

/-- ERASE starts (R100, R104): reads of the block return 0 from then on. -/
def execEraseDeep (p : Nat) (s : State) : Host.Outcome State Fault Refusal :=
  .next <| s.startDeep p 1 (fun s r =>
    let b := r.deep / 0x20000000
    if !r.fieldsOk || r.deep % 0x20000000 ≠ 0 || r.len ≠ 0 then (s, .inl { r with status := some 1 })
    else if 1920 ≤ b || !s.deepWindow p b 1 then (s, .inl { r with status := some 2 })
    else if s.eraseDefer ≠ 0 then (s, .inr s.eraseDefer)
    else (s.setDeepBlock b { s.deepBlock b with erasing := true }, .inl { r with dies := List.range 128 }))

/-- The bytes programmed in the last 24 hours. -/
def State.programmed (s : State) : Nat := s.deep.buckets.sum

/-- Bytes added to the current hour, and MEM_DEEP_WUSED, which rounds up (R109). -/
def State.countProgrammed (s : State) (n : Nat) : State :=
  let b := match s.deep.buckets with | x :: r => (x + n) :: r | [] => [n]
  let s := { s with deep := { s.deep with buckets := b } }
  s.wr .MEM_DEEP_WUSED ((b.sum + 2 ^ 30 - 1) / 2 ^ 30)

/-- The first page of a PROGRAM. -/
def DeepRun.firstPage (r : DeepRun) : Nat := r.deep / 0x4000

/-- How many pages a PROGRAM has. -/
def DeepRun.pageCount (r : DeepRun) : Nat := r.len / 0x4000

/-- The page programs outstanding on a die. -/
def State.onDie (s : State) (die : Nat) : Nat :=
  ((s.deep.queues.flatMap (fun q => q.2.inFlight)).filter (fun h => dieOf h == die)).length + (if (alGet s.deep.refreshing die).isSome then 1 else 0)

/-- A page may be accepted now: nothing defers it and its die has fewer than 2 programs outstanding (R103). -/
def State.pageAcceptable (s : State) (g : Nat) : Bool := s.storeDefer = 0 && s.onDie (dieOf g) < 2

/-- The carried checks of a source page match (R102), where a read returns what is stored. -/
def State.sourceChecks (s : State) (a n : Nat) : Bool := (s.storedRanges a n).all (fun r => s.checksOk r.1 r.2)

/-- Pages of a PROGRAM accepted one after another, as long as they may be (R102, R103, R111): a source page that cannot be read, or
whose carried checks do not match, ends the command with SOURCE; one in a quad that sleeps waits for its wake (R84).  A page's bytes
debit when it is issued (R209). -/
def State.acceptPages (s : State) (p : Nat) : Nat → State
  | 0 => s
  | k + 1 =>
    match alGet s.deep.queues p with
    | none => s
    | some r =>
      if r.op ≠ 2 || r.status.isSome || r.failed.isSome || r.pageCount ≤ r.accepted then s
      else
        let g := r.firstPage + r.accepted
        let src := r.addr + r.accepted * 0x4000
        if !s.pageAcceptable g then
          if r.inFlight.isEmpty || s.storeDefer ≠ 0 then s.wrF .MEM_P_DQ_STATUS 3 2 s.storeDefer p else s
        else match s.asleep [(src, 0x4000)] with
          | q :: l => s.wakeAll (q :: l)
          | [] => match s.engineRead (deepAgent p) src 0x4000 with
            | (none, s) => s.setDeepRun p { r with status := some 7 }
            | (some d, s) =>
              if !s.sourceChecks src 0x4000 then (s.checkFailed (deepAgent p) src).setDeepRun p { r with status := some 7 }
              else
                let s := (s.traffic (deepAgent p) (deepBase + g * 0x4000) 0x4000).store (deepBase + g * 0x4000) d
                let s := s.setDeepRun p { r with accepted := r.accepted + 1, inFlight := r.inFlight ++ [g] }
                (s.wrF .MEM_P_DQ_STATUS 3 2 0 p).showHoldup.acceptPages p k

/-- A refresh may start on a die: nothing defers its programs (R108, R111, R112), no other runs there, and the die has a spare. -/
def State.canRefresh (s : State) (die : Nat) : Bool :=
  s.storeDefer = 0 && (alGet s.deep.refreshing die).isNone && s.onDie die < 2 && !(s.spareOf die).isEmpty

/-- A refresh of the die-block behind a deep block on a die starts, or waits until it may; one at a time on each die (R106, R107). -/
def State.startRefresh (s : State) (b die : Nat) : State :=
  if s.deep.refreshing.contains (die, b) then s
  else
    let rest := s.deep.wanted.filter (fun x => x != (b, die))
    if s.canRefresh die then
      ({ s with deep := { s.deep with refreshing := alSet s.deep.refreshing die b, wanted := rest } }.setB .MEM_DEEP_STATUS 21).showHoldup
    else { s with deep := { s.deep with wanted := rest ++ [(b, die)] } }

/-- The refreshes that wait start where they may. -/
def State.resumeRefresh (s : State) : State := s.deep.wanted.foldl (fun s x => s.startRefresh x.1 x.2) s

/-- Every queue's PROGRAM accepts what it may, and the refreshes that wait start. -/
def State.resumeStores (s : State) : State := ((List.range 8).foldl (fun s p => s.acceptPages p 256) s).resumeRefresh

/-- The whole source lies in memory that the partition reaches; whether the far tier's link is up is found when the page is read. -/
def State.readableBy (s : State) (p a n : Nat) : Bool :=
  (blocksOf 0x100000 a n).all (fun b =>
    let x := max a (b * 0x100000)
    match regionOf x, s.granuleVerdict p false x with
    | _, .ok => true
    | .far u, .farDown => s.windowCovers p 2 u 0
    | _, _ => false)

/-- The status that a PROGRAM ends with at once: the first of R101 that applies, or 0. -/
def State.programStatus (s : State) (p : Nat) (r : DeepRun) : Nat :=
  let b := r.deep / 0x20000000
  if !r.fieldsOk || r.deep % 0x4000 ≠ 0 || r.len % 0x4000 ≠ 0 || r.addr % 64 ≠ 0 then 1
  else if 1920 ≤ b || !s.deepWindow p b 1 || !s.readableBy p r.addr r.len then 2
  else if (s.deepBlock b).erasing || r.deep % 0x20000000 ≠ (s.deepBlock b).writePtr * 0x4000
      || 0x20000000 < r.deep % 0x20000000 + r.len then 3
  else if s.fld .MEM_DEEP_WLIMIT 15 0 * 2 ^ 30 < s.programmed + r.len then 4
  else 0

/-- PROGRAM starts (R100 to R103, R109): its first pages are accepted. -/
def execProgramDeep (p : Nat) (s : State) : Host.Outcome State Fault Refusal :=
  .next <|
    (s.startDeep p 2 (fun s r =>
      let st := s.programStatus p r
      if st ≠ 0 then (s, .inl { r with status := some st })
      else if r.len = 0 then (s, .inl { r with status := some 0 })
      else (s, .inl r))).acceptPages p 256

/-- SYNC (R100): a queue runs one command at a time and a PROGRAM completes when its pages are durable, so every earlier
one is. -/
def execSyncDeep (p : Nat) (s : State) : Host.Outcome State Fault Refusal :=
  .next <| s.startDeep p 3 (fun s r => (s, .inl { r with status := some (if r.fieldsOk then 0 else 1) }))

/-- The state of a deep block in INFO: 0 erased, 1 open, 2 full, 3 erase-pending. -/
def DeepBlock.infoState (b : DeepBlock) : Nat :=
  if b.erasing then 3 else if b.writePtr = 0 then 0 else if b.writePtr < deepPages then 1 else 2

/-- INFO (R100): 64 bytes of block state at ADDR. -/
def execInfoDeep (p : Nat) (s : State) : Host.Outcome State Fault Refusal :=
  .next <| s.startDeep p 4 (fun s r =>
    let b := r.deep / 0x20000000
    if !r.fieldsOk then (s, .inl { r with status := some 1 })
    else if 1920 ≤ b || !s.deepWindow p b 0 || !s.ownsRange p r.addr 64 true then (s, .inl { r with status := some 2 })
    else
      let x := s.deepBlock b
      let dies := List.range 128
      let pe := (dies.map (fun d => s.wearOf d (s.dieBlock b d))).foldl max 0
      let rd := (dies.map (fun d => s.readsOf d (s.dieBlock b d))).foldl max 0
      let d := bytesLE 64 (Config.deepInfo x.infoState x.damaged.toNat x.writePtr pe rd)
      (s.postWrite (deepAgent p) r.addr d, .inl { r with status := some 0 }))

/-- The write pointer of a PROGRAM's block: the pages before it have all completed. -/
def DeepRun.durable (r : DeepRun) : Nat :=
  (r.inFlight ++ r.failed.toList).foldl min (r.firstPage + r.accepted)

/-- A page program completes on its die (R102), or fails there: the die-block moves to a spare, and MEDIA results where
the die has none. -/
def execPageProgramDone (p g : Nat) (ok : Bool) (s : State) : Host.Outcome State Fault Refusal :=
  .next <|
    match alGet s.deep.queues p with
    | none => s
    | some r =>
      if !r.inFlight.contains g then s
      else
        let b := g / deepPages
        let r := { r with inFlight := r.inFlight.filter (fun x => x != g) }
        let moved : Bool × State := if ok then (true, s)
          else match s.moveDieBlock b (dieOf g) false with
            | some t => (true, t)
            | none => (false, s)
        let r := if moved.1 then r else { r with failed := some (r.failed.elim g (min g)) }
        let s := if moved.1 then moved.2.countProgrammed 0x4000 else moved.2
        let s := s.setDeepBlock b { s.deepBlock b with writePtr := r.durable - b * deepPages }
        let done := r.inFlight.isEmpty
        let st := if r.status.isSome then r.status
          else if done && r.failed.isSome then some 5
          else if done && r.accepted = r.pageCount then some 0 else none
        ((s.setDeepRun p { r with status := st }).showWear.showHoldup).resumeStores

/-- A die has erased its die-block of the block that a queue erases (R100, R103).  A die-block that fails moves to a
spare, and MEDIA results where the die has none. -/
def execDieEraseDone (p die : Nat) (ok : Bool) (s : State) : Host.Outcome State Fault Refusal :=
  .next <|
    match alGet s.deep.queues p with
    | none => s
    | some r =>
      if !r.dies.contains die || r.status.isSome then s
      else
        let b := r.deep / 0x20000000
        let moved := if ok then some (s.eraseDieBlock die (s.dieBlock b die)) else s.moveDieBlock b die false
        let left := r.dies.filter (fun d => d != die)
        match moved with
        | none => s.setDeepRun p { r with dies := left, status := some 5 }
        | some s =>
          let s := s.showWear
          if left.isEmpty then
            let s := (s.setDeepBlock b {}).zero (deepBase + b * 0x20000000) 0x20000000
            let s := { s with deep := { s.deep with damaged := s.deep.damaged.filter (fun g => g / deepPages != b) } }
            s.setDeepRun p { r with dies := [], status := some 0 }
          else s.setDeepRun p { r with dies := left }

/-- A command has ended (R99): word 7 is written once, HEAD advances, DONE or ERR is set and the memory interrupt
rises where IRQ asks for it.  A descriptor with a reserved opcode ends here with BAD_CMD (R101). -/
def execDeepCommandDone (p : Nat) (s : State) : Host.Outcome State Fault Refusal :=
  .next <|
    let fin (s : State) (r : DeepRun) (st : Nat) : State :=
      let s := s.postWrite (deepAgent p) (s.dqAddr p r.slot + 28) (bytesLE 4 (2 ^ 31 + st))
      let s := s.wrF .MEM_P_DQ_STATUS 3 2 0 p
      let s := { s with deep := { s.deep with queues := mapErase p s.deep.queues } }
      let size := max 1 (s.fld .MEM_P_DQ_CTRL 12 0 p)
      let s := s.wr .MEM_P_DQ_HEAD ((r.slot + 1 + r.skip) % size) p
      let s := s.setB .MEM_P_DQ_STATUS 0 p
      let s := if st ≠ 0 then s.setB .MEM_P_DQ_STATUS 1 p else s
      if s.bit .MEM_P_DQ_CTRL 30 p then s.pulse (.memory p) else s
    match alGet s.deep.queues p with
    | some r => (match r.status with
      | some st => if r.inFlight.isEmpty then fin s r st else s
      | none => s)
    | none => match s.nextDeep p with
      | (some r, t) => if 1 ≤ r.op && r.op ≤ 4 then s else fin t r 1
      | (none, s) => s

/-! ## Reads, refresh and scrubbing (R98, R106, R107) -/

/-- A page read counted for its die-block (R106). -/
def State.countRead (s : State) (g : Nat) : State :=
  let die := dieOf g
  let db := s.dieBlock (g / deepPages) die
  { s with deep := { s.deep with reads := alSet s.deep.reads (die, db) (s.readsOf die db + 1) } }

/-- A page is marked damaged (R98), with a record whose CONTEXT names the requester. -/
def State.damagePage (s : State) (g part context : Nat) : State :=
  let b := g / deepPages
  let s := { s with deep := { s.deep with damaged := g :: s.deep.damaged.filter (fun x => x != g) } }
  let s := s.setDeepBlock b { s.deepBlock b with damaged := true }
  s.record { cls := 0x07, part, source := 0x3001, context, address := deepBase + g * 0x4000 }

/-- The page is written: it lies below its block's write pointer. -/
def State.pageWritten (s : State) (g : Nat) : Bool := g < 1920 * deepPages && !s.deepBlank (deepBase + g * 0x4000)

/-- A deep page read finishes decoding (R98): `ok` says that the decode, with its retries, succeeded; else the read is answered with an
error. -/
def execDeepReadDone (a : Agent) (g : Nat) (ok : Bool) (s : State) : Host.Outcome State Fault Refusal :=
  .next <|
    if !s.pageWritten g then s
    else
      let s := s.countRead g
      if ok then s else (s.damagePage g (s.agentPart a) (0xFFFF0000 + a.code)).loadErr a 0x4000

/-- The read-disturb limit of R106. -/
def State.readLimit (s : State) : Nat := s.fld .MEM_DEEP_SCRUB 15 0 * 1000

/-- A die-block's reads have reached the limit (R106). -/
def execReadDisturbLimit (b die : Nat) (s : State) : Host.Outcome State Fault Refusal :=
  .next <|
    if 1920 ≤ b || 128 ≤ die || s.readsOf die (s.dieBlock b die) < s.readLimit then s else s.startRefresh b die

/-- The refresh copy on a die completes (R106): the remap switches and the old die-block, erased, becomes a spare.  Its pages wait while
R108, R111 or R112 defers them. -/
def execRefreshDone (die : Nat) (s : State) : Host.Outcome State Fault Refusal :=
  .next <|
    match alGet s.deep.refreshing die with
    | none => s
    | some b =>
      if s.storeDefer ≠ 0 then s
      else
      let old := s.dieBlock b die
      let s := (s.moveDieBlock b die true).getD s
      let s := s.eraseDieBlock die old
      let s := { s with deep := { s.deep with refreshing := mapErase die s.deep.refreshing } }
      (s.wrB .MEM_DEEP_STATUS 21 (!s.deep.refreshing.isEmpty)).showWear.showHoldup.resumeStores

/-- The scrubber reads a written page (R107): `weak` says that a codeword needed more than 60 % of the code's
capability, which refreshes the die-block; `ok` that it decoded. -/
def execScrubRead (g : Nat) (weak ok : Bool) (s : State) : Host.Outcome State Fault Refusal :=
  .next <|
    if !s.bit .MEM_CFG 0 || !s.pageWritten g then s
    else
      let s := s.countRead g
      if !ok then s.damagePage g 0xFF 0xFFFFFFFF
      else if weak then s.startRefresh (g / deepPages) (dieOf g) else s

/-! ## Temperature, budget, hold-up energy (R108, R109, R111) -/

/-- The deep region rises above 85 degrees (R108): programs and erases are deferred. -/
def execDeepHot (s : State) : Host.Outcome State Fault Refusal :=
  .next (if 85 < s.fld .MEM_DEEP_STATUS 31 24 then s.setB .MEM_DEEP_STATUS 23 else s)

/-- It falls below 80 degrees: what was deferred resumes. -/
def execDeepCooled (s : State) : Host.Outcome State Fault Refusal :=
  .next (if s.fld .MEM_DEEP_STATUS 31 24 < 80 then (s.clrB .MEM_DEEP_STATUS 23).resumeStores else s)

/-- An hour has passed: the oldest of the 24 buckets rolls out (R109). -/
def execWusedHour (s : State) : Host.Outcome State Fault Refusal :=
  .next <|
    let s := { s with deep := { s.deep with buckets := 0 :: s.deep.buckets.take 23 } }
    s.countProgrammed 0

/-- HOLDUP_SENSE is sampled (R111, R375): `code` of the 12-bit converter. -/
def execHoldupSample (code : Nat) (s : State) : Host.Outcome State Fault Refusal :=
  .next <|
    let s := { s with deep := { s.deep with vSense := min 4095 code } }
    s.showHoldup.resumeStores

/-! ## The far tier's keys (R115) -/

/-- A write of REKEY to MEM_Pp_FAR (R115): the partition's far-tier requests that wait complete first. -/
def execFarRekey (a : Agent) (p : Nat) (s : State) : Host.Outcome State Fault Refusal :=
  .next <|
    if s.accessFenced a none then s.respErr
    else if s.agentPart a ≠ p || 8 ≤ p then s.denied a (0x701040 + p * 0x100)
    else
      let s := s.drainWaiting (fun w => w.path == 2 && s.agentPart w.agent == p)
      s.respOk.rekey p

end Sys2Proof.Machine
end

