-- ==== Sys2Proof/Machine/Headwind.lean ====
section
/-!
DEFINITION. Headwind (R200 to R211): budgets and their windows, the level of a waiting request, the order of service,
deadlines; and how a request to memory takes its path.
-/

namespace Sys2Proof.Machine

/-! ## Levels and order (R204 to R206) -/

/-- The plan slot that a request of Updraft works for: the one that holds the warm extent, or whose layers or experts lie at the deep
address. -/
def State.planOf (s : State) (a : Agent) (x : Nat) : Option Nat :=
  match a, regionOf x with
  | .engine 0 _, .warm e => (match alGet s.upool.extents e with
    | some y => (match y.holder with | .updraft n => some n | _ => none)
    | none => none)
  | .engine 0 p, .deep _ =>
    let o := x - deepBase
    ((s.upd.plans.filter (fun y => y.1 / 8 == p)).find? (fun y =>
      y.2.plan.layers.any (fun l => l.src ≤ o && o < l.src + max l.tileBytes l.partBytes * max 1 y.2.plan.gangTiles) ||
      y.2.plan.experts.any (fun e => e.1 ≤ o && o < e.1 + e.2))).map Prod.fst
  | _, _ => none

/-- A gate of the plan that a request works for stalls (R130). -/
def State.planStalls (s : State) (w : WaitingReq) : Bool :=
  match w.plan with | some n => s.bit .UPD_PLAN_STATUS 28 n | none => false

/-- A request is within URGENT_US of its deadline, or past it (R204). -/
def State.hdwNear (s : State) (w : WaitingReq) : Bool :=
  match w.deadline with
  | some d => decide (-(s.pastDeadline d) < s.hdwUrgent * 1000)
  | none => false

/-- A request has waited longer than the TARGET it was issued with, in units of 10 ns (R205). -/
def State.hdwTarget (s : State) (w : WaitingReq) : Bool := w.target ≠ 0 && w.issued + w.target * 10 < s.now

/-- A request has waited AGE_US (R204). -/
def State.hdwAged (s : State) (w : WaitingReq) : Bool := w.issued + s.hdwAge * 1000 ≤ s.now

/-- The level of a waiting request (R204, R205). -/
def State.hdwLevel (s : State) (w : WaitingReq) : Nat :=
  let p := s.agentPart w.agent
  let raised := w.raised || s.hdwTarget w || s.planStalls w
  if w.urgent || s.hdwNear w then 3
  else if s.hdwOver p (w.agent.entry w.path) then (if raised || w.aged || s.hdwAged w then 1 else 0)
  else if raised && s.hdwEnabled p (w.agent.entry w.path) then 2 else 1

/-- Requests of one agent that touch one 64-byte word complete in the order issued (R11). -/
def behind (w : WaitingReq) (earlier : List WaitingReq) : Bool :=
  earlier.any (fun x => x.agent == w.agent && x.op.sharesWord w.op)

/-- The waiting requests of a path that may go, with their places. -/
def State.hdwReady (s : State) (path : Nat) : List (Nat × WaitingReq) :=
  ((List.range s.hdw.waiting.length).zip s.hdw.waiting).filter (fun x =>
    x.2.path == path && !behind x.2 (s.hdw.waiting.take x.1))

/-- The measure of the order of service: the highest level first, then the earliest deadline, then the entries in turn
after the one served last, then the order of issue (R206). -/
def State.hdwKey (s : State) (x : Nat × WaitingReq) : Nat :=
  let w := x.2
  let turn := (s.agentPart w.agent * 32 + w.agent.entry w.path + 0x2000 - ((alGet s.hdw.last w.path).getD 0) - 1) % 0x2000
  let within := match w.deadline with
    | some d => (2 ^ 31 - s.pastDeadline d).toNat
    | none => 2 ^ 64 + turn * 2 ^ 32 + min x.1 (2 ^ 32 - 1)
  (3 - s.hdwLevel w) * 2 ^ 80 + within

/-- A request into or out of a fenced domain is refused (R337). -/
def State.fencedRequest (s : State) (a : Agent) (x : Nat) : Bool :=
  let p := s.agentPart a
  (p < 8 && s.fencedPart p) ||
    (match regionOf x with
    | .scratch t _ => (match s.physOf t with | some ph => s.fencedTile ph | none => false)
    | _ => false)

/-- A request issued to its path: its bytes are debited and it is served, or a fence refuses it. -/
def State.issue (s : State) (w : WaitingReq) : State :=
  let r := w.op.range
  if s.fencedRequest w.agent r.1 then s.opErr w.agent w.op else s.complete w

/-- The next request of a path served. -/
def State.hdwServe (s : State) (path : Nat) : State :=
  match minBy s.hdwKey (s.hdwReady path) with
  | none => s
  | some (k, w) =>
    let s := { s with hdw := { s.hdw with
      waiting := s.hdw.waiting.eraseIdx k
      last := alSet s.hdw.last path (s.agentPart w.agent * 32 + w.agent.entry path) } }
    s.issue w

/-- A new request of a path: with its deadline (R207) and the TARGET of its entry (R210). -/
def State.newRequest (s : State) (a : Agent) (path : Nat) (op : MemOp) : WaitingReq :=
  let p := s.agentPart a
  let j := a.entry path
  let dl := if p < 8 then s.fld .HDW_P_LAT 15 0 p j else 0
  { agent := a, op, path, issued := s.now
    deadline := if dl = 0 then none else some ((s.now + dl * 1000) % 2 ^ 32)
    target := if p < 8 then s.fld .HDW_P_LAT 31 16 p j else 0
    plan := s.planOf a op.range.1 }

/-- A request to memory outside CSR space (R9, R10).  On a busy path it waits in Headwind, and so it does behind requests that wait there
already (R11, R206). -/
def State.memRequest (s : State) (a : Agent) (op : MemOp) (busy : Bool) : State :=
  let r := op.range
  if s.fencedRequest a r.1 then s.opErr a op
  else match pathOf r.1 with
    | some path =>
      let w := s.newRequest a path op
      if busy || s.hdw.waiting.any (fun x => x.path == path) then
        { s with hdw := { s.hdw with waiting := s.hdw.waiting ++ [w] } }
      else s.issue w
    | none => s.bankAccess a op

/-! ## Commands -/

/-- The entries of a partition: 5 kinds on 3 paths. -/
def hdwEntries : List Nat := (List.range 5).flatMap (fun k => (List.range 3).map (fun n => 4 * k + n))

/-- A window starts (R202): an enabled entry's credit becomes RATE times the window, less its deficit; a window that
ended with an entry of p over budget is counted. -/
def execHdwWindowStart (s : State) : Host.Outcome State Fault Refusal :=
  .next <| (List.range 8).foldl (fun s p =>
    let excess := hdwEntries.any (fun j => s.hdwOver p j)
    let s := if excess then (s.bump .HDW_P_OVER p).setB .HDW_P_EVENT 1 p else s
    hdwEntries.foldl (fun s j =>
      if s.hdwEnabled p j then
        let deficit := min 0 ((s.hdwCredit p j).getD 0)
        let c : Int := s.hdwRate p j * s.hdwWindow + deficit
        { s with hdw := { s.hdw with credit := alSet s.hdw.credit (p, j) c } }
      else s) s) s

/-- The waiting request in place `k` changed. -/
def State.markRequest (s : State) (k : Nat) (f : WaitingReq → WaitingReq) : State :=
  { s with hdw := { s.hdw with waiting := listUpdate s.hdw.waiting k f } }

/-- A waiting request has waited AGE_US, or longer than its entry's TARGET (R204, R205). -/
def execRequestAged (k : Nat) (target : Bool) (s : State) : Host.Outcome State Fault Refusal :=
  .next (s.markRequest k (fun w =>
    if target then { w with raised := w.raised || s.hdwTarget w } else { w with aged := w.aged || s.hdwAged w }))

/-- A waiting request has come within URGENT_US of its deadline (R204). -/
def execRequestUrgent (k : Nat) (s : State) : Host.Outcome State Fault Refusal :=
  .next (s.markRequest k (fun w => { w with urgent := w.urgent || s.hdwNear w }))

/-- The sum of the enabled RATEs on a path, with entry (p, j) written as `w`. -/
def State.hdwSum (s : State) (n p j : Nat) (w : Word) : Nat :=
  ((List.range 8).flatMap (fun q => ((List.range 5).map (fun k => 4 * k + n)).map (fun i =>
    let v := if q = p && i = j then w else s.rdReg ⟨.HDW_P_BUD, q, i⟩
    if fieldOf v 31 31 = 1 then fieldOf v 15 0 else 0))).sum

/-- A write of HDW_Pp_BUDkn (R208, R210, R211), which only the control partition may make: refused where the enabled
RATEs of the path would exceed its capacity; a disabled entry's deficit is cleared. -/
def execHdwBudgetWrite (a : Agent) (p k n : Nat) (w : Word) (s : State) : Host.Outcome State Fault Refusal :=
  .next <|
    let j := 4 * k + n
    let addr := 0xA81000 + p * 0x100 + k * 0x20 + n * 8
    if 8 ≤ p || 5 ≤ k || 3 ≤ n then s
    else if s.accessFenced a (some 1) then s.respErr
    else if s.agentPart a ≠ s.ctrl || s.ctrl = 0xFF then s.denied a addr
    else
      let w := w &&& 0x8000FFFF#32
      let sum := s.hdwSum n p j w
      if s.fld .HDW_PATH 31 16 n < sum then
        s.respErr.record { cls := 0x05, part := s.agentPart a, source := 0x2001, address := addr }
      else
        let s := s.respOk.wrReg ⟨.HDW_P_BUD, p, j⟩ w
        let s := s.wrF .HDW_PATH 15 0 sum n
        if fieldOf w 31 31 = 1 then s else { s with hdw := { s.hdw with credit := mapErase (p, j) s.hdw.credit } }

end Sys2Proof.Machine
end

