-- ==== Sys2Proof/Machine/HostPort.lean ====
section
/-!
DEFINITION. The host port (R295 to R300): link training, inbound requests, doorbells, MSI-X, violations.
-/

namespace Sys2Proof.Machine

/-- CHIP.HOST_PORT: 0 disabled, 1 root, 2 endpoint. -/
def State.hostMode (s : State) : Nat := match s.spl.chip with | some c => c.hostPort | none => 0

/-- The link is up. -/
def State.hostUp (s : State) : Bool := s.bit .HP_LINK_STATUS 31

/-- A violation by the link partner (R299). -/
def State.hpViolation (s : State) (code : Nat) (p : Nat := 0xFF) (ctx : Nat := 0xFFFFFFFF) : State :=
  let s := (s.bump .HP_ERRORS).setB .HP_EVENT 1
  s.recordRated { cls := 0x0D, code := code, unit := 0 }
    { cls := 0x0D, part := p, source := 0x4100, detail := code, context := ctx }

/-- The capacity in GiB that HP_CXL_SIZE shows for an expander (R113, R327): its size less the check area, the top 1/128. -/
def expanderGib (g : Nat) : Nat := min 4096 g * 127 / 128

/-- HP_LINK_TRAINED (R295, R296): the link trains at a rate and width; in root mode with the far tier on, a type-3 device of
`gib` GiB serves as the expander; `ltssm` is the code of the state reached. -/
def execHpLinkTrained (rate width ltssm : Nat) (gib : Option Nat) (s : State) : Host.Outcome State Fault Refusal :=
  .next <|
    if s.hostMode = 0 || !s.bit .HP_LINK_CTRL 31 || rate < 4 || s.fld .HP_LINK_CTRL 2 0 < rate || !([1, 2, 4, 8].contains width) then s
    else
      let far : Bool := s.hostMode = 1 && (match s.spl.chip with | some c => c.farTier == 1 | none => false)
      let cxl := if far then gib else none
      let s := ((s.setB .HP_LINK_STATUS 31).wrB .HP_LINK_STATUS 30 cxl.isSome).wrF .HP_LINK_STATUS 18 16 rate
      let s := (s.wrF .HP_LINK_STATUS 11 8 width).wrF .HP_LINK_STATUS 7 0 ltssm
      let s := (s.wr .HP_CXL_SIZE (match cxl with | some g => expanderGib g | none => 0)).setB .HP_EVENT 0
      { s with hp := { s.hp with retraining := false } }

/-! ## Inbound requests (R297, R298) -/

/-- A doorbell write (R298): the bits are ORed in, and a change from 0 raises the interrupt. -/
def State.ringDoorbell (s : State) (p v : Nat) : State :=
  let old := s.rd .HP_P_DB p
  let s := s.wr .HP_P_DB (old ||| v % 2 ^ 32) p
  if old = 0 && v % 2 ^ 32 ≠ 0 then { s with pulses := s.pulses ++ [.doorbell p] } else s

/-- HP_DOORBELL_WRITE (R298): the host writes the doorbell of a partition; in root mode BAR0 is absent. -/
def execHpDoorbellWrite (p : Nat) (v : Word) (s : State) : Host.Outcome State Fault Refusal :=
  .next (if s.hostMode ≠ 2 || !s.hostUp || !s.partExists p then s else s.ringDoorbell p v.toNat)

/-- A 32-bit word of BAR0 as the host reads it (R298). -/
def State.bar0 (s : State) (off : Nat) : Nat :=
  let p := (off - 0x10000) / 0x100
  if off < 0x400 then (alGet s.hp.msix (off / 4)).getD (if off % 16 = 12 then 1 else 0)
  else if off = 0x1000 then s.hp.pba.foldl (fun m v => if v < 32 then m ||| 2 ^ v else m) 0
  else if off = 0x1004 then s.hp.pba.foldl (fun m v => if 32 ≤ v then m ||| 2 ^ (v - 32) else m) 0
  else if 0x10000 ≤ off && off < 0x10800 && off % 0x100 = 0 then s.rd .HP_P_DB p
  else if 0x10000 ≤ off && off < 0x10800 && off % 0x100 = 4 then s.rd .HP_P_WIN_CTRL p
  else if off = 0x20000 then s.glbId
  else if off = 0x20004 then s.rd .HP_LINK_STATUS
  else 0

/-- The vector is masked in the MSI-X table. -/
def State.vectorMasked (s : State) (v : Nat) : Bool := ((alGet s.hp.msix (4 * v + 3)).getD 1) % 2 = 1

/-- A vector sent, or left pending while it is masked (R297, as PCIe defines). -/
def State.sendVector (s : State) (v : Nat) : State :=
  if s.vectorMasked v then { s with hp := { s.hp with pba := if s.hp.pba.contains v then s.hp.pba else v :: s.hp.pba } }
  else { s with pulses := s.pulses ++ [.msi (v / 8) (v % 8)], hp := { s.hp with pba := s.hp.pba.filter (fun x => x ≠ v) } }

/-- Byte `i` of a 32-bit word. -/
def byteAt (w i : Nat) : Byte := BitVec.ofNat 8 (w / 2 ^ (8 * i))

/-- `n` bytes of BAR0 as the host reads them. -/
def State.bar0Bytes (s : State) (off n : Nat) : List Byte :=
  (List.range n).map (fun i => byteAt (s.bar0 ((off + i) / 4 * 4)) ((off + i) % 4))

/-- A 32-bit write to BAR0 by the host (R298): the MSI-X table and the doorbells; the rest is discarded. -/
def State.bar0Write (s : State) (off v : Nat) : State :=
  if off < 0x400 then
    let s := { s with hp := { s.hp with msix := alSet s.hp.msix (off / 4) v } }
    if off % 16 = 12 && s.hp.pba.contains (off / 16) then s.sendVector (off / 16) else s
  else if 0x10000 ≤ off && off < 0x10800 && off % 0x100 = 0 then
    let p := (off - 0x10000) / 0x100
    if s.partExists p then s.ringDoorbell p v else s
  else s

/-- Bytes that the host writes to BAR0, word by word: the bytes of a table entry that a write leaves out keep their value, those of a
doorbell are 0. -/
def State.bar0Store (s : State) (off : Nat) (d : List Byte) : State :=
  (List.range ((off % 4 + d.length + 3) / 4)).foldl (fun s k =>
    let x := off / 4 * 4 + 4 * k
    let old := if x < 0x400 then s.bar0 x else 0
    let word := (List.range 4).map (fun i => if off ≤ x + i && x + i < off + d.length then d.getD (x + i - off) 0 else byteAt old i)
    s.bar0Write x (ofBytesLE word)) s

/-- The address behind a BAR2 offset with its partition (R297): none outside the enabled windows, or without write access. -/
def State.bar2 (s : State) (off n : Nat) (wr : Bool) : Option (Nat × Nat) :=
  let p := off / 0x200000000
  let o := off % 0x200000000
  if s.partExists p && s.bit .HP_P_WIN_CTRL 31 p && o + n ≤ s.fld .HP_P_WIN_CTRL 12 0 p * 0x200000 && (!wr || s.bit .HP_P_WIN_CTRL 30 p) then
    some (p, s.rd64 .HP_P_WIN_LO p + o)
  else none

/-- HP_MSI_RAISE (R297): a write of HP_Pp_MSI by partition p sends its vectors. -/
def execHpMsiRaise (a : Agent) (p mask : Nat) (s : State) : Host.Outcome State Fault Refusal :=
  .next <|
    if 8 ≤ p then s
    else if s.accessFenced a (some 12) then s.respErr
    else if s.agentPart a ≠ p then s.denied a (0xE8100C + 0x10 * p)
    else
      let s := s.respOk
      if s.hostMode ≠ 2 || !s.hostUp then s
      else (bitsSet 8 mask).foldl (fun s i => s.sendVector (8 * p + i)) s

/-! ## Violations of the link (R299) -/

/-- The link is down (R113): no expander, and the LINK event. -/
def State.hostLinkDown (s : State) : State :=
  (((s.clrB .HP_LINK_STATUS 31).clrB .HP_LINK_STATUS 30).wr .HP_CXL_SIZE 0).setB .HP_EVENT 0

/-- SURPRISE_LINK_DOWN (R116, R299, code 0x17): the link drops; the far tier is absent. -/
def execSurpriseLinkDown (s : State) : Host.Outcome State Fault Refusal :=
  .next <|
    if !s.hostUp then s
    else s.hostLinkDown.hpViolation 0x17

/-- HP_RETRAIN_TIMER (R299): every 100 ms a link that is down attempts to retrain; its LTSSM state is open. -/
def execHpRetrainTimer (s : State) : Host.Outcome State Fault Refusal :=
  .next <|
    if s.hostUp || !s.bit .HP_LINK_CTRL 31 || s.hostMode = 0 then s
    else
      let (v, s) := s.fresh
      let s := s.wrF .HP_LINK_STATUS 7 0 v
      { s with hp := { s.hp with retraining := true } }

/-- UNCORRECTABLE_FEC (R299, code 0x16): three within 1 s retrain the link. -/
def execUncorrectableFec (s : State) : Host.Outcome State Fault Refusal :=
  .next <|
    if !s.hostUp then s
    else
      let l := s.now :: s.hp.fec.filter (fun t => s.now < t + 1000000000)
      if l.length < 3 then { s with hp := { s.hp with fec := l } }
      else
        let (v, s) := s.fresh
        let s := s.wrF .HP_LINK_STATUS 7 0 v
        ({ s with hp := { s.hp with fec := [], retraining := true } }).hpViolation 0x16

/-! ## Resets (R298, R300) -/

/-- A reload of partition p disables its window and clears its doorbell. -/
def State.disableWindow (s : State) (p : Nat) : State :=
  ((s.wr .HP_P_WIN_CTRL 0 p).wr .HP_P_DB 0 p)

end Sys2Proof.Machine
end

