-- ==== Sys2Proof/Machine/Net.lean ====
section
/-!
DEFINITION. The TSN switch (R291 to R294, R299, R300): frames, gate lists, links.  PRESUMED from IEEE 802.1Q and 802.1CB: the frame
layout, the default PVID 1 and class table, the R-tag and vector recovery.
-/

namespace Sys2Proof.Machine

/-! ## Ports -/

/-- The owner of a switch port (R291): of an internal port its cluster's owner. -/
def State.netOwner (s : State) (n : Nat) : Option Nat :=
  if n < 8 then s.portOwner n else if n < 12 then s.clusterOwner (n - 8) else none

/-- A port is enabled, its link is up and its owner is not fenced. -/
def State.netUp (s : State) (n : Nat) : Bool :=
  n < 12 && s.bit .NET_P_CTRL 31 n && s.bit .NET_P_STATUS 31 n &&
  (match s.netOwner n with | some p => !s.fencedEngine 11 p | none => false)

/-- The owner of a port has enabled a VLAN on it. -/
def State.netVlan (s : State) (n vid : Nat) : Bool := s.net.vlans.contains (n, vid)

/-- A violation by a link partner (R299). -/
def State.netViolation (s : State) (n code : Nat) : State :=
  let s := (s.bump .NET_P_ERRORS n).setB .NET_P_EVENT 2 n
  if code = 1 then s
  else s.recordRated { cls := 0x0C, code := code, unit := n }
    { cls := 0x0C, part := (s.netOwner n).getD 0xFF, source := 0x4000 + n, detail := code }

/-! ## Frames (R292, R293) -/

/-- A big-endian field of a frame. -/
def beAt (l : List Byte) (o n : Nat) : Nat := ofBytesBE (sliceBytes l o n)

/-- A frame carries a VLAN tag. -/
def vlanTagged (l : List Byte) : Bool := beAt l 12 2 = 0x8100

/-- The VLAN of a frame: that of its tag, else VLAN 1. -/
def frameVid (l : List Byte) : Nat :=
  let v := if vlanTagged l then beAt l 14 2 % 4096 else 0
  if v = 0 then 1 else v

/-- The traffic class of a frame by the default table of 802.1Q: priorities 0 and 1 trade places. -/
def frameClass (l : List Byte) : Nat :=
  match (if vlanTagged l then beAt l 14 2 / 8192 else 0) with
  | 0 => 1 | 1 => 0 | k => k

/-- Where the EtherType behind the VLAN tag lies. -/
def innerType (l : List Byte) : Nat := if vlanTagged l then 16 else 12

/-- The sequence number of a frame's R-tag. -/
def rtagSeq (l : List Byte) : Option Nat :=
  if beAt l (innerType l) 2 = 0xF1C1 then some (beAt l (innerType l + 4) 2) else none

/-- A frame with an R-tag put behind its VLAN tag. -/
def addRtag (l : List Byte) (seq : Nat) : List Byte :=
  let o := innerType l
  l.take o ++ ([0xF1, 0xC1, 0, 0] : List Byte) ++ (bytesLE 2 seq).reverse ++ l.drop o

/-- The FRER stream of a VLAN (R292). -/
def State.frerOf (s : State) (vid : Nat) : Option Nat :=
  (List.range 64).find? (fun k => s.bit .NET_CB 31 k && s.fld .NET_CB 11 0 k = vid)

/-- Vector recovery (802.1CB): the new state of a stream with a history of `len` numbers, and whether the frame is accepted. -/
def recover (len : Nat) (r : Option Recovery8021cb) (seq : Nat) : Recovery8021cb × Bool :=
  match r with
  | none => ({ seq, seen := [true] }, true)
  | some r =>
    let ahead := (seq + 65536 - r.seq) % 65536
    if ahead = 0 then (r, false)
    else if ahead < 32768 then
      if len < ahead then (r, false)
      else ({ seq, seen := (true :: (List.replicate (ahead - 1) false ++ r.seen)).take len }, true)
    else
      let back := 65536 - ahead
      if len ≤ back || r.seen.getD back false then (r, false)
      else
        let seen := r.seen ++ List.replicate (back + 1 - r.seen.length) false
        ({ r with seen := listUpdate seen back (fun _ => true) }, true)

/-- The switch learns where an address is; of a full table some entry makes room, or none. -/
def State.learn (s : State) (vid mac port : Nat) : State :=
  if bitOf mac 40 then s
  else if (alGet s.net.table (vid, mac)).isSome || s.net.table.length < 8192 then
    { s with net := { s.net with table := alSet s.net.table (vid, mac) port } }
  else
    let (v, s) := s.fresh
    if v % 8193 = 8192 then s
    else { s with net := { s.net with table := alSet (s.net.table.eraseIdx (v % 8193)) (vid, mac) port } }

/-- A frame queued at a port. -/
def State.enqueue (s : State) (f : NetFrame) (n : Nat) : State :=
  { s with net := { s.net with queues := alSet s.net.queues n (((alGet s.net.queues n).getD []) ++ [f]) } }

/-- The ports a frame goes to: the member ports of a replicated stream, the learned port, or all others of its VLAN; none for PTP
messages and for the addresses that 802.1Q reserves. -/
def State.egressPorts (s : State) (port : Nat) (l : List Byte) (repl : Option Nat) : List Nat :=
  let vid := frameVid l
  let dst := beAt l 0 6
  let all := match repl with
    | some k => [s.fld .NET_CB 23 20 k, s.fld .NET_CB 19 16 k]
    | none =>
      if dst / 16 = 0x0180C200000 || beAt l (innerType l) 2 = 0x88F7 then []
      else match (if bitOf dst 40 then none else alGet s.net.table (vid, dst)) with
        | some n => [n]
        | none => List.range 12
  all.filter (fun n => n ≠ port && s.netUp n && s.netVlan n vid)

/-- A frame that has passed its checks is learned, replicated and queued (R292, R293). -/
def State.forward (s : State) (port : Nat) (l : List Byte) : State :=
  let vid := frameVid l
  let s := s.learn vid (beAt l 6 6) port
  let repl := (s.frerOf vid).filter (fun k => s.bit .NET_CB 29 k && (rtagSeq l).isNone)
  let out := s.egressPorts port l repl
  let (l, s) := match repl with
    | some k =>
      let q := (alGet s.net.number k).getD 0
      (addRtag l q, { s with net := { s.net with number := alSet s.net.number k ((q + 1) % 65536) } })
    | none => (l, s)
  out.foldl (State.enqueue · { cls := frameClass l, vid, data := l, source := port }) s

/-- ETH_FRAME_RX (R292, R293, R299): a frame without its FCS is received on a port; `fcsOk` is the MAC's check. -/
def execEthFrameRx (n : Nat) (frame : List Byte) (fcsOk : Bool) (s : State) : Host.Outcome State Fault Refusal :=
  .next <|
    if !s.netUp n then s
    else if !fcsOk || frame.length < 60 || s.fld .NET_CFG 13 0 < frame.length + 4 then s.netViolation n 1
    else if beAt frame 12 2 = 0x8808 then s.netViolation n 3
    else if !s.netVlan n (frameVid frame) then s.netViolation n 2
    else
      match (s.frerOf (frameVid frame)).filter (fun k => s.bit .NET_CB 30 k), rtagSeq frame with
      | some k, some q =>
        let (r, ok) := recover (s.fld .NET_CB 28 24 k + 1) (alGet s.net.recovery k) q
        let s := { s with net := { s.net with recovery := alSet s.net.recovery k r } }
        if ok then s.forward n frame else s.netViolation n 4
      | _, _ => s.forward n frame

/-! ## Gates and shapers (R292, R294) -/

/-- The rate of a port in kb/s (R291): that of its SPEED, and 25 Gb/s of an internal port. -/
def State.netRate (s : State) (n : Nat) : Nat :=
  if 8 ≤ n then 25000000
  else [25000000, 10000000, 5000000, 2500000, 1000000, 100000].getD (s.fld .NET_P_STATUS 2 0 n) 100000

/-- How long a port transmits a frame, in ns: its bytes with the FCS, as R294's worked example counts them. -/
def State.frameNs (s : State) (n : Nat) (f : NetFrame) : Nat :=
  let r := s.netRate n
  (8 * (f.data.length + 4) * 1000000 + r - 1) / r

/-- A class may send at a port: no list is in force, or the entry in force opens its gate. -/
def State.gateOpen (s : State) (n c : Nat) : Bool :=
  match alGet s.net.oper n with
  | some g => bitOf (g.entries.getD g.index (0, 0)).1 c
  | none => true

/-- The lengths of the entries ahead that keep a class's gate open. -/
def openAhead (c : Nat) : List (Nat × Nat) → Nat
  | [] => 0
  | e :: l => if bitOf e.1 c then e.2 + openAhead c l else 0

/-- The guard band (R292, R300): a frame of class `c` that takes `d` ns ends before its gate closes. -/
def State.gateHolds (s : State) (n c d : Nat) : Bool :=
  match alGet s.net.oper n with
  | none => true
  | some g => g.entries.all (fun e => bitOf e.1 c) ||
      decide (d ≤ (g.until_ - s.robotNow) + openAhead c (g.entries.drop (g.index + 1) ++ g.entries.take g.index))

/-- The port transmits a frame of class `c` now. -/
def State.sends (s : State) (n c : Nat) : Bool :=
  match alGet s.net.busy n with
  | some b => decide (s.now < b.2) && b.1 == c
  | none => false

/-- Frames of a class wait at a port. -/
def State.classWaits (s : State) (n c : Nat) : Bool := ((alGet s.net.queues n).getD []).any (fun f => f.cls == c)

/-- The idleSlope of shaper `t` of a port in kb/s: at most 75 % of the port's rate (R292). -/
def State.idleSlope (s : State) (n t : Nat) : Nat := min (s.fld .NET_P_CBS 27 0 n t) (s.netRate n * 3 / 4)

/-- The credit of shaper `t` of a port over one nanosecond: it rises at idleSlope while frames wait, falls by the rest of the port's
rate while one is sent, and does not stay above 0 with nothing to send. -/
def State.creditStep (s : State) (n t : Nat) : State :=
  if !s.bit .NET_P_CBS 31 n t then s
  else
    let c := s.fld .NET_P_CBS 30 28 n t
    let x : Int := (alGet s.net.credit (n, t)).getD 0
    let up : Int := s.idleSlope n t
    let y : Int := if s.sends n c then x + up - s.netRate n else if s.classWaits n c then (if s.gateOpen n c then x + up else x)
      else if 0 < x then 0 else min 0 (x + up)
    { s with net := { s.net with credit := alSet s.net.credit (n, t) y } }

/-- The shapers let a class send: the credit of each that shapes it is not negative. -/
def State.creditOk (s : State) (n c : Nat) : Bool :=
  [0, 1].all (fun t => !(s.bit .NET_P_CBS 31 n t && s.fld .NET_P_CBS 30 28 n t = c) || decide (0 ≤ (alGet s.net.credit (n, t)).getD 0))

/-- The oldest frame of a class at a port, if the class may send it now: its gate is open for as long as it takes, and its shapers
have credit. -/
def State.readyFrame (s : State) (n c : Nat) : Option Nat :=
  let q := (alGet s.net.queues n).getD []
  match q.findIdx? (fun f => f.cls == c) with
  | some k => if s.gateOpen n c && s.creditOk n c && (q[k]?).any (fun f => s.gateHolds n c (s.frameNs n f)) then some k else none
  | none => none

/-- A port that transmits nothing begins with the oldest frame of the highest class that may send. -/
def State.netSend (s : State) (n : Nat) : State :=
  let q := (alGet s.net.queues n).getD []
  if q.isEmpty || !s.netUp n || (alGet s.net.busy n).any (fun b => s.now < b.2) then s
  else
    match [7, 6, 5, 4, 3, 2, 1, 0].findSome? (s.readyFrame n) with
    | some k =>
      match q[k]? with
      | some f =>
        { s with net := { s.net with
            queues := alSet s.net.queues n (q.eraseIdx k)
            busy := alSet s.net.busy n (f.cls, s.now + s.frameNs n f)
            sent := alSet s.net.sent n f } }
      | none => s
    | none => s

/-- One nanosecond of a port: its shapers' credit, and a frame that it begins to send. -/
def State.netServe (s : State) (n : Nat) : State := ((s.creditStep n 0).creditStep n 1).netSend n

/-- The entries of an admin list as (GATES, length): the last one, or one that reaches the end of the cycle, ends with it. -/
def fitEntries : Nat → List Nat → List (Nat × Nat)
  | _, [] => []
  | left, [w] => [(w / 2 ^ 24, left)]
  | left, w :: l => if left ≤ w % 2 ^ 24 then [(w / 2 ^ 24, left)] else (w / 2 ^ 24, w % 2 ^ 24) :: fitEntries (left - w % 2 ^ 24) l

/-- The words of a port's admin list (R301). -/
def State.adminWords (s : State) (n : Nat) : List Nat :=
  (List.range (s.fld .NET_P_GATE_CTRL 8 0 n)).map (fun k => s.rd .NET_P_GCL n k)

/-- The admin list of a port as its registers hold it (R301), starting at the first cycle start that R294 gives it. -/
def State.adminList (s : State) (n : Nat) : GateList :=
  let base := s.rd64 .NET_P_BASE_LO n
  let cycle := s.fld .NET_P_CYCLE 29 0 n
  let now := s.robotNow
  let start := if now ≤ base then base else base + ((now + 1000 - base) / max 1 cycle + 1) * cycle
  { entries := fitEntries cycle (s.adminWords n), cycle, start }

/-- An admin list within the limits of R292 and R301. -/
def State.adminOk (s : State) (n : Nat) : Bool :=
  let words := s.adminWords n
  let cycle := s.fld .NET_P_CYCLE 29 0 n
  !words.isEmpty && words.length ≤ 256 && 0 < cycle && cycle ≤ 1000000000 && words.all (fun e => 100 ≤ e % 2 ^ 24)

/-- GATE_LIST_GO (R294, R301): the port's owner schedules the admin list; a list outside the limits is refused. -/
def execGateListGo (a : Agent) (n : Nat) (s : State) : Host.Outcome State Fault Refusal :=
  .next <|
    if 12 ≤ n then s
    else if s.accessFenced a (some 11) then s.respErr
    else if s.netOwner n ≠ some (s.agentPart a) then s.denied a (0xE01010 + 0x800 * n)
    else if !s.adminOk n then s.respErr.record { cls := 0x05, part := s.agentPart a, source := 0x200B }
    else
      let g := s.adminList n
      let s := s.respOk.setB .NET_P_GATE_CTRL 30 n
      { s with net := { s.net with admin := alSet s.net.admin n g } }

/-- CONFIG_CHANGE (R294): the pending list takes effect at its cycle start, in robot time. -/
def execConfigChange (n : Nat) (s : State) : Host.Outcome State Fault Refusal :=
  .next <|
    match alGet s.net.admin n with
    | none => s
    | some g =>
      if s.robotNow < g.start then s
      else
        let g := { g with index := 0, until_ := g.start + (g.entries.headD (0, 0)).2 }
        let s := (s.clrB .NET_P_GATE_CTRL 30 n).setB .NET_P_EVENT 1 n
        { s with net := { s.net with admin := mapErase n s.net.admin, oper := alSet s.net.oper n g } }

/-- GATE_INTERVAL_EXPIRY (R294): the next entry's gates apply at the robot time at which the one in force ends; after the last one, the
first of the next cycle. -/
def execGateIntervalExpiry (n : Nat) (s : State) : Host.Outcome State Fault Refusal :=
  .next <|
    match alGet s.net.oper n with
    | none => s
    | some g =>
      if s.robotNow < g.until_ then s
      else
        let i := (g.index + 1) % max 1 g.entries.length
        let g := { g with index := i, until_ := g.until_ + (g.entries.getD i (0, 0)).2 }
        { s with net := { s.net with oper := alSet s.net.oper n g } }

/-! ## Links (R299) -/

/-- A port's link as the registers show it. -/
def State.setLink (s : State) (n : Nat) (up : Bool) : State :=
  if s.bit .NET_P_STATUS 31 n = up then s
  else
    let s := s.wrB .NET_P_STATUS 31 up n
    let s := if up then s.wrF .NET_P_STATUS 2 0 (s.fld .NET_P_CTRL 2 0 n) n else s.linkLost n
    s.setB .NET_P_EVENT 0 n

/-- ETH_LINK_CHANGE (R299): a link goes up or down; more than 10 changes within 1 s hold the port down. -/
def execEthLinkChange (n : Nat) (up : Bool) (s : State) : Host.Outcome State Fault Refusal :=
  .next <|
    if 12 ≤ n then s
    else if (alGet s.net.actual n).isSome then { s with net := { s.net with actual := alSet s.net.actual n up } }
    else
      let l := s.now :: ((alGet s.net.changes n).getD []).filter (fun t => s.now < t + 1000000000)
      let s := { s with net := { s.net with changes := alSet s.net.changes n l } }
      if 10 < l.length then
        let s := (s.setLink n false).netViolation n 5
        { s with net := { s.net with actual := alSet s.net.actual n up } }
      else s.setLink n up

/-- PORT_HOLD_DOWN_EXPIRY (R299): after 1 s a port held down takes its link's state. -/
def execPortHoldDownExpiry (n : Nat) (s : State) : Host.Outcome State Fault Refusal :=
  .next <|
    match alGet s.net.actual n with
    | none => s
    | some up =>
      let s := { s with net := { s.net with actual := mapErase n s.net.actual, changes := mapErase n s.net.changes } }
      s.setLink n up

/-! ## Resets (R300) -/

/-- The frames queued to or from the ports of a partition are dropped. -/
def State.dropFrames (s : State) (p : Nat) : State :=
  let own (n : Nat) : Bool := s.netOwner n == some p
  { s with net := { s.net with
      queues := (s.net.queues.filter (fun q => !own q.1)).map (fun q => (q.1, q.2.filter (fun f => !own f.source))) } }

/-- A reload disables the ports of a partition. -/
def State.disablePorts (s : State) (p : Nat) : State :=
  ((List.range 12).filter (fun n => s.netOwner n = some p)).foldl (fun s n =>
    let s := (s.wr .NET_P_CTRL 0 n).clrB .NET_P_GATE_CTRL 30 n
    { s with net := { s.net with admin := mapErase n s.net.admin, oper := mapErase n s.net.oper } }) (s.dropFrames p)

end Sys2Proof.Machine
end

