-- ==== Sys2Proof/Machine/Power.lean ====
section
/-!
DEFINITION. Power, frequency and thermal control (R303 to R326): the 2 us tick, telemetry and trust, temperature, squall, gale
trip, tile wakes.
-/

namespace Sys2Proof.Machine

/-! ## Units and sensors -/

/-- The tile rail of a physical tile: 0 VDD_TILE_N, 1 VDD_TILE_S (R304). -/
def tileRail (t : Nat) : Nat := if t < 34 then 0 else 1

/-- CUR_MHZ of a tile. -/
def State.tileMhz (s : State) (t : Nat) : Nat := s.fld .TILE_FREQ 15 0 t
/-- FMAX_MHZ of a tile. -/
def State.tileFmax (s : State) (t : Nat) : Nat := s.fld .TILE_FREQ 31 16 t
/-- CUR_MHZ of a host cluster. -/
def State.hostMhz (s : State) (c : Nat) : Nat := s.fld .PWR_HOST 15 0 c

/-- The last reading of a sensor in degrees: tiles 0 to 67, clusters 68 to 71, fabric points 72 to 75, the deep region 76,
warm stacks 77 to 84. -/
def State.temp (s : State) (k : Nat) : Nat := s.pwr.temps.getD k 0

/-- The limit of a temperature between a top and a lowest frequency, in 25 MHz steps (R319). -/
def tempLimit (t top low : Nat) : Nat :=
  if t < 95 then top else if 105 ≤ t then low else (top * 10 - (t - 95) * (top - low)) / 250 * 25

/-- PWR_CAP and PWR_CEILING in force: what is written during a squall applies when it ends (R325). -/
def State.capAndCeiling (s : State) : Nat × Nat := s.pwr.frozen.getD (s.fld .PWR_CAP 7 0, s.fld .PWR_CEILING 10 0)

/-- The service ceiling. -/
def State.ceiling (s : State) : Nat := s.capAndCeiling.2

/-- The limits of a tile: the ceiling, Fmax, temperature (R315, R316, R318, R319). -/
def State.tileLimit (s : State) (t : Nat) : Nat := min (min s.ceiling (s.tileFmax t)) (tempLimit (s.temp t) s.ceiling 400)

/-- The voltage in mV of a table of (MHz, mV) points for a frequency `num / den` MHz, rounded up to 5 mV (R313). -/
def voltAt (num den : Nat) : List (Nat × Nat) → Nat
  | (f0, v0) :: (f1, v1) :: l =>
    if num ≤ f0 * den then v0
    else if num ≤ f1 * den then
      let d := (f1 - f0) * den
      (v0 * d + (num - f0 * den) * (v1 - v0) + 5 * d - 1) / (5 * d) * 5
    else voltAt num den ((f1, v1) :: l)
  | [(_, v)] => v
  | [] => 0

/-- The voltage that tile `t` needs at `f` MHz (R313). -/
def State.tileVolt (s : State) (t f : Nat) : Nat :=
  voltAt (f * 1400) (max 1 (s.tileFmax t)) [(400, 550), (600, 580), (800, 630), (1000, 700), (1200, 790), (1400, 900)]

/-- The voltage that a host cluster needs at `f` MHz (R313). -/
def hostVolt (f : Nat) : Nat := voltAt f 1 [(600, 600), (1500, 750), (2600, 950)]

/-! ## Budgets (R303 to R306) -/

/-- The cap in force in W: PWR_CAP less what R320 has taken, no less than CAP_MIN. -/
def State.capNow (s : State) : Nat :=
  max (min s.capAndCeiling.1 (match s.spl.chip with | some c => c.capMin | none => 0)) (s.capAndCeiling.1 - s.pwr.cut)

/-- The budget of domain `d` (0 tiles, 1 host, 2 memory, 3 IO and network) in 10 mW units. -/
def State.domBudget (s : State) (d : Nat) : Nat :=
  let f := match s.spl.chip with | some c => c.fracs | none => [42, 6, 9, 4, 3]
  (quotEven (s.capNow * 100 * f.getD d 0 : Nat) 64).toNat

/-- PART_SHARE of a partition. -/
def State.partShare (s : State) (p : Nat) : Nat := match s.spl.chip with | some c => c.partShare.getD p 0 | none => 0

/-- TRUST of a domain: 0 TRUSTED, 1 UNTRUSTED, 2 LOST. -/
def State.trust (s : State) (d : Nat) : Nat := s.fld .PWR_STATUS (2 * d + 1) (2 * d)

/-- TRUST set. -/
def State.setTrust (s : State) (d v : Nat) : State := s.wrF .PWR_STATUS (2 * d + 1) (2 * d) v

/-- Fixed-frequency mode holds the whole chip (R316). -/
def State.fixedChip (s : State) : Bool :=
  s.spl.chip.isNone || s.bit .PWR_CTRL 31 || s.flt.recoveries.any (fun r => r.domain == .chip && r.phase == .fencing)

/-- Fixed-frequency mode holds partition `p`. -/
def State.fixedPart (s : State) (p : Nat) : Bool := s.fixedChip || s.reloading p || s.flt.recoveries.any (fun r => r.phase != .waiting && r.domain == .part p)

/-- A squall is in force. -/
def State.squall (s : State) : Bool := s.bit .PWR_STATUS 31

/-! ## The estimate (R308) -/

/-- 5e-7 as FP32. -/
def pjToW : Fp := of32 0x350637BD

/-- FP32 operations whose flags nothing collects. -/
def fAdd (a b : Fp) : Fp := (a.add b).1
/-- Product. -/
def fMul (a b : Fp) : Fp := (a.mul b).1
/-- Quotient. -/
def fDiv (a b : Fp) : Fp := (a.div b).1
/-- A number as FP32. -/
def fNat (n : Nat) : Fp := (ofInt n).to32.1

/-- Weight `k` (R309). -/
def State.weight (s : State) (k : Nat) : Fp := of32 (s.rd .PWR_WEIGHT k)

/-- The energy of counters from weight `k` on. -/
def State.energy (s : State) (k : Nat) (cs : List Nat) : Fp :=
  (cs.zipIdx).foldl (fun e c => fAdd e (fMul (fNat c.1) (s.weight (k + c.2)))) (fNat 0)

/-- exp2f of the estimate (R308): 2^x, rounded once (R51). -/
def exp2f (x : Fp) : Fp :=
  match x with
  | .fin n m e =>
    let y := Big.exp (Big.mul ((if n then -(m : Int) else m), e) (ln2Fixed, -(bigBits : Int)))
    (Fp.fin false y.1.natAbs y.2).to32.1
  | .inf n => if n then fpConst 0 0 else .inf false
  | .nan => .nan

/-- The power of a tile or cluster from its energy, its rail in mV, its leakage and its temperature. -/
def unitPower (e : Fp) (mv : Nat) (leak : Fp) (t : Nat) : Fp :=
  let r := fDiv (fDiv (fNat mv) (fNat 1000)) (fpConst 3 (-2))
  let x := fDiv (((ofInt t).sub (fNat 85)).1) (fNat 20)
  fAdd (fMul (fMul (fMul e r) r) pjToW) (fMul (fMul (fMul (fMul leak r) r) r) (exp2f x))

/-- A power in W as 10 mW units, to nearest, at most 65,535. -/
def wattsCw (x : Fp) : Nat :=
  match x with
  | .fin n m e => if n then 0 else min 0xFFFF (roundInt (m * 100) e)
  | .inf n => if n then 0 else 0xFFFF
  | .nan => 0xFFFF

/-- The estimate of a tick from its counters: tile `t` counter `k` at 8t + k, then the clusters' counters 8 to 10, then
counters 11 to 15. -/
def State.tilePower (s : State) (cnt : List Nat) (t : Nat) : Fp :=
  unitPower (s.energy 0 ((cnt.drop (8 * t)).take 8)) (s.pwr.rails.getD (tileRail t) 0) (of32 (Config.leak t % 2 ^ 32)) (s.temp t)

/-- The power of host cluster `c`. -/
def State.hostPower (s : State) (cnt : List Nat) (c : Nat) : Fp :=
  unitPower (s.energy 8 ((cnt.drop (544 + 3 * c)).take 3)) (s.pwr.rails.getD 2 0) (of32 (Config.leak (68 + c) % 2 ^ 32)) (s.temp (68 + c))

/-- The scaled estimate of domain `d` in W. -/
def State.domEstimate (s : State) (cnt : List Nat) (d : Nat) : Fp :=
  let sum := match d with
    | 0 => (List.range 68).foldl (fun a t => fAdd a (s.tilePower cnt t)) (fNat 0)
    | 1 => (List.range 4).foldl (fun a c => fAdd a (s.hostPower cnt c)) (fNat 0)
    | 2 => fAdd (fMul (s.energy 11 ((cnt.drop 556).take 4)) pjToW) (of32 (Config.staticPower 2 % 2 ^ 32))
    | _ => fAdd (fMul (s.energy 15 ((cnt.drop 560).take 1)) pjToW) (of32 (Config.staticPower 3 % 2 ^ 32))
  fMul (ofInt (s.fld .PWR_SCALE 10 0 d) (-10)) sum

/-! ## Frequencies (R306, R307, R311, R312, R314 to R316) -/

/-- A gang that runs: its job and its physical tiles. -/
structure Gang where
  job : Nat
  tiles : List Nat
  deriving DecidableEq, Repr

/-- The gangs bound to tiles. -/
def State.gangs (s : State) : List Gang :=
  (s.usedJobs.map (fun j => (⟨j, (List.range 68).filter (fun t => (s.run t).ctx == some j)⟩ : Gang))).filter (fun g => !g.tiles.isEmpty)

/-- The limit of a gang: the lowest of its members' (R315). -/
def State.gangLimit (s : State) (g : Gang) : Nat := (g.tiles.map s.tileLimit).foldl min 0xFFFF

/-- The frequency of a gang now; a stopped member counts as the lowest state. -/
def State.gangMhz (s : State) (g : Gang) : Nat := (g.tiles.map (fun t => max 400 (s.tileMhz t))).foldl min 0xFFFF

/-- A frequency that the manual leaves to the power manager, a multiple of 25 MHz from `lo` to `hi`: a free value. -/
def State.freeMhz (s : State) (lo hi : Nat) : Nat × State :=
  let f := s.fresh
  (if hi ≤ lo then hi else min hi ((lo + 24) / 25 * 25 + 25 * (f.1 % ((hi - lo) / 25 + 1))), f.2)

/-- The highest frequency that a domain's trust allows a unit at `cur` (R311). -/
def State.trustLimit (s : State) (d cur low : Nat) : Nat :=
  match s.trust d with
  | 0 => 0xFFFF
  | 1 => if s.pwr.raise.contains d then cur + 25 else cur
  | _ => if alGet s.pwr.before d = some 1 then low else 0xFFFF

/-- The reduction that telemetry asks of a unit at `cur` MHz (R311), rounded down to 25 MHz. -/
def State.ratioLimit (s : State) (d cur low : Nat) : Nat :=
  match alGet s.pwr.ratio d with
  | some (b, m) => if m = 0 then 0xFFFF else max low (cur * b / m / 25 * 25)
  | none => 0xFFFF

/-- The estimate controls a domain unless the domain is UNTRUSTED, which measured power alone controls (R311). -/
def State.byEstimate (s : State) (d : Nat) : Bool := s.trust d ≠ 1

/-- A partition's tiles use more than its budget of the tick (R306). -/
def State.partOver (s : State) (p : Nat) : Bool := s.byEstimate 0 && s.fld .PWR_P 31 16 p < s.fld .PWR_P 15 0 p

/-- A host domain above its budget, or above 90 % of it while LOST, by the estimate (R304, R311). -/
def State.hostOver (s : State) : Bool :=
  let b := s.fld .PWR_DOM 31 16 1
  s.byEstimate 1 && (if s.trust 1 = 2 then b * 90 / 100 else b) < s.fld .PWR_DOM 15 0 1

/-- A unit above its budget falls at least one step, to no less than its lowest state. -/
def fallLimit (over_ : Bool) (cur low : Nat) : Nat := if over_ then max low (cur - 25) else 0xFFFF

/-- At most one step above the present frequency while the domains rise again after a squall (R322). -/
def State.rampLimit (s : State) (cur : Nat) : Nat := if s.pwr.ramp then cur + 25 else 0xFFFF

/-- The frequency a gang is to run at: `short` says that the tile budget falls short, `others` that non-RT work is left.  The hold of
a domain that became LOST while UNTRUSTED reaches RT gangs too (R307). -/
def State.gangTarget (s : State) (g : Gang) (short others : Bool) : Nat × State :=
  let rt : Bool := s.jobClass g.job = 0
  let lim := s.gangLimit g
  let cur := s.gangMhz g
  if s.squall then (400, s)
  else if s.fixedPart (s.jobOwner g.job) then (min (min 800 lim) (s.rampLimit cur), s)
  else
    let held := if s.trust 0 = 2 then s.trustLimit 0 cur 400 else 0xFFFF
    let cut := if rt && others then held else min (s.ratioLimit 0 cur 400) (s.trustLimit 0 cur 400)
    let over_ := fallLimit (!rt && s.partOver (s.jobOwner g.job)) cur 400
    let hi := min (min (min lim cut) over_) (s.rampLimit cur)
    if !rt && short then (min 400 hi, s)
    else s.freeMhz (if rt then min 1000 hi else min 400 hi) hi

/-- The frequency of a host cluster. -/
def State.hostTarget (s : State) (c : Nat) : Nat × State :=
  let lim := tempLimit (s.temp (68 + c)) 2600 600
  let cur := max 600 (s.hostMhz c)
  if s.squall then (600, s)
  else if s.fixedChip || (match s.clusterOwner c with | some p => s.fixedPart p | none => false) then
    (min (min 1500 lim) (s.rampLimit cur), s)
  else
    let hi := min (min (min lim (min (s.ratioLimit 1 cur 600) (s.trustLimit 1 cur 600))) (fallLimit s.hostOver cur 600)) (s.rampLimit cur)
    s.freeMhz (min 600 hi) hi

/-- A rail carries at least a voltage, settled (R314). -/
def State.railReady (s : State) (r mv : Nat) : Bool := mv ≤ s.pwr.rails.getD r 0 && s.pwr.settled.contains r

/-- A rise that waits for its voltage, by job or 1024 + cluster. -/
def State.setRise (s : State) (k : Nat) (f : Option Nat) : State :=
  { s with pwr := { s.pwr with rises := (match f with | some x => [(k, x)] | none => []) ++ mapErase k s.pwr.rises } }

/-- A gang goes to a frequency (R314, R315): a fall at once on all its tiles, a rise once its rails are ready. -/
def State.driveGang (s : State) (g : Gang) (f : Nat) : State :=
  let cur := s.gangMhz g
  let ready := g.tiles.all (fun t => s.railReady (tileRail t) (s.tileVolt t f))
  let now := if f ≤ cur || ready then f else cur
  let s := s.setRise g.job (if now < f then some f else none)
  g.tiles.foldl (fun s t => if s.pwr.gated.contains t then s else s.wrF .TILE_FREQ 15 0 now t) s

/-- A host cluster goes to a frequency. -/
def State.driveHost (s : State) (c f : Nat) : State :=
  let cur := max 600 (s.hostMhz c)
  let now := if f ≤ cur || s.railReady 2 (hostVolt f) then f else cur
  (s.setRise (1024 + c) (if now < f then some f else none)).wrF .PWR_HOST 15 0 now c

/-- The voltage that rail `r` needs for what it clocks and for the rises that wait (R313, R314). -/
def State.railNeed (s : State) (r : Nat) : Nat :=
  if r = 2 then ((List.range 4).map (fun c => hostVolt (max (s.hostMhz c) ((alGet s.pwr.rises (1024 + c)).getD 0)))).foldl max 0
  else ((List.range 68).map (fun t =>
    if tileRail t ≠ r || s.tileMhz t = 0 then 0
    else s.tileVolt t (max (s.tileMhz t) (match (s.run t).ctx with | some j => (alGet s.pwr.rises j).getD 0 | none => 0)))).foldl max 0

/-- The rails commanded: a rise settles 100 us later, a fall follows at once. -/
def State.driveRails (s : State) : State :=
  (List.range 3).foldl (fun s r =>
    let need := s.railNeed r
    let old := s.pwr.rails.getD r 0
    { s with pwr := { s.pwr with
        rails := listUpdate s.pwr.rails r (fun _ => need)
        settled := if old < need then s.pwr.settled.filter (fun x => x != r) else s.pwr.settled } }) s

/-- PWR_TILEt of a tile: its temperature, what limits it, its limit. -/
def State.showTileLimit (s : State) (gs : List Gang) (t : Nat) : State :=
  let own := s.tileLimit t
  let gang := match gs.find? (fun g => g.tiles.contains t) with | some g => s.gangLimit g | none => own
  let lim := if s.squall then 400 else gang
  let bound := (s.run t).ctx.isSome
  let cap : Bool := bound && !s.squall && s.tileMhz t < gang
  let hot : Bool := tempLimit (s.temp t) s.ceiling 400 < min s.ceiling (s.tileFmax t)
  let slow : Bool := s.tileFmax t < s.ceiling
  let cause := cap.toNat + 2 * hot.toNat + 4 * s.squall.toNat + 8 * slow.toNat + 16 * (decide (gang < own)).toNat
  s.wr .PWR_TILE (s.temp t * 2 ^ 24 + cause * 2 ^ 16 + min 0xFFFF lim) t

/-- An event bit of PWR_EVENT: 0 SQUALL, 1 THROTTLE, 2 BORROW, 3 RECAL, 4 UNTRUSTED, 5 LOST, 6 RT_SHORT, 7 FMAX, 8 RETIRE. -/
def State.pwrEvent (s : State) (k : Nat) : State := s.setB .PWR_EVENT k

/-- The budgets of the partitions (R306): their shares, and what is left over given to those whose gangs are held below
their highest frequency, by PART_SHARE. -/
def State.showParts (s : State) (cnt : List Nat) (gs : List Gang) (tileBudget : Nat) : State :=
  let use (p : Nat) : Nat := wattsCw (fMul (ofInt (s.fld .PWR_SCALE 10 0 0) (-10))
    ((gs.filter (fun g => s.jobOwner g.job == p)).foldl (fun a g => g.tiles.foldl (fun a t => fAdd a (s.tilePower cnt t)) a) (fNat 0)))
  let share (p : Nat) : Nat := (quotEven (tileBudget * s.partShare p : Nat) 64).toNat
  let heldDown (p : Nat) : Bool := gs.any (fun g => s.jobOwner g.job == p && s.gangMhz g < s.gangLimit g)
  let left := (tileBudget - ((List.range 8).map share).sum) +
    (((List.range 8).filter (fun p => !heldDown p)).map (fun p => share p - use p)).sum
  let weights := (((List.range 8).filter heldDown).map s.partShare).sum
  (List.range 8).foldl (fun s p =>
    let b := share p + (if heldDown p && weights ≠ 0 then (quotEven (left * s.partShare p : Nat) weights).toNat else 0)
    s.wr .PWR_P (min 0xFFFF b * 2 ^ 16 + use p) p) s

/-- What a domain that is not throttled takes from the tile budget (R305, R311): its excess by the estimate or by a reading; while
UNTRUSTED by readings alone, against 85 % of its budget; while LOST by the estimate, against 90 %. -/
def State.domExcess (s : State) (est : List Nat) (d : Nat) : Nat :=
  let b := s.domBudget d
  let e := est.getD d 0
  let read := match alGet s.pwr.ratio d with | some (target, m) => m - target | none => 0
  match s.trust d with
  | 0 => max (e - b) read
  | 1 => read
  | _ => max (e - b * 90 / 100) read

/-- RT_SHORT (R307): an RT gang runs below 1.00 GHz, or the tile budget falls short of what RT gangs need. -/
def State.showRt (s : State) (short : Bool) : State :=
  let slow : Bool := s.gangs.any (fun g => s.jobClass g.job == 0 && (s.pwr.gale || s.gangMhz g < 1000))
  let s := s.wrB .PWR_STATUS 29 (slow || short)
  if slow || short then s.pwrEvent 6 else s

/-- POWER_TICK (R305 to R308, R311, R312, R314 to R316): the estimate from the tick's counters, the budgets, and the
frequencies.  Where the rules leave a frequency open, it is a free value inside their limits. -/
def execPowerTick (cnt : List Nat) (s : State) : Host.Outcome State Fault Refusal :=
  .next <|
    let est := (List.range 4).map (fun d => wattsCw (s.domEstimate cnt d))
    let borrow := s.domExcess est 2 + s.domExcess est 3
    let tileBudget := s.domBudget 0 - borrow
    let budget (d : Nat) : Nat := if d = 0 then tileBudget else s.domBudget d
    let s := (List.range 4).foldl (fun s d => s.wr .PWR_DOM (min 0xFFFF (budget d) * 2 ^ 16 + est.getD d 0) d) s
    let s := if borrow = 0 then s else s.pwrEvent 2
    let total := est.sum
    let s := { s with pwr := { s.pwr with estimates := (total :: s.pwr.estimates).take 500 } }
    let s := s.wr .PWR_EST (min 0xFFFF (quotEven s.pwr.estimates.sum (max 1 s.pwr.estimates.length : Nat)).toNat)
    let gs := s.gangs
    let s := s.showParts cnt gs tileBudget
    if s.pwr.gale then s
    else
      let limit := if s.trust 0 = 2 then tileBudget * 90 / 100 else tileBudget
      let short : Bool := if s.byEstimate 0 then limit < est.getD 0 0 else (alGet s.pwr.ratio 0).isSome
      let others : Bool := gs.any (fun g => s.jobClass g.job != 0)
      let rtShort : Bool := short && gs.any (fun g => s.jobClass g.job == 0)
      let idle := (List.range 68).filter (fun t => (s.run t).ctx.isNone)
      let s := idle.foldl (fun s t => s.wrF .TILE_FREQ 15 0 0 t) s
      let s := gs.foldl (fun s g => let x := s.gangTarget g rtShort others; x.2.driveGang g x.1) s
      let s := (List.range 4).foldl (fun s c => let x := s.hostTarget c; x.2.driveHost c x.1) s
      let s := s.driveRails
      let s := (List.range 68).foldl (fun s t => s.showTileLimit gs t) s
      let s := s.showRt rtShort
      let lowest : Bool := gs.all (fun g => s.jobClass g.job == 0 || s.gangMhz g ≤ 400)
      let s := if short && (s.fixedChip || lowest) then s.pwrEvent 1 else s
      let s := s.wrB .PWR_STATUS 30 (s.fixedChip || (List.range 8).any s.fixedPart)
      let ramp : Bool := s.pwr.ramp && (gs.any (fun g => s.gangMhz g < min 1000 (s.gangLimit g)) ||
        (List.range 4).any (fun c => s.hostMhz c < 1500))
      { s with pwr := { s.pwr with ratio := [], raise := [], ramp := ramp } }

/-- 100 us after a new voltage of a rail (R314): the rises that waited for it alone take effect. -/
def execVoltageSettled (r : Nat) (s : State) : Host.Outcome State Fault Refusal :=
  .next <|
    if 3 ≤ r || s.pwr.settled.contains r then s
    else
      let s := { s with pwr := { s.pwr with settled := r :: s.pwr.settled } }
      if s.squall || s.pwr.gale then s
      else
        let s := s.gangs.foldl (fun s g => match alGet s.pwr.rises g.job with
          | some f => s.driveGang g (min f (s.gangLimit g))
          | none => s) s
        (List.range 4).foldl (fun s c => match alGet s.pwr.rises (1024 + c) with
          | some f => s.driveHost c (min f (tempLimit (s.temp (68 + c)) 2600 600))
          | none => s) s

/-! ## Telemetry (R310, R311, R324) -/

/-- The rails of a domain (R304, R310). -/
def domRails : Nat → List Nat
  | 0 => [0, 1]
  | 1 => [2]
  | 2 => [4, 5, 6, 7, 8, 9]
  | _ => [3, 10, 11, 12]

/-- The domain of a rail. -/
def railDom (r : Nat) : Nat := ((List.range 4).find? (fun d => (domRails d).contains r)).getD 3

/-- The measured power of a domain: the last readings of its rails. -/
def State.measured (s : State) (d : Nat) : Nat := ((domRails d).map (fun r => s.fld .PWR_RAIL_READ 15 0 r)).sum

/-- The record of a regulator violation (R324). -/
def State.railRecord (s : State) (r code : Nat) : State :=
  s.recordRated { cls := 0x0E, code, unit := r } { cls := 0x0E, part := 0xFF, source := 0x5000 + r, detail := code }

/-- The record of a power event on the power manager. -/
def State.powerRecord (s : State) (source : Nat) (context : Nat := 0xFFFFFFFF) : State :=
  s.record { cls := 0x0F, part := 0xFF, source, context }

/-- SCALE recalibrated from averages (R311). -/
def State.recal (s : State) (d m e : Nat) : State :=
  if e = 0 then s
  else (s.wrF .PWR_SCALE 10 0 (min 1229 (max 819 ((quotEven (s.fld .PWR_SCALE 10 0 d * m : Nat) e).toNat))) d).pwrEvent 3

/-- Two powers differ by more than `pc` percent. -/
def farApart (pc m e : Nat) : Bool := pc * e < 100 * (max m e - min m e)

/-- The trust state after a new sample (R311). -/
def State.trustStep (s : State) (d : Nat) : State :=
  let l := (alGet s.pwr.samples d).getD []
  let window (ns : Nat) : List PowerSample := l.filter (fun x => s.now < x.time + ns)
  let spans (ns : Nat) : Bool := l.any (fun x => x.time + ns ≤ s.now)
  let forget (s : State) : State := { s with pwr := { s.pwr with samples := mapErase d s.pwr.samples } }
  let w := window 10000000
  let avg (w : List PowerSample) (f : PowerSample → Nat) : Nat := (quotEven (w.map f).sum (max 1 w.length : Nat)).toNat
  match s.trust d with
  | 0 =>
    if !spans 10000000 || w.isEmpty then s
    else if w.all (fun x => farApart 25 x.measured x.estimated) then
      forget (((s.setTrust d 1).pwrEvent 4).powerRecord 0x200D d)
    else if farApart 10 (avg w PowerSample.measured) (avg w PowerSample.estimated) then
      forget (s.recal d (avg w PowerSample.measured) (avg w PowerSample.estimated))
    else s
  | 1 =>
    let w := window 1000000000
    if spans 1000000000 && !w.isEmpty && w.all (fun x => !farApart 10 x.measured x.estimated) then
      forget ((s.setTrust d 0).recal d (avg w PowerSample.measured) (avg w PowerSample.estimated))
    else s
  | _ => s

/-- A LOST domain whose rails have all been valid for 100 ms (R311). -/
def State.lostStep (s : State) (d : Nat) : State :=
  if s.trust d = 2 && (domRails d).all (fun r => match alGet s.pwr.valid r with | some t => t + 100000000 ≤ s.now | none => !s.bit .PWR_RAIL_CFG 31 r) then
    s.setTrust d ((alGet s.pwr.before d).getD 0)
  else s

/-- A squall begins (R322, R325): every gang and cluster to its lowest state, rises abandoned. -/
def State.startSquall (s : State) : State :=
  let s := (s.setB .PWR_STATUS 31).pwrEvent 0
  let s := { s with pwr := { s.pwr with rises := [], released := false, frozen := some s.capAndCeiling } }
  if s.pwr.gale then s
  else
    let s := s.gangs.foldl (fun s g => g.tiles.foldl (fun s t => if s.pwr.gated.contains t then s else s.wrF .TILE_FREQ 15 0 400 t) s) s
    let s := (List.range 4).foldl (fun s c => s.wrF .PWR_HOST 15 0 600 c) s
    s.driveRails.showRt false

/-- Both squall signals are released. -/
def State.squallClear (s : State) : Bool := s.pins.squallN && s.pins.pfailN

/-- The hold of a squall starts (R322) once both signals are released and code 0x06 does not hold it. -/
def State.startHold (s : State) : State :=
  if s.squallClear && !s.pwr.held && s.squall then { s with pwr := { s.pwr with released := true } } else s

/-- The first rail that reports a fault held in PWR_SQUALL (R322). -/
def State.squallCause (s : State) : Option (Nat × Nat) → State
  | some (r, w) => s.wr .PWR_SQUALL (r * 2 ^ 28 + w % 2 ^ 16)
  | none => s

/-- No valid reading of a rail is held any more. -/
def State.railInvalid (s : State) (r : Nat) : State := { s with pwr := { s.pwr with valid := mapErase r s.pwr.valid } }

/-- A valid reading of a rail, in centiwatts: its domain is measured, and its budget, ratio and trust follow (R310, R311, R314). -/
def State.railRead (s : State) (r cw : Nat) : State :=
  let s := s.wr .PWR_RAIL_READ (min 0xFFFF cw) r
  let s := { s with pwr := { s.pwr with valid := alSet s.pwr.valid r ((alGet s.pwr.valid r).getD s.now) } }
  let d := railDom r
  let m := s.measured d
  let budget := if d ≤ 1 then s.fld .PWR_DOM 31 16 d else s.domBudget d
  let target := if s.trust d = 1 then budget * 85 / 100 else budget
  let s := if target < m then { s with pwr := { s.pwr with ratio := alSet s.pwr.ratio d (target, m) } } else s
  let s := if s.trust d = 1 && m < budget * 80 / 100 then { s with pwr := { s.pwr with raise := d :: s.pwr.raise } } else s
  let keep : List PowerSample := ((alGet s.pwr.samples d).getD []).filter (fun y => s.now < y.time + 1100000000)
  let s := { s with pwr := { s.pwr with samples := alSet s.pwr.samples d (keep ++ [({ time := s.now, measured := m, estimated := s.fld .PWR_DOM 15 0 d } : PowerSample)]) } }
  (s.trustStep d).lostStep d

/-- The value of a PMBus Linear11 word as (mantissa, exponent): both two's complement, 11 and 5 bits. -/
def linear11 (w : Nat) : Int × Int := (sintOf 11 (w % 2 ^ 11), sintOf 5 (w / 2 ^ 11 % 2 ^ 5))

/-- The exponent of a Linear16 voltage, from VOUT_MODE. -/
def voutExp (mode : Nat) : Int := sintOf 5 (mode % 2 ^ 5)

/-- The rated maximum of a rail in mA, and the highest voltage of rails 3 to 12 in mV (R367). -/
def railRating (r : Nat) : Nat × Nat :=
  [(130000, 900), (130000, 900), (30000, 950), (25000, 775), (30000, 775), (3000, 1950), (20000, 1120), (15000, 570), (12000, 2750),
    (6000, 1260), (2000, 1890), (1000, 3465), (6000, 880)].getD r (0, 0)

/-- A number (mantissa, exponent) in units of 1 / k, to nearest. -/
def scaledBy (k : Nat) (x : Int × Int) : Int :=
  if 0 ≤ x.2 then x.1 * k * (2 ^ x.2.toNat : Nat) else quotEven (x.1 * k) (2 ^ (-x.2).toNat : Nat)

/-- The power of a reading in 10 mW units (R310): V times I of rails 0 to 2, READ_POUT of the others; none where it is negative or above
twice the rail's rated maximum (R324, code 0x03). -/
def readingCw (r : Nat) : Reading → Option Nat
  | .volts mode vout iout =>
    let i := linear11 iout
    if i.1 < 0 || (2 * (railRating r).1 : Int) < scaledBy 1000 i then none
    else some (scaledBy 100 (i.1 * vout, i.2 + voutExp mode)).toNat
  | .power pout =>
    let p := linear11 pout
    if p.1 < 0 || (2 * ((railRating r).1 * (railRating r).2) : Int) < scaledBy 1000000 p then none else some (scaledBy 100 p).toNat
  | _ => none

/-- The reading is of the kind that the round of readings takes of the rail (R310). -/
def readingFits (r : Nat) : Reading → Bool
  | .volts .. => r < 3
  | .power _ => 3 ≤ r
  | _ => true

/-- A PMBus reading of rail `r` completes (R310, R311, R324). -/
def execTelemetryReading (r : Nat) (x : Reading) (s : State) : Host.Outcome State Fault Refusal :=
  .next <|
    if 13 ≤ r || !s.bit .PWR_RAIL_CFG 31 r || !readingFits r x then s
    else
      match x with
      | .missing => ((s.wrF .PWR_RAIL_READ 31 30 (max 1 (s.fld .PWR_RAIL_READ 31 30 r)) r).railInvalid r).railRecord r 1
      | .pec => s.railInvalid r
      | .fault w =>
        if s.pins.squallN then (((s.railRecord r 5).startSquall).squallCause (some (r, w))).startHold else s.squallCause (some (r, w))
      | .volts .. | .power _ =>
        match readingCw r x with
        | some cw => s.railRead r cw
        | none => (s.railInvalid r).railRecord r 3

/-- Each PWR_TELEM period (R310): the round of readings starts; PWR_MEAS shows the last one. -/
def execTelemetryPeriod (s : State) : Host.Outcome State Fault Refusal :=
  .next (s.wr .PWR_MEAS (min 0xFFFF ((List.range 4).map s.measured).sum))

/-- No valid reading of a rail for 10 ms (R311, R324): the rail is lost and its domain goes LOST. -/
def execRailNoReading (r : Nat) (s : State) : Host.Outcome State Fault Refusal :=
  .next <|
    if 13 ≤ r || !s.bit .PWR_RAIL_CFG 31 r || s.fld .PWR_RAIL_READ 31 30 r = 2 then s
    else
      let d := railDom r
      let s := (s.wrF .PWR_RAIL_READ 31 30 2 r).railRecord r 4
      let s := { s with pwr := { s.pwr with valid := mapErase r s.pwr.valid } }
      if s.trust d = 2 then s
      else
        let s := { s with pwr := { s.pwr with before := alSet s.pwr.before d (s.trust d) } }
        (s.setTrust d 2).pwrEvent 5

/-! ## Temperature (R318 to R321) -/

/-- A sample of every sensor (R319): tiles, clusters, fabric, the deep region, the warm stacks. -/
def execTempSample (l : List Nat) (s : State) : Host.Outcome State Fault Refusal :=
  .next <|
    let l := (l.take 85).map (fun t => min 255 t)
    let s := { s with pwr := { s.pwr with temps := l } }
    let hot := l.foldl max 0
    let sensor := (l.findIdx? (fun t => t == hot)).getD 0
    let s := s.wr .PWR_TEMP (hot * 2 ^ 24 + s.temp 76 * 2 ^ 16 + sensor)
    let s := s.wrF .MEM_DEEP_STATUS 31 24 (s.temp 76)
    let s := (List.range 4).foldl (fun s c => s.wrF .PWR_HOST 31 24 (s.temp (68 + c)) c) s
    (List.range 68).foldl (fun s t => s.wrF .PWR_TILE 31 24 (s.temp t) t) s

/-- A sensor has stayed above 105 degrees for 10 ms (R319). -/
def execOvertempPersist (k : Nat) (s : State) : Host.Outcome State Fault Refusal :=
  .next (if 105 < s.temp k then s.powerRecord 0x200D k else s)

/-- The deep region's limit (R320): 2 W taken from the cap above 80 degrees, given back below 78. -/
def execDeepLimitStep (s : State) : Host.Outcome State Fault Refusal :=
  .next <|
    let low := match s.spl.chip with | some c => c.capMin | none => 0
    let cap := s.fld .PWR_CAP 7 0
    if 80 < s.temp 76 then
      let s := s.setB .PWR_STATUS 28
      { s with pwr := { s.pwr with cut := min (cap - low) (s.pwr.cut + 2) } }
    else if s.temp 76 < 78 then
      let cut := s.pwr.cut - 2
      { s with pwr := { s.pwr with cut := cut } }.wrB .PWR_STATUS 28 (cut ≠ 0)
    else s

/-- Fmax of a tile derived again (R318): it only ever falls.  Below the tile's frequency its gang is lowered at the next
tick; below 1.00 GHz the tile is marked for retirement. -/
def execFmaxRederive (t mhz : Nat) (s : State) : Host.Outcome State Fault Refusal :=
  .next <|
    let f := mhz / 25 * 25
    if 68 ≤ t || s.tileFmax t ≤ f then s
    else
      let run := s.tileMhz t
      let s := s.wrF .TILE_FREQ 31 16 f t
      let s := { s with boot := { s.boot with tileRecord := listUpdate s.boot.tileRecord t (fun x => (x.1, f)) } }.mirror
      let s := if f < run then s.pwrEvent 7 else s
      if f < 1000 then
        let s := { s with pwr := { s.pwr with retiring := t :: s.pwr.retiring.filter (fun x => x != t) } }
        (s.pwrEvent 8).powerRecord t
      else s

/-- A sensor reaches 115 degrees (R321): clocks stop on tiles, host cores and engines; Windbreak takes STO. -/
def execGaleTrip (s : State) : Host.Outcome State Fault Refusal :=
  .next <|
    let s := { s with pwr := { s.pwr with gale := true, rises := [] } }
    let s := (List.range 68).foldl (fun s t => s.wrF .TILE_FREQ 15 0 0 t) s
    let s := (List.range 4).foldl (fun s c => s.wrF .PWR_HOST 15 0 0 c) s
    (s.showRt false).wbSto .gale

/-- 5 ms after a gale trip (R321): the always-on domain records it and asks for a power cycle, rung 5. -/
def execGaleRecord (s : State) : Host.Outcome State Fault Refusal :=
  .next <|
    if !s.pwr.gale then s
    else
      let s := { s with pins := { s.pins with pwrcycReqN := false } }
      s.openRecovery .package { cls := 0x0F, part := 0xFF, source := 0xF001 }

/-! ## Squall (R322, R324) -/

/-- SQUALL_N asserts (R322, R324): `fault` is the first rail that reports a fault, with its STATUS_WORD.  More than 10
assertions in 1 s hold the squall. -/
def execSquallAssert (fault : Option (Nat × Nat)) (s : State) : Host.Outcome State Fault Refusal :=
  .next <|
    if !s.pins.squallN then s
    else
      let recent := s.now :: s.pwr.asserts.filter (fun t => s.now < t + 1000000000)
      let s := { s with pins := { s.pins with squallN := false }, pwr := { s.pwr with asserts := recent } }
      let s := (s.startSquall).squallCause fault
      if 11 < recent.length then
        let r := match fault with | some x => x.1 | none => 0xFFF
        let s := { s with pwr := { s.pwr with held := true } }
        s.recordRated { cls := 0x0E, code := 6, unit := r } { cls := 0x0E, part := 0xFF, source := if r = 0xFFF then 0x200D else 0x5000 + r, detail := 6 }
      else s

/-- SQUALL_N is released (R322): the hold starts, unless code 0x06 holds the squall. -/
def execSquallRelease (s : State) : Host.Outcome State Fault Refusal :=
  .next <|
    let s := { s with pins := { s.pins with squallN := true } }
    s.startHold

/-- 1 s after the last assertion of a flapping SQUALL_N (R324). -/
def execSquallHeldExpiry (s : State) : Host.Outcome State Fault Refusal :=
  .next <|
    if !s.pwr.held then s
    else
      ({ s with pwr := { s.pwr with held := false } }).startHold

/-- PWR_SQUALL_HOLD after the release (R322): normal control resumes, each domain rising by at most 25 MHz per tick. -/
def execSquallHoldExpiry (s : State) : Host.Outcome State Fault Refusal :=
  .next <|
    if s.squall && s.pwr.released then
      { s.clrB .PWR_STATUS 31 with pwr := { s.pwr with released := false, ramp := true, frozen := none } }
    else s

/-- SQUALL_N stays asserted for 100 ms (R322). -/
def execSquallPersist (s : State) : Host.Outcome State Fault Refusal :=
  .next (if !s.pins.squallN then s.powerRecord 0x200D else s)

/-! ## Gating and wakes (R315, R323) -/

/-- GATE_IDLE passes on a tile without a job (R315): it is power-gated and its quads go into lull (R83). -/
def execGateIdleExpiry (t : Nat) (s : State) : Host.Outcome State Fault Refusal :=
  .next <|
    let l := s.logicalOf t
    let reserved : Bool := match l with
      | some k => s.usedJobs.any (fun j => s.jobClass j == 0 && s.admitted j && bitOf (s.jobAllowed j) k)
      | none => false
    let lent : Bool := match l with
      | some k => (List.range 8).any (fun p => (s.part p).loans.any (fun x => bitOf x.tileMask k))
      | none => false
    if 68 ≤ t || (s.run t).ctx.isSome || (s.run t).parked.isSome || s.fld .PWR_CTRL 15 0 = 0 || reserved || lent || s.pwr.gated.contains t then s
    else
      let s := { s with pwr := { s.pwr with gated := t :: s.pwr.gated } }
      let s := s.wrF .TILE_FREQ 15 0 0 t
      (List.range 4).foldl (fun s k => if s.inLull (.tile t k) then s else s.enterLull (.tile t k)) s

/-- The next wake that waits (R323): a gated tile with a job bound, RT before interactive before batch, then in the order of the
requests. -/
def State.nextWake (s : State) : Option Nat :=
  minBy (fun t => (match (s.run t).ctx with | some j => s.jobClass j | none => 3) * 128 + (s.pwr.wakes.findIdx? (· == t)).getD 127)
    (s.pwr.gated.filter (fun t => (s.run t).ctx.isSome))

/-- The sequencer may admit a wake: 1.25 us have passed since the last one (R323). -/
def State.wakeDue (s : State) : Bool := match s.pwr.wokeAt with | some x => x + 1250 ≤ s.now | none => true

/-- The wake sequencer admits the next wake (R323, R325): the tile starts, its quads wake 3 us later (R84). -/
def execTileWakeAdmit (s : State) : Host.Outcome State Fault Refusal :=
  .next <|
    match s.nextWake with
    | none => s
    | some t =>
      if !s.wakeDue then s
      else
      let s := { s with pwr := { s.pwr with
        gated := s.pwr.gated.filter (fun x => x != t), wakes := s.pwr.wakes.filter (fun x => x != t), wokeAt := some s.now } }
      let peers := match (s.run t).ctx with | some j => (List.range 68).filter (fun u => u != t && (s.run u).ctx == some j && s.tileMhz u != 0) | none => []
      let f := if s.squall then 400 else (peers.map s.tileMhz).foldl min (if s.fixedChip then 800 else 400)
      let s := s.wrF .TILE_FREQ 15 0 (min f (max 400 (s.tileLimit t))) t
      let s := { s with bank := { s.bank with lullAfter := s.bank.lullAfter.filter (fun x => !(List.range 4).any (fun k => x == .tile t k)) } }
      (List.range 4).foldl (fun s k => s.startWake (.tile t k)) s

end Sys2Proof.Machine
end

