-- ==== Sys2Proof/Machine/Sequence.lean ====
section
/-!
DEFINITION. The sequence engine (R137 to R163): sequence commands, steps and work lists, flushes, score-based eviction,
the page feed.
-/

namespace Sys2Proof.Machine

/-! ## Geometry (R137 to R139) -/

/-- The cache geometry of a partition. -/
structure Geom where
  layers : Nat
  fmt : Nat
  half : Nat
  slots : Nat
  ok : Bool
  deriving DecidableEq, Repr

/-- SEQ_Pp_GEOM (R137): `half` is the bytes of a slot's keys, `slots` is P. -/
def State.geom (s : State) (p : Nat) : Geom :=
  let layers := s.fld .SEQ_P_GEOM 31 24 p
  let heads := s.fld .SEQ_P_GEOM 23 16 p
  let fmt := s.fld .SEQ_P_GEOM 15 12 p
  let hd := s.fld .SEQ_P_GEOM 11 10 p
  let half := heads * (64 * 2 ^ hd) * (if fmt = 1 || fmt = 2 then 2 else 1)
  { layers, fmt, half, slots := min 256 (61440 / max 1 (2 * half))
    ok := layers ≠ 0 && 1 ≤ heads && heads ≤ 64 && hd ≠ 3 && [1, 2, 3, 4, 6].contains fmt && 2 * half ≤ 61440 }

/-- The sequence engine working for a partition. -/
def seqAgent (p : Nat) : Agent := .engine 2 p

/-- The engine moves `n` bytes at an address for a partition: they debit its entry, and a quad that sleeps there starts its wake (R84). -/
def State.seqTouch (s : State) (p a n : Nat) : State := (s.traffic (seqAgent p) a n).wakeAll (s.sleepingQuads a n)

/-- Bytes written by the engine, with new checks. -/
def State.seqStore (s : State) (p a : Nat) (d : List Byte) : State := (s.seqTouch p a d.length).store a d

/-- Bytes written by the engine, whose segments' checks stay as they are. -/
def State.seqStoreKeep (s : State) (p a : Nat) (d : List Byte) : State := (s.seqTouch p a d.length).storeKeep a d

/-- The offset of the metadata of slot `k` in a page image (R138). -/
def metaOff (k : Nat) : Nat := 0xF000 + 16 * k

/-- The warm address of a KV page (R139). -/
def pageAddr (g : Nat) : Nat := warmBase + g * 0x10000

/-- The parts of a page image that hold slot `k`: offset and length (R138). -/
def slotParts (g : Geom) (k : Nat) : List (Nat × Nat) :=
  [(k * g.half, g.half), (g.slots * g.half + k * g.half, g.half), (metaOff k, 16)]

/-- The parts of a page image that the slots fill. -/
def imageParts (g : Geom) : List (Nat × Nat) := [(0, 2 * g.slots * g.half), (0xF000, 16 * g.slots)]

/-! ## Commands (R142 to R145) -/

/-- The result of a sequence command (R161, R163): DONE and FAIL tell of the last command, so one clears the other; a failure also writes
a record of class engine command. -/
def State.seqResult (s : State) (p code n : Nat) : State :=
  let s := (s.wrF .SEQ_P_RESULT 23 16 code p).wrF .SEQ_P_RESULT 15 0 n p
  if code = 0 then (s.setB .SEQ_P_RESULT 31 p).clrB .SEQ_P_RESULT 30 p
  else ((s.setB .SEQ_P_RESULT 30 p).clrB .SEQ_P_RESULT 31 p).record { cls := 0x05, part := p, source := 0x2002, detail := code, context := n }

/-- A write of OP and GO to SEQ_Pp_CMD: refused while a fence holds the partition or the engine (R337), and for another partition's
register (R13); BAD_CMD for a reserved bit. -/
def State.seqCommand (s : State) (a : Agent) (p op rsv : Nat) (run : State → Nat × Nat × State) : State :=
  if s.accessFenced a (some 2) then s.respErr
  else if s.agentPart a ≠ p || 8 ≤ p then s.denied a (0x80100C + p * 0x100)
  else
    let s := s.respOk.wr .SEQ_P_CMD op p
    if rsv ≠ 0 then s.seqResult p 5 (s.fld .SEQ_P_RESULT 15 0 p)
    else
      let r := run s
      r.2.2.seqResult p r.1 r.2.1

/-- MEM of a sequence may lie there (R139): commons quads or software extents of the partition. -/
def State.seqMemory (s : State) (p a n : Nat) : Bool :=
  (blocksOf 0x100000 a n).all (fun b =>
    let x := max a (b * 0x100000)
    match regionOf x with
    | .commons _ => s.granuleVerdict p true x == .ok
    | .warm e => s.softwareExtent p e
    | _ => false)

/-- The bytes of a sequence's memory (R139). -/
def SeqRec.bytes (r : SeqRec) : Nat := r.layers * 0x10000 + 4 * r.layers * r.stride

/-- The arguments of OPEN and FORK. -/
structure OpenArgs where
  mem : Nat
  scoreEv : Nat
  maxLen : Nat
  budget : Nat
  parent : Nat
  deriving DecidableEq, Repr

/-- The arguments of OPEN and FORK in the ARG registers (R144). -/
def State.openArgs (s : State) (p : Nat) : OpenArgs :=
  ⟨s.rd .SEQ_P_ARG p 0 + 2 ^ 32 * s.fld .SEQ_P_ARG 15 0 p 1, s.fld .SEQ_P_ARG 31 31 p 2, s.fld .SEQ_P_ARG 18 0 p 2,
    s.fld .SEQ_P_ARG 15 0 p 3, s.fld .SEQ_P_ARG 31 16 p 3⟩

/-- The refusal of an OPEN or FORK by its entries, its geometry and its memory, 0 for none (R137, R139, R144). -/
def State.openRefusal (s : State) (p : Nat) (x : OpenArgs) (r : SeqRec) : Nat :=
  if (s.part p).seqEntries ≤ (s.seqsOf p).length || 4096 ≤ s.sqe.seqs.length then 6
  else if !(s.geom p).ok || x.maxLen = 0 || 262144 < x.maxLen || x.mem % 0x10000 ≠ 0 || !s.seqMemory p x.mem r.bytes ||
      s.sqe.seqs.any (fun o => rangesMeet x.mem r.bytes o.2.mem o.2.bytes) then 7
  else 0

/-- What the engine would keep of a new sequence. -/
def State.newSeqRec (s : State) (p : Nat) (x : OpenArgs) : SeqRec :=
  let g := s.geom p
  ⟨p, x.mem, g.layers, g.slots, (x.maxLen + g.slots - 1) / max 1 g.slots⟩

/-- The lowest free entry filled (R142, R143): the sequence and the state with its page table cleared. -/
def State.openEntry (s : State) (p : Nat) (x : OpenArgs) (r : SeqRec) (parent : Nat) : Nat × State :=
  let n := ((List.range 4096).find? (fun k => s.seqState k == 0)).getD 0
  let ws := [2 ^ 28 + p * 2 ^ 24, 0, 0, x.scoreEv * 2 ^ 31 + x.maxLen, x.mem % 2 ^ 32, x.mem / 2 ^ 32, 0, parent * 2 ^ 16 + x.budget, 0]
  let s := ws.zipIdx.foldl (fun s w => s.wr .SEQ_ENT w.1 n w.2) s
  let s := (s.seqTouch p r.table.1 r.table.2).zero r.table.1 r.table.2
  (n, { s with sqe := { s.sqe with seqs := s.sqe.seqs ++ [(n, r)] } })

/-- OPEN (R144). -/
def execOpenSeq (a : Agent) (p rsv : Nat) (s : State) : Host.Outcome State Fault Refusal :=
  .next <| s.seqCommand a p 1 rsv fun s =>
    let x := s.openArgs p
    let last := s.fld .SEQ_P_RESULT 15 0 p
    if s.fld .SEQ_P_ARG 31 16 p 1 ≠ 0 || s.fld .SEQ_P_ARG 30 19 p 2 ≠ 0 || x.parent ≠ 0 then (5, last, s)
    else
      let r := s.newSeqRec p x
      match s.openRefusal p x r with
      | 0 => let y := s.openEntry p x r 0xFFFF; (0, y.1, y.2)
      | c => (c, last, s)

/-- A sequence of partition `p` that is not FREE. -/
def State.ownsSeq (s : State) (p n : Nat) : Bool := n < 4096 && s.seqState n != 0 && s.fld .SEQ_ENT 27 24 n 0 == p

/-- CLOSE (R143, R144). -/
def execCloseSeq (a : Agent) (p rsv : Nat) (s : State) : Host.Outcome State Fault Refusal :=
  .next <| s.seqCommand a p 2 rsv fun s =>
    let n := s.fld .SEQ_P_ARG 15 0 p 0
    if s.fld .SEQ_P_ARG 31 16 p 0 ≠ 0 || !s.ownsSeq p n then (5, n, s)
    else if s.seqState n = 2 then (0, n, s.setSeqState n 4)
    else if s.seqState n = 4 then (9, n, s)
    else (0, n, s.freeSequence n)

/-- LENGTH of a sequence. -/
def State.seqLength (s : State) (n : Nat) : Nat := s.rd .SEQ_ENT n 1
/-- STAGED of a sequence. -/
def State.seqStaged (s : State) (n : Nat) : Nat := s.fld .SEQ_ENT 8 0 n 2
/-- MAX_LEN of a sequence. -/
def State.seqMax (s : State) (n : Nat) : Nat := s.fld .SEQ_ENT 18 0 n 3

/-- Segments of an area that do not read clean. -/
def State.badSegments (s : State) (a n : Nat) : List Nat :=
  (blocksOf 512 a n).filter (fun g => s.badCheck.contains g || !s.readable (g * 512) 512)

/-- Staging slots copied from one sequence memory to another, layer by layer; a segment that does not check stays so. -/
def State.copyStaging (s : State) (p : Nat) (g : Geom) (src dst k : Nat) : State :=
  (List.range g.layers).foldl (fun s l =>
    let parts := (List.range k).flatMap (slotParts g)
    let bad := (parts.flatMap (fun x => s.badSegments (src + l * 0x10000 + x.1) x.2)).map (fun q => q - src / 512 + dst / 512)
    let s := parts.foldl (fun s x =>
      (s.seqTouch p (src + l * 0x10000 + x.1) x.2).seqStoreKeep p (dst + l * 0x10000 + x.1) (s.getBytes (src + l * 0x10000 + x.1) x.2)) s
    { s with badCheck := s.badCheck ++ bad.eraseDups.filter (fun q => !s.badCheck.contains q) }) s

/-- FORK (R144, R145): every page of the parent counts one more. -/
def execFork (a : Agent) (p rsv : Nat) (s : State) : Host.Outcome State Fault Refusal :=
  .next <| s.seqCommand a p 3 rsv fun s =>
    let x := s.openArgs p
    let last := s.fld .SEQ_P_RESULT 15 0 p
    let q := x.parent
    if s.fld .SEQ_P_ARG 31 16 p 1 ≠ 0 || s.fld .SEQ_P_ARG 30 19 p 2 ≠ 0 || !s.ownsSeq p q then (5, last, s)
    else
      let r := s.newSeqRec p x
      match s.openRefusal p x r with
      | 0 =>
        if x.maxLen < s.seqLength q then (9, last, s)
        else
          let pages := s.seqPages q
          let tables := (List.range r.layers).map (s.seqTable q)
          let y := s.openEntry p x r q
          let n := y.1
          let s := y.2
          let s := (((s.wr .SEQ_ENT (s.seqLength q) n 1).wrF .SEQ_ENT 8 0 (s.seqStaged q) n 2).wr .SEQ_ENT pages n 6)
          let s := tables.zipIdx.foldl (fun s t =>
            t.1.zipIdx.foldl (fun s e => s.seqStore p (r.entryAt t.2 e.2) (bytesLE 4 (2 ^ 31 + e.1))) s) s
          let s := tables.flatten.foldl (fun s g => match alGet s.sqe.pages g with
            | some pg => { s with sqe := { s.sqe with pages := alSet s.sqe.pages g { pg with count := pg.count + 1 } } }
            | none => s) s
          (0, n, s.copyStaging p (s.geom p) (s.seqRec q).mem x.mem (s.seqStaged q))
      | c => (c, last, s)

/-- TRUNCATE (R144, R145). -/
def execTruncate (a : Agent) (p rsv : Nat) (s : State) : Host.Outcome State Fault Refusal :=
  .next <| s.seqCommand a p 4 rsv fun s =>
    let n := s.fld .SEQ_P_ARG 15 0 p 0
    let len := s.rd .SEQ_P_ARG p 1
    if s.fld .SEQ_P_ARG 31 16 p 0 ≠ 0 || !s.ownsSeq p n then (5, n, s)
    else if s.seqState n = 2 then (8, n, s)
    else if len + s.seqStaged n < s.seqLength n || s.seqLength n < len then (9, n, s)
    else
      let d := s.seqLength n - len
      (0, n, (s.wr .SEQ_ENT len n 1).wrF .SEQ_ENT 8 0 (s.seqStaged n - d) n 2)

/-! ## Pages (R151, R152, R157, R158) -/

/-- The free pages of the engine's extents of a partition. -/
def State.freePages (s : State) (p : Nat) : List Nat :=
  ((s.upool.extents.filter (fun x => x.2.part == p && x.2.holder == Holder.seqEngine)).flatMap (fun x => pagesOf x.1)).filter
    (fun g => (alGet s.sqe.pages g).isNone)

/-- The new pages of the flush in progress of a partition. -/
def SeqPart.flushPages (x : SeqPart) : List Nat := match x.builds with | b :: _ => b.pages | [] => []

/-- Those set. -/
def State.setFlushPages (s : State) (p : Nat) (l : List Nat) : State :=
  let x := s.seqPart p
  s.setSeqPart p { x with builds := listUpdate x.builds 0 (fun (b : Build) => { b with pages := l }) }

/-- Up to `k` more pages for the flush in progress, each with count 1: which of the free pages they are, the manual leaves open. -/
def State.takePages (s : State) (p : Nat) : Nat → State
  | 0 => s
  | k + 1 =>
    let s := s.takePages p k
    let free := s.freePages p
    if free.isEmpty then s
    else
      let f := s.fresh
      let g := free.getD (f.1 % free.length) 0
      let s := { f.2 with sqe := { f.2.sqe with pages := alSet f.2.sqe.pages g ⟨p, 1, 0⟩ } }
      s.setFlushPages p ((s.seqPart p).flushPages ++ [g])

/-- The flush in progress keeps its first `k` new pages, which are now its own; the others, which nothing names, are free again, and an
extent of the engine whose 32 pages are all free goes back to the pool (R158). -/
def State.keepPages (s : State) (p k : Nat) : State :=
  let l := (s.seqPart p).flushPages.drop k
  let s := (s.setFlushPages p []) |> fun s => { s with sqe := { s.sqe with pages := s.sqe.pages.filter (fun x => !l.contains x.1) } }
  (l.map (fun g => g / 32)).eraseDups.foldl (fun s e =>
    if (pagesOf e).all (fun g => (alGet s.sqe.pages g).isNone) then s.releaseExtent e else s) s

/-! ## Score-based eviction (R155, R156) -/

/-- FP32 bits as a key in numeric order. -/
def scoreKey (b : Nat) : Nat :=
  let m := b % 2 ^ 31
  if m = 0 then 2 ^ 31 else if b / 2 ^ 31 = 1 then 2 ^ 31 - m else 2 ^ 31 + m

/-- A candidate slot: its place in the page table, its slot, its POS and its SCORE. -/
structure Cand where
  place : Nat
  slot : Nat
  pos : Nat
  score : Nat
  deriving DecidableEq, Repr

/-- The candidates of a layer (R156); `unshared` leaves out shared pages. -/
def State.candidatesOf (s : State) (n l : Nat) (unshared : Bool) : List Cand :=
  let r := s.seqRec n
  let sink := s.fld .SEQ_P_EVICT 25 16 r.part
  let hi := s.seqLength n - s.fld .SEQ_P_EVICT 15 0 r.part
  ((s.seqTable n l).zipIdx.filter (fun t => !unshared || (match alGet s.sqe.pages t.1 with | some pg => pg.count ≤ 1 | none => true))).flatMap
    (fun t => (List.range r.slots).filterMap (fun k =>
      let a := pageAddr t.1 + metaOff k
      let pos := s.getNum a 4
      if pos ≠ 0xFFFFFFFF && sink ≤ pos && pos < hi then some ⟨t.2, k, pos, s.getNum (a + 4) 4⟩ else none))

/-- The P candidates of lowest SCORE, ties to the lower POS, in increasing order of page and slot; none if there are fewer. -/
def pickVictims (p : Nat) (l : List Cand) : Option (List Cand) :=
  let sorted := l.mergeSort (fun a b => scoreKey a.score < scoreKey b.score || (scoreKey a.score = scoreKey b.score && a.pos ≤ b.pos))
  if l.length < p then none
  else some ((sorted.take p).mergeSort (fun a b => a.place * 512 + a.slot ≤ b.place * 512 + b.slot))

/-- The victims of every layer of a sequence, if each layer has enough. -/
def State.victims (s : State) (n : Nat) (unshared : Bool) : Option (List (List Cand)) :=
  let r := s.seqRec n
  let v := (List.range r.layers).map (fun l => pickVictims r.slots (s.candidatesOf n l unshared))
  if v.all Option.isSome then some (v.filterMap id) else none

/-- Score-based eviction is on for a sequence (R142, R155). -/
def State.scoreOn (s : State) (n : Nat) : Bool := s.bit .SEQ_ENT 31 n 3 && s.fld .SEQ_P_EVICT 31 30 (s.seqRec n).part != 0

/-! ## Flush (R151, R152, R157) -/

/-- Staged slot `j` of layer `l` of a sequence written into slot `k` of page `g` (R151); without scale fields KSCALE and
VSCALE read 1.0 (R137). -/
def State.moveSlot (s : State) (gm : Geom) (n l j g k : Nat) : State :=
  let src := (s.seqRec n).mem + l * 0x10000
  let p := (s.seqRec n).part
  let s := ((slotParts gm j).zip (slotParts gm k)).foldl (fun s x =>
    (s.seqTouch p (src + x.1.1) x.1.2).seqStore p (pageAddr g + x.2.1) (s.getBytes (src + x.1.1) x.1.2)) s
  if gm.fmt ≤ 2 then s.store (pageAddr g + metaOff k + 8) (bytesLE 4 0x3F800000 ++ bytesLE 4 0x3F800000) else s

/-- A flush into one new page per layer. -/
def State.flushNew (s : State) (gm : Geom) (n : Nat) (pages : List Nat) : State :=
  let k := s.seqPages n
  let r := s.seqRec n
  let s := pages.zipIdx.foldl (fun s x =>
    let s := s.zero (pageAddr x.1) 0x10000
    let s := (List.range gm.slots).foldl (fun s j => s.moveSlot gm n x.2 j x.1 j) s
    (s.seqStore r.part (r.entryAt x.2 k) (bytesLE 4 (2 ^ 31 + x.1))).touchExtent (x.1 / 32)) s
  s.wr .SEQ_ENT (k + 1) n 6

/-- The places in layer `l`'s table whose pages are shared and hold victims. -/
def State.sharedPlaces (s : State) (n l : Nat) (v : List Cand) : List Nat :=
  let t := s.seqTable n l
  ((v.map Cand.place).eraseDups).filter (fun i => match alGet s.sqe.pages (t.getD i 0) with | some pg => 1 < pg.count | none => false)

/-- Table entries pointed at copies of their pages (R157). -/
def State.copyPages (s : State) (n : Nat) (l : List ((Nat × Nat) × Nat)) : State :=
  l.foldl (fun s x =>
    let r := s.seqRec n
    let old := (s.seqTable n x.1.1).getD x.1.2 0
    let s := (s.seqTouch r.part (pageAddr old) 0x10000).seqStore r.part (pageAddr x.2) (s.getBytes (pageAddr old) 0x10000)
    (s.seqStore r.part (r.entryAt x.1.1 x.1.2) (bytesLE 4 (2 ^ 31 + x.2))).releasePage old) s

/-- A flush into slots freed in place (R151, R156). -/
def State.flushInto (s : State) (gm : Geom) (n : Nat) (v : List (List Cand)) : State :=
  v.zipIdx.foldl (fun s x =>
    let t := s.seqTable n x.2
    x.1.zipIdx.foldl (fun s y => (s.moveSlot gm n x.2 y.2 (t.getD y.1.place 0) y.1.slot).touchExtent (t.getD y.1.place 0 / 32)) s) s

/-- The carried checks of the staging images that a flush reads (R141): the first segment that fails. -/
def State.stagingBad (s : State) (gm : Geom) (n : Nat) : Option Nat :=
  ((List.range gm.layers).flatMap (fun l => (imageParts gm).flatMap (fun x => s.badSegments ((s.seqRec n).mem + l * 0x10000 + x.1) x.2))).head?

/-- How a flush ended, or that it waits for an extent that the pool is assigning to it (R93). -/
inductive FlushEnd where | done | noPage | checkFail | waits
  deriving DecidableEq, Repr

/-- The staging page of a sequence is empty (R151). -/
def State.emptyStaging (s : State) (n : Nat) : State := s.wrF .SEQ_ENT 8 0 0 n 2

/-- A flush of sequence `n` (R141, R151, R152, R156, R157).  It takes the free pages of the engine's extents; with too few of them it
frees slots in place where it may, else it asks the pool for an extent and goes on once that is assigned. -/
def State.flush (s : State) (n : Nat) : FlushEnd × State :=
  let r := s.seqRec n
  let p := r.part
  let gm := s.geom p
  match s.stagingBad gm n with
  | some g => (.checkFail, (s.keepPages p 0).checkFailed (seqAgent p) (g * 512))
  | none =>
    let budget := s.fld .SEQ_ENT 15 0 n 7
    let byBudget := if s.scoreOn n && budget ≠ 0 && budget ≤ s.seqPages n then s.victims n false else none
    let places := (byBudget.getD []).zipIdx.flatMap (fun x => (s.sharedPlaces n x.2 x.1).map (fun i => (x.2, i)))
    let need := if byBudget.isSome then places.length else gm.layers
    let s := s.takePages p (need - (s.seqPart p).flushPages.length)
    let pg := (s.seqPart p).flushPages
    if need ≤ pg.length then
      let s := s.keepPages p need
      match byBudget with
      | some v => (.done, ((s.copyPages n (places.zip pg)).flushInto gm n v).emptyStaging n)
      | none => (.done, (s.flushNew gm n (pg.take need)).emptyStaging n)
    else
      match (if s.scoreOn n then s.victims n true else none) with
      | some v => (.done, ((s.keepPages p 0).flushInto gm n v).emptyStaging n)
      | none => match s.requestExtent p .seqEngine false with
        | some (_, s) => (.waits, s)
        | none => (.noPage, s.keepPages p 0)

/-! ## Steps (R146, R147, R150) -/

/-- The number of open steps shown. -/
def State.showSteps (s : State) (p : Nat) : State := s.wrF .SEQ_P_STEP_STATUS 31 30 (s.seqPart p).steps.length p

/-- A refused BEGIN, END or ABORT: ERR and CODE, and a record. -/
def State.stepRefused (s : State) (p code : Nat) : State :=
  ((s.setB .SEQ_P_STEP_STATUS 27 p).wrF .SEQ_P_STEP_STATUS 23 16 code p).record
    { cls := 0x05, part := p, source := 0x2002, detail := code }

/-- The step of an epoch that is being built, with its entries changed. -/
def State.setBuilding (s : State) (p epoch : Nat) (f : List StepEnt → List StepEnt) : State :=
  let x := s.seqPart p
  s.setSeqPart p { x with steps := x.steps.map (fun (st : SeqStep) => if st.epoch = epoch then { st with ents := f st.ents } else st) }

/-- The last status of a sequence (R142). -/
def State.setSeqStatus (s : State) (n code : Nat) : State := s.wrF .SEQ_ENT 23 16 code n 0

/-- One request of a BEGIN (R143, R146): its work-list entry; none while its flush waits for an extent.  While it flushes, the sequence
counts as one of the step. -/
def State.stepRequest (s : State) (p epoch : Nat) (earlier : List Nat) (want n : Nat) : Option WlEntry × State :=
  if !s.ownsSeq p n then (some ⟨n, 5, none⟩, s)
  else if earlier.contains n then (some ⟨n, 8, none⟩, s.setSeqStatus n 8)
  else
    let s := s.setBuilding p epoch (fun l => l.filter (fun e => e.seq != n))
    if (s.seqPart p).steps.any (fun st => st.ents.any (fun e => e.seq == n)) then (some ⟨n, 8, none⟩, s.setSeqStatus n 8)
    else if s.seqState n = 5 then (some ⟨n, s.fld .SEQ_ENT 23 16 n 0, none⟩, s)
    else if s.seqLength n = s.seqMax n then (some ⟨n, 3, none⟩, s.setSeqStatus n 3)
    else
      let P := (s.seqRec n).slots
      let fl := if s.seqStaged n = P then (s.setBuilding p epoch (fun l => l ++ [⟨n, 64, 0, 0, 0⟩])).flush n else (.done, s)
      let t := fl.2.setBuilding p epoch (fun l => l.filter (fun e => e.seq != n))
      match fl.1 with
      | .waits => (none, fl.2)
      | .checkFail => (some ⟨n, 0xA, none⟩, t.endSequence n 0xA)
      | .noPage =>
        let w := t.fld .SEQ_ENT 31 16 n 2
        if w < max 1 (t.fld .SEQ_PAGE_WAIT_MAX 7 0) then
          let s := (t.setSeqState n 3).wrF .SEQ_ENT 31 16 (w + 1) n 2
          (some ⟨n, 1, none⟩, (s.setSeqStatus n 1).bump .SEQ_P_WAITS p)
        else (some ⟨n, 2, none⟩, t.endSequence n 2)
      | .done =>
        let e : StepEnt := ⟨n, 64, min want (min (P - t.seqStaged n) (t.seqMax n - t.seqLength n)), t.seqLength n, t.seqStaged n⟩
        let s := ((t.setSeqState n 2).wrF .SEQ_ENT 31 16 0 n 2).setSeqStatus n 0
        (some ⟨n, 0, some e⟩, s.setBuilding p epoch (fun l => l ++ [e]))

/-- The requests of a BEGIN in list order, up to one that waits: the entries so far and the requests to come. -/
def State.stepRequests (s : State) (p epoch : Nat) (done : List WlEntry) : List (Nat × Nat) → (List WlEntry × List (Nat × Nat)) × State
  | [] => ((done, []), s)
  | r :: rest =>
    match s.stepRequest p epoch (done.map WlEntry.seq) r.1 r.2 with
    | (none, s) => ((done, r :: rest), s)
    | (some w, s) => s.stepRequests p epoch (done ++ [w]) rest

/-- The feed tiles of a partition (R148): logical tiles, by feed tile index. -/
def State.feedTiles (s : State) (p : Nat) : List Nat :=
  bitsSet 64 (s.rd .SEQ_P_FEED_TILES_LO p + 2 ^ 32 * s.rd .SEQ_P_FEED_TILES_HI p)

/-- The included entries assigned to feed tiles (R146): the fewest pages so far, ties to the lowest index.  Each comes with
FEED_FIRST. -/
def assignFeeds (pages : Nat → Nat) (tiles : Nat) (l : List StepEnt) : List (StepEnt × Nat) :=
  (l.foldl (fun (acc : List (StepEnt × Nat) × List Nat) e =>
    match minBy (fun i => acc.2.getD i 0 * 64 + i) (List.range tiles) with
    | some i => (acc.1 ++ [({ e with tile := i }, acc.2.getD i 0)], listUpdate acc.2 i (fun x => x + pages e.seq))
    | none => (acc.1 ++ [(e, 0)], acc.2)) ([], List.replicate tiles 0)).1

/-- A work-list entry in memory (R147); `tile` and `first` are TILE and FEED_FIRST. -/
def State.wlEntry (s : State) (w : WlEntry) (tile first : Nat) : List Byte :=
  let own := (alGet s.sqe.seqs w.seq).isSome
  let e := w.ent.getD ⟨w.seq, 0xFF, 0, if own then s.seqLength w.seq else 0, if own then s.seqStaged w.seq else 0⟩
  bytesLE 2 w.seq ++ bytesLE 1 tile ++ bytesLE 1 w.status ++ bytesLE 4 e.base ++ bytesLE 2 e.granted ++
    bytesLE 2 e.staged ++ bytesLE 4 (if own then s.seqPages w.seq else 0) ++ bytesLE 8 (if own then (s.seqRec w.seq).mem else 0) ++
    bytesLE 4 first ++ bytesLE 4 0

/-- A step is built (R146 to R148): its sequences go to the feed tiles, the work list is written, BUILT is set. -/
def State.finishBuild (s : State) (p : Nat) (b : Build) (l : List WlEntry) : State :=
  let tiles := s.feedTiles p
  let inc := l.filter (fun w => w.ent.isSome)
  let exc := l.filter (fun w => w.ent.isNone)
  let fs := assignFeeds s.seqPages tiles.length (inc.filterMap WlEntry.ent)
  let x := s.seqPart p
  let L := (s.geom p).layers
  let feeds := (List.range tiles.length).map (fun i =>
    let f := (alGet x.feeds i).getD {}
    let mine := (fs.filter (fun e => e.1.tile == i)).map (fun e => e.1.seq)
    let pages := (List.range L).flatMap (fun l => mine.flatMap (fun n => s.seqTable n l))
    (i, f.next, (mine.map s.seqPages).sum, { f with
      next := (f.next + pages.length) % 2 ^ 32
      queue := f.queue ++ pages.zipIdx.map (fun y => ((f.next + y.2) % 2 ^ 32, y.1)) }))
  let steps := x.steps.map (fun (st : SeqStep) => if st.epoch = b.epoch then
    { st with ents := fs.map Prod.fst, tiles := feeds.map (fun f => (f.2.1, f.2.2.1)) } else st)
  let s := s.setSeqPart p { x with
    steps, feeds := feeds.map (fun f => (f.1, f.2.2.2)) ++ x.feeds.filter (fun f => tiles.length ≤ f.1)
    builds := x.builds.drop 1 }
  let noTile := s.fresh
  let s := if tiles.isEmpty then noTile.2 else s
  let head := bytesLE 4 b.epoch ++ bytesLE 2 inc.length ++ bytesLE 2 exc.length ++ bytesLE 4 (s.geom p).slots ++ List.replicate 52 0#8
  let bases := (List.range 64).flatMap (fun i => match feeds[i]? with
    | some f => bytesLE 4 f.2.1 ++ bytesLE 4 f.2.2.1
    | none => bytesLE 8 0)
  let ents := (inc.zip fs).flatMap (fun e => s.wlEntry { e.1 with ent := some e.2.1 } (if tiles.isEmpty then noTile.1 else e.2.1.tile) e.2.2) ++
    exc.flatMap (fun w => s.wlEntry w 0xFF 0)
  ((s.postWrite (seqAgent p) b.wl (head ++ bases ++ ents)).setB .SEQ_P_STEP_STATUS 29 p).showSteps p

/-- The engine goes on with the oldest step that a partition has in building: it stands while an extent is being assigned to the engine
(R93) or a fence holds it (R337). -/
def State.goOn (s : State) (p : Nat) : State :=
  match (s.seqPart p).builds with
  | [] => s
  | b :: _ =>
    if s.fencedEngine 2 p || s.upool.grants.any (fun g => g.taker.part == p && g.taker.holder == .seqEngine) then s
    else
      let r := s.stepRequests p b.epoch b.done b.todo
      match r.1.2 with
      | [] => r.2.finishBuild p b r.1.1
      | rest =>
        let x := r.2.seqPart p
        r.2.setSeqPart p { x with builds := listUpdate x.builds 0 (fun (c : Build) => { c with done := r.1.1, todo := rest }) }

/-- A write of BEGIN with REQ_COUNT (R146 to R148): the step is open and is built at once, or as far as it gets without an extent that
the pool has to assign. -/
def execStepBegin (a : Agent) (p count : Nat) (s : State) : Host.Outcome State Fault Refusal :=
  .next <|
    if s.accessFenced a (some 2) then s.respErr
    else if s.agentPart a ≠ p || 8 ≤ p then s.denied a (0x801024 + p * 0x100)
    else
      let s := s.respOk.wrF .SEQ_P_STEP_CTRL 12 0 count p
      let req := s.rd .SEQ_P_REQ_LO p + 2 ^ 32 * s.fld .SEQ_P_REQ_HI 15 0 p
      let wl := s.rd .SEQ_P_WL_LO p + 2 ^ 32 * s.fld .SEQ_P_WL_HI 15 0 p
      if 2 ≤ (s.seqPart p).steps.length then s.stepRefused p 8
      else if count = 0 || 4096 < count || req % 64 ≠ 0 || wl % 64 ≠ 0 || !s.ownsRange p req (4 * count) ||
          s.verdict (seqAgent p) true wl (0x240 + 32 * count) ≠ .ok || !s.ownsRange p wl (0x240 + 32 * count) true then s.stepRefused p 5
      else match (s.wakeAll (s.sleepingQuads req (4 * count))).engineRead (seqAgent p) req (4 * count) with
        | (none, s) => s.stepRefused p 5
        | (some d, s) =>
          let epoch := (s.rd .SEQ_P_EPOCH p + 1) % 2 ^ 32
          let s := s.wr .SEQ_P_EPOCH epoch p
          let x := s.seqPart p
          let todo := (List.range count).map (fun k => (leAt d (4 * k + 2) 2, leAt d (4 * k) 2))
          ((s.setSeqPart p { x with
            steps := x.steps ++ [{ epoch := epoch, ents := [], tiles := [] }]
            builds := x.builds ++ [{ epoch := epoch, wl := wl, todo := todo }] }).showSteps p).goOn p

/-- A write of END (R150): the oldest open step commits once the feed is released. -/
def execStepEnd (a : Agent) (p : Nat) (s : State) : Host.Outcome State Fault Refusal :=
  .next <|
    if s.accessFenced a (some 2) then s.respErr
    else if s.agentPart a ≠ p || 8 ≤ p then s.denied a (0x801024 + p * 0x100)
    else
      let s := s.respOk
      match (s.seqPart p).steps with
      | [] => s.stepRefused p 0xC
      | st :: r => s.setSeqPart p { s.seqPart p with steps := { st with ending := true } :: r }

/-! ## The page feed (R148, R149, R155) -/

/-- The counters ARRIVE and RELEASE and the slots of feed tile `i`: the addresses of its counters and of its slot 0. -/
def State.feedAddrs (s : State) (p i : Nat) : Option (Nat × Nat × Nat) :=
  ((s.feedTiles p)[i]?).map (fun l =>
    (l, tileBase l + s.fld .SEQ_P_FEED_CTR 21 0 p, tileBase l + s.fld .SEQ_P_FEED_CFG 21 0 p))

/-- FEED_SLOTS. -/
def State.feedSlots (s : State) (p : Nat) : Nat := s.fld .SEQ_P_FEED_CFG 31 28 p

/-- The partition still holds the slots and counters of a feed tile (R159). -/
def State.feedHeld (s : State) (p i : Nat) : Bool :=
  match (s.feedTiles p)[i]? with
  | some l => s.rangeOk p l (s.fld .SEQ_P_FEED_CFG 21 0 p, s.feedSlots p * 0x10000) && s.rangeOk p l (s.fld .SEQ_P_FEED_CTR 21 0 p, 8)
  | none => false

/-- A new score of a cache slot (R155). -/
def newScore (mode decay old ret : Nat) : Nat :=
  let r := if (of32 ret).isNan then .fin false 0 0 else of32 ret
  let o := if mode = 2 then (((of32 old).mul (ofInt decay)).1.mul (fpConst 1 (-16))).1 else of32 old
  (o.add r).1.bits32

/-- A page that RELEASE covers: its returned scores are read back from the feed slot and, while its count is 1, taken
(R149, R155). -/
def State.takeScores (s : State) (p slot g : Nat) : State :=
  let mode := s.fld .SEQ_P_EVICT 31 30 p
  let one := match alGet s.sqe.pages g with | some pg => pg.count == 1 | none => false
  if mode = 0 || mode = 3 || !one then s
  else (List.range (s.geom p).slots).foldl (fun s k =>
    let a := pageAddr g + metaOff k + 4
    (s.seqTouch p a 4).seqStore p a (bytesLE 4 (newScore mode (s.fld .SEQ_P_DECAY 15 0 p) (s.getNum a 4) (s.getNum (slot + metaOff k + 4) 4)))) s

/-- The feed of tile `i` set. -/
def State.setFeed (s : State) (p i : Nat) (f : FeedTile) : State :=
  let x := s.seqPart p
  s.setSeqPart p { x with feeds := alSet x.feeds i f }

/-- Every sent page that RELEASE covers on feed tile `i` is released; a tile whose slots are lost answers no more (R159). -/
def State.settleFeed (s : State) (p i : Nat) : State :=
  match s.feedAddrs p i, alGet (s.seqPart p).feeds i with
  | some (_, ctr, slots), some f =>
    if !s.feedHeld p i then s
    else
      let rel := s.getNum (ctr + 4) 4
      let done := f.sent.filter (fun y => reached rel (y.1 + 1))
      let s := done.foldl (fun s y => s.takeScores p (slots + y.1 % max 1 (s.feedSlots p) * 0x10000) y.2) s
      s.setFeed p i { f with sent := f.sent.filter (fun y => !reached rel (y.1 + 1)) }
  | _, _ => s

/-- The quads of feed tile `i` that sleep. -/
def State.feedAsleep (s : State) (p i : Nat) : List QuadRef :=
  match s.feedAddrs p i with
  | some (_, ctr, slots) => s.asleep [(ctr, 8), (slots, s.feedSlots p * 0x10000)]
  | none => []

/-- The next page of feed tile `i` goes into its slot once RELEASE allows (R149): the image is written and ARRIVE rises.  Quads of the
tile that sleep wake first (R84), and a fence holds the feed (R337). -/
def execFeedPageSend (p i : Nat) (s : State) : Host.Outcome State Fault Refusal :=
  .next <|
    match s.feedAddrs p i, alGet (s.seqPart p).feeds i with
    | some (_, ctr, slots), some f0 =>
      (match f0.queue with
      | [] => s
      | (k, g) :: _ =>
        let n := s.feedSlots p
        if n = 0 || s.fencedEngine 2 p || !s.feedHeld p i || !reached (s.getNum (ctr + 4) 4 + n) (k + 1) then s
        else if !(s.feedAsleep p i).isEmpty then s.wakeAll (s.feedAsleep p i)
        else if !s.readable (pageAddr g) 0x10000 then s.uncorrectable (seqAgent p) (pageAddr g)
        else
          let s := s.settleFeed p i
          let f := (alGet (s.seqPart p).feeds i).getD {}
          let s := ((s.seqTouch p (pageAddr g) 0x10000).store (slots + k % n * 0x10000) (s.getBytes (pageAddr g) 0x10000)).touchExtent (g / 32)
          let s := s.storeKeep ctr (bytesLE 4 (s.getNum ctr 4 + 1))
          s.setFeed p i { f with queue := f.queue.drop 1, sent := f.sent ++ [(k, g)] })
    | _, _ => s

/-- RELEASE covers every page of a step, all of which have been sent, on feed tiles whose slots are not lost: else the step can only be
ABORTed (R150, R159). -/
def State.stepReleased (s : State) (p : Nat) (st : SeqStep) : Bool :=
  let L := (s.geom p).layers
  st.tiles.zipIdx.all (fun t =>
    let len := L * t.1.2
    len = 0 || (match s.feedAddrs p t.2, alGet (s.seqPart p).feeds t.2 with
      | some (_, ctr, _), some f =>
        s.feedHeld p t.2 && reached (s.getNum (ctr + 4) 4) (t.1.1 + len) && !f.queue.any (fun y => (y.1 + 2 ^ 32 - t.1.1) % 2 ^ 32 < len)
      | _, _ => false))

/-- A step that is still being built is built no more: the new pages of its flush are released (R151, R158). -/
def State.dropBuild (s : State) (p epoch : Nat) : State :=
  let x := s.seqPart p
  let gone := x.builds.filter (fun b => b.epoch == epoch)
  let s := s.setSeqPart p { x with builds := x.builds.filter (fun b => b.epoch != epoch) }
  (gone.flatMap Build.pages).foldl State.releasePage s

/-- The oldest open step leaves; a CLOSING sequence of it is freed and the others become IDLE (R143, R150). -/
def State.stepLeaves (s : State) (p : Nat) (st : SeqStep) : State :=
  let x := s.seqPart p
  let s := s.setSeqPart p { x with steps := x.steps.drop 1, ended := st.epoch }
  let s := st.ents.foldl (fun s e =>
    if s.seqState e.seq = 4 then s.freeSequence e.seq else if s.seqState e.seq = 2 then s.setSeqState e.seq 1 else s) s
  (s.reapPages p).showSteps p

/-- The appends of one sequence commit (R150): POS of its granted slots in every layer, LENGTH, STAGED and EPOCH. -/
def State.commitEnt (s : State) (epoch : Nat) (e : StepEnt) : State :=
  let r := s.seqRec e.seq
  let s := (List.range r.layers).foldl (fun s l => (List.range e.granted).foldl (fun s j =>
    s.seqStoreKeep r.part (r.mem + l * 0x10000 + metaOff (e.staged + j)) (bytesLE 4 (e.base + j))) s) s
  let s := s.wr .SEQ_ENT (s.seqLength e.seq + e.granted) e.seq 1
  (s.wrF .SEQ_ENT 8 0 (s.seqStaged e.seq + e.granted) e.seq 2).wr .SEQ_ENT epoch e.seq 8

/-- The quads of a partition's feed tiles that sleep. -/
def State.feedsAsleep (s : State) (p : Nat) : List QuadRef := (List.range (s.feedTiles p).length).flatMap (s.feedAsleep p)

/-- The sent pages that RELEASE covers are released on every feed tile (R149, R155). -/
def State.settleFeeds (s : State) (p : Nat) : State := (List.range 64).foldl (fun s i => s.settleFeed p i) s

/-- Once RELEASE covers the step's pages, END commits it (R150); it waits while the step is built, quads of the feed sleep (R84) or a
fence holds the engine (R337). -/
def execStepCommit (p : Nat) (s : State) : Host.Outcome State Fault Refusal :=
  .next <|
    match (s.seqPart p).steps with
    | [] => s
    | st :: _ =>
      if !st.ending || s.fencedEngine 2 p || (s.seqPart p).builds.any (fun b => b.epoch == st.epoch) || !s.stepReleased p st then s
      else if !(s.feedsAsleep p).isEmpty then s.wakeAll (s.feedsAsleep p)
      else
        let s := s.settleFeeds p
        let s := st.ents.foldl (fun s e => s.commitEnt st.epoch e) s
        (s.stepLeaves p st).setB .SEQ_P_STEP_STATUS 28 p

/-- The pages of a step discarded from a feed; with no other step open the ordinals go on from the pages sent. -/
def dropStepPages (layers : Nat) (st : SeqStep) (last : Bool) (i : Nat) (f : FeedTile) : FeedTile :=
  match st.tiles[i]? with
  | none => f
  | some (base, n) =>
    let mine (y : Nat × Nat) : Bool := (y.1 + 2 ^ 32 - base) % 2 ^ 32 < layers * n
    { next := if last then (match f.queue with | y :: _ => y.1 | [] => f.next) else f.next
      queue := f.queue.filter (fun y => !mine y)
      sent := f.sent.filter (fun y => !mine y) }

/-- The oldest open step ends without commit (R150, R160): scores that the feed has given back are taken, what is left of its pages in
the feed is discarded, and a flush in progress releases its new pages. -/
def State.abortStep (s : State) (p : Nat) : State :=
  match (s.seqPart p).steps with
  | [] => s
  | st :: r =>
    let L := (s.geom p).layers
    let s := (s.settleFeeds p).dropBuild p st.epoch
    let x := s.seqPart p
    let s := s.setSeqPart p { x with feeds := x.feeds.map (fun f => (f.1, dropStepPages L st r.isEmpty f.1 f.2)) }
    s.stepLeaves p st

/-- A write of ABORT (R150). -/
def execStepAbort (a : Agent) (p : Nat) (s : State) : Host.Outcome State Fault Refusal :=
  .next <|
    if s.accessFenced a (some 2) then s.respErr
    else if s.agentPart a ≠ p || 8 ≤ p then s.denied a (0x801024 + p * 0x100)
    else
      let s := s.respOk
      if (s.seqPart p).steps.isEmpty then s.stepRefused p 0xC else s.abortStep p

end Sys2Proof.Machine
end

