-- ==== Sys2Proof/Machine/Scan.lean ====
section
/-!
DEFINITION. The Eddy unit (R164 to R178): what SCAN computes from the bytes of a scratch.
-/

namespace Sys2Proof.Machine

/-! ## The fields of a SCAN (R165) -/

/-- CH. -/
def scanCh (w : List Nat) : Nat := wfld w 8 15 0
/-- NS. -/
def scanNs (w : List Nat) : Nat := wfld w 8 31 16
/-- MODE is SEL. -/
def scanSel (w : List Nat) : Bool := wfld w 9 21 20 = 1
/-- The number of state elements. -/
def scanWidth (w : List Nat) : Nat := scanCh w * scanNs w
/-- T. -/
def scanT (w : List Nat) : Nat := wfld w 10 23 0
/-- The bytes of a stored state element (R167). -/
def scanStateBytes (w : List Nat) : Nat := match wfld w 9 23 22 with | 0 => 8 | 1 => 4 | _ => 2
/-- The elements of an input row and of an output row (R166). -/
def scanInLen (w : List Nat) : Nat := if scanSel w then 3 * scanCh w + 2 * scanNs w else 2 * scanWidth w
/-- The elements of an output row. -/
def scanOutLen (w : List Nat) : Nat := if scanSel w then scanCh w else scanWidth w
/-- The bytes of the SEL constants. -/
def scanCoefBytes (w : List Nat) : Nat := 4 * (scanWidth w + scanCh w)

/-- The ranges of a SCAN (R166, R168). -/
def scanRanges (w : List Nat) : Ranges :=
  let st := (offAt w 5, scanWidth w * scanStateBytes w)
  { reads := rowRanges (offAt w 2) (64 * wfld w 11 15 0) (scanT w) (rowBytes (wfld w 9 27 24) (scanInLen w)) ++
      (if scanSel w then [(offAt w 3, scanCoefBytes w)] else []) ++
      (if wfld w 9 15 15 = 1 then [(offAt w 6, (scanT w + 7) / 8)] else []) ++
      (if wfld w 9 16 16 = 1 then [] else [st])
    writes := rowRanges (offAt w 4) (64 * wfld w 11 31 16) (scanT w) (rowBytes (wfld w 9 31 28) (scanOutLen w)) ++ [st] ++
      (if wfld w 9 14 14 = 1 then [(offAt w 7, 64)] else []) }

/-- FORMAT of a SCAN (R165, R167, R168). -/
def scanBadFormat (w : List Nat) : Bool :=
  4 < wfld w 9 27 24 || 4 < wfld w 9 31 28 || (2 ≤ wfld w 9 23 22 && wfld w 9 17 17 = 0)

/-- The state range meets the input, output, constant or mark range (R168); the rows of a format outside R165 have no size. -/
def scanOverlap (w : List Nat) : Bool :=
  anyMeet [(offAt w 5, scanWidth w * scanStateBytes w)]
    ((if wfld w 9 27 24 ≤ 4 then rowRanges (offAt w 2) (64 * wfld w 11 15 0) (scanT w) (rowBytes (wfld w 9 27 24) (scanInLen w)) else []) ++
      (if wfld w 9 31 28 ≤ 4 then rowRanges (offAt w 4) (64 * wfld w 11 31 16) (scanT w) (rowBytes (wfld w 9 31 28) (scanOutLen w)) else []) ++
      (if scanSel w then [(offAt w 3, scanCoefBytes w)] else []) ++
      (if wfld w 9 15 15 = 1 then [(offAt w 6, (scanT w + 7) / 8)] else []))

/-- The words of a SCAN as its marks leave them: a mark at step 0 acts as INIT (R172). -/
def scanEntry (w : List Nat) (g : Scratch) : List Nat :=
  if wfld w 9 15 15 = 1 && bitOf (g (offAt w 6)).toNat 0 then listUpdate w 9 (fun x => x ||| 2 ^ 16) else w

/-- BAD_CMD of a SCAN (R164, R165, R168). -/
def scanBadCmd (w : List Nat) : Bool :=
  let sel := scanSel w
  let marks : Bool := wfld w 9 15 15 = 1
  let summ : Bool := wfld w 9 14 14 = 1
  let reserved : Bool := wfld w 9 12 0 = 0 && wfld w 10 31 24 = 0 && wfld w 12 31 10 = 0 &&
    wordAt w 13 = 0 && wordAt w 14 = 0 && wordAt w 15 = 0
  let sizes : Bool := 1 ≤ scanNs w && scanNs w ≤ 64 && 1 ≤ scanCh w && scanCh w ≤ 8192 && scanT w ≠ 0 && (sel || scanNs w = 1)
  let modes : Bool := wfld w 9 21 20 ≤ 1 && wfld w 9 19 18 ≤ 2
  let fns : Bool := wfld w 12 9 5 ≤ 14 && wfld w 12 4 0 ≤ 14 && (sel || wfld w 12 9 0 = 0)
  let offs : Bool := offOk w 2 true && offOk w 3 sel && offOk w 4 true && offOk w 5 true && offOk w 6 marks && offOk w 7 summ
  !(reserved && sizes && modes && fns && offs) || scanOverlap w

/-! ## Compensated steps (R169) -/

/-- A compensated element: its value word and its compensation word. -/
abbrev Pair := Fp × Fp

/-- The compensation of an element that has none. -/
def fpZero : Fp := .fin false 0 fp32.qmin

/-- A value is zero. -/
def Fp.isZero : Fp → Bool | .fin _ m _ => m = 0 | _ => false

/-- The rounded result of an exact value, and its exact error (two_prod, two_sum): an infinite or NaN result has the
error 0. -/
def splitExact (x : Fp × Nat) : Fp × Fp × Nat :=
  let r := round32F x
  match r.1 with
  | .fin _ _ _ => (r.1, ((x.1.addExact r.1.neg).1.to32).1, noUnf r.2)
  | _ => (r.1, fpZero, noUnf r.2)

/-- One step of an element with a plain factor and a plain addend (R169). -/
def compStep (a : Fp) (x : Pair) (b : Fp) : Pair × Nat :=
  let p := splitExact (a.mulExact x.1)
  let s := splitExact (p.1.addExact b)
  let ac := (a.mul x.2).1
  let e := ((p.2.1.add s.2.1).1.add ac).1
  match s.1 with
  | .fin _ _ _ =>
    let r := splitExact (s.1.addExact e)
    ((r.1, r.2.1), p.2.2 ||| s.2.2 ||| r.2.2)
  | _ => ((s.1, fpZero), p.2.2 ||| s.2.2)

/-- A product of an element with a plain factor, by the same step without an addend. -/
def compMul (a : Fp) (x : Pair) : Pair × Nat := compStep a x (.fin true 0 fp32.qmin)

/-- The terms of a list in the order of a code: it picks the first from all, the next from those left, and so on. -/
def orderBy : List Fp → Nat → Nat → List Fp
  | _, 0, _ => []
  | [], _, _ => []
  | x :: l, k + 1, code =>
    let n := (x :: l).length
    let i := code % n
    (x :: l).getD i x :: orderBy ((x :: l).eraseIdx i) k (code / n)

/-- The terms that a step adds to the errors of its product and its sum (R169, R171): the factor times the compensation of the element,
the compensation of the factor times the element, that of the addend; the part may add the product of both compensations.  Their
order is the part's. -/
def pairTerms (a x b : Pair) : List Fp :=
  let l := [(a.1.mul x.2).1, (a.2.mul x.1).1, b.2] ++ (if Config.scanOrder % 2 = 1 then [(a.2.mul x.2).1] else [])
  orderBy l l.length (Config.scanOrder / 2)

/-- The step on pairs (R169, R171): the compensated product and sum of the value words, the terms of the compensation words added to
their errors from left to right; a NaN stays NaN. -/
def pairStep (a x b : Pair) : Pair × Nat :=
  if a.1.isNan || x.1.isNan || b.1.isNan then ((.nan, fpZero), 0)
  else if a.2.isZero && b.2.isZero then compStep a.1 x b.1
  else
    let p := splitExact (a.1.mulExact x.1)
    let s := splitExact (p.1.addExact b.1)
    match s.1 with
    | .fin _ _ _ =>
      let e := (pairTerms a x b).foldl (fun e t => (e.add t).1) (p.2.1.add s.2.1).1
      let r := splitExact (s.1.addExact e)
      ((r.1, r.2.1), p.2.2 ||| s.2.2 ||| r.2.2)
    | _ => ((s.1, fpZero), p.2.2 ||| s.2.2)

/-- UNF of a state (R176): its value word is subnormal or zero and the exact step gives a nonzero state. -/
def pairUnf (a x b h : Pair) : Nat :=
  match h.1 with
  | .fin _ m e =>
    if !fp32.tiny (m, e) then 0
    else
      let sum (p : Pair) : Fp := (p.1.addExact p.2).1
      let ex := (((sum a).mulExact (sum x)).1.addExact (sum b)).1
      if ex.isZero || ex.isNan then 0 else flagUnf
  | _ => 0

/-! ## Chunks (R171, R172) -/

/-- A chunk: its first step, its length, and whether the state before it is zeroed. -/
structure Chunk where
  t0 : Nat
  len : Nat
  zero : Bool
  deriving DecidableEq, Repr

/-- The chunks of a run of `t` steps: they start at step 0, at every marked step, and CHUNK steps after one another. -/
def scanChunks (size t : Nat) (init : Bool) (mark : Nat → Bool) : List Chunk :=
  ((List.range t).foldl (fun acc k => match acc with
    | [] => [⟨k, 1, init || mark k⟩]
    | c :: r => if mark k then ⟨k, 1, true⟩ :: c :: r
        else if c.len = size then ⟨k, 1, false⟩ :: c :: r
        else { c with len := c.len + 1 } :: r) []).reverse

/-- One level of the tree at distance `d`. -/
def treeLevel (d : Nat) (l : List (Pair × Pair)) : List (Pair × Pair) × Nat :=
  mapFlags (fun (k : Nat) =>
    let x := l.getD k ((fpZero, fpZero), (fpZero, fpZero))
    if k < d then (x, 0)
    else
      let y := l.getD (k - d) x
      let b := pairStep x.1 y.2 x.2
      let a := pairStep x.1 y.1 (.fin true 0 fp32.qmin, fpZero)
      ((a.1, b.1), a.2 ||| b.2)) (List.range l.length)

/-- The composed pairs (a, b) of a chunk: the levels 1, 2, 4, ... below its length. -/
def chunkTree (l : List (Fp × Fp)) : List (Pair × Pair) × Nat :=
  ([1, 2, 4, 8, 16, 32].filter (fun d => d < l.length)).foldl (fun acc d =>
    let r := treeLevel d acc.1
    (r.1, acc.2 ||| r.2)) (l.map (fun x => ((x.1, fpZero), (x.2, fpZero))), 0)

/-- The states of one element over a chunk from the state before it. -/
def chunkRun (zero : Bool) (h : Pair) (l : List (Fp × Fp)) : List Pair × Nat :=
  let tr := chunkTree l
  let r := mapFlags (fun (x : Pair × Pair) =>
    if zero && !x.1.1.isNan then (x.2, pairUnf x.1 (fpZero, fpZero) x.2 x.2)
    else
      let y := pairStep x.1 h x.2
      (y.1, y.2 ||| pairUnf x.1 h x.2 y.1)) tr.1
  (r.1, tr.2 ||| r.2)

/-- The states of one element over all chunks. -/
def elementRun (ab : Nat → Fp × Fp) (h0 : Pair) (cs : List Chunk) : List Pair × Nat :=
  let r := cs.foldl (fun (acc : List Pair × Pair × Nat) c =>
    let h := if c.zero then (fpZero, fpZero) else acc.2.1
    let x := chunkRun c.zero h ((List.range c.len).map (fun k => ab (c.t0 + k)))
    (acc.1 ++ x.1, x.1.getLastD h, acc.2.2 ||| x.2)) ([], h0, 0)
  (r.1, r.2.2)

/-! ## Inputs and outputs (R164, R166, R167) -/

/-- The stored state of element `i`. -/
def scanLoad (w : List Nat) (g : Scratch) (i : Nat) : Pair :=
  let b := g.bytes (offAt w 5 + i * scanStateBytes w) (scanStateBytes w)
  match wfld w 9 23 22 with
  | 0 => (of32 (leAt b 0 4), of32 (leAt b 4 4))
  | 1 => (of32 (leAt b 0 4), fpZero)
  | 2 => (bf16.decode (leAt b 0 2), fpZero)
  | _ => ((fpFmt 2).decode (leAt b 0 2), fpZero)

/-- The bytes of a state element as stored, with the flags of its rounding. -/
def scanStore (w : List Nat) (h : Pair) : List Byte × Nat :=
  match wfld w 9 23 22 with
  | 0 => (bytesLE 4 h.1.bits32 ++ bytesLE 4 h.2.bits32, 0)
  | 1 => (bytesLE 4 h.1.bits32, 0)
  | k =>
    let r := convFloat (k - 1) none (if h.1.isNan then .nan else (h.1.addExact h.2).1)
    (bytesLE 2 r.1, r.2)

/-- Input row `t`. -/
def scanRow (w : List Nat) (g : Scratch) (t : Nat) : List Fp :=
  let f := wfld w 9 27 24
  (rowCodes f (scanInLen w) (g.bytes (offAt w 2 + t * (64 * wfld w 11 15 0)) (rowBytes f (scanInLen w)))).map (fpFmt f).decode

/-- a = exp(δ × A) (R164, R177): the exp of R57 on the product, which is rounded once to FP32 (log entry 100). -/
def scanA (d a : Fp) : Fp × Nat :=
  let p := d.mul a
  let y := fnApply 7 p.1
  (y.1, noUnf (p.2 ||| y.2))

/-- The coefficients (a, b) of element `i` at a step, from its input row. -/
def scanCoef (w : List Nat) (g : Scratch) (row : List Fp) (i : Nat) : (Fp × Fp) × Nat :=
  if !scanSel w then ((row.getD i .nan, row.getD (scanWidth w + i) .nan), 0)
  else
    let ch := scanCh w
    let c := i / scanNs w
    let n := i % scanNs w
    let d := fnApply (wfld w 12 9 5) (row.getD (2 * ch + c) .nan)
    let a := scanA d.1 (of32 (leAt (g.bytes (offAt w 3 + 4 * i) 4) 0 4))
    let q := d.1.mulExact (row.getD (3 * ch + n) .nan)
    let r := q.1.mulExact (row.getD c .nan)
    let b := round32F r
    ((a.1, b.1), noUnf (d.2 ||| a.2 ||| q.2 ||| b.2))

/-- Output y of channel `c` at a step: the contraction in increasing n from the product with D, times the gate; UNF tells of the last
rounding, which gives y (R176). -/
def scanY (w : List Nat) (g : Scratch) (row : List Fp) (h : Nat → Fp) (c : Nat) : Fp × Nat :=
  let ch := scanCh w
  let ns := scanNs w
  let dc := of32 (leAt (g.bytes (offAt w 3 + 4 * (scanWidth w + c)) 4) 0 4)
  let sum := (List.range ns).foldl (fun (acc : Fp × Nat) n =>
    let p := (row.getD (3 * ch + ns + n) .nan).mul (h (c * ns + n))
    let x := acc.1.add p.1
    (x.1, noUnf (acc.2 ||| p.2) ||| x.2)) (dc.mul (row.getD c .nan))
  if wfld w 9 13 13 = 0 then sum
  else
    let z := fnApply (wfld w 12 4 0) (row.getD (ch + c) .nan)
    let y := sum.1.mul z.1
    (y.1, noUnf (sum.2 ||| z.2) ||| y.2)

/-- The summary of R175. -/
def scanSummary (t segs : Nat) (as : List Fp) : List Byte :=
  let mags := as.filterMap (fun a => if a.isNan then none else some a.abs)
  let big := (mags.filter (fun a => (fpConst 1 0).lt a)).length
  let top := mags.foldl (fun m a => if m.lt a then a else m) fpZero
  bytesLE 4 t ++ bytesLE 4 segs ++ bytesLE 4 (min 0xFFFFFFFF big) ++ bytesLE 4 top.bits32 ++ List.replicate 48 0

/-- SCAN (R164 to R176): what it writes, and its flags. -/
def scan (words : List Nat) (g : Scratch) : EwOut :=
  let w := scanEntry words g
  let t := scanT w
  let width := scanWidth w
  let rows := (List.range t).map (scanRow w g)
  let coefs := rows.map (fun row => mapFlags (scanCoef w g row) (List.range width))
  let mark (k : Nat) : Bool := wfld w 9 15 15 = 1 && bitOf (g (offAt w 6 + k / 8)).toNat (k % 8)
  let init : Bool := wfld w 9 16 16 = 1
  let cs := scanChunks (match wfld w 9 19 18 with | 0 => 16 | 1 => 32 | _ => 64) t init mark
  let h0 (i : Nat) : Pair := if init then (fpZero, fpZero) else scanLoad w g i
  let run := mapFlags (fun (i : Nat) =>
    elementRun (fun k => ((coefs.getD k ([], 0)).1).getD i (.nan, .nan)) (h0 i) cs) (List.range width)
  let hs : Nat → Nat → Pair := fun i k => (run.1.getD i []).getD k (.nan, fpZero)
  let fout := wfld w 9 31 28
  let outs := mapFlags (fun (k : Nat) =>
    let row := rows.getD k []
    let ys := if scanSel w then mapFlags (scanY w g row (fun i => (hs i k).1)) (List.range (scanCh w))
      else ((List.range width).map (fun i => (hs i k).1), 0)
    let r := mapFlags (convFloat fout none) ys.1
    ((offAt w 4 + k * (64 * wfld w 11 31 16), packCodes fout r.1), ys.2 ||| r.2)) (List.range t)
  let fin := mapFlags (fun (i : Nat) => scanStore w (hs i (t - 1))) (List.range width)
  let consts := if scanSel w then (List.range (width + scanCh w)).map (fun i => of32 (leAt (g.bytes (offAt w 3 + 4 * i) 4) 0 4)) else []
  let nan := rows.any (fun r => r.any Fp.isNan) || consts.any Fp.isNan ||
    (!init && (List.range width).any (fun i => (h0 i).1.isNan || (h0 i).2.isNan))
  let segs := 1 + ((List.range t).filter (fun k => k ≠ 0 && mark k)).length
  { writes := outs.1 ++ [(offAt w 5, fin.1.flatten)] ++
      (if wfld w 9 14 14 = 1 then [(offAt w 7, scanSummary t segs (coefs.flatMap (fun c => c.1.map Prod.fst)))] else [])
    flags := coefs.foldl (fun f c => f ||| c.2) 0 ||| run.2 ||| outs.2 ||| fin.2 ||| (if nan then flagNanIn else 0) }

end Sys2Proof.Machine
end

