-- ==== Sys2Proof/Machine/Tile.lean ====
section
/-!
DEFINITION. The commands of a tile (R62 to R73, R164 to R168): their starts, the writes at their completion, counters.
-/

namespace Sys2Proof.Machine

/-! ## COPY (R67) -/

/-- SRC, DST, ROW_BYTES, ROWS and the strides of a COPY. -/
structure CopyArgs where
  src : Nat
  dst : Nat
  bytes : Nat
  rows : Nat
  srcStride : Nat
  dstStride : Nat
  deriving DecidableEq, Repr

/-- A 48-bit address in two command words. -/
def addrAt (w : List Nat) (k : Nat) : Nat := wordAt w k + 2 ^ 32 * wfld w (k + 1) 15 0

/-- The fields of a COPY. -/
def copyArgs (w : List Nat) : CopyArgs :=
  ⟨addrAt w 2, addrAt w 4, wordAt w 6, wordAt w 7, wordAt w 8, wordAt w 9⟩

/-- An address lies in the scratch of logical tile `l`. -/
def inScratch (l a : Nat) : Bool := tileBase l ≤ a && a < tileBase l + 0x400000

/-- The scratch ranges of a COPY on logical tile `l`. -/
def copyRanges (l : Nat) (w : List Nat) : Ranges :=
  let c := copyArgs w
  { reads := if inScratch l c.src then rowRanges (c.src - tileBase l) c.srcStride c.rows c.bytes else []
    writes := if inScratch l c.dst then rowRanges (c.dst - tileBase l) c.dstStride c.rows c.bytes else [] }

/-- BAD_CMD of a COPY: reserved fields, sizes, alignment (R67, R70).  DESIGN CHOICE (log entry 90): one with neither side in the tile's own
scratch, for which the manual names no status, ends with BAD_CMD. -/
def copyBadCmd (l : Nat) (w : List Nat) : Bool :=
  let c := copyArgs w
  wfld w 3 31 16 ≠ 0 || wfld w 5 31 16 ≠ 0 || (List.range 6).any (fun k => wordAt w (10 + k) ≠ 0) ||
    c.bytes = 0 || c.rows = 0 || [c.src, c.dst, c.bytes, c.srcStride, c.dstStride].any (fun x => x % 64 ≠ 0) ||
    !(inScratch l c.src || inScratch l c.dst)

/-! ## COLLECTIVE (R196) -/

/-- The gang positions that take part. -/
def collMembers (gang : Nat) (w : List Nat) : List Nat :=
  let m := wordAt w 6 + 2 ^ 32 * wordAt w 7
  if m = 0 then List.range gang else bitsSet 64 m

/-- The bytes of an element. -/
def collElem (w : List Nat) : Nat := if wfld w 2 23 20 = 1 || wfld w 2 23 20 = 2 then 2 else 4

/-- The share of the member of rank `r` among `m` in a reduce-scatter: its first element and its length. -/
def scatterShare (count m r : Nat) : Nat × Nat :=
  if count % m = 0 then (r * (count / m), count / m)
  else
    let cut (k : Nat) : Nat := if k = 0 then 0 else if m ≤ k then count else min count (Config.scatterCut count m k)
    (cut r, cut (r + 1) - cut r)

/-- The scratch ranges of a COLLECTIVE of the gang member at position `pos` (R196): a reduce-scatter leaves it its share alone. -/
def collRanges (gang pos : Nat) (w : List Nat) : Ranges :=
  let n := wordAt w 5 * collElem w
  let ms := collMembers gang w
  let m := ms.length
  match wfld w 2 31 28 with
  | 0 => {}
  | 2 => { reads := [(offAt w 3, n)], writes := [(offAt w 4, (scatterShare (wordAt w 5) m (ms.idxOf pos)).2 * collElem w)] }
  | 3 => { reads := [(offAt w 3, n)], writes := [(offAt w 4, n * m)] }
  | _ => { reads := [(offAt w 3, n)], writes := [(offAt w 4, n)] }

/-- The front-end check of a COLLECTIVE for gang position `pos` (R70, R196). -/
def collCheck (gang pos : Nat) (w : List Nat) : Nat :=
  let ms := collMembers gang w
  let op := wfld w 2 31 28
  if wfld w 2 7 0 ≠ 0 || 4 < op || 1 < wfld w 2 27 24 || !offOk w 3 (op ≠ 0) || !offOk w 4 (op ≠ 0) ||
      (op ≠ 0 && wordAt w 5 = 0) || wfld w 8 31 16 ≠ 0 || wfld w 9 31 16 ≠ 0 ||
      (List.range 6).any (fun k => wordAt w (10 + k) ≠ 0) || !ms.contains pos || ms.any (fun k => gang ≤ k) ||
      (op = 4 && !ms.contains (wfld w 2 13 8)) then 1
  else if !([0, 1, 2, 0xB].contains (wfld w 2 23 20)) then 3
  else 0

/-! ## Starts -/

/-- A 48-bit address in two command words, as an offset in the scratch of logical tile `l`; none outside it. -/
def counterRange (l : Nat) (w : List Nat) : List (Nat × Nat) :=
  if inScratch l (addrAt w 2) then [(addrAt w 2 - tileBase l, 4)] else []

/-- The scratch ranges of any command at a gang position of a gang of a size on logical tile `l` (R69). -/
def cmdRanges (l gang pos : Nat) (w : List Nat) : Ranges :=
  match opcodeOf w with
  | 1 => matmulRanges w
  | 2 => ewiseRanges w
  | 3 => copyRanges l w
  | 4 => scanRanges w
  | 5 => { reads := counterRange l w }
  | 6 => { reads := counterRange l w, writes := counterRange l w }
  | 7 => if wfld w 2 31 31 = 1 then { reads := [(offAt w 3, 64)] } else {}
  | 9 => collRanges gang pos w
  | _ => {}

/-- The size of the gang of the job on a tile. -/
def State.gangOf (s : State) (t : Nat) : Nat := match (s.run t).ctx with | some j => s.jobGang j | none => 0

/-- The scratch ranges of a command on a tile. -/
def State.tileRanges (s : State) (t : Nat) (w : List Nat) : Ranges := cmdRanges (s.logicalOfRun t) (s.gangOf t) (s.run t).pos w

/-- A command that works on scratch starts: BAD_CMD, FORMAT and BOUNDS in that order (R70). -/
def State.startScratch (s : State) (t op : Nat) (bad format : NextCmd → Bool) : State :=
  let rg := s.tileRanges t
  let check (c : NextCmd) : Nat :=
    if bad c then 1 else if format c then 3
    else if ((rg c.words).reads ++ (rg c.words).writes).all (s.rangeOk (s.jobOwner c.job) (s.logicalOfRun t)) then 0 else 2
  match s.startCmd t op false check rg with
  | some (_, s) => s
  | none => s.wakeQueue t

/-- MATMUL (R65). -/
def execMatmul (t : Nat) (s : State) : Host.Outcome State Fault Refusal :=
  .next (s.startScratch t 1 (fun c => ewBadCmd c.words) (fun c => ewBadFormat c.words))

/-- EWISE (R66). -/
def execEwise (t : Nat) (s : State) : Host.Outcome State Fault Refusal :=
  .next (s.startScratch t 2 (fun c => ewBadCmd c.words) (fun c => ewBadFormat c.words))

/-- COPY (R67). -/
def execCopyCmd (t : Nat) (s : State) : Host.Outcome State Fault Refusal :=
  .next (s.startScratch t 3 (fun c => copyBadCmd (s.logicalOfRun t) c.words) (fun _ => false))

/-- SCAN (R165, R168). -/
def execScan (t : Nat) (s : State) : Host.Outcome State Fault Refusal :=
  .next (s.startScratch t 4 (fun c => scanBadCmd c.words) (fun c => scanBadFormat c.words))

/-- COLLECTIVE (R196): the member has issued; it holds its queue until the collective ends. -/
def execCollective (t : Nat) (s : State) : Host.Outcome State Fault Refusal :=
  .next (s.startScratch t 9 (fun c => collCheck (s.jobGang c.job) c.pos c.words = 1)
    (fun c => collCheck (s.jobGang c.job) c.pos c.words = 3))

/-- NOP (R64). -/
def execNop (t : Nat) (s : State) : Host.Outcome State Fault Refusal :=
  .next <|
    match s.startCmd t 0 false (fun c => if (List.range 15).any (fun k => wordAt c.words (k + 1) ≠ 0) then 1 else 0)
      (s.tileRanges t) with
    | none => s.wakeQueue t
    | some (c, s) => s.finish t c.slot 0

/-- A reserved opcode ends with BAD_CMD (R64). -/
def execReservedOpcode (t : Nat) (s : State) : Host.Outcome State Fault Refusal :=
  .next <|
    match s.nextCmd t with
    | none => s.wakeQueue t
    | some c =>
      if opcodeOf c.words ≤ 9 then s
      else
        match s.startCmd t (opcodeOf c.words) false (fun _ => 1) (fun _ => {}) with
        | none => s
        | some (_, s) => s

/-! ## Counters (R68) -/

/-- ADDR of a WAIT or SIGNAL. -/
def counterAddr (w : List Nat) : Nat := addrAt w 2

/-- BAD_CMD of a WAIT or SIGNAL. -/
def counterBad (w : List Nat) (wait : Bool) : Bool :=
  wfld w 3 31 16 ≠ 0 || counterAddr w % 4 ≠ 0 || (if wait then wfld w 5 31 16 ≠ 0 else wordAt w 5 ≠ 0) ||
    (List.range 10).any (fun k => wordAt w (6 + k) ≠ 0)

/-- Where a counter may lie: the commons, the tile's own scratch, the warm tier. -/
def counterPlace (l a : Nat) : Bool :=
  match regionOf a with
  | .commons _ => true
  | .scratch k _ => k = l
  | .warm _ => true
  | _ => false

/-- A counter read for a tile; none, with its record, where the request is refused.  DESIGN CHOICE (log entry 90): an ADDR in none of the places
that R68 allows is answered as a request to memory of another: a record of class partition violation, and MEM_ERROR. -/
def State.readCounter (s : State) (t j a : Nat) : Option Nat × State :=
  if !counterPlace (s.logicalOfRun t) a then (none, s.refusalRecord (s.tileAgent t j) .violation a)
  else match s.readAs (s.tileAgent t j) a 4 with
    | (some d, s) => (some (ofBytesLE d), s)
    | (none, s) => (none, s)

/-- A WAIT's condition: (int32)(counter - VALUE) is not negative. -/
def waitMet (w : List Nat) (c : Nat) : Bool := 0 ≤ sintOf 32 (uintOf 32 ((c : Int) - wordAt w 4))

/-- The WAIT in progress on a tile, with its job. -/
def State.waitCmd (s : State) (t : Nat) : Option (Nat × RunCmd) :=
  match (s.run t).ctx, (s.run t).running.find? (fun c => !c.done && opcodeOf c.words == 5) with
  | some j, some c => some (j, c)
  | _, _ => none

/-- A WAIT looks at its counter: it completes where VALUE is reached; a refused read ends it with MEM_ERROR. -/
def State.checkWait (s : State) (t : Nat) : State :=
  match s.waitCmd t with
  | none => s
  | some (j, c) =>
    match s.sleepingQuads (counterAddr c.words) 4 with
    | x :: l => (x :: l).foldl (fun s q => s.startWake q) s
    | [] =>
      match s.readCounter t j (counterAddr c.words) with
      | (none, s) => s.failCommand t c.words c.slot 4
      | (some v, s) => if waitMet c.words v then s.finish t c.slot 0 else s

/-- WAIT (R68): holds the queue; a counter that has reached VALUE completes it at once. -/
def execWaitCmd (t : Nat) (s : State) : Host.Outcome State Fault Refusal :=
  .next <|
    match s.startCmd t 5 false (fun c => if counterBad c.words true then 1 else 0)
      (s.tileRanges t) with
    | none => s.wakeQueue t
    | some (_, s) => if (s.run t).stopped then s else s.checkWait t

/-- A waited counter reaches VALUE (R68). -/
def execWaitSatisfied (t : Nat) (s : State) : Host.Outcome State Fault Refusal := .next (s.checkWait t)

/-- The re-read of a warm-tier counter (R68). -/
def execWaitPoll (t : Nat) (s : State) : Host.Outcome State Fault Refusal :=
  .next <|
    match s.waitCmd t with
    | some (_, c) => (match regionOf (counterAddr c.words) with | .warm _ => s.checkWait t | _ => s)
    | none => s

/-- A WAIT's TIMEOUT (R68, R70). -/
def execWaitTimeout (t : Nat) (s : State) : Host.Outcome State Fault Refusal :=
  .next <|
    match s.waitCmd t with
    | some (_, c) => if wfld c.words 5 15 0 = 0 then s else s.failCommand t c.words c.slot 6
    | none => s

/-- SIGNAL (R68, R69): after every earlier command has completed, VALUE is added to the counter in one operation. -/
def execSignal (t : Nat) (s : State) : Host.Outcome State Fault Refusal :=
  .next <|
    let sleep := match s.nextCmd t with | some c => if opcodeOf c.words = 6 then s.sleepingQuads (counterAddr c.words) 4 else [] | none => []
    if !sleep.isEmpty then sleep.foldl (fun s q => s.startWake q) s
    else
      match s.startCmd t 6 true (fun c => if counterBad c.words false then 1 else 0) (fun _ => {}) with
      | none => s.wakeQueue t
      | some (c, s) =>
        if (s.run t).stopped then s
        else
          match s.readCounter t c.job (counterAddr c.words) with
          | (none, s) => s.failCommand t c.words c.slot 4
          | (some v, s) =>
            match s.writeAs (s.tileAgent t c.job) (counterAddr c.words) (bytesLE 4 (v + wordAt c.words 4)) with
            | (true, s) => s.finish t c.slot 0
            | (false, s) => s.failCommand t c.words c.slot 4

/-! ## Completion (R55, R69, R70, R72) -/

/-- The scratch of logical tile `l` as its bytes. -/
def State.scratch (s : State) (l : Nat) : Scratch := fun o => s.getByte (tileBase l + o)

/-- A range of a list that holds an uncorrectable word, as an address. -/
def State.badRange (s : State) (l : Nat) (rs : List (Nat × Nat)) : Option Nat :=
  (rs.find? (fun r => !s.readable (tileBase l + r.1) r.2)).map (fun r => tileBase l + r.1)

/-- Every byte of a segment of a scratch lies in one of the ranges written. -/
def segmentCovered (ws : List (Nat × List Byte)) (o : Nat) : Bool :=
  (List.range 8).all (fun k => ws.any (fun x => x.1 ≤ o + 64 * k && o + 64 * k + 64 ≤ x.1 + x.2.length)) ||
  (List.range 512).all (fun k => ws.any (fun x => x.1 ≤ o + k && o + k < x.1 + x.2.length))

/-- Results written to a scratch: with CHECK the segments that they cover whole, together, take new checks (R63, R328). -/
def State.putResults (s : State) (l : Nat) (check : Bool) (ws : List (Nat × List Byte)) : State :=
  let s := ws.foldl (fun s x => s.storeKeep (tileBase l + x.1) x.2) s
  if check then { s with badCheck := s.badCheck.filter (fun g =>
      !(tileBase l ≤ g * 512 && g * 512 < tileBase l + 0x400000 && segmentCovered ws (g * 512 - tileBase l))) }
  else s

/-- CHECK of a command. -/
def checkBit (w : List Nat) : Bool := wfld w 0 9 9 = 1

/-- A MATMUL, EWISE or SCAN ends: its results land, or an uncorrectable read ends it with MEM_ERROR. -/
def State.endCompute (s : State) (t j : Nat) (c : RunCmd) (f : List Nat → Scratch → EwOut) (rg : Ranges) : State :=
  let l := s.logicalOfRun t
  match s.badRange l rg.reads with
  | some a => (s.uncorrectable (s.tileAgent t j) a).failCommand t c.words c.slot 4
  | none =>
    let o := f c.words (s.scratch l)
    (s.putResults l (checkBit c.words) o.writes).finish t c.slot o.flags

/-- The cycles in which the array computes a MATMUL (R43, R44). -/
def matmulCycles (w : List Nat) : Nat :=
  let k := wfld w 9 23 0
  let c := match wfld w 9 27 24 with | 5 | 7 => (k + 1) / 2 | 3 | 4 | 6 => k | 0 => 8 * k | _ => 2 * k
  ((wfld w 8 15 0 + 127) / 128) * ((wfld w 8 31 16 + 127) / 128) * max c 128

/-- The bad check segments that a row takes with it: whole segments whose check does not match, at the same place within
a segment on both sides. -/
def State.badCarried (s : State) (src dst n : Nat) : List Nat :=
  if src % 512 ≠ dst % 512 then []
  else ((wholeBlocks 512 src n).filter (fun g => s.badCheck.contains g)).map (fun g => g - src / 512 + dst / 512)

/-- The verdict on a row of a COPY.  DESIGN CHOICE (log entry 90): the scratch of another tile, which R67 does not list, is refused as
memory of another. -/
def State.copyVerdict (s : State) (ag : Agent) (wr : Bool) (a n : Nat) : Verdict :=
  match regionOf a, ag with
  | .scratch l _, .tile t _ => if s.physOf l == some t then s.verdict ag wr a n else .violation
  | _, _ => s.verdict ag wr a n

/-- A row of a COPY written (R67, R328 to R330): whole segments carry their checks, a bad one into the warm or far tier is
refused with a record. -/
def State.copyWrite (s : State) (ag : Agent) (w : List Nat) (src dst : Nat) (d : List Byte) : Bool × State :=
  let bad := if checkBit w then [] else s.badCarried src dst d.length
  match s.copyVerdict ag true dst d.length with
  | .ok =>
    if warmBase ≤ dst && !bad.isEmpty then (false, s.checkFailed ag ((bad.headD 0 - dst / 512 + src / 512) * 512))
    else
      let p := s.agentPart ag
      let t := s.storeFor p dst d (checkBit w || src % 512 = dst % 512)
      (true, { t with badCheck := t.badCheck ++ bad.filter (fun g => !t.badCheck.contains g) })
  | v => (false, s.refusalRecord ag v dst)

/-- A row of a COPY read; with VERIFY its checks must match. -/
def State.copyRead (s : State) (ag : Agent) (w : List Nat) (src n : Nat) : Option (List Byte) × Nat × State :=
  match s.copyVerdict ag false src n with
  | .ok =>
    match s.readPassed ag src n with
    | (none, s) => (none, 4, s)
    | (some d, s) =>
      if wfld w 0 10 10 = 1 then
        (match ((s.storedRanges src n).flatMap (fun r => blocksOf 512 r.1 r.2)).find? (fun g => s.badCheck.contains g) with
        | some g => (none, 5, s.checkFailed ag (g * 512))
        | none => (some d, 0, s))
      else (some d, 0, s)
  | v => (none, 4, s.refusalRecord ag v src)

/-- The rows of a COPY in order: a status other than OK stops it. -/
def State.copyRows (s : State) (ag : Agent) (w : List Nat) (c : CopyArgs) : List Nat → Nat × State
  | [] => (0, s)
  | i :: l =>
    match (s.traffic ag (c.src + i * c.srcStride) c.bytes).copyRead ag w (c.src + i * c.srcStride) c.bytes with
    | (none, st, s) => (st, s)
    | (some d, _, s) =>
      match (s.traffic ag (c.dst + i * c.dstStride) c.bytes).copyWrite ag w (c.src + i * c.srcStride) (c.dst + i * c.dstStride) d with
      | (false, s) => (4, s)
      | (true, s) => s.copyRows ag w c l

/-- A COPY ends. -/
def State.endCopy (s : State) (t j : Nat) (c : RunCmd) : State :=
  let a := copyArgs c.words
  match s.copyRows (s.tileAgent t j) c.words a (List.range a.rows) with
  | (0, s) => s.finish t c.slot 0
  | (st, s) => s.failCommand t c.words c.slot st

/-- The quads in lull or waking that a command needs. -/
def State.cmdAsleep (s : State) (t j : Nat) (w : List Nat) : List QuadRef :=
  let l := s.logicalOfRun t
  let rg := cmdRanges l (s.jobGang j) (s.run t).pos w
  let a := copyArgs w
  let far (x st : Nat) : List QuadRef := if opcodeOf w = 3 && !inScratch l x then
      (List.range a.rows).flatMap (fun i => s.sleepingQuads (x + i * st) a.bytes) else []
  (rg.reads ++ rg.writes).flatMap (fun r => s.sleepingQuads (tileBase l + r.1) r.2) ++ far a.src a.srcStride ++ far a.dst a.dstStride

/-- COMMAND_COMPLETE (R69): the `k`-th command in progress on the tile completes: its writes land and its flags are
raised, or it ends with MEM_ERROR or CHECK_FAIL.  A quad that it needs and that is in lull wakes first (R84). -/
def execCommandComplete (t k : Nat) (s : State) : Host.Outcome State Fault Refusal :=
  .next <|
    if s.pwr.gale then s
    else match (s.run t).ctx, ((s.run t).running.filter (fun c => !c.done))[k]? with
    | some j, some c =>
      (match s.cmdAsleep t j c.words with
      | x :: l => (x :: l).foldl (fun s q => s.startWake q) s
      | [] =>
        match opcodeOf c.words with
        | 1 => (s.endCompute t j c matmul (matmulRanges c.words)).wr64 .TILE_BUSY_LO
            ((s.rd64 .TILE_BUSY_LO t + matmulCycles c.words) % 2 ^ 64) t
        | 2 => s.endCompute t j c ewise (ewiseRanges c.words)
        | 3 => s.endCopy t j c
        | 4 => s.endCompute t j c scan (scanRanges (scanEntry c.words (s.scratch (s.logicalOfRun t))))
        | _ => s)
    | _, _ => s

end Sys2Proof.Machine
end

