-- ==== Sys2Proof/Machine/Updraft.lean ====
section
/-!
DEFINITION. Updraft (R118 to R136): streaming plans, their load and unload, layer gates, the warm cache, stalls.
-/

namespace Sys2Proof.Machine

/-! ## The plan in memory (R120 to R123) -/

/-- Updraft working for the partition of plan slot `n`. -/
def updAgent (n : Nat) : Agent := .engine 0 (n / 8)

/-- SHARE of an EXPERT layer (R121). -/
def shareOf (partBytes gang : Nat) : Nat := ((partBytes + gang - 1) / gang + 63) / 64 * 64

/-- A layer entry (R121). -/
def parseLayer (b : List Byte) : PlanLayer :=
  { kind := leAt b 0 1, reside := leAt b 1 1, routeMax := leAt b 2 1, tileBytes := leAt b 4 4, src := leAt b 8 8
    dstOff := leAt b 16 4, partBytes := leAt b 20 4 }

/-- A layer entry is as R121 allows. -/
def layerOk (b : List Byte) : Bool :=
  let l := parseLayer b
  let dense : Bool := l.kind = 0 && l.routeMax = 0 && l.partBytes = 0 && l.src % 0x4000 = 0 && l.src < 2 ^ 40
  let expert : Bool := l.kind = 1 && l.reside = 2 && 1 ≤ l.routeMax && l.routeMax ≤ 8
  (dense || expert) && l.reside ≤ 3 && leAt b 3 1 = 0 && l.tileBytes % 64 = 0 && leAt b 24 8 = 0 && (l.reside = 3 || l.dstOff = 0)

/-- The header of a plan is as R120 allows, with its tables inside PLAN_BYTES. -/
def headerPlanOk (h : List Byte) : Bool :=
  let lc := leAt h 8 4
  let ec := leAt h 0xC 4
  let ids : Bool := leAt h 0 4 = 0x55504C4E && leAt h 4 2 = 1 && leAt h 6 2 = 0 && leAt h 0x2C 4 = 0 && leAt h 0x38 8 = 0
  let counts : Bool := 1 ≤ lc && lc ≤ 1048576 && ec ≤ 65535 && 1 ≤ leAt h 0x10 1 && leAt h 0x10 1 ≤ 64 && 2 ≤ leAt h 0x11 1 &&
    leAt h 0x11 1 ≤ 8 && leAt h 0x12 2 ≤ 64 && leAt h 0x1C 4 ≤ 65536
  let places : Bool := leAt h 0x14 4 % 64 = 0 && leAt h 0x18 4 % 64 = 0 && leAt h 0x20 4 + 32 * lc ≤ leAt h 0x28 4 &&
    leAt h 0x24 4 + 16 * ec ≤ leAt h 0x28 4
  ids && counts && places

/-- Memory that may hold a plan of partition `p`: commons quads, warm windows, software extents. -/
def State.planMemory (s : State) (p a n : Nat) : Bool :=
  (blocksOf 0x100000 a n).all (fun b =>
    let x := max a (b * 0x100000)
    match regionOf x with
    | .commons _ | .warm _ => s.granuleVerdict p false x == .ok
    | _ => false)

/-- A deep range lies in deep windows of partition `p` with read access. -/
def State.deepReadable (s : State) (p off n : Nat) : Bool :=
  (blocksOf 0x100000 (deepBase + off) n).all (fun b =>
    let x := max (deepBase + off) (b * 0x100000)
    match regionOf x with
    | .deep _ => s.granuleVerdict p false x == .ok
    | _ => false)

/-- The plan as its header and its tables' bytes give it. -/
def parsePlan (base : Nat) (h lt et : List Byte) : Plan :=
  { base := base, bytes := leAt h 0x28 4, gangTiles := leAt h 0x10 1, slots := leAt h 0x11 1, warmAhead := leAt h 0x12 2
    slotOff := leAt h 0x14 4, slotBytes := leAt h 0x18 4, cacheExtents := leAt h 0x1C 4, tileMask := leAt h 0x30 8
    layers := (List.range (leAt h 8 4)).map (fun k => parseLayer (sliceBytes lt (32 * k) 32))
    experts := (List.range (leAt h 0xC 4)).map (fun k => (leAt et (16 * k) 8, leAt et (16 * k + 8) 4)) }

/-- The tile-pinned ranges of a plan. -/
def Plan.pinnedRanges (x : Plan) : List (Nat × Nat) :=
  (x.layers.filter (fun l => l.reside == 3)).map (fun l => (l.dstOff, l.tileBytes))

/-- No two ranges of a list meet. -/
def apartRanges : List (Nat × Nat) → Bool
  | [] => true
  | r :: l => l.all (fun x => !rangesMeet r.1 r.2 x.1 x.2) && apartRanges l

/-- Code SCRATCH of R123. -/
def State.planScratchBad (s : State) (p : Nat) (x : Plan) : Bool :=
  let win := (x.slotOff, x.slots * x.slotBytes)
  let pins := x.pinnedRanges
  0x400000 < win.1 + win.2 || x.layers.any (fun l => l.kind == 0 && l.reside != 3 && x.slotBytes < l.tileBytes) ||
    x.layers.any (fun l => l.kind == 1 && x.slotBytes < l.routeMax * shareOf l.partBytes x.gangTiles) ||
    !apartRanges (win :: pins) || pins.any (fun r => 0x400000 < r.1 + r.2) || (!pins.isEmpty && x.tileMask = 0) ||
    (x.tileMask ≠ 0 && (popcount 64 x.tileMask ≠ x.gangTiles || !(bitsSet 64 x.tileMask).all (fun l => s.tileOwner l == some p)))

/-- The bytes that each gang needs of a DENSE layer. -/
def Plan.layerBytes (x : Plan) (l : PlanLayer) : Nat := x.gangTiles * l.tileBytes

/-- Extents for a number of bytes. -/
def extentsFor (n : Nat) : Nat := (n + 0x1FFFFF) / 0x200000

/-- The plan at an address, checked up to SCRATCH (R123): the code, or the plan. -/
def State.readPlan (s : State) (p base : Nat) : Nat × Plan :=
  let none : Plan := parsePlan base [] [] []
  if !s.planMemory p base 64 then (2, none)
  else if base % 64 ≠ 0 || !s.readable base 64 || !headerPlanOk (s.getBytes base 64) then (1, none)
  else
    let h := s.getBytes base 64
    let x := parsePlan base h (s.getBytes (base + leAt h 0x20 4) (32 * leAt h 8 4)) (s.getBytes (base + leAt h 0x24 4) (16 * leAt h 0xC 4))
    if !s.planMemory p base x.bytes then (2, none)
    else if !s.readable base x.bytes ||
        !(List.range (leAt h 8 4)).all (fun k => layerOk (s.getBytes (base + leAt h 0x20 4 + 32 * k) 32)) ||
        !(List.range (leAt h 0xC 4)).all (fun k =>
          let e := s.getBytes (base + leAt h 0x24 4 + 16 * k) 16
          leAt e 0 8 % 0x4000 = 0 && leAt e 0 8 < 2 ^ 40 && leAt e 8 4 % 64 = 0 && leAt e 12 4 = 0) then (1, none)
    else if !(x.layers.all (fun l => l.kind == 1 || s.deepReadable p l.src (x.layerBytes l)) &&
        x.experts.all (fun e => s.deepReadable p e.1 e.2)) then (2, none)
    else if s.planScratchBad p x then (3, none)
    else (0, x)

/-! ## Load and unload (R124, R125, R135, R136) -/

/-- STATE of a plan slot set. -/
def State.setPlanState (s : State) (n st : Nat) : State := s.wrF .UPD_PLAN_STATUS 31 30 st n

/-- A load or unload fails with a code: FAIL, ERR, the partition's Updraft interrupt and a record of class engine command.  FAIL and DONE
tell of the last load or unload (R136), so one clears the other. -/
def State.planFail (s : State) (n code : Nat) : State :=
  let s := (((s.setB .UPD_PLAN_STATUS 9 n).clrB .UPD_PLAN_STATUS 8 n).wrF .UPD_PLAN_STATUS 7 0 code n).pulse (.updraft (n / 8))
  s.record { cls := 0x05, part := n / 8, source := 0x2000, detail := code, context := n }

/-- A load or unload ends with OK: DONE, ERR 0 and the partition's Updraft interrupt. -/
def State.planDone (s : State) (n : Nat) : State :=
  (((s.setB .UPD_PLAN_STATUS 8 n).clrB .UPD_PLAN_STATUS 9 n).wrF .UPD_PLAN_STATUS 7 0 0 n).pulse (.updraft (n / 8))

/-- The extents of a plan slot. -/
def State.planExtents (s : State) (n : Nat) : List Nat :=
  (s.upool.extents.filter (fun x => x.2.holder == Holder.updraft n)).map Prod.fst

/-- A plan slot returns to EMPTY and its extents to the pool. -/
def State.clearPlan (s : State) (n : Nat) : State :=
  let s := (s.planExtents n).foldl State.releaseExtent s
  let s := { s with
    upd := { s.upd with plans := mapErase n s.upd.plans }
    upool := { s.upool with grants := s.upool.grants.filter (fun g => g.taker.holder != Holder.updraft n) } }
  (s.setPlanState n 0).clrB .UPD_PLAN_STATUS 28 n

/-- The counters of a plan slot cleared by LOAD (R124). -/
def State.clearCounters (s : State) (n : Nat) : State :=
  ((((s.wr .UPD_PLAN_STALLS 0 n).wr .UPD_PLAN_STALL_US 0 n).wr .UPD_PLAN_STALL_MAX 0 n).wr .UPD_PLAN_HITS 0 n).wr .UPD_PLAN_MISSES 0 n

/-- A write of LOAD (R123, R124, R136). -/
def execPlanLoad (a : Agent) (n : Nat) (s : State) : Host.Outcome State Fault Refusal :=
  .next <|
    if s.accessFenced a (some 0) then s.respErr
    else if s.agentPart a ≠ n / 8 || 64 ≤ n then s.denied a (0x781008 + n * 0x40)
    else
      let s := s.respOk
      if s.fld .UPD_PLAN_STATUS 31 30 n ≠ 0 then s.planFail n 6
      else
        let s := s.clearCounters n
        match s.readPlan (n / 8) (s.rd .UPD_PLAN_BASE_LO n + 2 ^ 32 * s.fld .UPD_PLAN_BASE_HI 15 0 n) with
        | (0, x) =>
          let k := extentsFor (((x.layers.filter (fun l => l.reside == 1)).map x.layerBytes).sum)
          (match s.takeExtents (n / 8) (.updraft n) true k with
          | none => s.planFail n 4
          | some (l, s) => (s.setPlan n { plan := x, pinned := l }).setPlanState n 1)
        | (c, _) => s.planFail n c

/-- The part of extent `k` of a plan's concatenated extents that the bytes from `off` to `fin` take: its warm address, from where, how
many. -/
def extPart (l : List Nat) (off fin k : Nat) : Nat × Nat × Nat :=
  let lo := max off (k * 0x200000)
  (warmBase + l.getD k 0 * 0x200000 + lo % 0x200000, lo - off, min fin ((k + 1) * 0x200000) - lo)

/-- Bytes written into extents from an offset of their concatenation. -/
def State.fillExtents (s : State) (n : Nat) (l : List Nat) (off : Nat) (d : List Byte) : State :=
  (List.range (extentsFor (off + d.length))).foldl (fun s k =>
    let x := extPart l off (off + d.length) k
    if x.2.2 = 0 then s else (s.engineWrite (updAgent n) x.1 ((d.drop x.2.1).take x.2.2)).2) s

/-- Bytes read from extents, whose ages clear (R91); none, with its record, where a word is uncorrectable. -/
def State.readExtents (s : State) (n : Nat) (l : List Nat) (off len : Nat) : Option (List Byte) × State :=
  (List.range (extentsFor (off + len))).foldl (fun (acc : Option (List Byte) × State) k =>
    let x := extPart l off (off + len) k
    match acc with
    | (none, s) => (none, s)
    | (some d, s) =>
      if x.2.2 = 0 then (some d, s)
      else match s.engineRead (updAgent n) x.1 x.2.2 with
        | (some b, s) => (some (d ++ b), s.touchExtent (l.getD k 0))
        | (none, s) => (none, s)) (some [], s)

/-- The deep bytes of a plan. -/
def State.readDeep (s : State) (n off len : Nat) : Option (List Byte) × State := s.engineRead (updAgent n) (deepBase + off) len

/-- The warm-pinned layers copied into their extents, packed in layer order; none where a deep read fails. -/
def State.loadPinned (s : State) (n : Nat) (x : Plan) (l : List Nat) : Nat → List PlanLayer → Bool × State
  | _, [] => (true, s)
  | off, y :: r =>
    if y.reside ≠ 1 then s.loadPinned n x l off r
    else match s.readDeep n y.src (x.layerBytes y) with
      | (none, s) => (false, s)
      | (some d, s) => (s.fillExtents n l off d).loadPinned n x l (off + x.layerBytes y) r

/-- The tile-pinned layers copied to gang positions `pos` of TILE_MASK. -/
def State.loadTilePinned (s : State) (n : Nat) (x : Plan) (pos : List Nat) : List PlanLayer → Bool × State
  | [] => (true, s)
  | y :: r =>
    if y.reside ≠ 3 then s.loadTilePinned n x pos r
    else
      let one := pos.foldl (fun (acc : Bool × State) i =>
        if !acc.1 then acc
        else match acc.2.readDeep n (y.src + i * y.tileBytes) y.tileBytes with
          | (none, s) => (false, s)
          | (some d, s) => (true, s.store (tileBase ((bitsSet 64 x.tileMask).getD i 0) + y.dstOff) d)) (true, s)
      if one.1 then one.2.loadTilePinned n x pos r else one

/-- The quads of a plan's tile-pinned ranges that sleep. -/
def State.pinsAsleep (s : State) (x : Plan) : List QuadRef :=
  (bitsSet 64 x.tileMask).flatMap (fun l => x.pinnedRanges.flatMap (fun r => s.sleepingQuads (tileBase l + r.1) r.2))

/-- The resident layers have arrived (R124): READY with DONE, or the load fails with MEDIA.  Quads of its tiles that sleep wake first
(R84). -/
def execPlanLoadDone (n : Nat) (s : State) : Host.Outcome State Fault Refusal :=
  .next <|
    match s.plan? n with
    | none => s
    | some x =>
      if x.ready || s.fencedEngine 0 (n / 8) then s
      else if !(s.pinsAsleep x.plan).isEmpty then s.wakeAll (s.pinsAsleep x.plan)
      else match s.loadPinned n x.plan x.pinned 0 x.plan.layers with
        | (false, s) => (s.clearPlan n).planFail n 5
        | (true, s) =>
          match s.loadTilePinned n x.plan (List.range x.plan.gangTiles) x.plan.layers with
          | (false, s) => (s.clearPlan n).planFail n 5
          | (true, s) => ((s.setPlan n { x with ready := true }).setPlanState n 2).planDone n

/-- A write of UNLOAD (R125, R134, R135). -/
def execPlanUnload (a : Agent) (n : Nat) (s : State) : Host.Outcome State Fault Refusal :=
  .next <|
    if s.accessFenced a (some 0) then s.respErr
    else if s.agentPart a ≠ n / 8 || 64 ≤ n then s.denied a (0x781008 + n * 0x40)
    else
      let s := s.respOk
      match s.plan? n with
      | none => s.planDone n
      | some x =>
        if !x.ready then (s.clearPlan n).planFail n 7
        else if s.bit .UPD_PLAN_STATUS 29 n then s.planFail n 6
        else (s.clearPlan n).planDone n

/-! ## Layers on their way (R119, R121, R129, R133) -/

/-- A layer of a plan. -/
def Plan.layer (x : Plan) (l : Nat) : PlanLayer := x.layers.getD l ⟨0, 0, 0, 0, 0, 0, 0⟩

/-- The number of layers. -/
def Plan.count (x : Plan) : Nat := max 1 x.layers.length

/-- The age of a cached expert. -/
def State.expertAge (s : State) (e : Nat × List Nat) : Nat := (e.2.map (fun k => ((alGet s.upool.extents k).map Extent.age).getD 0)).foldl max 0

/-- Layer `l` stands between a position's gate and WARM_AHEAD layers beyond it: Updraft keeps it staged (R129). -/
def PlanState.staged (x : PlanState) (l : Nat) : Bool :=
  x.gates.any (fun g => (l + x.plan.count - g.2.gate.getD g.2.expected) % x.plan.count ≤ x.plan.warmAhead)

/-- What a plan frees when it holds CACHE_EXTENTS: its cached expert of highest age (R133); with none, the cached DENSE layer of
highest age that lies outside the layers to keep staged. -/
def State.freeable (s : State) (x : PlanState) : Option (List Nat × PlanState) :=
  match minBy (fun e => 255 - s.expertAge e) x.experts with
  | some e => some (e.2, { x with experts := x.experts.filter (fun y => y.1 != e.1) })
  | none =>
    (minBy (fun e => 255 - s.expertAge e) (x.layers.filter (fun y => !x.staged y.1))).map
      (fun e => (e.2, { x with layers := x.layers.filter (fun y => y.1 != e.1) }))

/-- Room made for `k` extents under CACHE_EXTENTS. -/
def State.makeRoom (s : State) (n k : Nat) : Nat → State
  | 0 => s
  | f + 1 =>
    match s.plan? n with
    | none => s
    | some x =>
      if s.cacheUsed n + k ≤ x.plan.cacheExtents then s
      else match s.freeable x with
        | none => s
        | some y => ((y.1.foldl State.releaseExtent s).setPlan n y.2).makeRoom n k f

/-- `k` unpinned extents for a plan: those granted before, then new ones; none where CACHE_EXTENTS or R92 refuses. -/
def State.cacheExtents (s : State) (n k : Nat) : Option (List Nat) × State :=
  match s.plan? n with
  | none => (none, s)
  | some x =>
    if x.plan.cacheExtents < k then (none, s)
    else
      let have_ := x.spare.take k
      let s := s.makeRoom n (k - have_.length) (x.experts.length + x.layers.length)
      if x.plan.cacheExtents < s.cacheUsed n + (k - have_.length) then (none, s)
      else match s.takeExtents (n / 8) (.updraft n) false (k - have_.length) with
        | none => (none, s)
        | some (l, s) => match s.plan? n with
          | none => (none, s)
          | some y => (some (have_ ++ l), s.setPlan n { y with spare := y.spare.filter (fun e => !have_.contains e) })

/-- Layer `l` is a warm-cached DENSE layer that the warm tier does not hold. -/
def Plan.toStage (x : Plan) (held : List (Nat × List Nat)) (l : Nat) : Bool :=
  (x.layer l).kind == 0 && (x.layer l).reside == 2 && (alGet held l).isNone

/-- A warm-cached DENSE layer staged into the warm tier if it is missing there (R119, R129), and whether no deep read of it failed
(R134); an extent that is refused leaves it missing. -/
def State.stageLayer (s : State) (n l : Nat) : Bool × State :=
  match s.plan? n with
  | none => (true, s)
  | some x =>
    let y := x.plan.layer l
    if !x.plan.toStage x.layers l then (true, s)
    else match s.readDeep n y.src (x.plan.layerBytes y) with
      | (none, s) => (false, s)
      | (some d, s) => match s.cacheExtents n (extentsFor d.length) with
        | (none, s) => (true, s)
        | (some e, s) => match s.plan? n with
          | none => (true, s)
          | some z => (true, (s.fillExtents n e 0 d).setPlan n { z with layers := alSet z.layers l e })

/-- What a fetch of a tile's share finds: the bytes with their offsets in the slot, nothing yet, or a read that failed. -/
inductive Fetch where
  | landed (parts : List (Nat × List Byte))
  | later
  | failed
  deriving DecidableEq, Repr

/-- One read of a share. -/
def Fetch.ofRead (off : Nat) : Option (List Byte) → Fetch
  | some b => .landed [(off, b)]
  | none => .failed

/-- What a read of a share's bytes has given, with the state after it. -/
def Fetch.reply (r : Option (List Byte) × State) : Fetch × State := (.ofRead 0 r.1, r.2)

/-- The share of gang tile `i` of a DENSE layer, read where the layer lives (R119). -/
def State.denseShare (s : State) (n i l : Nat) (x : PlanState) : Fetch × State :=
  let y := x.plan.layer l
  match y.reside with
  | 1 =>
    let before := (((x.plan.layers.take l).filter (fun z => z.reside == 1)).map x.plan.layerBytes).sum
    Fetch.reply (s.readExtents n x.pinned (before + i * y.tileBytes) y.tileBytes)
  | 2 =>
    (match s.stageLayer n l with
    | (false, s) => (.failed, s)
    | (true, s) => match (s.plan? n).bind (fun z => alGet z.layers l) with
      | some e => Fetch.reply (s.readExtents n e (i * y.tileBytes) y.tileBytes)
      | none => (.later, s))
  | _ =>
    Fetch.reply (s.readDeep n (y.src + i * y.tileBytes) y.tileBytes)

/-- The used entries of a route word (R128). -/
def usedRoute (l : List Nat) : List Nat := l.takeWhile (fun x => x != 0xFFFF)

/-- Bytes `off` to `off + len` of an expert, from the warm tier while it is cached, else from the deep tier (R119, R133). -/
def State.readExpert (s : State) (n : Nat) (x : PlanState) (e off len : Nat) : Option (List Byte) × State :=
  match alGet x.experts e with
  | some ex => s.readExtents n ex off len
  | none => s.readDeep n ((x.plan.experts.getD e (0, 0)).1 + off) len

/-- The shares of gang tile `i` of an EXPERT layer, by route position (R121). -/
def State.expertShares (s : State) (n i l : Nat) (x : PlanState) : List (Nat × Nat) → Fetch × State
  | [] => (.landed [], s)
  | (r, e) :: rest =>
    let y := x.plan.layer l
    let sh := shareOf y.partBytes x.plan.gangTiles
    let off := y.src + i * sh
    let len := min sh (y.src + y.partBytes - off)
    match s.readExpert n x e off len with
    | (none, s) => (.failed, s)
    | (some b, s) => match s.expertShares n i l x rest with
      | (.landed t, s) => (.landed ((r * sh, b) :: t), s)
      | f => f

/-- The gate record of a gang position. -/
def PlanState.gateOf (x : PlanState) (i : Nat) : GateState := (alGet x.gates i).getD {}

/-- A gate record changed. -/
def State.setGate (s : State) (n i : Nat) (f : GateState → GateState) : State :=
  match s.plan? n with
  | none => s
  | some x => s.setPlan n { x with gates := alSet x.gates i (f (x.gateOf i)) }

/-- A route announced for layer `r` holds for `l` (R128): every layer from `r` up to `l` is an EXPERT layer. -/
def Plan.covers (x : Plan) (r l : Nat) : Bool :=
  (List.range ((l + x.count - r) % x.count + 1)).all (fun d => (x.layer ((r + d) % x.count)).kind == 1)

/-- The route of a gang position for layer `l`: of those that hold for it, the one announced last. -/
def PlanState.routeOf (x : PlanState) (i l : Nat) : Option (List Nat) :=
  (((x.gateOf i).routes.find? (fun r => x.plan.covers r.1 l))).map Prod.snd

/-- The gate of layer `l` has passed: the next one is expected, and a route that held for the layer before and does not hold for `l` is done. -/
def GateState.passed (g : GateState) (x : Plan) (l : Nat) : GateState :=
  { g with gate := none, expected := (l + 1) % x.count
           routes := g.routes.filter (fun r => !x.covers r.1 ((l + x.count - 1) % x.count) || x.covers r.1 l) }

/-! ## Gates (R126 to R131) -/

/-- LAYER of a GATE. -/
def gateLayer (w : List Nat) : Nat := wfld w 2 19 0

/-- The reserved fields of a GATE (R126). -/
def gateFieldsOk (w : List Nat) : Bool :=
  wfld w 2 30 20 = 0 && (List.range 11).all (fun k => wordAt w (5 + k) = 0) &&
    (if wfld w 2 31 31 = 1 then wfld w 3 31 22 = 0 && wfld w 3 5 0 = 0 && wordAt w 4 = 0 else wordAt w 3 = 0 && wfld w 4 31 16 = 0)

/-- The plan slot and plan of a job. -/
def State.planOfJob (s : State) (j : Nat) : Option (Nat × PlanState) :=
  (s.jobPlan j).bind (fun n => (s.plan? n).map (fun x => (n, x)))

/-- The GATE in progress on a tile that waits: its job and command. -/
def State.gateCmd (s : State) (t : Nat) : Option (Nat × RunCmd) :=
  match (s.run t).ctx, (s.run t).running.find? (fun c => !c.done && opcodeOf c.words == 7) with
  | some j, some c => some (j, c)
  | _, _ => none

/-- A waiting gate passes (R127): its stall ends, and the tile expects the next layer. -/
def State.passGate (s : State) (t n i l slot : Nat) : State :=
  let s := s.endStall n i
  match s.plan? n with
  | some x => (s.setGate n i (fun g => g.passed x.plan l)).finish t slot 0
  | none => s.finish t slot 0

/-- The slot range of a layer. -/
def Plan.slotRange (x : Plan) (l : Nat) : Nat × Nat := (x.slotOff + l % x.slots * x.slotBytes, x.slotBytes)

/-- The check of a waiting GATE (R128, R134). -/
def State.gateCheck (s : State) (t : Nat) (c : NextCmd) : Nat :=
  match s.planOfJob c.job with
  | none => 1
  | some (_, x) =>
    let l := gateLayer c.words
    if !gateFieldsOk c.words || x.plan.layers.length ≤ l || ((x.plan.layer l).kind = 1 && (x.routeOf c.pos l).isNone) then 1
    else if (x.plan.layer l).reside ≠ 3 && !s.rangeOk (s.jobOwner c.job) (s.logicalOfRun t) (x.plan.slotRange l) then 2
    else 0

/-- The tile at gang position `i` of a job. -/
def State.gangTile (s : State) (j i : Nat) : Option Nat := ((s.gangTiles j)[i]?).bind s.physOf

/-- The tiles of a job whose waiting GATE a condition picks, each with its command. -/
def State.waitingGates (s : State) (x : PlanState) (j : Nat) (hit : GateState → Bool) : List (Nat × RunCmd) :=
  (x.gates.filter (fun g => g.2.gate.isSome && hit g.2)).filterMap (fun g =>
    (s.gangTile j g.1).bind (fun t => match s.gateCmd t with
      | some (k, c) => if k = j then some (t, c) else none
      | none => none))

/-- The GATE commands `l` of a job end with MEM_ERROR, and the job's other commands stop (R71, R134). -/
def State.endGates (s : State) (j : Nat) (l : List (Nat × RunCmd)) : State :=
  match l with
  | [] => s
  | g :: r =>
    let s := (g :: r).foldl (fun s g => s.endCommand g.1 g.2.words g.2.slot 4) s
    s.stopJob j 4 (tagOf g.2.words) ((r.map (fun g => g.2.started)).foldl min g.2.started)

/-- Every GATE of a plan that waits for a layer in a set ends with MEM_ERROR (R134), each with its own report; the job stops once. -/
def State.failGates (s : State) (n j : Nat) (hit : GateState → Bool) : State :=
  match s.plan? n with
  | none => s
  | some x => s.endGates j (s.waitingGates x j hit)

/-- A waiting GATE (R126 to R130): after every earlier command it releases the slot of the tile's previous gate; it passes
if its layer is complete, else it stalls.  The warm-cached DENSE layers ahead are staged (R129). -/
def execGateWait (t : Nat) (s : State) : Host.Outcome State Fault Refusal :=
  .next <|
    match s.nextCmd t with
    | none => s
    | some c0 =>
      if wfld c0.words 2 31 31 = 1 then s
      else match s.startCmd t 7 true (s.gateCheck t) (fun _ => {}) with
        | none => s
        | some (c, s) =>
          if (s.run t).stopped then s
          else match s.planOfJob c.job with
            | none => s
            | some (n, x) =>
              let l := gateLayer c.words
              let cnt := x.plan.count
              let s := s.setGate n c.pos (fun g =>
                if g.expected = l then { g with filled := g.filled.filter (fun y => y != (l + cnt - 1) % cnt), gate := some l, since := s.now }
                else { g with filled := [], expected := l, gate := some l, since := s.now })
              let s := (List.range x.plan.warmAhead).foldl (fun s d =>
                match s.stageLayer n ((l + d + 1) % cnt) with
                | (true, s) => s
                | (false, s) => s.failGates n c.job (fun g => g.gate = some ((l + d + 1) % cnt))) s
              let done : Bool := (x.plan.layer l).reside = 3 || (match s.plan? n with | some y => (y.gateOf c.pos).filled.contains l | none => false)
              if done then s.passGate t n c.pos l c.slot
              else
                let s := s.setGate n c.pos (fun g => { g with stalled := true })
                (s.bump .UPD_PLAN_STALLS n).setB .UPD_PLAN_STATUS 28 n

/-- An announcing GATE (R128, R133): the route word is copied, once the quad it lies in is awake (R84); each used expert counts as a hit
or a miss. -/
def execGateAnnounce (t : Nat) (s : State) : Host.Outcome State Fault Refusal :=
  .next <|
    match s.nextCmd t with
    | none => s
    | some c0 =>
      let asleep := s.sleepingQuads (tileBase (s.logicalOfRun t) + offAt c0.words 3) 64
      if wfld c0.words 2 31 31 = 0 || opcodeOf c0.words ≠ 7 then s
      else if !asleep.isEmpty && s.rangeOk (s.jobOwner c0.job) (s.logicalOfRun t) (offAt c0.words 3, 64) then s.wakeAll asleep
      else
        let check (c : NextCmd) : Nat :=
          match s.planOfJob c.job with
          | none => 1
          | some (_, x) =>
            if !gateFieldsOk c.words || x.plan.layers.length ≤ gateLayer c.words || (x.plan.layer (gateLayer c.words)).kind = 0 then 1
            else if s.rangeOk (s.jobOwner c.job) (s.logicalOfRun t) (offAt c.words 3, 64) then 0 else 2
        match s.startCmd t 7 false check (s.tileRanges t) with
        | none => s
        | some (c, s) =>
          if (s.run t).stopped then s
          else match s.planOfJob c.job with
            | none => s
            | some (n, x) =>
              let l := gateLayer c.words
              let a := tileBase (s.logicalOfRun t) + offAt c.words 3
              if !s.readable a 64 then (s.uncorrectable (s.tileAgent t c.job) a).failCommand t c.words c.slot 4
              else
                let all := (List.range 8).map (fun k => s.getNum (a + 2 * k) 2)
                let r := usedRoute all
                if r.any (fun e => x.plan.experts.length ≤ e) || (x.plan.layer l).routeMax < r.length ||
                    (all.drop r.length).any (fun e => e != 0xFFFF) then s.failCommand t c.words c.slot 1
                else
                  let s := r.foldl (fun s e => match alGet x.experts e with
                    | some ex => (ex.foldl State.touchExtent s).bump .UPD_PLAN_HITS n
                    | none => s.bump .UPD_PLAN_MISSES n) s
                  let s := s.setGate n c.pos (fun g => { g with routes := (l, r) :: g.routes.filter (fun y => y.1 != l) })
                  s.finish t c.slot 0

/-- Updraft may fill layer `l` for a gang position now (R127): it is the gated layer, or one of those after it that the slots still
hold, and no layer that is in a slot or comes before it takes the same slot. -/
def PlanState.window (x : PlanState) (i l : Nat) : Bool :=
  let g := x.gateOf i
  let c := x.plan.count
  let base := g.gate.getD g.expected
  let d := (l + c - base) % c
  let first := g.filled ++ (List.range d).map (fun e => (base + e) % c)
  (alGet x.gates i).isSome && (x.plan.layer l).reside != 3 && !g.filled.contains l &&
    d < (if g.gate.isSome then x.plan.slots else x.plan.slots - 1) && l < c &&
    first.all (fun m => m % x.plan.slots != l % x.plan.slots || (x.plan.layer m).reside == 3)

/-- Job `j` is at work on a tile: the tile is bound to it and its queues have not stopped. -/
def State.worksOn (s : State) (j t : Nat) : Bool :=
  (s.jobState j = ctxRunning || s.jobState j = ctxParked) &&
    ((s.run t).ctx == some j || ((s.run t).parked.map Prod.fst) == some j)

/-- The share of gang tile `i` of layer `l` lands in its slot (R121, R127), once the quads of the slot are awake (R84): a gate that waits
for it passes.  A read that fails ends the gates that wait for the layer; a slot in a quad the partition no longer holds ends the GATE with
BOUNDS (R134). -/
def execLayerComplete (n i l : Nat) (s : State) : Host.Outcome State Fault Refusal :=
  .next <|
    match s.plan? n with
    | none => s
    | some x =>
      let j := s.fld .UPD_PLAN_JOB 9 0 n
      let y := x.plan.layer l
      if !x.ready || s.fencedEngine 0 (n / 8) || !s.bit .UPD_PLAN_STATUS 29 n || !x.window i l || (y.kind = 1 && (x.routeOf i l).isNone) then s
      else match (s.gangTiles j)[i]?, s.gangTile j i with
        | some lt, some t =>
          let waits : Bool := (x.gateOf i).gate = some l
          let sr := x.plan.slotRange l
          let asleep := s.sleepingQuads (tileBase lt + sr.1) sr.2
          if !s.worksOn j t then s
          else if !s.rangeOk (s.jobOwner j) lt sr then
            (match s.gateCmd t with
            | some (_, c) => if waits then s.failCommand t c.words c.slot 2 else s
            | none => s)
          else if !asleep.isEmpty then s.wakeAll asleep
          else
            let got := if y.kind = 1 then
                s.expertShares n i l x (((x.routeOf i l).getD []).zipIdx.map (fun z => (z.2, z.1)))
              else s.denseShare n i l x
            (match got with
            | (.failed, s) => s.failGates n j (fun g => g.gate = some l)
            | (.later, s) => s
            | (.landed ws, s) =>
              let s := ws.foldl (fun s z => s.store (tileBase lt + sr.1 + z.1) z.2) s
              let s := s.setGate n i (fun g => { g with filled := l :: g.filled })
              if waits then
                match s.gateCmd t with
                | some (_, c) => s.passGate t n i l c.slot
                | none => s
              else s)
        | _, _ => s

/-- A missed expert has arrived whole (R133): it is cached, or streamed uncached where no extent is granted; a read that
fails ends the gates that wait for it (R134). -/
def execExpertFetchDone (n e : Nat) (s : State) : Host.Outcome State Fault Refusal :=
  .next <|
    match s.plan? n with
    | none => s
    | some x =>
      let wanted := x.gates.any (fun g => g.2.routes.any (fun r => r.2.contains e))
      if !x.ready || s.fencedEngine 0 (n / 8) || x.plan.experts.length ≤ e || (alGet x.experts e).isSome || !wanted then s
      else match s.readDeep n (x.plan.experts.getD e (0, 0)).1 (x.plan.experts.getD e (0, 0)).2 with
        | (none, s) => s.failGates n (s.fld .UPD_PLAN_JOB 9 0 n) (fun g =>
            match g.gate with
            | some l => (x.plan.layer l).kind == 1 && (g.routes.find? (fun r => x.plan.covers r.1 l)).any (fun r => r.2.contains e)
            | none => false)
        | (some d, s) => match s.cacheExtents n (extentsFor d.length) with
          | (none, s) => s
          | (some ex, s) => match s.plan? n with
            | none => s
            | some z => (s.fillExtents n ex 0 d).setPlan n { z with experts := alSet z.experts e ex }

/-- A stall passes UPD_STALL_LIMIT (R131): the job is marked STREAM_STALL and is to be preempted; a GATE directly after a CHEAP ends with STREAM_STALL
and runs again when the job resumes. -/
def execStallLimit (t : Nat) (s : State) : Host.Outcome State Fault Refusal :=
  .next <|
    match s.gateCmd t with
    | none => s
    | some (j, c) =>
      let i := (s.run t).pos
      let stalls := match s.planOfJob j with | some (_, x) => (x.gateOf i).stalled | none => false
      if !stalls then s
      else
        let s := (s.setJob j { s.job j with displaced := true }).wrF .SCH_CTX 23 16 8 j 1
        if !(s.gangPos j i).atCheap then s
        else
          let s := s.dropGate j i
          let s := s.loadTileErr t 8 (tagOf c.words)
          let s := s.record { cls := 0x05, part := s.jobOwner j, source := t, detail := 8, context := j, tag := tagOf c.words }
          let s := if s.bit .TILE_IRQ_EN 1 t then s.pulse (.tileErr t) else s
          let s := s.setGangPos j i (fun g => { g with next := c.slot })
          s.updRun t (fun r => { r with stopped := true, running := r.running.filter (fun d => d.slot != c.slot || d.done) })

/-- A GATE's TIMEOUT (R126, R131). -/
def execGateTimeout (t : Nat) (s : State) : Host.Outcome State Fault Refusal :=
  .next <|
    match s.gateCmd t with
    | some (_, c) => if wfld c.words 4 15 0 = 0 then s else s.failCommand t c.words c.slot 6
    | none => s

end Sys2Proof.Machine
end

