-- ==== Sys2Proof/Machine/Search.lean ====
section
/-!
DEFINITION. The global search of Veer (R248): the least cost from a cell of a map to its goal, and a path of that cost.  A step costs its
length times (1 + c / 64) for the cost c of the cell it enters.  DEDUCED (log entry 103): a cell at or above LETHAL_THR is not entered.
-/

namespace Sys2Proof.Machine

/-- A map to search: its width and height in cells, the cost of a cell, the threshold that bars one, the goal's cells. -/
structure SearchMap where
  width : Nat
  height : Nat
  cost : List (Nat × Nat)
  lethal : Nat
  goal : List Nat
  deriving DecidableEq, Repr

/-- The steps of the search, as row and column: to the 4 cells beside a cell, or also to the 4 at its corners. -/
def searchSteps : List (Int × Int) :=
  [(0, 1), (1, 0), (0, -1), (-1, 0)] ++ (if Config.searchCorners = 0 then [] else [(1, 1), (1, -1), (-1, 1), (-1, -1)])

/-- The cells that a step from a cell enters, each with the cost of the step in cells, in units of 2^-512 / 64. -/
def SearchMap.next (m : SearchMap) (c : Nat) : List (Nat × Nat) :=
  searchSteps.filterMap (fun d =>
    let i : Int := ((c / m.width : Nat) : Int) + d.1
    let j : Int := ((c % m.width : Nat) : Int) + d.2
    let q := i.toNat * m.width + j.toNat
    let v := (alGet m.cost q).getD 0
    if 0 ≤ i && i < m.height && 0 ≤ j && j < m.width && v < m.lethal then
      some (q, (lengthFixed (d.1 * oneFixed) (d.2 * oneFixed)).toNat * (64 + v))
    else none)

/-- The least cost of a path of at most so many steps from a cell to the goal; none without a path. -/
def SearchMap.least (m : SearchMap) : Nat → Nat → Option Nat
  | 0, c => if m.goal.contains c then some 0 else none
  | k + 1, c =>
    if m.goal.contains c then some 0
    else (minBy (fun x => x) ((m.next c).filterMap (fun q => (m.least k q.1).map (fun v => v + q.2))))

/-- A path of least cost from a cell: which one among several, the manual leaves open. -/
def SearchMap.path (m : SearchMap) : Nat → Nat → List Nat
  | 0, c => if m.goal.contains c then [c] else []
  | k + 1, c =>
    if m.goal.contains c then [c]
    else match m.least (k + 1) c with
      | none => []
      | some v =>
        let best := ((m.next c).filter (fun q => (m.least k q.1).map (fun u => u + q.2) == some v)).map Prod.fst
        match best[Config.pathChoice c % max 1 best.length]? with
        | some q => c :: m.path k q
        | none => []

end Sys2Proof.Machine
end

