-- ==== Sys2Proof/Machine/VeerQueries.lean ====
section
/-!
DEFINITION. Veer's queries (R244, R246, R247), its searches (R248, R249), the output gate (R250 to R253) and its
resets (R255).
-/

namespace Sys2Proof.Machine

/-! ## The query ring (R247) -/

/-- The address of a query entry. -/
def State.veerEntry (s : State) (k : Nat) : Nat := s.rd64 .VEER_Q_BASE_LO + 64 * k

/-- A query completes: DONE and RESULT go into its entry, and a result from 0x04 is recorded. -/
def State.veerDone (s : State) (p : Nat) (q : VeerQuery) (code : Nat) : State :=
  let (_, s) := s.put (.engine 7 p) (s.veerEntry q.slot + 0x3C) (bytesLE 4 (0x80000000 + code))
  s.veerRecord p code

/-- ADDR of a query. -/
def VeerQuery.addr (q : VeerQuery) : Nat := q.words.getD 2 0 + 2 ^ 32 * q.words.getD 3 0
/-- ARG of a query. -/
def VeerQuery.arg (q : VeerQuery) : Nat := q.words.getD 1 0
/-- KIND of a query. -/
def VeerQuery.kind (q : VeerQuery) : Nat := bitsOf (q.words.getD 0 0) 7 0

/-- A query whose kind, reserved fields or address R247 does not allow. -/
def VeerQuery.bad (q : VeerQuery) : Bool :=
  q.kind = 0 || 7 < q.kind || bitsOf (q.words.getD 0 0) 15 8 ≠ 0 || (List.range 6).any (fun k => q.words.getD (9 + k) 0 ≠ 0) ||
  q.addr % 512 ≠ 0 || 2 ^ 48 ≤ q.addr

/-- The query at HEAD, if the ring runs and holds one, and the state that reading it leaves. -/
def State.veerFront (s : State) : Option (Nat × VeerQuery × State) :=
  match s.veerOwner with
  | none => none
  | some p =>
    let h := s.fld .VEER_Q_HEAD 7 0
    if !s.bit .VEER_Q_CTRL 31 || h = s.fld .VEER_Q_TAIL 7 0 then none
    else
      let r := s.fetch (.engine 7 p) (s.veerEntry h) 64
      let w := match r.1 with
        | some d => (List.range 16).map (fun k => leAt d (4 * k) 4)
        | none => []
      some (p, { slot := h, id := bitsOf (w.getD 0 0) 31 16, words := w }, r.2)

/-- Veer takes the query at HEAD. -/
def State.veerAdvance (s : State) : State :=
  s.wrF .VEER_Q_HEAD 7 0 ((s.fld .VEER_Q_HEAD 7 0 + 1) % max 1 (s.fld .VEER_Q_CTRL 7 0))

/-- Veer takes the query at HEAD if it is of kind `k`, with its effect; one of a reserved kind, with a bad field, or that cannot be read,
ends with BAD_REQ. -/
def State.veerTake (s : State) (k : Nat) (f : State → Nat → VeerQuery → State) : State :=
  match s.veerFront with
  | none => s
  | some (p, q, t) =>
    if q.bad && (q.kind = k || q.kind = 0 || 7 < q.kind) then t.veerAdvance.veerDone p q 9
    else if q.kind ≠ k then s
    else f t.veerAdvance p q

/-- The start configuration of a search: the robot's pose now, and the joint values of the last trajectory. -/
def State.startConfig (s : State) : List Nat × List Nat :=
  (s.poseNear s.robotNow,
   match s.veer.last.bind (fun t => t.points.head?) with
   | some pt => pt.joints
   | none => (List.range 32).map Config.startJoints)

/-- The world cell nearest to a coordinate (R242); none for no number. -/
def worldIndex (w : Nat) : Option Int := (fixedOf32 w).map (fun v => quotEven (20 * v) oneFixed)

/-- The row and the column of the world cell of a goal, if it lies on the world map (R242, R249). -/
def State.goalCell (s : State) (q : VeerQuery) : Option (Nat × Nat) :=
  match worldIndex (q.words.getD 5 0), worldIndex (q.words.getD 4 0) with
  | some i, some j =>
    if 0 ≤ i && i < s.fld .VEER_WORLD_SIZE 15 0 && 0 ≤ j && j < s.fld .VEER_WORLD_SIZE 31 16 then some (i.toNat, j.toNat) else none
  | _, _ => none

/-- What stops a search before it starts (R249): 6 START_BLOCKED, 8 OUT_OF_MAP, 7 GOAL_BLOCKED. -/
def State.blocked (s : State) (e : MapEpoch) (q : VeerQuery) : Option Nat :=
  let c := s.startConfig
  if !e.passes s.lethal c.1 (joints16 c.2) then some 6
  else if (s.goalCell q).isNone then some 8
  else if !e.passes s.lethal [q.words.getD 4 0, q.words.getD 5 0, q.words.getD 6 0] (joints16 c.2) then some 7
  else none

/-- A trajectory advanced to a robot time (R250): by whole points where the time is a multiple of 20 ms and points are left; else a point is
free. -/
def Trajectory.advance (t : Trajectory) (now : Nat) : Trajectory :=
  if t.t0 = now then t
  else
    let w := t.points.map (fun pt => pt.base ++ pt.joints)
    let n := (now - t.t0) / 20000000
    let even : Bool := t.t0 ≤ now && (now - t.t0) % 20000000 = 0
    { t0 := now
      points := (List.range (max 50 (t.points.length - n))).map (fun k =>
        match (if even then t.points[n + k]? else none) with
        | some pt => pt
        | none =>
          { base := (List.range 5).map (Config.advancedPoint w (now - t.t0) k)
            joints := (List.range 32).map (fun i => Config.advancedPoint w (now - t.t0) k (5 + i)) }) }

/-- A search without a path keeps the previous plan only if it still passes against the newest epoch (R249). -/
def State.keepPlan (s : State) : State :=
  let ok : Bool := match s.veer.last, s.veer.epoch with
    | some t, some e => s.validTraj e (t.advance s.robotNow)
    | _, _ => false
  if ok then s else { s with veer := { s.veer with stopNext := true } }

/-- The goal's query completes at its first global search (R247). -/
def State.goalDone (s : State) (p code : Nat) : State :=
  if s.veer.goalWaits then
    match s.veer.goal with
    | some q => ({ s with veer := { s.veer with goalWaits := false } }).veerDone p q code
    | none => s
  else s

/-- The global search ends. -/
def State.globalEnds (s : State) (p code : Nat) : State :=
  let s := { s with veer := { s.veer with globalRun := none } }
  let s := (s.stageResult p .globalSearch code).goalDone p code
  if code = 0 then s else s.keepPlan

/-- The global search starts on the newest epoch, unless the start or the goal is blocked. -/
def State.globalStart (s : State) (p : Nat) : State :=
  match s.veer.goal, s.veer.epoch with
  | some q, some e =>
    match s.blocked e q with
    | some code => s.globalEnds p code
    | none => { s with veer := { s.veer with globalRun := some e } }
  | _, _ => s

/-- GOAL (R247, R255): it replaces the goal; a search in progress ends with ABORTED and a new one starts at once. -/
def execGoal (s : State) : Host.Outcome State Fault Refusal :=
  .next <| s.veerTake 1 (fun s p q =>
    let run := s.veer.globalRun.isSome
    let s := if run then (({ s with veer := { s.veer with globalRun := none } }).stageResult p .globalSearch 0xA) else s
    let s := s.goalDone p 0xA
    let s := { s with veer := { s.veer with goal := some q, goalWaits := true, path := [] } }
    if run then s.globalStart p else s)

/-- ARM (R248, R249): a joint-space search starts; it waits while another runs. -/
def execArm (s : State) : Host.Outcome State Fault Refusal :=
  .next <|
    if s.veer.armRun.isSome then s
    else s.veerTake 2 (fun s p q =>
      if q.arg < 2 || 64 < q.arg then s.veerDone p q 9
      else match s.veer.epoch with
      | none => s.veerDone p q 0xB
      | some e =>
        match s.fetch (.engine 7 p) q.addr 128 with
        | (none, s) => s.veerDone p q 9
        | (some d, s) =>
          let c := s.startConfig
          let goal := (List.range 32).map (fun k => leAt d (4 * k) 4)
          if !e.passes s.lethal c.1 (joints16 c.2) then s.veerDone p q 6
          else if !e.passes s.lethal c.1 (goal.map fixedOf32) then s.veerDone p q 7
          else { s with veer := { s.veer with armRun := some (q, e) } })

/-- CANCEL (R247): the query named by ARG ends with ABORTED; a cancelled goal is cleared, and the next output is a controlled
stop. -/
def execCancel (s : State) : Host.Outcome State Fault Refusal :=
  .next <| s.veerTake 3 (fun s p q =>
    let s := match s.veer.goal with
      | some g =>
        if g.id = q.arg then
          let s := s.goalDone p 0xA
          { s with veer := { s.veer with goal := none, globalRun := none, path := [], stopNext := true } }
        else s
      | none => s
    let s := match s.veer.armRun with
      | some (r, _) =>
        if r.id = q.arg then (({ s with veer := { s.veer with armRun := none } }).veerDone p r 0xA) else s
      | none => s
    s.veerDone p q 0)

/-- A model as its bytes spell it (R244): none with a count out of range or a PARENT that is not lower than its link. -/
def readModel (header : List Byte) (body : List Byte) : Option RobotModel :=
  let j := leAt header 0 1
  let l := leAt header 1 1
  let n := leAt header 2 1
  let links := (List.range l).map (fun k => sliceBytes body (32 * k) 32)
  let spheres := (List.range n).map (fun k => sliceBytes body (32 * l + 16 * k) 16)
  let parents : Bool := (List.range l).all (fun k => k = 0 || leAt (links.getD k []) 0 1 < k)
  if 32 < j || l = 0 || 40 < l || n = 0 || 64 < n || !parents || spheres.any (fun x => l ≤ leAt x 0 1 || leAt x 1 1 = 0) then none
  else some { joints := j, links, spheres }

/-- A read of query data by Veer: the bytes, if they may be read and their carried checks match. -/
def State.veerRead (s : State) (p a n : Nat) : Option (List Byte) × State :=
  match s.fetch (.engine 7 p) a n with
  | (some d, s) => if s.checksOk a n then (some d, s) else (none, s.checkFailed (.engine 7 p) a)
  | x => x

/-- MODEL (R244): a robot model is loaded; it applies from the next epoch. -/
def execModelLoad (s : State) : Host.Outcome State Fault Refusal :=
  .next <| s.veerTake 4 (fun s p q =>
    match s.veerRead p q.addr 16 with
    | (none, s) => s.veerDone p q 9
    | (some h, s) =>
      match s.veerRead p (q.addr + 16) (32 * leAt h 1 1 + 16 * leAt h 2 1) with
      | (none, s) => s.veerDone p q 9
      | (some b, s) =>
        match readModel h b with
        | none => s.veerDone p q 9
        | some m => ({ s with veer := { s.veer with model := some m } }).veerDone p q 0)

/-- The voxel grid of a VOXELS query read: its corner and the occupied voxels, by number (R246). -/
def State.takeGrid (s : State) (p : Nat) (q : VeerQuery) (n : Nat) : State :=
  match s.veerRead p q.addr n with
  | (none, s) => s.veerDone p q 9
  | (some d, s) =>
    let occ := (d.zipIdx.map (fun b => (bitsSet 8 b.1.toNat).map (fun k => 8 * b.2 + k))).flatten
    let g : VoxelGrid := { corner := [q.words.getD 4 0, q.words.getD 5 0, q.words.getD 6 0], occupied := occ }
    ({ s with veer := { s.veer with voxels := some g } }).veerDone p q 0

/-- VOXELS takes the 1 MiB that cover the grid. -/
def State.takeVoxels (s : State) (p : Nat) (q : VeerQuery) : State := s.takeGrid p q 0x100000

/-- VOXELS (R246): the voxel bitmap is loaded; it applies from the next epoch. -/
def execVoxels (s : State) : Host.Outcome State Fault Refusal := .next (s.veerTake 5 State.takeVoxels)

/-- A user layer of a LAYER query read, 512 by 512 bytes: its cells that are not 0 (R241). -/
def State.takeLayer (s : State) (p : Nat) (q : VeerQuery) : State :=
  if q.arg ≠ 5 && q.arg ≠ 6 then s.veerDone p q 9
  else match s.veerRead p q.addr 0x40000 with
    | (none, s) => s.veerDone p q 9
    | (some d, s) =>
      let cells := (d.zipIdx.filter (fun b => b.1 ≠ 0)).map (fun b => (b.2, b.1.toNat))
      ({ s with veer := { s.veer with users := alSet s.veer.users q.arg cells } }).veerDone p q 0

/-- LAYER (R240, R247): a user layer is loaded for the next epoch. -/
def execLayerMode (s : State) : Host.Outcome State Fault Refusal := .next (s.veerTake 6 State.takeLayer)

/-- MAP_COPY (R247): the selected layers of the newest epoch are written as planes, in layer order. -/
def execMapCopy (s : State) : Host.Outcome State Fault Refusal :=
  .next <| s.veerTake 7 (fun s p q =>
    match s.veer.epoch with
    | none => s.veerDone p q 0xB
    | some e =>
      if 255 < q.arg then s.veerDone p q 9
      else
        let data := ((bitsSet 8 q.arg).map (fun k => Plane.bytes (e.layer k))).flatten
        match s.put (.engine 7 p) q.addr data with
        | (true, s) => s.veerDone p q 0
        | (false, s) => s.veerDone p q 9)

/-! ## Searches (R248, R249) -/

/-- GLOBAL_TICK: a global search toward the goal starts on the newest epoch, when the previous one has ended. -/
def execGlobalTick (s : State) : Host.Outcome State Fault Refusal :=
  .next <|
    match s.veerOwner with
    | none => s
    | some p => if s.veer.globalRun.isSome then s else s.globalStart p

/-- The world map pooled 4 x 4 by maximum, with layer 7 in its place inside the window (R248): outside the window a cell costs what R241
makes of its static and its semantic cost. -/
def State.pooledMap (s : State) (p : Nat) (e : MapEpoch) : Plane :=
  let w := s.fld .VEER_WORLD_SIZE 31 16
  let h := s.fld .VEER_WORLD_SIZE 15 0
  let cell (i j : Nat) : Nat :=
    let wi : Int := (i : Int) - e.oy
    let wj : Int := (j : Int) - e.ox
    if 0 ≤ wi && wi < 512 && 0 ≤ wj && wj < 512 then Plane.at (e.layer 7) (wi.toNat * 512 + wj.toNat)
    else compositeCell (s.worldCell p false i j) 0 0 0 (s.worldCell p true i j) 0 0
  planeOf (w / 4 * (h / 4)) (fun c =>
    ((List.range 16).map (fun k => cell (4 * (c / (w / 4)) + k / 4) (4 * (c % (w / 4)) + k % 4))).foldl max 0)

/-- The pooled cells that reach a goal: its own, and those whose centre lies within TOL of it. -/
def State.goalCells (s : State) (q : VeerQuery) : List Nat :=
  let w := s.fld .VEER_WORLD_SIZE 31 16 / 4
  let h := s.fld .VEER_WORLD_SIZE 15 0 / 4
  let own : List Nat := match s.goalCell q with | some c => [c.1 / 4 * w + c.2 / 4] | none => []
  match fixedOf32 (q.words.getD 4 0), fixedOf32 (q.words.getD 5 0), fixedOf32 (q.words.getD 7 0) with
  | some x, some y, some tol =>
    let centre (k : Nat) : Int := (8 * k + 3 : Nat) * oneFixed / 40
    own ++ (List.range (w * h)).filter (fun c => lengthFixed (centre (c % w) - x) (centre (c / w) - y) ≤ tol)
  | _, _, _ => own

/-- The map of a global search (R248). -/
def State.searchMap (s : State) (p : Nat) (e : MapEpoch) (q : VeerQuery) : SearchMap :=
  { width := s.fld .VEER_WORLD_SIZE 31 16 / 4, height := s.fld .VEER_WORLD_SIZE 15 0 / 4, cost := s.pooledMap p e, lethal := s.lethal
    goal := s.goalCells q }

/-- The path of a global search from the robot's pose (R248): least cost, empty without a path. -/
def State.globalPath (s : State) (p : Nat) (e : MapEpoch) (q : VeerQuery) : List Nat :=
  let m := s.searchMap p e q
  match worldIndex (s.startConfig.1.getD 1 0), worldIndex (s.startConfig.1.getD 0 0) with
  | some i, some j =>
    let r := i / 4
    let k := j / 4
    if 0 ≤ r && r < m.height && 0 ≤ k && k < m.width then m.path (m.width * m.height) (r.toNat * m.width + k.toNat) else []
  | _, _ => []

/-- GLOBAL_DONE: the search ends with the least-cost path, or with NO_PATH. -/
def execGlobalDone (s : State) : Host.Outcome State Fault Refusal :=
  .next <|
    match s.veerOwner, s.veer.globalRun, s.veer.goal with
    | some p, some e, some q =>
      let path := s.globalPath p e q
      let s := (s.readWorld p).countChecks
      if path.isEmpty then s.globalEnds p 4
      else ({ s with veer := { s.veer with path := path } }).globalEnds p 0
    | _, _, _ => s

/-- REPAIR_TICK: a local repair starts on the newest epoch, when the previous one has ended. -/
def execRepairTick (s : State) : Host.Outcome State Fault Refusal :=
  .next <|
    match s.veerOwner, s.veer.epoch, s.veer.goal with
    | some p, some e, some _ =>
      if s.veer.repairRun.isSome then s
      else
        let c := s.startConfig
        if e.passes s.lethal c.1 (joints16 c.2) then { s with veer := { s.veer with repairRun := some e } }
        else (s.stageResult p .repair 6).keepPlan
    | _, _, _ => s

/-- The cost of a candidate (R248): each step's length times (1 + c / 64) for layer 7 at its end, in units of 2^-512 / 64. -/
def MapEpoch.costOf (e : MapEpoch) (t : Trajectory) : Nat :=
  let at_ (pt : TrajPoint) : Option (Int × Int) :=
    match fixedOf32 (pt.base.getD 0 0), fixedOf32 (pt.base.getD 1 0) with | some x, some y => some (x, y) | _, _ => none
  let under (q : Int × Int) : Nat :=
    let i := quotEven (20 * q.2) oneFixed - e.oy
    let j := quotEven (20 * q.1) oneFixed - e.ox
    if 0 ≤ i && i < 512 && 0 ≤ j && j < 512 then Plane.at (e.layer 7) (i.toNat * 512 + j.toNat) else 0
  ((t.points.zip (t.points.drop 1)).map (fun x =>
    match at_ x.1, at_ x.2 with
    | some a, some b => (lengthFixed (b.1 - a.1) (b.2 - a.2)).toNat * (64 + under b)
    | _, _ => 0)).sum

/-- The joints of a trajectory keep to their VLIM (R248): from point to point, 20 ms apart, none moves farther, but for the rounding of FP16. -/
def MapEpoch.keepsLimits (e : MapEpoch) (t : Trajectory) : Bool :=
  match e.model with
  | none => true
  | some m => (t.points.zip (t.points.drop 1)).all (fun x => (List.range m.joints).all (fun j =>
      match m.speedLimit j, fixedOf16 (x.1.joints.getD j 0), fixedOf16 (x.2.joints.getD j 0) with
      | some v, some a, some b => decide (((b - a).natAbs : Int) ≤ v.natAbs / 50 + (a.natAbs + b.natAbs : Nat) / 1024)
      | _, _, _ => true))

/-- REPAIR_DONE: up to 8 candidates ranked by cost, or NO_PATH. -/
def execRepairDone (s : State) : Host.Outcome State Fault Refusal :=
  .next <|
    match s.veerOwner, s.veer.repairRun with
    | some p, some e =>
      let found : List Trajectory := (Config.repairPaths (e.layer 7) s.veer.path s.veer.armPath).map (fun t =>
        { t0 := s.robotNow, points := t.map (fun w => { base := w.take 5, joints := (w.drop 5).take 32 }) })
      let c := ((found.filter e.keepsLimits).mergeSort (fun a b => e.costOf a ≤ e.costOf b)).take 8
      let s := ({ s with veer := { s.veer with repairRun := none, candidates := c } }).countChecks
      if c.isEmpty then (s.stageResult p .repair 4).keepPlan else s.stageResult p .repair 0
    | _, _ => s

/-- The configurations that an arm path is checked at between two of its waypoints (R248): at every degree or mm of joint travel. -/
def RobotModel.between (m : RobotModel) (a b : List Int) : List (List Int) :=
  let parts (j : Nat) : Nat :=
    let d := (b.getD j 0 - a.getD j 0).natAbs
    let unit : Nat := (if m.slides j then oneFixed / 1000 else piFixed / 180).toNat
    (d + unit - 1) / unit
  let n : Nat := max 1 (((List.range m.joints).map parts).foldl max 0)
  (List.range (n + 1)).map (fun (k : Nat) => (List.range m.joints).map (fun (j : Nat) =>
    a.getD j 0 + (b.getD j 0 - a.getD j 0) * (k : Int) / (n : Int)))

/-- An arm path from a start configuration passes R245 along its way, in an epoch that has a model. -/
def MapEpoch.armPasses (e : MapEpoch) (thr : Nat) (base start : List Nat) (path : List (List Nat)) : Bool :=
  match e.model with
  | none => true
  | some m =>
    let at_ := (start :: path).map (fun w => allSome ((joints16 w).take m.joints))
    at_.all Option.isSome && ((at_.filterMap id).zip ((at_.filterMap id).drop 1)).all (fun x =>
      (m.between x.1 x.2).all (fun q => e.passes thr base (q.map some)))

/-- ARM_SEARCH_DONE: a path that passes R245 along its way goes to ADDR + 128 and becomes the active arm path, else the query ends with
NO_PATH. -/
def execArmSearchDone (s : State) : Host.Outcome State Fault Refusal :=
  .next <|
    match s.veerOwner, s.veer.armRun with
    | some p, some (q, e) =>
      let goal := (List.range 32).map (fun k => s.getNum (q.addr + 4 * k) 4)
      let c := s.startConfig
      let path := (Config.armWaypoints c.2 goal q.arg).take q.arg
      let ok := e.armPasses s.lethal c.1 c.2 path
      let s := ({ s with veer := { s.veer with armRun := none } }).countChecks
      if path.isEmpty || !ok then (s.veerDone p q 4).setB .VEER_EVENT 0
      else
        let data := (path.map (fun w => ((List.range 32).map (fun i => bytesLE 2 (w.getD i 0))).flatten)).flatten
        match s.put (.engine 7 p) (q.addr + 128) data with
        | (true, s) => ({ s with veer := { s.veer with armPath := path } }).veerDone p q 0
        | (false, s) => s.veerDone p q 9
    | _, _ => s

/-- STAGE_TIMEOUT (R248, R249): a stage or an ARM search reaches its time limit. -/
def execStageTimeout (st : VeerStage) (s : State) : Host.Outcome State Fault Refusal :=
  .next <|
    match s.veerOwner with
    | none => s
    | some p =>
      match st with
      | .globalSearch => if s.veer.globalRun.isSome then (s.countChecks).globalEnds p 5 else s
      | .repair =>
        if s.veer.repairRun.isSome then
          ((({ s with veer := { s.veer with repairRun := none } }).countChecks).stageResult p .repair 5).keepPlan
        else s
      | .arm =>
        match s.veer.armRun with
        | some (q, _) => ((({ s with veer := { s.veer with armRun := none } }).countChecks).veerDone p q 5).setB .VEER_EVENT 1
        | none => s
      | .output => s

/-! ## The output gate (R250 to R253) -/

/-- The speed after k x 20 ms of a stop from speed `v` at `decel` cm/s2 (R252), at least 0. -/
def stopSpeed (v : Fp) (decel k : Nat) : Fp :=
  let x := (v.abs.mulExact (ofInt 100000)).1
  let drop : Fp := ofInt (decel * k * 20)
  if Fp.lt drop x then
    let d := (x.addExact drop.neg).1
    let d := (round32F (d.div (ofInt 100000))).1
    match v with | .fin true _ _ => d.neg | _ => d
  else fpConst 0 0

/-- The first of the points 20 ms apart at which a stop from speed `v` at `decel` cm/s2 stands still; `n` at most. -/
def standstill (v : Fp) (decel : Nat) : Nat → Nat
  | 0 => 0
  | n + 1 => let k := standstill v decel n; if k < n || (match stopSpeed v decel n with | .fin _ 0 _ => true | _ => false) then k else n + 1

/-- The point k x 20 ms into a controlled stop along a trajectory (R252): it starts where the trajectory is now, and after standstill holds
the pose reached; the joints hold their last targets, omega scales with v.  Between, the manual gives no interpolation of the path. -/
def stopAt (t : Trajectory) (now decel k : Nat) : TrajPoint :=
  let w := t.points.map (fun pt => pt.base ++ pt.joints)
  let head := (t.advance now).points.headD { base := [0, 0, 0, 0, 0], joints := List.replicate 32 0 }
  let v0 := of32 (head.base.getD 3 0)
  let k := min k (standstill v0 decel k)
  let v := stopSpeed v0 decel k
  let om := (round32F ((((of32 (head.base.getD 4 0)).mulExact v).1).div v0)).1
  { base := (if k = 0 then head.base.take 3 else (List.range 3).map (Config.stopPoint w (now - t.t0) decel k)) ++
      [v.bits32, (match v with | .fin _ 0 _ => 0 | _ => om.bits32)]
    joints := head.joints }

/-- The cell of layer 7 under a point is at or above a threshold. -/
def MapEpoch.barred (e : MapEpoch) (thr : Nat) (pt : TrajPoint) : Bool :=
  match worldIndex (pt.base.getD 1 0), worldIndex (pt.base.getD 0 0) with
  | some i, some j =>
    0 ≤ i - e.oy && i - e.oy < 512 && 0 ≤ j - e.ox && j - e.ox < 512 &&
      thr ≤ Plane.at (e.layer 7) ((i - e.oy).toNat * 512 + (j - e.ox).toNat)
  | _, _ => false

/-- The controlled stop (R252) from the last trajectory, and whether DECEL_MAX had to be used. -/
def State.controlledStop (s : State) : Trajectory × Bool :=
  let now := s.robotNow
  let t : Trajectory := s.veer.last.getD { t0 := now, points := [{ base := s.poseNear now ++ [0, 0], joints := (s.startConfig).2 }] }
  let d1 := s.fld .VEER_DECEL 31 16
  let v := (fixedOf32 (((t.advance now).points.headD { base := [], joints := [] }).base.getD 3 0)).getD 0
  let steps := (100000 * v.natAbs / oneFixed.toNat) / (20 * max 1 d1) + 1
  let meets : Bool := match s.veer.epoch with
    | none => false
    | some e => (List.range (steps + 1)).any (fun k => e.barred s.lethal (stopAt t now d1 k))
  let d := if meets then s.fld .VEER_DECEL 15 0 else d1
  ({ t0 := now, points := (List.range 50).map (stopAt t now d) }, meets)

/-- The bytes of an output buffer (R253). -/
def outputBytes (epoch seq : Nat) (t : Trajectory) (result rank level joints : Nat) : List Byte :=
  let pt (x : TrajPoint) : List Byte :=
    ((List.range 5).map (fun k => bytesLE 4 (x.base.getD k 0))).flatten ++ List.replicate 12 0 ++
    ((List.range 32).map (fun k => bytesLE 2 (x.joints.getD k 0))).flatten
  sliceBytes (bytesLE 4 epoch ++ bytesLE 4 seq ++ bytesLE 8 t.t0 ++ bytesLE 1 result ++ bytesLE 1 rank ++ bytesLE 1 level ++
    bytesLE 1 50 ++ bytesLE 1 joints ++ List.replicate 43 0 ++ ((t.points.take 50).map pt).flatten) 0 5120

/-- A trajectory is emitted (R253): it fills a free buffer and raises EMITTED; without one it is dropped with DROPPED. -/
def State.emitTrajectory (s : State) (p : Nat) (t : Trajectory) (result rank : Nat) : State :=
  let base := s.rd64 .VEER_OUT_BASE_LO
  let n := s.fld .VEER_OUT_CTRL 3 0
  let k := s.getNum base 4
  let s := (s.wrF .VEER_STATUS 15 8 result).wrF .VEER_STATUS 3 0 rank
  let v := s.verdict (.engine 7 p) true base (512 + n * 5120)
  if v ≠ .ok then (s.setB .VEER_EVENT 4).refusalRecord (.engine 7 p) v base
  else if !ringFree k (s.getNum (base + 4) 4) n then s.setB .VEER_EVENT 4
  else
    let joints := match s.veer.epoch.bind (fun e => e.model) with | some m => m.joints | none => 0
    let d := outputBytes (s.rd .VEER_EPOCH) s.veer.seq t result rank (s.fld .XW_LEVEL 31 28) joints
    let s := (s.wakeAll (s.sleepingQuads base (512 + n * 5120))).traffic (.engine 7 p) base 5124
    let s := s.storeChecked p (base + 512 + (k % max 1 n) * 5120) d
    let s := s.storeChecked p base (bytesLE 4 (k + 1))
    { s with veer := { s.veer with last := some t, seq := (s.veer.seq + 1) % 2 ^ 32, stopNext := false } }

/-- A controlled stop is emitted. -/
def State.emitStop (s : State) (p : Nat) : State :=
  let (t, blocked) := s.controlledStop
  let s := if blocked then s.setB .VEER_EVENT 5 else s
  (s.setB .VEER_EVENT 2).emitTrajectory p t 3 9

/-- OUTPUT_TICK (R250): the gate emits the first valid trajectory: a candidate in rank order, the previous plan, or the
controlled stop; at F4 (R251), while Windbreak is STOPPING (R352) and after a lost plan (R249) only the stop; without an epoch nothing. -/
def execOutputTick (s : State) : Host.Outcome State Fault Refusal :=
  .next <|
    match s.veerOwner with
    | none => s
    | some p =>
      if !s.bit .VEER_OUT_CTRL 31 then s
      else match s.veer.epoch with
      | none =>
        (match s.veer.lostAt with
        | some r => if r + 100000000 ≤ s.now then s.emitStop p else s.stageResult p .output 0xB
        | none => s.stageResult p .output 0xB)
      | some e =>
        if e.model.isNone then s.stageResult p .output 0xB
        else if s.fld .XW_LEVEL 31 28 = 4 || s.fld .WB_STATUS 31 29 = 2 || s.veer.stopNext then s.countChecks.emitStop p
        else
          let now := s.robotNow
          let all := (s.veer.candidates.zipIdx.map (fun x => (x.1.advance now, x.2))) ++
            (match s.veer.last with | some t => [(t.advance now, 8)] | none => [])
          match all.find? (fun x => s.validTraj e x.1) with
          | some (t, rank) => s.countChecks.emitTrajectory p t (if rank = 0 then 0 else if rank = 8 then 2 else 1) rank
          | none => s.countChecks.emitStop p

/-! ## Resets (R255) -/

/-- Queries in progress end with ABORTED. -/
def State.veerAbort (s : State) (p : Nat) : State :=
  let s := s.goalDone p 0xA
  let s := match s.veer.armRun with
    | some (q, _) => s.veerDone p q 0xA
    | none => s
  { s with veer := { s.veer with armRun := none, globalRun := none, repairRun := none } }

/-- Rung 2 of Veer: the epochs are lost; the last emitted trajectory is the previous plan. -/
def State.veerRung2 (s : State) : State :=
  let s := match s.veerOwner with | some p => s.veerAbort p | none => s
  { s with veer := { s.veer with epoch := none, opening := none, candidates := [], lostAt := some s.now } }

/-- A fence or rung 3 of the owner: the output ring stops until the owner enables it again. -/
def State.veerFence (s : State) (p : Nat) : State := (s.veerAbort p).clrB .VEER_OUT_CTRL 31

/-- A reload of the owner: model, voxels, user layers and goal are cleared. -/
def State.veerClear (s : State) : State :=
  { s with veer := { seq := s.veer.seq } }

end Sys2Proof.Machine
end

