-- ==== Sys2Proof/Machine/Recovery.lean ====
section
/-!
DEFINITION. What a recovery resets (R336, R337, R341, R342) and its end (R383): the drain of a fence, the reset of each
domain, the release.
-/

namespace Sys2Proof.Machine

/-! ## The drain (R337) -/

/-- A request was issued inside a domain. -/
def State.inDomain (s : State) (d : Domain) (a : Agent) : Bool :=
  let r := s.resources d
  if r.whole then a != .windbreak
  else match a with
    | .core n => bitOf r.cores n
    | .tile t _ => bitOf r.tiles t || (match (s.run t).ctx with | some j => bitOf r.jobs j | none => false)
    | .engine e p => bitOf r.engines (8 * e + p)
    | .device p => d == .part p
    | _ => false

/-- The domain's outstanding requests are gone (R337): the first `served` of them complete before D, each of the others
ends with an error response; so do the requests from outside that wait for a quad of the domain. -/
def State.drainFence (s : State) (d : Domain) (served : Nat) : State :=
  let r := s.resources d
  let mine := s.hdw.waiting.filter (fun w => s.inDomain d w.agent)
  let inQuad (q : QuadRef) : Bool := match q with | .tile t _ => r.whole || bitOf r.tiles t | .commons _ => r.whole
  let held := s.bank.held.filter (fun h => s.inDomain d h.2.1 || inQuad h.1)
  let s := { s with
    hdw := { s.hdw with waiting := s.hdw.waiting.filter (fun w => !s.inDomain d w.agent) }
    bank := { s.bank with held := s.bank.held.filter (fun h => !(s.inDomain d h.2.1 || inQuad h.1)) } }
  let s := (mine.take served).foldl (fun s w => s.complete w) s
  let s := (mine.drop served).foldl (fun s w => s.opErr w.agent w.op) s
  held.foldl (fun s h => s.opErr h.2.1 h.2.2) s

/-! ## Tiles -/

/-- A plan slot with the gang positions whose tile-pinned layers must reload (R134). -/
def State.markStale (s : State) (l : Nat) : State :=
  { s with upd := { s.upd with plans := s.upd.plans.map (fun (x : Nat × PlanState) =>
      if bitOf x.2.plan.tileMask l && x.2.plan.layers.any (fun y => y.reside == 3) then
        (x.1, { x.2 with stale := ((bitsSet 64 x.2.plan.tileMask).takeWhile (fun k => k != l)).length :: x.2.stale })
      else x) } }

/-- Rung 2 of a tile (R336): its contexts at rung 1, flags and errors cleared, the scratch zeroed with fresh checks, then the
self-test. -/
def State.tileReset (s : State) (t : Nat) : State :=
  if !([1, 2, 3].contains (s.fld .TILE_INFO 18 16 t)) then s
  else
    let s := (s.tileHolds t).foldl State.abortJob s
    let s := (s.wr .TILE_FLAGS 0 t).wr .TILE_ERR 0 t
    let s := s.wrF .TILE_INFO 18 16 1 t
    match s.logicalOf t with
    | some l => (s.zero (tileBase l) 0x400000).markStale l
    | none => s

/-- The stale tile-pinned layers of a plan reloaded (R134); where a deep read fails they stay stale. -/
def State.reloadStale (s : State) (n : Nat) : State :=
  match s.plan? n with
  | none => s
  | some x =>
    if !x.ready || x.stale.isEmpty then s
    else
      let r := s.loadTilePinned n x.plan x.stale x.plan.layers
      if r.1 then r.2.setPlan n { x with stale := [] } else r.2

/-- The self-test of a tile that was reset ends (R336): it is active again, or a spare, or it stays out of service. -/
def State.tileBack (s : State) (failed : List Nat) (t : Nat) : State :=
  if s.fld .TILE_INFO 18 16 t ≠ 1 || failed.contains t then s
  else s.wrF .TILE_INFO 18 16 (if (s.logicalOf t).isSome then 2 else 3) t

/-! ## What a partition holds in the engines -/

/-- The slots of the descriptors submitted to a deep queue and not started. -/
def State.waitingDeep (s : State) (p : Nat) : List Nat :=
  let size := max 1 (s.fld .MEM_P_DQ_CTRL 12 0 p)
  let head := match alGet s.deep.queues p with
    | some r => (r.slot + 1) % size
    | none => s.fld .MEM_P_DQ_HEAD 11 0 p
  (List.range ((s.fld .MEM_P_DQ_TAIL 11 0 p + size - head) % size)).map (fun k => (head + k) % size)

/-- A fence of partition `p` at its deep queue (R104): commands not yet accepted end ABORTED, accepted pages complete. -/
def State.abortDeep (s : State) (p : Nat) : State :=
  let l := s.waitingDeep p
  let s := l.foldl (fun s k => s.postWrite (deepAgent p) (s.dqAddr p k + 28) (bytesLE 4 (2 ^ 31 + 6))) s
  let s := if l.isEmpty then s else (s.setB .MEM_P_DQ_STATUS 0 p).setB .MEM_P_DQ_STATUS 1 p
  let s := if !l.isEmpty && s.bit .MEM_P_DQ_CTRL 30 p then s.pulse (.memory p) else s
  match alGet s.deep.queues p with
  | some r =>
    let part : Bool := r.op = 2 && r.status.isNone && r.accepted < r.pageCount
    s.setDeepRun p { r with skip := r.skip + l.length, status := if part then some 6 else r.status }
  | none => s.wrF .MEM_P_DQ_HEAD 11 0 (s.fld .MEM_P_DQ_TAIL 11 0 p) p

/-- Every open step of a partition aborted (R160); the ordinals of its feeds start from 0 again, as software writes the counters (R149,
R343). -/
def State.abortSteps (s : State) (p : Nat) : State :=
  let s := (List.range (s.seqPart p).steps.length).foldl (fun s _ => s.abortStep p) s
  s.setSeqPart p { s.seqPart p with feeds := [] }

/-- The sequences of a partition that are CLOSING are freed (R160). -/
def State.freeClosing (s : State) (p : Nat) : State :=
  ((s.seqsOf p).filter (fun n => s.seqState n == 4)).foldl State.freeSequence s

/-- A plan slot whose load is not committed (R124, R341): the load ends ABORTED. -/
def State.abortPlan (s : State) (n : Nat) : State :=
  match s.plan? n with
  | some x => if x.ready then s else (s.clearPlan n).planFail n 7
  | none => s

/-- The plan slots of a partition. -/
def plansOf (p : Nat) : List Nat := (List.range 8).map (fun k => 8 * p + k)

/-- The streams of a partition. -/
def State.streamsOf (s : State) (p : Nat) : List Nat := (s.part p).streams.map (fun e => e.number)

/-- What a fence, rung 3 or a reload of partition `p` does in the engines (R80, R104, R160, R236, R255, R275, R300). -/
def State.partEngines (s : State) (p : Nat) : State :=
  let s := (s.settleHandovers p).abortDeep p
  let s := (s.abortSteps p).freeClosing p
  let s := (plansOf p).foldl State.abortPlan s
  let s := (s.streamsOf p).foldl State.restartStream s
  let s := if s.veerOwner = some p then s.veerFence p else s
  let s := if s.brzOwner = p then s.brzFence else s
  s.dropFrames p

/-- The jobs of a partition. -/
def State.jobsOf (s : State) (p : Nat) : List Nat := s.usedJobs.filter (fun j => s.jobOwner j == p)

/-- The physical tiles of a partition. -/
def State.tilesOwned (s : State) (p : Nat) : List Nat := (List.range 68).filter (fun t => s.physOwner t == some p)

/-- Rung 3 of a partition (R336): its contexts at rung 1, its tiles at rung 2, its state in the engines. -/
def State.partReset (s : State) (p : Nat) : State :=
  let s := (s.jobsOf p).foldl State.abortJob s
  let s := (s.tilesOwned p).foldl State.tileReset s
  s.partEngines p

/-- Rung 2 of a fixed-function engine (R336, R341): its work past its commit point, as its chapter states. -/
def State.engineReset (s : State) (e : Nat) : State :=
  match e with
  | 0 => ((s.usedJobs.filter (fun j => (s.jobPlan j).isSome)).foldl State.abortJob s) |> fun s => (List.range 64).foldl State.abortPlan s
  | 2 => (List.range 8).foldl State.abortSteps s
  | 4 => (List.range 32).foldl (fun s n => s.setStrm n (fun r => { r with cur := none, ready := [] })) { s with sns := { s.sns with spi := [] } }
  | 5 => s.gridRung2
  | 6 => s.proxRung2
  | 7 => s.veerRung2
  | 8 => s.brzRung2
  | 9 => s.wlRung2
  | 11 => { s with net := { s.net with queues := [] } }
  | 15 => (s.bank.testing.foldl (fun s u => s.setTestBit u 8 false) s) |> fun s => { s with bank := { s.bank with testing := [], starved := [] } }
  | _ => s

/-! ## The chip (R336) -/

/-- A failed start whose cause is a reset (R361): LAST_FAIL, and a record at the next start.  Not where PFAIL_N came first
(R362), OK has been written, or the part is in doldrums mode. -/
def State.noteReset (s : State) : State :=
  if s.fld .GLB_BOOT_STATUS 25 24 = 0 || s.boot.noted || s.boot.pfailSeen then s
  else { s.wrF .GLB_BOOT_STATUS 15 12 3 with boot := { s.boot with noted := true, resetDue := true } }

/-- The registers that rung 4 leaves: the always-on domain's (the boot registers, the fault controller's), Windbreak's, and the
state of the time unit (R289, R336, R365). -/
def Reg.keptAtRung4 (r : Reg) : Bool :=
  match r.name with
  | .GLB_BOOT_STATUS | .GLB_BOOT_CFG | .GLB_BOOT_CTRL | .TIME_ROB_RATE | .TIME_ROB_ADJ | .TIME_ROB_STATUS
  | .TIME_B_RATE | .TIME_B_STATUS | .TIME_B_UNC => true
  | n => 0xF80000 ≤ n.info.base

/-- An address of on-chip SRAM: tile scratch or commons (R9). -/
def sramAddr (a : Nat) : Bool := scratchBase ≤ a && a < 0x0114000000

/-- The pool after rung 4 (R95): nothing is held; each extent remembers who held it. -/
def PoolState.released (x : PoolState) : PoolState :=
  { lastPart := x.extents.foldl (fun m e => alSet m e.1 e.2.part) x.lastPart }

/-- The pages that a deep queue has accepted land (R104): the write pointer of its block covers them. -/
def State.landPages (s : State) (p : Nat) : State :=
  match alGet s.deep.queues p with
  | some r =>
    if r.op = 2 && r.failed.isNone && 0 < r.accepted then
      let b := r.firstPage / deepPages
      (s.setDeepBlock b { s.deepBlock b with writePtr := r.firstPage + r.accepted - b * deepPages }).countProgrammed (0x4000 * r.inFlight.length)
    else s
  | none => s

/-- What the deep tier keeps over rung 4 (R104): its media, its counts and the last sample of HOLDUP_SENSE; a refresh that the reset cut
short is wanted again. -/
def DeepState.afterRung4 (x : DeepState) : DeepState :=
  { x with queues := [], refreshing := [], wanted := x.wanted ++ x.refreshing.map (fun r => (r.2, r.1)) }

/-- What the power manager keeps over rung 4: a squall in force, the readings of the sensors, a gale trip. -/
def PowerState.afterRung4 (x : PowerState) : PowerState :=
  { temps := x.temps, asserts := x.asserts, held := x.held, released := x.released, gale := x.gale, wokeAt := x.wokeAt }

/-- The registers that show what rung 4 does not change: HOT, PFAIL and TEMP of the deep region, the wear, what was programmed
in 24 hours, a squall in force. -/
def State.showKept (s old : State) : State :=
  let s := (s.wr .MEM_DEEP_STATUS (old.rd .MEM_DEEP_STATUS)).clrB .MEM_DEEP_STATUS 21
  let s := (s.wr .MEM_DEEP_WUSED (old.rd .MEM_DEEP_WUSED)).showWear.showHoldup
  let s := if old.squall then s.setB .PWR_STATUS 31 else s
  s.setB .PWR_STATUS 30

/-- Rung 4 (R336): everything but the always-on domain and Windbreak, which holds safe-torque-off; the warm and deep tiers keep
their contents, the log is programmed first (R335); start-up runs again from S1. -/
def State.chipReset (s : State) : State :=
  let s := (s.noteReset).programLog
  let s := (List.range 8).foldl State.landPages s
  let old := s
  let s : State :=
    { pending := s.pending, now := s.now, free := s.free
      csr := s.csr.filter (fun e => e.1.keptAtRung4)
      mem := s.mem.filter (fun c => !sramAddr c.1)
      badCheck := s.badCheck.filter (fun g => !sramAddr (g * 512))
      badWord := s.badWord.filter (fun w => !sramAddr (w * 64))
      resp := s.resp, recSel := s.recSel, isS := s.isS, pulses := s.pulses, pins := s.pins
      boot := { s.boot with
        kind := s.boot.next, next := .rung4, watchdog := false, selected := none, failedQuads := [], s1At := s.now
        loaded := if s.boot.next = .afterLoad then s.boot.loaded else none
        prevParts := if s.spl.parts.isEmpty then s.boot.prevParts else s.spl.parts }
      spl := { fuses := s.spl.fuses }
      flt := s.flt
      time := { s.time with sent := [] }
      wb := s.wb
      pwr := s.pwr.afterRung4
      upool := s.upool.released
      deep := s.deep.afterRung4
      hp := { msix := s.hp.msix, pba := s.hp.pba } }
  let s := (s.timeRung4.drawKeys).showKept old
  (((s.sto).wrF .GLB_BOOT_STATUS 27 26 0).wrF .GLB_BOOT_STATUS 23 16 0).wrF .GLB_BOOT_STATUS 31 28 1

/-- Rung 5 (R336, R369): the always-on domain asks the board supervisor for a power cycle. -/
def State.packageReset (s : State) : State :=
  let s := s.noteReset
  { s with pins := { s.pins with pwrcycReqN := false } }

/-! ## The commands -/

/-- What a domain's reset does. -/
def State.domainReset (s : State) : Domain → State
  | .ctx j => s.abortJob j
  | .tile t => s.tileReset t
  | .core _ | .cluster _ => s
  | .engine e => s.engineReset e
  | .part p => s.partReset p
  | .chip => s.chipReset
  | .package => s.packageReset

/-- The fence of recovery `n` is complete (R337): the first `served` of the domain's outstanding requests have completed, the
others are ended, and the domain is reset. -/
def execFenceDrainDone (n served : Nat) (s : State) : Host.Outcome State Fault Refusal :=
  .next <|
    match s.flt.recoveries.find? (fun r => r.number == n && r.phase == .fencing) with
    | none => s
    | some r =>
      let s := s.drainFence r.domain served
      let s := { s with flt := { s.flt with recoveries := s.flt.recoveries.map (fun (x : Recovery) =>
        if x.number = n then { x with phase := .resetting } else x) } }
      s.domainReset r.domain

/-- The tiles whose self-test a recovery waits for. -/
def State.tilesReset (s : State) : Domain → List Nat
  | .tile t => [t]
  | .part p => s.tilesOwned p
  | _ => []

/-- The reset of recovery `n` is complete (R336, R383): the domain is released and the closing record written.  `failed` lists
the tiles whose self-test failed.  A quarantined partition stays fenced until its reload (R339); the chip is released by start-up.
The log is programmed at the end of rung 3 (R335). -/
def execRecoveryRelease (n : Nat) (failed : List Nat) (s : State) : Host.Outcome State Fault Refusal :=
  .next <|
    match s.flt.recoveries.find? (fun r => r.number == n && r.phase == .resetting) with
    | none => s
    | some r =>
      if r.quarantine || 4 ≤ r.rung then s
      else
        let s := (s.tilesReset r.domain).foldl (fun s t => s.tileBack failed t) s
        let s := (List.range 64).foldl State.reloadStale s
        let s := s.closeRecovery r 0
        if r.rung = 3 then s.programLog else s

end Sys2Proof.Machine
end

