-- ==== Sys2Proof/Machine/Reload.lean ====
section
/-!
DEFINITION. The end of a partition load (R14, R18, R34, R37, R41, R95) and what applying a partition's sections does, which
start-up shares (R357).
-/

namespace Sys2Proof.Machine

/-! ## Sections applied -/

/-- The warm extents of a partition's windows. -/
def PartImage.warm (i : PartImage) (e : Nat) : Bool :=
  i.windows.any (fun w => w.tier == 0 && w.base ≤ e && e < w.base + w.size)

/-- The extents that the old windows of partition `p` hold and the new ones do not go back to the pool, which remembers whose they
were (R93, R95). -/
def State.leaveWindows (s : State) (p : Nat) (old new : PartImage) : State :=
  let dropped := (List.range poolSize).filter (fun e => old.warm e && !new.warm e)
  { s with upool := { s.upool with lastPart := dropped.foldl (fun m e => alSet m e p) s.upool.lastPart } }

/-- The addresses that `hit` names read 0, with good checks and words (R93). -/
def State.wipe (s : State) (hit : Nat → Bool) : State :=
  { s with
    mem := s.mem.filter (fun c => !hit c.1)
    badCheck := s.badCheck.filter (fun g => !hit (g * 512))
    badWord := s.badWord.filter (fun w => !hit (w * 64)) }

/-- The grants under way of the extents that `gone` names are dropped. -/
def State.dropGrants (s : State) (gone : Nat → Bool) : State :=
  { s with upool := { s.upool with grants := s.upool.grants.filter (fun g => !gone g.ext) } }

/-- Windows applied (R89, R93, R95): an extent that a new window takes from the pool is released by its holder, and one that was being
assigned is asked for anew; one that was another partition's is zeroed. -/
def State.applyWindows (s : State) (p : Nat) (old new : PartImage) : State :=
  let gained (e : Nat) : Bool := new.warm e && !old.warm e
  let s := ((s.upool.extents.map Prod.fst).filter gained).foldl State.evict s
  let again := s.upool.grants.filter (fun g => gained g.ext)
  let s := s.dropGrants gained
  let foreign (e : Nat) : Bool := gained e && (match alGet s.upool.lastPart e with | some q => q != p | none => false)
  let hit (a : Nat) : Bool := match regionOf a with | .warm e => foreign e | _ => false
  let s := s.wipe hit
  (again.map ExtentGrant.taker).foldl State.seekExtent (s.leaveWindows p old new)

/-- A stream's thresholds copied from its entry (R216). -/
def State.tuneStream (s : State) (e : StreamEntry) : State :=
  ((s.wr .SNS_S_TUNE0 (e.lateMs * 2 ^ 16 + e.suspectThr * 2 ^ 8 + e.suspectN) e.number).wr .SNS_S_TUNE1 e.widenCm e.number).wr
    .SNS_S_ADJ e.captureAdj e.number

/-- TILE_INFO shows what each physical tile carries and whose it is (R73). -/
def State.showTiles (s : State) : State :=
  (List.range 68).foldl (fun s t =>
    let s := s.wrF .TILE_INFO 23 20 ((s.physOwner t).getD 0xF) t
    match s.logicalOf t with
    | some l => s.wrF .TILE_INFO 15 8 (0x80 + l) t
    | none => s.wrF .TILE_INFO 15 8 0 t) s

/-- The sections of a partition come into force: its windows, its streams, the version it runs. -/
def State.applyPart (s : State) (p version : Nat) (old new : PartImage) : State :=
  let s := { s with spl := { s.spl with parts := alSet s.spl.parts p new } }
  let s := s.applyWindows p old new
  let gone := old.streams.filter (fun e => !new.streams.any (fun x => x.number == e.number))
  let s := gone.foldl (fun s e => (s.wr .SNS_S_CTRL 0 e.number).wr .SNS_S_STATUS 0 e.number) s
  let s := new.streams.foldl State.tuneStream s
  s.wr .SPL_LOADED version p

/-! ## Retired tiles (R14, R318, R336) -/

/-- The logical map set at a logical tile (R14). -/
def State.mapTile (s : State) (l : Nat) (t : Option Nat) : State :=
  let k := 8 * (l % 4)
  s.wrF .GLB_LTILE_MAP (k + 7) k (match t with | some x => 0x80 + x | none => 0) (l / 4)

/-- The logical map as the tile record keeps it. -/
def State.currentMap (s : State) : List (Option Nat) := (List.range 64).map s.physOf

/-- At the reload of its owner, a tile that is marked for retirement or whose self-test failed gives its logical number to the
active spare with the lowest number, or to none. -/
def State.replaceTile (s : State) (l : Nat) : State :=
  match s.physOf l with
  | none => s
  | some t =>
    let worn : Bool := s.pwr.retiring.contains t
    let failed : Bool := s.fld .TILE_INFO 18 16 t = 1 && !s.flt.recoveries.any (fun r => r.domain == .tile t)
    if !worn && !failed then s
    else
      let spare := (List.range 68).find? (fun x => s.fld .TILE_INFO 18 16 x == 3)
      let s := if worn then s.wrF .TILE_INFO 18 16 4 t else s
      let s := s.mapTile l spare
      let s := match spare with | some x => s.wrF .TILE_INFO 18 16 2 x | none => s
      { s with
        pwr := { s.pwr with retiring := s.pwr.retiring.filter (fun x => x != t) }
        boot := { s.boot with
          logicalMap := s.currentMap
          tileRecord := s.boot.tileRecord.mapIdx (fun (i : Nat) (x : TileKind × Nat) =>
            if i = t then ((if worn then .retired else .untested), x.2) else if some i = spare then (.active, x.2) else x) } }.mirror

/-! ## A partition load -/

/-- The partition that the sections name for a commons quad. -/
def namedFor (parts : List (Nat × PartImage)) (q : Nat) : Nat :=
  (((List.range 8).find? (fun p => match alGet parts p with | some i => bitOf i.commonsMask (4 * q) | none => false))).getD 0xF

/-- At the fence of a reload of `p`, the quads that `p` holds and those that its new BANKS section names go to the partition
that the sections name (R37, R77).  DESIGN CHOICE (log entry 93): where such a quad's holder, another partition, was offering it or
draining it to a third, the handover goes on, and the third may still accept it. -/
def State.returnQuads (s : State) (p : Nat) (parts : List (Nat × PartImage)) : State :=
  (List.range 16).foldl (fun s q =>
    if s.boot.failedQuads.contains q then s
    else if s.quadOwner q = some p || namedFor parts q = p then s.wrF .BANK_CQ_STATUS 31 28 (namedFor parts q) q
    else s) s

/-- What a reload of `p` ends in the scheduler, the sequence engine, Updraft and the pool (R95, R125, R160, R184). -/
def State.partFree (s : State) (p : Nat) : State :=
  let s := (s.jobsOf p).foldl State.freeJob s
  let s := (s.seqsOf p).foldl State.freeSequence s
  let s := (plansOf p).foldl State.clearPlan s
  let s := { s with upool := { s.upool with
    grants := s.upool.grants.filter (fun g => g.taker.part != p)
    wants := s.upool.wants.filter (fun x => x.part != p) } }
  ((s.upool.extents.filter (fun x => x.2.part == p)).map Prod.fst).foldl State.releaseExtent s

/-- The sequence engine forgets a partition: every step begun so far has ended. -/
def State.forgetSeqs (s : State) (p : Nat) : State :=
  { s with sqe := { s.sqe with
      parts := alSet s.sqe.parts p { ended := s.rd .SEQ_P_EPOCH p }
      pages := s.sqe.pages.filter (fun x => x.2.part != p) } }

/-- What a reload of `p` ends (R34): also its planning, its ports and its window (R255, R298, R300). -/
def State.partClear (s : State) (p : Nat) : State :=
  let s := (s.partFree p).forgetSeqs p
  let s := if s.veerOwner = some p then s.veerClear else s
  (s.disablePorts p).disableWindow p

/-- The fence of a partition load is complete (R18, R34, R37): borrower jobs still on the lender's tiles are reset at rung 1, the
partition at rung 3 under the new sections, whose tiles are reset too, and the quads return to those that the sections name. -/
def execLoadFenceDone (served : Nat) (s : State) : Host.Outcome State Fault Refusal :=
  .next <|
    match s.loadIn .fence with
    | none => s
    | some l =>
      match l.target, l.image with
      | some p, some img =>
        let s := s.drainFence (.part p) served
        let guests := (s.tilesOwned p).flatMap (fun t => (s.tileHolds t).filter (fun j => s.jobOwner j != p))
        let s := guests.foldl State.abortJob s
        let new := ((alGet img.parts p).getD {}).ownMask
        let s := (bitsSet 64 ((s.part p).ownMask ||| new)).foldl State.replaceTile s
        let gained := (bitsSet 64 new).filter (fun l => !bitOf (s.part p).ownMask l)
        let s := (gained.filterMap s.physOf).foldl State.tileReset s
        let s := (s.partReset p).partClear p
        let s := guests.foldl State.unbindJob s
        let s := s.returnQuads p (img.parts ++ mapErase p s.spl.parts)
        s.loadPhase l .apply
      | _, _ => s

/-- The sections of a partition load are applied (R34, R39, R41): the tiles are in service again but those whose self-test
`failed`, a quarantine ends, DONE is set and the source is unlocked. -/
def execLoadApplyDone (failed : List Nat) (s : State) : Host.Outcome State Fault Refusal :=
  .next <|
    match s.loadIn .apply with
    | none => s
    | some l =>
      match l.target, l.image with
      | some p, some img =>
        let new := ((alGet img.parts p).getD {}).ownMask
        let s := ((bitsSet 64 ((s.part p).ownMask ||| new)).filterMap s.physOf).foldl (fun s t => s.tileBack failed t) s
        let s := (s.applyPart p img.version (s.part p) ((alGet img.parts p).getD {})).showTiles
        let mine := s.flt.recoveries.filter (fun r => r.quarantine && r.domain == .part p)
        let s := mine.foldl (fun s r => s.closeRecovery r 0) s
        (s.clrB .FLT_STATUS p).endLoad .ok
      | _, _ => s

end Sys2Proof.Machine
end

