-- ==== Sys2Proof/Machine/Boot.lean ====
section
/-!
DEFINITION. Start-up, failed starts, doldrums mode and the board's signals (R28, R357 to R365, R368, R369, R379, R384, R385).
-/

namespace Sys2Proof.Machine

/-- GLB_BOOT_STATUS.COUNT (R361). -/
def State.bootCount (s : State) : Nat := s.fld .GLB_BOOT_STATUS 25 24

/-- GLB_BOOT_STATUS.STAGE: 0 to 7 the stage that runs, 8 running, 15 doldrums mode (R365). -/
def State.stage (s : State) : Nat := s.fld .GLB_BOOT_STATUS 31 28

/-- STAGE set. -/
def State.setStage (s : State) (k : Nat) : State := s.wrF .GLB_BOOT_STATUS 31 28 k

/-- Start-up is in stage `k`: PORST_N is high, no power cycle is asked for and no fence of the chip holds it. -/
def State.inStage (s : State) (k : Nat) : Bool :=
  s.pins.porstN && s.pins.pwrcycReqN && s.stage = k && !s.flt.recoveries.any (fun r => 4 ≤ r.rung && r.phase == .fencing)

/-- COUNT set, and mirrored (R361). -/
def State.setCount (s : State) (k : Nat) : State := (s.wrF .GLB_BOOT_STATUS 25 24 k).mirror

/-- A fault record of class boot (R384). -/
def bootFault (detail : Nat) (context : Nat := 0xFFFFFFFF) (address : Nat := 0) : FaultDesc :=
  { cls := 0x13, part := 0xFF, source := 0xF002, detail, context, address }

/-- The recoveries at rung 4 and 5 end as start-up reaches S7 or doldrums mode (R383). -/
def State.endChipRecoveries (s : State) : State :=
  (s.flt.recoveries.filter (fun r => 4 ≤ r.rung)).foldl (fun s r => s.closeRecovery r 0) s

/-- Rung 4 after a failure of the start itself (R361): a recovery of the chip still open is abandoned and a new one opens with the
record of class boot; a fourth within 3,600 s is rung 5 (R339). -/
def State.failStart (s : State) (f : FaultDesc) : State :=
  let s := (s.flt.recoveries.filter (fun r => 4 ≤ r.rung)).foldl (fun s r => s.closeRecovery r 2) s
  s.startRecovery (s.escalate .chip) f s.now

/-- Entry to doldrums mode (R363): no partition, Windbreak in STO with SECTION, no Windline frames, every base OFF, every tile gated,
MAINT_PORT alone enabled. -/
def State.enterDoldrums (s : State) (reason : Nat) : State :=
  let s := (s.setStage 15).wrF .GLB_BOOT_STATUS 23 16 reason
  let s := s.record (bootFault (0x100 + reason))
  let s := { s with
    spl := { s.spl with chip := none, parts := [] }
    wb := { s.wb with safety := none }
    pwr := { s.pwr with gated := List.range 68 }
    boot := { s.boot with watchdog := false, loaded := none, active := none } }
  let s := s.wbSto .noSection
  let s := (List.range 4).foldl (fun s k => s.startBase (k + 1) {}) s
  let s := s.wrF .TIME_ROB_STATUS 31 28 0
  let port := s.fld .GLB_BOOT_CFG 19 16
  let s := (List.range 12).foldl (fun s n => s.wrB .NET_P_CTRL 31 (n = port && port < 8) n) s
  s.endChipRecoveries

/-! ## PORST_N (R368, R371, R385) -/

/-- What the fault controller keeps over a power cycle (R335, R385): with VDD_AON its ring, numbers, kept records and the recovery at
rung 5 with the time it has taken; without, the persistent log, whose newest number (in `page`) the next record follows (R332). -/
def FaultState.afterPower (x : FaultState) (aon : Bool) (page now : Nat) : FaultState :=
  if aon then
    { ring := x.ring, nextSeq := x.nextSeq, kept := x.kept, log := x.log, nextRecovery := x.nextRecovery
      recoveries := (x.recoveries.filter (fun r => r.rung == 5)).map (fun r => { r with spent := r.spent + (now - r.since), since := now })
      oldestWaiting := if x.ring.any (fun r => !r.logged) then some 0 else none }
  else
    { log := x.log, nextSeq := match ((alGet x.log page).getD []).getLast? with | some r => Machine.nextSeq r.seq | none => 1 }

/-- The fuses after a commit that a loss of power ends (R28): each fuse word reads its old value or its new one. -/
def State.cutCommit (s : State) : State :=
  if !s.spl.commit then s
  else
    let (v, s) := if s.pins.pfailN then s.fresh else (31, s)
    match s.spl.chip with
    | none => s
    | some c =>
      let f := s.spl.fuses
      { s with spl := { s.spl with fuses := { f with
          svn := if bitOf v 4 then max f.svn c.svn else f.svn
          revoked := f.revoked ||| (c.revokeMask &&& (v % 16)) } } }

/-- The pages that a deep queue has accepted when power goes (R104, R379): which of them completed is open. -/
def State.losePages (s : State) (p : Nat) : State :=
  match alGet s.deep.queues p with
  | some r =>
    if r.op = 2 && 0 < r.accepted then
      let (v, s) := s.fresh
      let b := r.firstPage / deepPages
      s.setDeepBlock b { s.deepBlock b with
        writePtr := r.durable + v % (r.firstPage + r.accepted - r.durable + 1) - b * deepPages }
    else s
  | none => s

/-- The registers that a power cycle with VDD_AON leaves (R385). -/
def Reg.keptInAon (r : Reg) : Bool :=
  match r.name with
  | .GLB_BOOT_STATUS | .GLB_BOOT_CFG | .GLB_BOOT_CTRL | .FLT_REC_NEWEST => true
  | _ => false

/-- PORST_N asserts (R385): the reset of rung 5.  `aon` says that VDD_AON stays.  The deep tier, the fuses, the recovery flash and the
far tier's medium stay; every other memory loses its contents; the outputs are high-impedance, so SAFE_STOP_N reads asserted and
PWRCYC_REQ_N released (R371). -/
def execPorstAssert (aon : Bool) (s : State) : Host.Outcome State Fault Refusal :=
  .next <|
    let s := if s.pins.porstN then s.noteReset else s
    let s := (s.cutCommit) |> fun s => (List.range 8).foldl State.losePages s
    let next := s.fld .FLT_LOG_STATUS 16 0
    let kept := aon && !s.boot.aonLost
    let s : State :=
      { pending := s.pending, now := s.now, free := s.free
        csr := s.csr.filter (fun e => kept && e.1.keptInAon)
        mem := s.mem.filter (fun c => 0x4000000000 ≤ c.1)
        badCheck := s.badCheck.filter (fun g => 0x4000000000 ≤ g * 512)
        badWord := s.badWord.filter (fun w => 0x4000000000 ≤ w * 64)
        isS := s.isS, pulses := s.pulses
        pins := { s.pins with porstN := false, pwrcycReqN := true, safeStopN := false }
        boot :=
          { noted := s.boot.noted, resetDue := s.boot.resetDue, firmware := s.boot.firmware, recoveryImage := s.boot.recoveryImage
            sector := s.boot.sector, aonLost := !kept
            tileRecord := if kept then s.boot.tileRecord else [], logicalMap := if kept then s.boot.logicalMap else [] }
        spl := { fuses := s.spl.fuses }
        flt := s.flt.afterPower kept ((next + 0x1FFFF) % 0x20000) s.now
        deep := { s.deep.afterRung4 with vSense := 0 } }
    (((s.wrF .FLT_LOG_STATUS 16 0 next).wrF .GLB_BOOT_STATUS 27 26 0).wrF .GLB_BOOT_STATUS 23 16 0).setStage 0

/-- PORST_N is released (R278, R368, R385): the raw counter starts at 0, robot and domain times with it; each partition's far-tier keys
are new (R115); stage S0 begins. -/
def execPorstRelease (s : State) : Host.Outcome State Fault Refusal :=
  .next <|
    if s.pins.porstN then s
    else
      let s := { s with
        now := 0
        time := {}
        pins := { s.pins with porstN := true }
        flt := { s.flt with recoveries := s.flt.recoveries.map (fun (r : Recovery) => { r with since := 0 }) }
        boot := { s.boot with kind := .powerUp, crystal := true } }
      (s.drawKeys.wrB .MEM_DEEP_STATUS 22 (!s.pins.pfailN)).wrB .PWR_STATUS 31 (!s.squallClear)

/-! ## The stages (R357 to R359) -/

/-- S0 ends: the boot state is in the always-on domain, or comes from the status sector where VDD_AON was off (R385).  A nonzero COUNT
of the sector is a start that OK never confirmed (R361); a reset noted before the power went still shows in LAST_FAIL. -/
def execStageS0Done (s : State) : Host.Outcome State Fault Refusal :=
  .next <|
    if !s.inStage 0 then s
    else
      let s := if !s.boot.aonLost then s
        else
          let x := s.boot.sector
          let s := (s.wrF .GLB_BOOT_STATUS 25 24 x.count).wr .GLB_BOOT_CFG x.bootCfg.toNat
          let s := s.wrB .GLB_BOOT_CTRL 29 x.doldrums
          let s := if s.boot.resetDue then s.wrF .GLB_BOOT_STATUS 15 12 3 else s
          { s with boot := { s.boot with aonLost := false, tileRecord := x.tileRecord, logicalMap := x.logicalMap } }
      { s with boot := { s.boot with s1At := s.now } }.setStage 1

/-- S1 ends (R361, R363): the fuses are read, a reset before OK is recorded, COUNT rises or the part enters doldrums mode.  `fz` is what
manufacture has burnt, taken at the first start. -/
def execStageS1Done (fz : Option Fuses) (s : State) : Host.Outcome State Fault Refusal :=
  .next <|
    if !s.inStage 1 then s
    else
      let fuses : Fuses := if s.spl.fuses.programmed then s.spl.fuses
        else match fz with | some f => { f with programmed := true } | none => s.spl.fuses
      let s := { s with spl := { s.spl with fuses } }.showFuses
      let s := if s.boot.resetDue then s.record (bootFault 3) else s
      let count := s.bootCount
      let s := { s with boot := { s.boot with noted := false, resetDue := false, pfailSeen := false, countBefore := count } }
      let s := s.wrF .GLB_BOOT_STATUS 23 16 0
      if count = 3 then s.enterDoldrums 1
      else
        let s := s.setCount (count + 1)
        if s.bit .GLB_BOOT_CTRL 29 then s.enterDoldrums 4 else s.setStage 2

/-- S2 ends (R359): F0, then F1, has been read; `f0` and `f1` say which pass the checks of R25 to R27. -/
def execStageS2Done (f0 f1 : Bool) (s : State) : Host.Outcome State Fault Refusal :=
  .next <|
    if !s.inStage 2 then s
    else if f0 || f1 then s.setStage 3 else s.enterDoldrums 3

/-- The warm tier is trained and the deep tier's tables are read (R357). -/
def State.memoryReady (s : State) : State := ((s.setB .MEM_WARM_STATUS 0).countProgrammed 0).showWear

/-- S3 ends (R358, R361, R384); in doldrums mode it trains the warm tier alone (R363).  With `ok` false the mesh, the warm training or the deep tier has failed at `addr`; `quads` are the commons
quads that failed their test. -/
def execStageS3Done (ok : Bool) (addr : Nat) (quads : List Nat) (s : State) : Host.Outcome State Fault Refusal :=
  .next <|
    if s.inStage 15 && ok && !s.bit .MEM_WARM_STATUS 0 then s.memoryReady
    else if !s.inStage 3 then s
    else if !ok then
      let s := { s.wrF .GLB_BOOT_STATUS 15 12 1 with boot := { s.boot with noted := true } }
      s.failStart (bootFault 1 0xFFFFFFFF addr)
    else
      let bad := (List.range 16).filter quads.contains
      let s := { s with boot := { s.boot with failedQuads := bad } }
      let s := bad.foldl (fun s q => s.record (bootFault 0x203 q (commonsBase + q * 0x400000))) s
      s.memoryReady.setStage 4

/-- A physical tile is fused off (R1, R3). -/
def State.fusedOff (s : State) (t : Nat) : Bool := s.isS && bitOf s.spl.fuses.tilesOff t

/-- The tile record's entry of a tile. -/
def State.tileEntry (s : State) (t : Nat) : TileKind × Nat := s.boot.tileRecord.getD t (.untested, 0)

/-- The record entry of a tile after its test (R318, R358): its Fmax in 25 MHz steps, which only ever falls; retired where it failed or its
Fmax is below 1.00 GHz. -/
def State.testedEntry (s : State) (results : List TileTest) (t : Nat) : TileKind × Nat :=
  let e := s.tileEntry t
  if s.fusedOff t then (.fusedOff, 0)
  else if e.1 = .retired then e
  else
    let r := results.getD t ⟨false, 0⟩
    let f := if e.2 = 0 then r.fmaxMhz / 25 * 25 else min e.2 (r.fmaxMhz / 25 * 25)
    (if r.passed && 1000 ≤ f then .spare else .retired, f)

/-- The logical map of S4 (R358): a logical tile keeps its physical tile while that is active, and otherwise takes the active spare with the
lowest number. -/
def fillMap (n : Nat) (ok : Nat → Bool) (old : List (Option Nat)) : List (Option Nat) :=
  let keep := (List.range n).map (fun l => match old.getD l none with | some t => if ok t then some t else none | none => none)
  let free := (List.range 68).filter (fun t => ok t && !keep.contains (some t))
  (keep.foldl (fun (acc : List (Option Nat) × List Nat) x =>
    match x with
    | some t => (acc.1 ++ [some t], acc.2)
    | none => (acc.1 ++ [acc.2.head?], acc.2.tail)) ([], free)).1

/-- S4's registers of a tile. -/
def State.showTested (s : State) (l : List (TileKind × Nat)) (t : Nat) : State :=
  let e := l.getD t (.untested, 0)
  let st := match e.1 with | .fusedOff => 0 | .untested => 1 | .active => 2 | .spare => 3 | .retired => 4
  (s.wrF .TILE_INFO 18 16 st t).wrF .TILE_FREQ 31 16 e.2 t

/-- S4 ends (R358): every tile has been tested, the logical map is filled and the tile record mirrored.  A chip load goes on to S6
(R357). -/
def execStageS4Done (results : List TileTest) (s : State) : Host.Outcome State Fault Refusal :=
  .next <|
    if !s.inStage 4 then s
    else
      let rec1 := (List.range 68).map (s.testedEntry results)
      let lost := (List.range 68).filter (fun t => (rec1.getD t (.untested, 0)).1 == .retired && (s.tileEntry t).1 != .retired)
      let map := fillMap s.tileCount (fun t => (rec1.getD t (.untested, 0)).1 == .spare) s.boot.logicalMap
      let rec2 := rec1.mapIdx (fun (t : Nat) (e : TileKind × Nat) => if map.contains (some t) then (TileKind.active, e.2) else e)
      let s := lost.foldl (fun s t => s.record (bootFault 0x202 t)) s
      let s := ((List.range s.tileCount).filter (fun l => map.getD l none == none)).foldl (fun s l => s.record (bootFault 0x201 l)) s
      let s := (List.range s.tileCount).foldl (fun s l => s.mapTile l (map.getD l none)) s
      let s := (List.range 68).foldl (fun s t => s.showTested rec2 t) s
      let s := { s with boot := { s.boot with tileRecord := rec2, logicalMap := map } }.mirror
      s.showTiles.setStage (if s.boot.kind = .afterLoad then 6 else 5)

/-- The bytes of a stored copy at a deep address, or of an image in a warm window (R20, R359): as many as the header's LENGTH says. -/
def State.storedImage (s : State) (a : Nat) : List Byte :=
  let b (n : Nat) : List Byte := (List.range n).map (fun k =>
    if s.badWord.contains ((a + k) / 64) || s.deepDamaged (a + k) 1 then 0 else match regionOf (a + k) with
      | .deep _ => if s.deepBlank (a + k) then 0 else s.getByte (a + k)
      | _ => s.getByte (a + k))
  let n := leAt (b 64) 0x10 4
  b (if 0x1000 ≤ n && n ≤ 0x100000 then n else 64)

/-- The bytes that a source offers (R359); `place` is where the image of a chip load lay. -/
def State.sourceBytes (s : State) (place : Nat × Nat) : ImageSource → List Byte
  | .copyA => s.storedImage deepBase
  | .copyB => s.storedImage (deepBase + 0x20000000)
  | .recovery => s.boot.recoveryImage
  | .chipLoad => s.loaderBytes place.1 place.2

/-- The order of sources (R359), by the value that COUNT had before S1 raised it. -/
def State.sourceOrder (s : State) : List (ImageSource × (Nat × Nat)) :=
  let pair : ImageSource × ImageSource := if s.bit .GLB_BOOT_CFG 24 then (.copyB, .copyA) else (.copyA, .copyB)
  let plain (l : List ImageSource) : List (ImageSource × (Nat × Nat)) := l.map (fun x => (x, (0, 0)))
  match s.boot.countBefore with
  | 0 => (if s.boot.kind = .rung4 then s.boot.active.toList else []) ++ plain [pair.1, pair.2, .recovery]
  | 1 => plain [pair.2, .recovery]
  | _ => plain [.recovery]

/-- S5 ends (R359): the first source that passes the checks of R25 to R30 is selected, or the part enters doldrums mode. -/
def execStageS5Done (s : State) : Host.Outcome State Fault Refusal :=
  .next <|
    if !s.inStage 5 then s
    else
      let try1 (x : ImageSource × (Nat × Nat)) : Option (Image × (ImageSource × (Nat × Nat))) :=
        (checkStored (s.sourceBytes x.2 x.1) s.variant s.tileCount s.spl.fuses).2.map (fun i => (i, x))
      match s.sourceOrder.findSome? try1 with
      | none => s.enterDoldrums 2
      | some x => { s.wrF .GLB_BOOT_STATUS 27 26 x.2.1.ctorIdx with boot := { s.boot with selected := some x } }.setStage 6

/-- POWER applied (R38, R303): the cap and the ceiling of the image. -/
def State.applyPower (s : State) (c : ChipImage) : State := (s.wr .PWR_CAP c.cap).wr .PWR_CEILING c.ceilingMhz

/-- A chip image's sections applied (R77, R80, R281, R349, R357). -/
def State.applyChip (s : State) (c : ChipImage) (img : Image) : State :=
  let s := { s with spl := { s.spl with chip := some c, parts := [] }, wb := { s.wb with safety := some c.safety } }
  let s := (s.wr .SPL_CHIP_VERSION img.version).showFuses
  let s := s.boot.prevParts.foldl (fun s x => s.leaveWindows x.1 x.2 ((alGet img.parts x.1).getD {})) s
  let s := img.parts.foldl (fun s x => s.applyPart x.1 img.version ((alGet s.boot.prevParts x.1).getD {}) x.2) s
  let s := (List.range 16).foldl (fun s q =>
    if s.boot.failedQuads.contains q then s else s.wrF .BANK_CQ_STATUS 31 28 (namedFor img.parts q) q) s
  (((s.applyTime c).applyPower c).showTiles).clrB .PWR_STATUS 30

/-- S6 ends (R35, R41, R357): the selected image, or the one that a chip load has checked, is applied; the result of a chip load appears in the
bank of the new control partition. -/
def execStageS6Done (s : State) : Host.Outcome State Fault Refusal :=
  .next <|
    if !s.inStage 6 then s
    else
      let load := s.boot.kind == .afterLoad
      let x : Option (Image × (ImageSource × (Nat × Nat))) :=
        if load then s.boot.loaded.map (fun y => (y.1, (.chipLoad, y.2))) else s.boot.selected
      match x with
      | none => s.enterDoldrums 2
      | some (img, src) =>
        match img.chip with
        | none => s.enterDoldrums 2
        | some c =>
          let s := (s.applyChip c img).wrF .GLB_BOOT_STATUS 27 26 src.1.ctorIdx
          let s := if load then s.loadResult c.ctrlPart none .ok else s
          { s with boot := { s.boot with active := some src, loaded := none, selected := none, prevParts := [] } }.setStage 7

/-- S7 (R357, R361, R383): the host clusters leave reset, the watchdog starts, the recovery ends, and the records that the always-on domain
kept are logged (R335). -/
def execStageS7Release (s : State) : Host.Outcome State Fault Refusal :=
  .next <|
    if !s.inStage 7 then s
    else
      let s := (s.setStage 8).wr .GLB_BOOT_TIME ((s.now - s.boot.s1At) / 1000)
      let s := { s with boot := { s.boot with watchdog := true, s7At := s.now } }
      let s := s.endChipRecoveries
      if s.boot.kind = .powerUp then s.programLog else s

/-! ## The boot registers (R361, R363 to R365) -/

/-- An agent may write the boot registers: the control partition, or the maintenance service in doldrums mode (R363, R365). -/
def State.bootWriter (s : State) (a : Agent) : Bool :=
  (s.ctrl ≠ 0xFF && s.agentPart a = s.ctrl) || (a = .maint && s.stage = 15)

/-- A write of OK by the control partition (R361, R364): COUNT becomes 0 and the watchdog stops; no effect while COUNT is 0. -/
def execBootOk (a : Agent) (s : State) : Host.Outcome State Fault Refusal :=
  .next <|
    if s.accessFenced a none then s.respErr
    else if !s.bootWriter a then s.denied a 0x208
    else if a = .maint || s.bootCount = 0 then s.respOk
    else { s.respOk with boot := { s.boot with watchdog := false } }.setCount 0

/-- RESTART is taken (R359, R363, R364): rung 4, unless a recovery of the chip is under way; from doldrums mode COUNT becomes 0 and the
DOLDRUMS request is cleared first. -/
def State.restart (s : State) (source : Nat) : State :=
  let s := if s.stage = 15 then (s.clrB .GLB_BOOT_CTRL 29).setCount 0 else s
  let s := if s.flt.recoveries.any (fun r => 4 ≤ r.rung) then s else { s with boot := { s.boot with next := .restart } }
  s.openRecovery .chip { cls := 0x12, part := 0xFF, source := source, detail := 3 }

/-- A write of RESTART (R359, R363, R364). -/
def execRestart (a : Agent) (s : State) : Host.Outcome State Fault Refusal :=
  .next <|
    if s.accessFenced a none then s.respErr
    else if !s.bootWriter a then s.denied a 0x208
    else s.respOk.restart a.code

/-- A write of DOLDRUMS (R363): the request stands until a RESTART from doldrums mode. -/
def execDoldrums (a : Agent) (s : State) : Host.Outcome State Fault Refusal :=
  .next <|
    if s.accessFenced a none then s.respErr
    else if !s.bootWriter a then s.denied a 0x208
    else (s.respOk.setB .GLB_BOOT_CTRL 29).mirror

/-- WDT_S seconds have passed since S7 (R361, R365). -/
def State.watchdogDue (s : State) : Bool :=
  s.boot.watchdog && s.boot.s7At + s.fld .GLB_BOOT_CFG 15 0 * 1000000000 ≤ s.now

/-- WDT_S passes after S7 without OK (R361): LAST_FAIL WATCHDOG, a record of class boot, rung 4. -/
def execBootWatchdogExpiry (s : State) : Host.Outcome State Fault Refusal :=
  .next <|
    if !s.watchdogDue then s
    else
      let s := { s.wrF .GLB_BOOT_STATUS 15 12 2 with boot := { s.boot with watchdog := false, noted := true } }
      s.openRecovery .chip (bootFault 2)

/-! ## The maintenance service (R363) -/

/-- A deep copy that the maintenance service writes: the block is erased and its first pages are programmed (R99, R105, R109). -/
def State.writeCopy (s : State) (b : Nat) (d : List Byte) : State :=
  let a := deepBase + b * 0x20000000
  let pages := (d.length + 0x3FFF) / 0x4000
  let s := (List.range 128).foldl (fun s die => s.eraseDieBlock die (s.dieBlock b die)) s
  let s := { s with deep := { s.deep with damaged := s.deep.damaged.filter (fun g => g / deepPages != b) } }.showWear
  let s := (s.zero a 0x20000000).store a d
  (s.setDeepBlock b { writePtr := pages }).countProgrammed (pages * 0x4000)

/-- A request to the maintenance service (R363), which runs in doldrums mode only: boot status, a record or a log page is read; firmware and
images that pass R25 to R27 are written, as are the boot registers. -/
def execMaintRequest (m : MaintReq) (s : State) : Host.Outcome State Fault Refusal :=
  .next <|
    if s.stage ≠ 15 then s
    else match m with
      | .bootStatus => s.respOk (bytesLE 4 (s.rd .GLB_BOOT_STATUS))
      | .record seq => s.respOk (match s.flt.ring.find? (fun r => r.seq == seq) with | some r => r.bytes | none => List.replicate 64 0)
      | .logPage k => s.respOk (logPageBytes ((alGet s.flt.log k).getD []))
      | .firmware second d passes =>
        if !passes || 0x400000 < d.length then s.respErr
        else { s.respOk with boot := { s.boot with firmware := listUpdate s.boot.firmware (if second then 1 else 0) (fun _ => d) } }
      | .image src d =>
        if signatureCode d s.spl.fuses ≠ .ok || 0x100000 < d.length then s.respErr
        else match src with
          | .copyA => s.respOk.writeCopy 0 d
          | .copyB => s.respOk.writeCopy 1 d
          | .recovery => { s.respOk with boot := { s.boot with recoveryImage := d } }
          | .chipLoad => s.respErr
      | .bootCtrl w =>
        let s := s.respOk
        let s := if bitOf w.toNat 29 then (s.setB .GLB_BOOT_CTRL 29).mirror else s
        if bitOf w.toNat 30 then s.restart Agent.maint.code else s

/-! ## The test port (R371) -/

/-- IDCODE: version, part and manufacturer, after which IEEE 1149.1 asks for a 1. -/
def jtagIdcode : Word := ((0xB * 2 ^ 28 + 0x0960 * 2 ^ 12 + 0x0A6 * 2 + 1 : Nat) : Word)

/-! ## The clock monitors (R379) -/

/-- REFCLK1 is lost (R379): a record of class fabric, rung 5. -/
def execRefclk1Loss (s : State) : Host.Outcome State Fault Refusal :=
  .next (if !s.pins.porstN then s else s.openRecovery .package { cls := 0x11, part := 0xFF, source := 0xF001 })

/-- The crystal is lost (R379): the raw counter stands, Windbreak takes STO, rung 5. -/
def execCrystalLoss (s : State) : Host.Outcome State Fault Refusal :=
  .next <|
    if !s.pins.porstN then s
    else
    let s := { s with boot := { s.boot with crystal := false } }
    s.sto.openRecovery .package { cls := 0x11, part := 0xFF, source := 0xF001 }

end Sys2Proof.Machine
end

