-- ==== Sys2Proof/Machine/Collective.lean ====
section
/-!
DEFINITION. The end of a gang collective (R58, R61, R196 to R198): its reduction, its writes, its timeout.
-/

namespace Sys2Proof.Machine

/-- A member of a collective: its gang position, its tile, its logical tile and its command. -/
structure CollMember where
  pos : Nat
  tile : Nat
  logical : Nat
  cmd : RunCmd
  deriving DecidableEq, Repr

/-- The COLLECTIVE in progress on a tile, with its job. -/
def State.collCmd (s : State) (t : Nat) : Option (Nat × RunCmd) :=
  match (s.run t).ctx, (s.run t).running.find? (fun c => !c.done && opcodeOf c.words == 9) with
  | some j, some c => some (j, c)
  | _, _ => none

/-- The member at gang position `i` of job `j`, if it has issued. -/
def State.collMember (s : State) (j i : Nat) : Option CollMember :=
  match (s.gangTiles j)[i]? with
  | none => none
  | some l =>
    match s.physOf l with
    | none => none
    | some t => (match s.collCmd t with | some (k, c) => if k = j then some ⟨i, t, l, c⟩ else none | none => none)

/-- All members of the collective that tile `t` waits in, once every one of them has issued. -/
def State.collAll (s : State) (t : Nat) : Option (List CollMember) :=
  match s.collCmd t with
  | none => none
  | some (j, c) =>
    let ms := (collMembers (s.jobGang j) c.words).map (s.collMember j)
    if ms.all Option.isSome then some (ms.filterMap id) else none

/-- The fields of a collective that all members must share (R197): every word after the header. -/
def collKey (w : List Nat) : List Nat := w.drop 1

/-- A reduction in increasing gang position (R197): FP32 from the first term on. -/
def collFp (red : Nat) : List Fp → Fp × Nat
  | [] => (fpZero, 0)
  | x :: l => l.foldl (fun acc y =>
      if red = 0 then (let z := acc.1.add y; (z.1, acc.2 ||| noUnf z.2)) else (fpMax acc.1 y, acc.2)) (x, 0)

/-- A reduction in saturating INT32. -/
def collInt (red : Nat) : List Int → Int × Nat
  | [] => (0, 0)
  | x :: l => l.foldl (fun acc y =>
      if red = 0 then (let z := satInt 32 (acc.1 + y); (z.1, acc.2 ||| z.2)) else (max acc.1 y, acc.2)) (x, 0)

/-- Element `i` of a contribution as a code. -/
def collCode (w : List Nat) (d : List Byte) (i : Nat) : Nat := leAt d (i * collElem w) (collElem w)

/-- One reduced element from the members' codes: the reduction, the curve unit, one rounding to FMT (R197). -/
def State.collElement (s : State) (w : List Nat) (codes : List Nat) : List Byte × Nat :=
  let fmt := wfld w 2 23 20
  let red := wfld w 2 27 24
  if fmt = 0xB then
    let r := collInt red (codes.map (sintOf 32))
    (bytesLE 4 (uintOf 32 r.1), r.2)
  else
    let xs := codes.map (fpFmt fmt).decode
    let r := collFp red xs
    let y := if wfld w 2 19 19 = 1 then s.curve (wfld w 2 18 14) r.1 else (r.1, 0)
    let c := convFloat fmt none y.1
    (bytesLE (collElem w) c.1, (if xs.any Fp.isNan then flagNanIn else 0) ||| r.2 ||| y.2 ||| c.2)

/-- What each member receives, by rank, with its flags (R196). -/
def State.collResults (s : State) (w : List Nat) (ms : List CollMember) : List (List Byte × Nat) :=
  let n := wordAt w 5
  let ds := ms.map (fun m => s.getBytes (tileBase m.logical + offAt w 3) (n * collElem w))
  let elems (lo len : Nat) : List Byte × Nat :=
    let r := mapFlags (fun (i : Nat) => s.collElement w (ds.map (fun d => collCode w d i))) ((List.range len).map (fun k => lo + k))
    (r.1.flatten, r.2)
  match wfld w 2 31 28 with
  | 0 => ms.map (fun _ => ([], 0))
  | 1 => let r := elems 0 n; ms.map (fun _ => r)
  | 2 => (List.range ms.length).map (fun r => let x := scatterShare n ms.length r; elems x.1 x.2)
  | 3 => ms.map (fun _ => (ds.flatten, 0))
  | _ =>
    let root := (((ms.zip ds).find? (fun x => x.1.pos == wfld w 2 13 8)).map Prod.snd).getD []
    ms.map (fun _ => (root, 0))

/-- COLLECTIVE_DONE (R197): every member has issued; the results are written and the commands complete.  Members whose
fields differ all end with BAD_CMD. -/
def execCollectiveDone (t : Nat) (s : State) : Host.Outcome State Fault Refusal :=
  .next <|
    match s.collAll t with
    | none => s
    | some [] => s
    | some (m :: l) =>
      let ms := m :: l
      let w := m.cmd.words
      if l.any (fun x => collKey x.cmd.words != collKey w) then
        ms.reverse.foldl (fun s x => s.failCommand x.tile x.cmd.words x.cmd.slot 1) s
      else
        let rg (x : CollMember) : Ranges := collRanges (s.jobGang ((s.run x.tile).ctx.getD 0)) x.pos w
        match s.asleep (ms.flatMap (fun x => ((rg x).reads ++ (rg x).writes).map (fun r => (tileBase x.logical + r.1, r.2)))) with
        | q :: l => s.wakeAll (q :: l)
        | [] =>
        match ms.find? (fun x => (s.badRange x.logical (rg x).reads).isSome) with
        | some x =>
          let a := (s.badRange x.logical (rg x).reads).getD 0
          (s.uncorrectable (s.tileAgent x.tile ((s.run x.tile).ctx.getD 0)) a).failCommand x.tile x.cmd.words x.cmd.slot 4
        | none =>
          let rs := s.collResults w ms
          (ms.zip rs).foldl (fun s x =>
            let s := if x.2.1.isEmpty then s else s.putResults x.1.logical (checkBit x.1.cmd.words) [(offAt w 4, x.2.1)]
            s.finish x.1.tile x.1.cmd.slot x.2.2) s

/-- A COLLECTIVE's TIMEOUT (R196, R70). -/
def execCollectiveTimeout (t : Nat) (s : State) : Host.Outcome State Fault Refusal :=
  .next <|
    match s.collCmd t with
    | some (_, c) => if wfld c.words 8 15 0 = 0 then s else s.failCommand t c.words c.slot 6
    | none => s

end Sys2Proof.Machine
end

