-- ==== Sys2Proof/Machine/CsrMap.lean ====
section
/-!
DEFINITION. The CSR address map (R12): the register at an address, the block that holds it, who owns it (R13) and which engine
it belongs to.
-/

namespace Sys2Proof.Machine

/-- The register of a table row at an address. -/
def RegName.at (n : RegName) (x : Nat) : Option Reg :=
  let f := n.info
  let i := if f.si = 0 then 0 else (x - f.base) / f.si
  let rem := x - f.base - f.si * i
  let j := if f.sj = 0 then 0 else rem / f.sj
  if f.base ≤ x && rem = f.sj * j && j < f.nj && f.lo ≤ i && i < f.lo + f.ni then some ⟨n, i, j⟩ else none

/-- HDW_Pp_BUDkn and HDW_Pp_LATkn exist for n from 0 to 2 (R211). -/
def Reg.exists (r : Reg) : Bool :=
  match r.name with
  | .HDW_P_BUD | .HDW_P_LAT => r.j % 4 != 3
  | _ => true

/-- The register at a CSR address (R12). -/
def regAt (x : Nat) : Option Reg :=
  match RegName.all.findSome? (fun n => n.at x) with
  | some r => if r.exists then some r else none
  | none => none

/-- The address of a register. -/
def Reg.addr (r : Reg) : Nat := r.name.info.base + r.name.info.si * r.i + r.name.info.sj * r.j

/-- The _LO register of a pair whose _HI is named (R8). -/
def RegName.pairLo (n : RegName) : Option RegName := RegName.all.find? (fun m => m.pairHi == some n)

/-- The partition that owns a register (R13), as its chapter's table says; none while nobody does. -/
def State.regOwner (s : State) (r : Reg) : Option Nat :=
  let known (p : Nat) : Option Nat := if p < 8 then some p else none
  match r.name.info.scope with
  | .chip => known s.ctrl
  | .part => some r.i
  | .tile => s.physOwner r.i
  | .cquad => s.quadOwner r.i
  | .tquad => s.physOwner r.i
  | .plan => some (r.i / 8)
  | .seqEnt => if s.fld .SEQ_ENT 31 28 r.i 0 = 0 then none else known (s.fld .SEQ_ENT 27 24 r.i 0)
  | .ctx => if s.fld .SCH_CTX 31 28 r.i 0 = 0 then none else known (s.fld .SCH_CTX 27 24 r.i 0)
  | .stream => s.streamOwner r.i
  | .xwOwner => known (s.fld .XW_CFG 31 28)
  | .veerOwner => known (s.fld .VEER_CFG 31 28)
  | .brzOwner => known (s.fld .BRZ_CFG 31 28)
  | .port => if r.i < 8 then s.portOwner r.i else s.clusterOwner (r.i - 8)
  | .any => none

/-- A partition borrows a quad of the tile behind physical tile `t` (R17, R73). -/
def State.borrowsTile (s : State) (p t : Nat) : Bool :=
  match s.logicalOf t with
  | some l => (match s.tileOwner l with
    | some o => (s.part o).loans.any (fun x => x.borrower == p && bitOf x.tileMask l)
    | none => false)
  | none => false

/-- An agent may write a register (R13, R73, R345, R363). -/
def State.mayWrite (s : State) (a : Agent) (r : Reg) : Bool :=
  match r.name with
  | .TILE_FLAGS | .TILE_ERR => s.regOwner r == some (s.agentPart a) || s.borrowsTile (s.agentPart a) r.i
  | .GLB_BOOT_CTRL =>
    s.regOwner r == some (s.agentPart a) || (a == .maint && s.fld .GLB_BOOT_STATUS 31 28 == 15)
  | n => n.info.scope == .any || s.regOwner r == some (s.agentPart a)

/-- The engine that holds a register, numbered as R382 numbers them; none for a register of no engine. -/
def Reg.engine (r : Reg) : Option Nat :=
  let x := r.addr
  if 0x780000 ≤ x && x < 0x800000 then some 0
  else if 0x800000 ≤ x && x < 0xA00000 then some 2
  else if 0xA00000 ≤ x && x < 0xA80000 then some 3
  else if 0xA80000 ≤ x && x < 0xB00000 then some 1
  else if 0xB00000 ≤ x && x < 0xB80000 then some 4
  else if 0xB80000 ≤ x && x < 0xC00000 then some 5
  else if 0xC00000 ≤ x && x < 0xC80000 then some 7
  else if 0xC80000 ≤ x && x < 0xCC0000 then some 8
  else if 0xCC0000 ≤ x && x < 0xCC4000 then some 14
  else if 0xCC4000 ≤ x && x < 0xD00000 then some 8
  else if 0xD00000 ≤ x && x < 0xD80000 then some 9
  else if 0xD80000 ≤ x && x < 0xE00000 then some 10
  else if 0xE00000 ≤ x && x < 0xE80000 then some 11
  else if 0xE80000 ≤ x && x < 0xF00000 then some 12
  else if 0xF00000 ≤ x && x < 0xF80000 then some 13
  else none

end Sys2Proof.Machine
end

