-- ==== Sys2Proof/Machine/CsrRead.lean ====
section
/-!
DEFINITION. Reads of registers (R6 to R8, R12, R13, R345, R347): the value that an agent reads, the values that the AL960 computes at
the read, and the captured upper halves of pairs.
-/

namespace Sys2Proof.Machine

/-- The sequences of a partition that are not FREE. -/
def State.openSeqs (s : State) (p : Nat) : Nat := (s.sqe.seqs.filter (fun x => x.2.part == p)).length

/-- The pages of a partition's extents that have a count or await their epoch (SEQ_Pp_PAGES, R163). -/
def State.pagesHeld (s : State) (p : Nat) : Nat :=
  ((s.upool.extents.filter (fun x => x.2.part == p && x.2.holder == Holder.seqEngine)).map (fun x =>
    ((pagesOf x.1).filter (fun g => (alGet s.sqe.pages g).isSome)).length)).sum

/-- Half `k` of a 64-bit value: 0 the lower, 1 the upper. -/
def halfOf (k v : Nat) : Nat := v / 2 ^ (32 * k) % 2 ^ 32

/-- The registers whose value the AL960 computes at the read: times, counts of what is held, the variant, and an agent's own
selections. -/
def State.liveValue (s : State) (a : Agent) (r : Reg) : Option Nat :=
  match r.name with
  | .GLB_ID => some s.glbId
  | .TILE_SPAN => some (s.tileSpan r.i)
  | .TILE_CYCLES_LO => some (halfOf 0 (s.pwr.clocks.getD r.i 0 / 1000))
  | .TILE_CYCLES_HI => some (halfOf 1 (s.pwr.clocks.getD r.i 0 / 1000))
  | .MEM_POOL_FREE => some s.freeExtents
  | .MEM_POOL_SURPLUS => some s.surplusExtents
  | .MEM_P_HELD => some (s.heldBy r.i)
  | .MEM_P_PINNED => some (s.pinnedBy r.i)
  | .UPD_PLAN_PINNED => some (match s.plan? r.i with | some x => x.pinned.length | none => 0)
  | .UPD_PLAN_CACHED => some (match s.plan? r.i with | some x => x.cached | none => 0)
  | .SEQ_FREE_ENTRIES => some (4096 - s.sqe.seqs.length)
  | .SEQ_P_OPEN => some (s.openSeqs r.i)
  | .SEQ_P_PAGES => some (s.pagesHeld r.i)
  | .WL_PHASE => some s.wlPhase
  | .TIME_RAW_LO => some (halfOf 0 s.now)
  | .TIME_RAW_HI => some (halfOf 1 s.now)
  | .TIME_ROBOT_LO => some (halfOf 0 s.robotNow)
  | .TIME_ROBOT_HI => some (halfOf 1 s.robotNow)
  | .TIME_ROB_ADJ => some (uintOf 32 s.adjLeft)
  | .TIME_B_LO => some (halfOf 0 (s.baseNow r.i))
  | .TIME_B_HI => some (halfOf 1 (s.baseNow r.i))
  | .TIME_B_UNC => some (s.baseUnc r.i)
  | .FLT_REC_SEL => some ((alGet s.recSel a).getD 0).toNat
  | .FLT_REC => some (s.recWord a r.j)
  | _ => none

/-- The value of a register at a read, and the state after it.  The number of page reads in flight is a free value within
INFLIGHT while a plan has reads to make. -/
def State.readValue (s : State) (a : Agent) (r : Reg) : Word × State :=
  match r.name with
  | .UPD_INFLIGHT =>
    if s.upd.plans.isEmpty then (0, s)
    else
      let f := s.fresh
      (BitVec.ofNat 32 (f.1 % (max 128 (s.fld .UPD_CFG 9 0) + 1)), f.2)
  | _ => match s.liveValue a r with
    | some v => (BitVec.ofNat 32 v, s)
    | none => (s.rdReg r, s)

/-- The upper half of a pair captured for an agent (R8). -/
def State.capture (s : State) (a : Agent) (lo : Reg) (w : Word) : State := { s with heldRead := alSet s.heldRead (a, lo) w }

/-- The captured upper half of an agent given up. -/
def State.dropCapture (s : State) (a : Agent) (lo : Reg) : State := { s with heldRead := mapErase (a, lo) s.heldRead }

/-- A read of a register by an agent (R8): a _LO register captures its _HI, and a _HI register answers what was captured. -/
def State.readReg (s : State) (a : Agent) (r : Reg) : Word × State :=
  match r.name.pairHi with
  | some hi =>
    let l := s.readValue a r
    let h := l.2.readValue a { r with name := hi }
    (l.1, h.2.capture a r h.1)
  | none =>
    match r.name.pairLo with
    | some lo =>
      (match alGet s.heldRead (a, { r with name := lo }) with
      | some w => (w, s.dropCapture a { r with name := lo })
      | none => s.readValue a r)
    | none => s.readValue a r

/-! ## Accesses that no register answers (R5, R12, R347) -/

/-- The record of an unmapped CSR access, at most once per 100 ms for each block and agent (R5, R12). -/
def State.csrUnmapped (s : State) (a : Agent) (x : Nat) : State :=
  s.recordRated { cls := 0x01, code := blockOf x, unit := 0, agent := some a }
    { cls := 0x01, part := s.agentPart a, source := a.code, address := x }

/-- A CSR access of any other form than an aligned 32-bit one (R5); `n` is its size. -/
def State.csrBad (s : State) (a : Agent) (wr : Bool) (x n : Nat) : State :=
  (if wr then s.respErr else s.loadErr a n).csrUnmapped a x

/-- Windbreak's private offsets (R347). -/
def wbPrivate (x : Nat) : Bool := 0x1080000 ≤ x && x < 0x2000000

/-- A CSR access to an offset that no register occupies (R12): an error response; a read of Windbreak's private memory by another
agent is a partition violation (R347).  Windbreak's own reads there answer a free value: the manual gives no content. -/
def State.csrNoReg (s : State) (a : Agent) (wr : Bool) (x : Nat) : State :=
  if wbPrivate x && a == .windbreak then
    if wr then s.respOk
    else
      let f := s.fresh
      f.2.respOk (bytesLE 4 f.1)
  else if wbPrivate x && !wr then (s.loadErr a 4).violation a x
  else (if wr then s.respErr else s.loadErr a 4).csrUnmapped a x

/-- A fence refuses an agent's access to a register (R337). -/
def State.csrFenced (s : State) (a : Agent) (r : Reg) : Bool := s.accessFenced a r.engine

/-- A 32-bit read of CSR space by an agent. -/
def State.csrRead (s : State) (a : Agent) (x : Nat) : State :=
  match regAt x with
  | none => s.csrNoReg a false x
  | some r =>
    if s.csrFenced a r then s.loadErr a 4
    else
      let v := s.readReg a r
      v.2.respOk (bytesLE 4 v.1.toNat)

end Sys2Proof.Machine
end

