-- ==== Sys2Proof/Machine/CsrWrite.lean ====
section
/-!
DEFINITION. Writes of registers (R6, R8, R13, R37 to R39 and each chapter's register rule): who may write, which bits change, which
values are refused, and the writes that are commands with a row of their own.
-/

namespace Sys2Proof.Machine

/-- The state that a meaning answers with. -/
def State.via (s : State) (o : Host.Outcome State Fault Refusal) : State :=
  match o with
  | .next t => t
  | _ => s

/-! ## Which bits change (R6, R181) -/

/-- The bits of word `j` of a job context that its owner writes in SETUP (R181). -/
def ctxMask (j : Nat) : Nat :=
  [0x00FF0000, 0, 0xBF7FFFFF, 0xFFFFFFFF, 0xFFFFFFFF, 0, 0, 0xFFFFFFFF, 0xFFFF, 0xFFF01FFF, 0, 0, 0x80FFFFFF, 0xFFFF, 0xFFFFFFFF,
    0xFFFF].getD j 0

/-- The plainly writable bits of a register. -/
def Reg.rwMask (r : Reg) : Nat :=
  match r.name with
  | .SCH_CTX => ctxMask r.j
  | .BRZ_CURVE_X0 | .BRZ_CURVE_X1 | .BRZ_CURVE_CTRL | .BRZ_CURVE_Y => if r.i < 2 then 0 else r.name.info.rw
  | n => n.info.rw

/-- The bits of a register that a write of 1 clears. -/
def Reg.w1cMask (r : Reg) : Nat :=
  match r.name with
  | .SCH_CTX => if r.j = 10 then 0x1F else 0
  | n => n.info.w1c

/-- The plain effect of a write (R6): RW bits take the new value, W1C bits written 1 clear, all others stay. -/
def State.plainWrite (s : State) (r : Reg) (w : Word) : State :=
  let m : Word := BitVec.ofNat 32 r.rwMask
  let c : Word := w &&& BitVec.ofNat 32 r.w1cMask
  s.wrReg r (((s.rdReg r &&& ~~~m) ||| (w &&& m)) &&& ~~~c)

/-! ## Which writes are refused -/

/-- The value of a field lies in a range. -/
def inRange (lo hi x : Nat) : Bool := lo ≤ x && x ≤ hi

/-- The signed byte at a bit of a word lies in a range. -/
def sbyteIn (lo hi : Int) (w : Word) (k : Nat) : Bool :=
  let x := sintOf 8 (fieldOf w (k + 7) k)
  decide (lo ≤ x) && decide (x ≤ hi)

/-- The active image's CAP_MIN, CAP_MAX and CEILING_MHZ. -/
def State.capRange (s : State) : Nat × Nat × Nat :=
  match s.spl.chip with
  | some c => (c.capMin, c.capMax, c.ceilingMhz)
  | none => (0, 0xFFFFFFFF, 0xFFFFFFFF)

/-- The value lies in the range that its chapter states with a refusal (R38, R290, R326, R345, R365). -/
def State.valueOk (s : State) (r : Reg) (w : Word) : Bool :=
  match r.name with
  | .PWR_CAP => inRange s.capRange.1 s.capRange.2.1 (fieldOf w 7 0)
  | .PWR_CEILING => inRange 1000 s.capRange.2.2 (fieldOf w 10 0) && fieldOf w 10 0 % 25 == 0
  | .PWR_SQUALL_HOLD => inRange 100 65535 (fieldOf w 15 0)
  | .PWR_TELEM => inRange 1000 10000 (fieldOf w 15 0)
  | .FLT_CFG => inRange 10 1000 (fieldOf w 15 0)
  | .FLT_LOG_CTRL => inRange 1 3600 (fieldOf w 15 0)
  | .GLB_BOOT_CFG => inRange 10 3600 (fieldOf w 15 0)
  | .TIME_B_INTERVAL =>
    sbyteIn (-7) 0 w 24 && sbyteIn (-3) 3 w 16 && sbyteIn (-4) 5 w 8 && inRange 2 10 (fieldOf w 7 0)
  | _ => true

/-- The program word lies in the program of an enabled loop (R271). -/
def State.programLocked (s : State) (i : Nat) : Bool :=
  (List.range 128).any (fun n => s.loopOn n && s.fld .BRZ_L_PROG 29 16 n ≤ i && i < s.fld .BRZ_L_PROG 29 16 n + s.fld .BRZ_L_PROG 7 0 n)

/-- The engine whose state refuses the write, with an error response and a record of class engine command (R159, R181, R271). -/
def State.engineRefuses (s : State) (r : Reg) : Option Nat :=
  match r.name with
  | .SCH_CTX => if r.rwMask ≠ 0 && s.jobState r.i ≠ ctxSetup then some 0x2003 else none
  | .SEQ_P_GEOM => if (s.seqPart r.i).steps.isEmpty && s.openSeqs r.i = 0 then none else some 0x2002
  | .SEQ_P_FEED_CFG => if (s.seqPart r.i).steps.isEmpty then none else some 0x2002
  | .BRZ_PROG_LO | .BRZ_PROG_HI => if s.programLocked r.i then some 0x2008 else none
  | _ => none

/-- The section that governs a register is under apply (R37). -/
def State.underApply (s : State) (r : Reg) : Bool :=
  r.name.info.lock.isSome &&
    (match s.spl.load with | some l => l.phase == .apply && l.target.isNone | none => false)

/-- The register is an RWL register that the active image has locked (R6, R39). -/
def State.lockedReg (s : State) (r : Reg) : Bool :=
  match r.name.info.lock, s.spl.chip with
  | some k, some c => c.locks.contains k
  | _, _ => false

/-! ## What follows a plain write -/

/-- The quad whose NOLULL a write sets wakes (R84). -/
def State.wakeCommons (s : State) (q : Nat) (w : Word) : State :=
  if bitOf w.toNat 1 then s.startWake (.commons q) else s

/-- A write of BANK_TQt_CTRL (R84, R85): bit by bit, for the quads that the writer holds. -/
def State.writeTileQuads (s : State) (a : Agent) (t : Nat) (w : Word) : State :=
  let mine := (List.range 4).filter (fun k => s.quadHolder (.tile t k) == some (s.agentPart a))
  if mine.isEmpty then s.denied a (0x602000 + t * 0x10)
  else mine.foldl (fun s k =>
    let s := s.wrB .BANK_TQ_CTRL k (bitOf w.toNat k) t
    let s := if bitOf w.toNat k then s.startWake (.tile t k) else s
    if bitOf w.toNat (4 + k) then s.via (execLullRequest a (.tile t k) s) else s) s.respOk

/-- What a plain write brings about: the status sector's mirror (R365), the hold-up check (R111), a wake (R84), and a setpoint
block that Breeze refuses (R268); of a scheduler argument whether its last write set a reserved bit (R183). -/
def State.afterWrite (s : State) (r : Reg) (w : Word) : State :=
  match r.name with
  | .GLB_BOOT_CFG => s.mirror
  | .MEM_HOLDUP_CFG | .MEM_HOLDUP_CAP | .MEM_HOLDUP_ENERGY => s.showHoldup.resumeStores
  | .BANK_CQ_CTRL => s.wakeCommons r.i w
  | .HP_LINK_CTRL => if s.hostUp && !bitOf w.toNat 31 then s.hostLinkDown else s
  | .SCH_P_ARG =>
    let l := s.sch.argRsv.filter (fun p => p != r.i)
    { s with sch := { s.sch with argRsv := if fieldOf w 31 10 = 0 then l else r.i :: l } }
  | _ => s

/-! ## Writes that are commands -/

/-- The meanings of the trigger bits of a word, the higher bit first. -/
def State.runTriggers (s : State) (w : Word) (l : List (Nat × (State → Host.Outcome State Fault Refusal))) : State :=
  l.foldl (fun s x => if bitOf w.toNat x.1 then s.via (x.2 s) else s) s

/-- A write of GO to SCH_Pp_CMD by OP (R183); a reserved OP ends with BAD_CMD. -/
def State.schGo (s : State) (a : Agent) (p : Nat) (w : Word) : State :=
  let rsv := fieldOf w 30 8
  match fieldOf w 7 0 with
  | 1 => s.via (execAllocCtx a p rsv s)
  | 2 => s.via (execAdmitCtx a p rsv s)
  | 3 => s.via (execHold a p rsv s)
  | 4 => s.via (execResume a p rsv s)
  | 5 => s.via (execFreeCtx a p rsv s)
  | op => s.schCommand a p op rsv false (fun s j => (8, s.wrF .SCH_P_RESULT 9 0 j p))

/-- A write of GO to SEQ_Pp_CMD by OP (R144); a reserved OP ends with BAD_CMD. -/
def State.seqGo (s : State) (a : Agent) (p : Nat) (w : Word) : State :=
  let rsv := fieldOf w 30 8
  match fieldOf w 7 0 with
  | 1 => s.via (execOpenSeq a p rsv s)
  | 2 => s.via (execCloseSeq a p rsv s)
  | 3 => s.via (execFork a p rsv s)
  | 4 => s.via (execTruncate a p rsv s)
  | op => s.seqCommand a p op rsv (fun s => (5, s.fld .SEQ_P_RESULT 15 0 p, s))

/-- The writes of engine registers that are commands as a whole: what such a write does, or none for a plain write. -/
def State.engineRow (s : State) (a : Agent) (r : Reg) (w : Word) : Option State :=
  let v := w.toNat
  match r.name with
  | .SCH_P_CMD => if bitOf v 31 then some (s.schGo a r.i w) else none
  | .SEQ_P_CMD => if bitOf v 31 then some (s.seqGo a r.i w) else none
  | .SCH_P_DOORBELL => some (s.via (execSchedulerDoorbell a r.i (v % 1024) s))
  | .SEQ_P_STEP_CTRL =>
    if bitOf v 31 then
      some ((s.via (execStepBegin a r.i (v % 8192) s)).runTriggers w (if s.agentPart a = r.i then [(30, execStepEnd a r.i), (29, execStepAbort a r.i)] else []))
    else none
  | .HDW_P_BUD => some (s.via (execHdwBudgetWrite a r.i (r.j / 4) (r.j % 4) w s))
  | .BRZ_PHASE => some (s.via (execPhaseWrite a false w s))
  | .WL_TIMING => some (s.via (execPhaseWrite a true w s))
  | .WL_CTRL => some (s.via (execWindlineEnable a w s))
  | .BRZ_L_CTRL => some (s.via (execLoopEnable a r.i w s))
  | .BRZ_MAT_CTRL => some (s.via (execMatrixCommit a (v % 256) s))
  | .TIME_ROB_RATE => some (s.via (execRobRateWrite a w s))
  | .TIME_ROB_ADJ => some (s.via (execRobAdjWrite a w s))
  | .HP_P_MSI => some (s.via (execHpMsiRaise a r.i (v % 256) s))
  | _ => none

/-- The other writes that are commands as a whole. -/
def State.chipRow (s : State) (a : Agent) (r : Reg) (w : Word) : Option State :=
  let v := w.toNat
  match r.name with
  | .SPL_CTRL => if bitOf v 31 then some (s.via (execLoadGo a r.i w s)) else none
  | .BANK_TQ_CTRL => some (s.writeTileQuads a r.i w)
  | .BANK_CQ_CTRL =>
    if bitOf v 31 && s.quadOwner r.i ≠ some (s.agentPart a) then some (s.via (execBankAccept a r.i s)) else none
  | .MEM_P_DQ_TAIL => some (s.via (execDeepQueueTail a r.i (v % 4096) s))
  | .MEM_P_FREE =>
    if bitOf v 31 then some (s.via (execSoftwareFreeAll a r.i s)) else some (s.via (execSoftwareFree a r.i (v % 0x10000) s))
  | .FLT_REC_SEL => some (s.via (execRecSelWrite a w s))
  | .FLT_RESET =>
    if bitOf v 31 then some (s.via (execFltReset a (bitsOf v 30 28) (bitsOf v 27 24) (v % 0x10000) s)) else none
  | _ => none

/-- The trigger bits of engine registers whose other fields a write changes first. -/
def State.engineTriggers (s : State) (a : Agent) (r : Reg) (w : Word) : State :=
  match r.name with
  | .SEQ_P_STEP_CTRL => s.runTriggers w [(30, execStepEnd a r.i), (29, execStepAbort a r.i)]
  | .UPD_PLAN_CTRL => s.runTriggers w [(31, execPlanLoad a r.i), (30, execPlanUnload a r.i)]
  | .SNS_S_CTRL => s.runTriggers w [(30, execClearSuspect a r.i)]
  | .BRZ_CURVE_CTRL => s.runTriggers w [(2, execCurveCommit a r.i)]
  | .NET_P_GATE_CTRL => s.runTriggers w [(31, execGateListGo a r.i)]
  | .TIME_SNAP => s.runTriggers w [(0, execTimeSnap a)]
  | _ => s

/-- The trigger bits of the other registers. -/
def State.chipTriggers (s : State) (a : Agent) (r : Reg) (w : Word) : State :=
  match r.name with
  | .SPL_SVN_COMMIT => s.runTriggers w [(0, execSvnCommit a)]
  | .BANK_CQ_CTRL => s.runTriggers w [(31, execBankAccept a r.i), (30, execBankCancel a r.i),
      (29, execBankOffer a r.i (fieldOf w 27 24) (bitOf w.toNat 28)), (2, execLullRequest a (.commons r.i))]
  | .MEM_P_ALLOC => s.runTriggers w [(31, execSoftwareAlloc a r.i)]
  | .MEM_P_FAR => s.runTriggers w [(0, execFarRekey a r.i)]
  | .FLT_LOG_CTRL => s.runTriggers w [(31, execLogRead a), (30, execLogFlush a)]
  | .WB_REQ => s.runTriggers w [(31, execWbStop a), (30, execWbRelease a)]
  | .GLB_BOOT_CTRL => s.runTriggers w [(31, execBootOk a), (30, execRestart a), (29, execDoldrums a)]
  | _ => s

/-- A plain write that its owner makes: refused, ignored, or applied with what follows from it. -/
def State.ownedWrite (s : State) (a : Agent) (r : Reg) (w : Word) : State :=
  match s.engineRefuses r with
  | some src => s.respErr.record { cls := 0x05, part := s.agentPart a, source := src, address := r.addr }
  | none =>
    if !s.valueOk r w then s.respErr
    else if r.name = .SNS_S_CTRL then ((s.via (execSnsEnable a r.i (bitOf w.toNat 31) s))).engineTriggers a r w
    else
      let t := (s.respOk.plainWrite r w).afterWrite r w
      if r.name = .BRZ_SP_CTRL && bitOf w.toNat 31 && !t.spOk then s.respErr
      else (t.engineTriggers a r w).chipTriggers a r w

/-- A write of a register by an agent.  A WBO register is Windbreak's own (R348); a fence refuses (R337); a write that
is a command takes its row's meaning; else the owner alone writes (R13), except to a section under apply (R37), and a locked
register ignores it (R39).  DESIGN CHOICE (log entry 94): R13 comes before R6, so that a write to a read-only register by an agent that
does not own it is refused with its record, and only the owner's is ignored. -/
def State.writeReg (s : State) (a : Agent) (r : Reg) (w : Word) : State :=
  if r.name.info.wbo then
    (if a = .windbreak then s.respOk.plainWrite r w else s.via (execWboWriteReject a r s))
  else if s.csrFenced a r then s.respErr
  else match s.engineRow a r w with
    | some t => t
    | none => match s.chipRow a r w with
      | some t => t
      | none =>
        if !s.mayWrite a r then s.denied a r.addr
        else if s.underApply r then s.respErr
        else if s.lockedReg r then s.respOk
        else s.ownedWrite a r w

/-! ## Pairs (R8) -/

/-- The register ignores every write (R6). -/
def Reg.readOnly (r : Reg) : Bool := r.rwMask = 0 && r.w1cMask = 0 && r.name.info.trig = 0

/-- A write of a _LO register (R8): held for the agent, with no effect on its own; refused where its owner alone may write (R13),
ignored in a read-only pair. -/
def State.writeLo (s : State) (a : Agent) (lo : Reg) (w : Word) : State :=
  if lo.name.info.wbo && a ≠ .windbreak then s.via (execWboWriteReject a lo s)
  else if !lo.name.info.wbo && s.csrFenced a lo then s.respErr
  else if !lo.name.info.wbo && !s.mayWrite a lo then s.denied a lo.addr
  else if lo.readOnly then s.respOk
  else { s.respOk with heldWrite := alSet s.heldWrite (a, lo) w }

/-- A write of a _HI register (R8): the held low half, if there is one, is applied with it; the low half else stays. -/
def State.writeHi (s : State) (a : Agent) (lo hi : Reg) (w : Word) : State :=
  let held := alGet s.heldWrite (a, lo)
  let s := { s with heldWrite := mapErase (a, lo) s.heldWrite }
  match held with
  | some l =>
    let t := s.writeReg a lo l
    if t.resp.err then t else t.writeReg a hi w
  | none => s.writeReg a hi w

/-- A 32-bit write of CSR space by an agent. -/
def State.csrWrite (s : State) (a : Agent) (x : Nat) (w : Word) : State :=
  match regAt x with
  | none => s.csrNoReg a true x
  | some r =>
    if r.name.pairHi.isSome then s.writeLo a r w
    else match r.name.pairLo with
      | some lo => s.writeHi a { r with name := lo } r w
      | none => s.writeReg a r w

/-! ## Requests to CSR space (R9) -/

/-- A request to CSR space: served where it is an aligned 32-bit access (R5). -/
def State.csrRequest (s : State) (a : Agent) (op : MemOp) : State :=
  match op with
  | .read x n => if n = 4 && x % 4 = 0 then s.csrRead a x else s.csrBad a false x n
  | .write x d => if d.length = 4 && x % 4 = 0 then s.csrWrite a x (BitVec.ofNat 32 (leAt d 0 4)) else s.csrBad a true x d.length

end Sys2Proof.Machine
end

