-- ==== Sys2Proof/Machine/Csr.lean ====
section
/-!
DEFINITION. The commands of the CSR space and of the memory paths (R5, R8, R10, R12, R13).
-/

namespace Sys2Proof.Machine

/-- A CSR access of `n` bytes at `x` that is not an aligned 32-bit access (R5). -/
def execCsrBadAccess (a : Agent) (wr : Bool) (x n : Nat) (s : State) : Host.Outcome State Fault Refusal :=
  .next (if 0x40000000 ≤ x || (n = 4 && x % 4 = 0) then s else s.csrBad a wr x n)

/-- A read of a _LO register captures the upper half for the agent (R8). -/
def execPairLoRead (a : Agent) (x : Nat) (s : State) : Host.Outcome State Fault Refusal :=
  .next (match regAt x with
    | some r => if r.name.pairHi.isSome then s.csrRead a x else s
    | none => s)

/-- A read of a _HI register returns the captured upper half, or the live one where none is held (R8). -/
def execPairHiRead (a : Agent) (x : Nat) (s : State) : Host.Outcome State Fault Refusal :=
  .next (match regAt x with
    | some r => if r.name.pairLo.isSome then s.csrRead a x else s
    | none => s)

/-- A write of a _LO register is held for the agent (R8). -/
def execPairLoWrite (a : Agent) (x : Nat) (w : Word) (s : State) : Host.Outcome State Fault Refusal :=
  .next (match regAt x with
    | some r => if r.name.pairHi.isSome then s.writeLo a r w else s
    | none => s)

/-- A write of a _HI register applies the 64-bit value (R8). -/
def execPairHiWrite (a : Agent) (x : Nat) (w : Word) (s : State) : Host.Outcome State Fault Refusal :=
  .next (match regAt x with
    | some r => (match r.name.pairLo with
      | some lo => s.writeHi a { r with name := lo } r w
      | none => s)
    | none => s)

/-- A write of a register (R6, R13): applied, ignored or refused. -/
def execRegisterWrite (a : Agent) (x : Nat) (w : Word) (s : State) : Host.Outcome State Fault Refusal :=
  .next (match regAt x with
    | some r => if r.name.pairHi.isSome || r.name.pairLo.isSome then s else s.writeReg a r w
    | none => s)

/-- An aligned 32-bit access to a CSR offset that no register occupies (R12, R347). -/
def execUnmappedCsrAccess (a : Agent) (wr : Bool) (x : Nat) (s : State) : Host.Outcome State Fault Refusal :=
  .next (if 0x40000000 ≤ x || x % 4 ≠ 0 || (regAt x).isSome then s else s.csrNoReg a wr x)

/-- A request of an agent to physical memory (R9 to R11): CSR space, a memory path that may be busy, or the SRAM. -/
def execMemoryRequest (a : Agent) (op : MemOp) (busy : Bool) (s : State) : Host.Outcome State Fault Refusal :=
  .next (if op.range.1 < 0x40000000 then s.csrRequest a op else s.memRequest a op busy)

end Sys2Proof.Machine
end

