-- ==== Sys2Proof/Machine/HostAccess.lean ====
section
/-!
DEFINITION. What reaches memory and registers through the host port (R113, R297 to R299): the windows of an endpoint, and outbound
reads that end without data.
-/

namespace Sys2Proof.Machine

/-! ## Inbound requests (R297) -/

/-- A request through a window of partition `p` (R297): to CSR space it is a register access (R5, R12, R13), else a request to memory. -/
def State.windowRequest (s : State) (p : Nat) (op : MemOp) : State :=
  if op.range.1 < 0x40000000 then
    let s := s.csrRequest (.device p) op
    match op with
    | .read _ _ => if s.resp.err then s.hpAnswer .abort else s.hpAnswer (.completion s.resp.data)
    | .write _ _ => s
  else s.memRequest (.device p) op false

/-- An inbound read through window p: agent DEVICE of partition p; its answer comes when it is served. -/
def State.deviceRead (s : State) (off n : Nat) : State :=
  match s.bar2 off n false with
  | none => (s.hpViolation 0x15).hpAnswer .unsupported
  | some (p, a) => if s.accessFenced (.device p) (some 12) then s.hpAnswer .abort else (s.hpAnswer .none).windowRequest p (.read a n)

/-- An inbound write through window p. -/
def State.deviceWrite (s : State) (off : Nat) (d : List Byte) : State :=
  match s.bar2 off d.length true with
  | none => s.hpViolation 0x15
  | some (p, a) => if s.accessFenced (.device p) (some 12) then s else s.windowRequest p (.write a d)

/-! ## Outbound reads without data (R10, R113, R299) -/

/-- The COPY in progress on a tile that reads the far tier. -/
def State.farCopy (s : State) (t : Nat) : Option RunCmd :=
  (s.run t).running.find? (fun c => !c.done && opcodeOf c.words == 3 &&
    (match regionOf (copyArgs c.words).src with | .far _ => true | _ => false))

/-- An outbound read of an agent ends with an error response: a host core takes an access fault, a tile's command ends with
MEM_ERROR (R10). -/
def State.outboundErr (s : State) (a : Agent) (n : Nat) : State :=
  match a with
  | .tile t _ => (match s.farCopy t with
    | some c => s.failCommand t c.words c.slot 4
    | none => s.loadErr a n)
  | _ => s.loadErr a n

/-- HP_INBOUND_TLP (R113, R297 to R299): a transaction of the link partner. -/
def execHpInboundTlp (t : HpTlp) (s : State) : Host.Outcome State Fault Refusal :=
  .next <|
    if !s.hostUp then s
    else match t with
    | .malformed => s.hpViolation 0x11
    | .unexpected => s.hpViolation 0x13
    | .poisonedCompletion a x n => ((s.hpViolation 0x14 (s.agentPart a)).uncorrectable a x).outboundErr a n
    | .write bar off d poisoned =>
      if s.hostMode ≠ 2 then s
      else if poisoned then s.hpViolation 0x14
      else if bar = 0 then s.bar0Store off d
      else s.deviceWrite off d
    | .read bar off n =>
      if s.hostMode ≠ 2 then s
      else if bar = 0 then s.hpAnswer (.completion (s.bar0Bytes off n))
      else s.deviceRead off n

/-- COMPLETION_TIMEOUT (R299, code 0x12): an outbound read of `n` bytes has had no completion for 10 ms; the requester takes an
error response (R10). -/
def execCompletionTimeout (a : Agent) (x n : Nat) (s : State) : Host.Outcome State Fault Refusal :=
  .next (((s.hpViolation 0x12 (s.agentPart a)).refusalRecord a .farDown x).outboundErr a n)

end Sys2Proof.Machine
end

