-- ==== Sys2Proof/Machine/PowerFail.lean ====
section
/-!
DEFINITION. PFAIL_N (R37, R104, R112, R322, R362): what its assertion stops and what its release lets go on.
-/

namespace Sys2Proof.Machine

/-- What PFAIL_N does to the command that a deep queue runs (R104, R112): a PROGRAM that has pages to come ends ABORTED once
its accepted pages have completed; an ERASE stops with its block erase-pending. -/
def State.pfailDeep (s : State) (p : Nat) : State :=
  match alGet s.deep.queues p with
  | none => s
  | some r =>
    if r.status.isSome then s
    else if r.op = 1 then s.setDeepRun p { r with status := some 6, dies := [] }
    else if r.op = 2 && r.accepted < r.pageCount then s.setDeepRun p { r with status := some 6 }
    else s

/-- Before OK, COUNT returns to its value before S1 (R362): the mirror is rewritten only where R111 passes. -/
def State.pfailCount (s : State) : State :=
  let st := s.fld .GLB_BOOT_STATUS 31 28
  if s.fld .GLB_BOOT_STATUS 25 24 = 0 || s.boot.pfailSeen || st < 2 then s
  else
    let s := s.wrF .GLB_BOOT_STATUS 25 24 s.boot.countBefore
    let s := { s with boot := { s.boot with pfailSeen := true } }
    if s.storeOk then s.mirror else s

/-- PFAIL_N asserts (R112): no further store, erases stop, a load before its fence ends, a squall (R322). -/
def execPfailAssert (s : State) : Host.Outcome State Fault Refusal :=
  .next <|
    if !s.pins.pfailN then s
    else
      let s := s.pfailCount
      let s := { s with pins := { s.pins with pfailN := false } }.setB .MEM_DEEP_STATUS 22
      let s := match s.spl.load with
        | some l => if l.phase = .fence || l.phase = .apply then s else s.abortLoad
        | none => s
      ((List.range 8).foldl State.pfailDeep s).startSquall

/-- PFAIL_N deasserts (R112): queued stores proceed under R111; the squall's hold starts once both signals are released
(R322). -/
def execPfailDeassert (s : State) : Host.Outcome State Fault Refusal :=
  .next <|
    if s.pins.pfailN then s
    else
      let s := { s with pins := { s.pins with pfailN := true } }.clrB .MEM_DEEP_STATUS 22
      s.resumeStores.startHold

end Sys2Proof.Machine
end

