-- ==== Sys2Proof/Machine/Dispatch.lean ====
section
/-!
DEFINITION. The dispatch of a command to its meaning: one arm per constructor of `Instr`, each one direct call.
-/

namespace Sys2Proof.Machine

/-- The effect of one command on everything but the queue. -/
def exec (i : Instr) (s : State) : Host.Outcome State Fault Refusal :=
  match i with
  | .csrBadAccess a wr x n => Sys2Proof.Machine.execCsrBadAccess a wr x n s
  | .pairLoRead a x => Sys2Proof.Machine.execPairLoRead a x s
  | .pairHiRead a x => Sys2Proof.Machine.execPairHiRead a x s
  | .pairLoWrite a x w => Sys2Proof.Machine.execPairLoWrite a x w s
  | .pairHiWrite a x w => Sys2Proof.Machine.execPairHiWrite a x w s
  | .registerWrite a x w => Sys2Proof.Machine.execRegisterWrite a x w s
  | .unmappedCsrAccess a wr x => Sys2Proof.Machine.execUnmappedCsrAccess a wr x s
  | .memoryRequest a op busy => Sys2Proof.Machine.execMemoryRequest a op busy s
  | .loadGo a bank w => Sys2Proof.Machine.execLoadGo a bank w s
  | .loadHeaderRead => Sys2Proof.Machine.execLoadHeaderRead s
  | .loadDigestDone => Sys2Proof.Machine.execLoadDigestDone s
  | .loadSectionsChecked => Sys2Proof.Machine.execLoadSectionsChecked s
  | .loadFenceDone served => Sys2Proof.Machine.execLoadFenceDone served s
  | .loadApplyDone failed => Sys2Proof.Machine.execLoadApplyDone failed s
  | .svnCommit a => Sys2Proof.Machine.execSvnCommit a s
  | .svnCommitDone => Sys2Proof.Machine.execSvnCommitDone s
  | .nop t => Sys2Proof.Machine.execNop t s
  | .matmul t => Sys2Proof.Machine.execMatmul t s
  | .ewise t => Sys2Proof.Machine.execEwise t s
  | .copyCmd t => Sys2Proof.Machine.execCopyCmd t s
  | .scan t => Sys2Proof.Machine.execScan t s
  | .waitCmd t => Sys2Proof.Machine.execWaitCmd t s
  | .waitSatisfied t => Sys2Proof.Machine.execWaitSatisfied t s
  | .waitPoll t => Sys2Proof.Machine.execWaitPoll t s
  | .waitTimeout t => Sys2Proof.Machine.execWaitTimeout t s
  | .signal t => Sys2Proof.Machine.execSignal t s
  | .reservedOpcode t => Sys2Proof.Machine.execReservedOpcode t s
  | .commandComplete t k => Sys2Proof.Machine.execCommandComplete t k s
  | .curveCommit a c => Sys2Proof.Machine.execCurveCommit a c s
  | .bankOffer a q target clear => Sys2Proof.Machine.execBankOffer a q target clear s
  | .bankAccept a q => Sys2Proof.Machine.execBankAccept a q s
  | .bankCancel a q => Sys2Proof.Machine.execBankCancel a q s
  | .handoverDrainDone q => Sys2Proof.Machine.execHandoverDrainDone q s
  | .handoverDrainTimeout q => Sys2Proof.Machine.execHandoverDrainTimeout q s
  | .handoverDone q => Sys2Proof.Machine.execHandoverDone q s
  | .testRegionStart u => Sys2Proof.Machine.execTestRegionStart u s
  | .testStarved u => Sys2Proof.Machine.execTestStarved u s
  | .testRegionDone u passed => Sys2Proof.Machine.execTestRegionDone u passed s
  | .lullIdleExpiry x => Sys2Proof.Machine.execLullIdleExpiry x s
  | .lullRequest a x => Sys2Proof.Machine.execLullRequest a x s
  | .lullWake x => Sys2Proof.Machine.execLullWake x s
  | .wakeDone x => Sys2Proof.Machine.execWakeDone x s
  | .extentRequest p h pinned => Sys2Proof.Machine.execExtentRequest p h pinned s
  | .extentAssigned e => Sys2Proof.Machine.execExtentAssigned e s
  | .softwareAlloc a p => Sys2Proof.Machine.execSoftwareAlloc a p s
  | .softwareFree a p e => Sys2Proof.Machine.execSoftwareFree a p e s
  | .softwareFreeAll a p => Sys2Proof.Machine.execSoftwareFreeAll a p s
  | .ageTick => Sys2Proof.Machine.execAgeTick s
  | .deepQueueTail a p tail => Sys2Proof.Machine.execDeepQueueTail a p tail s
  | .eraseDeep p => Sys2Proof.Machine.execEraseDeep p s
  | .programDeep p => Sys2Proof.Machine.execProgramDeep p s
  | .syncDeep p => Sys2Proof.Machine.execSyncDeep p s
  | .infoDeep p => Sys2Proof.Machine.execInfoDeep p s
  | .pageProgramDone p g ok => Sys2Proof.Machine.execPageProgramDone p g ok s
  | .dieEraseDone p die ok => Sys2Proof.Machine.execDieEraseDone p die ok s
  | .deepCommandDone p => Sys2Proof.Machine.execDeepCommandDone p s
  | .deepReadDone a g ok => Sys2Proof.Machine.execDeepReadDone a g ok s
  | .readDisturbLimit b die => Sys2Proof.Machine.execReadDisturbLimit b die s
  | .refreshDone die => Sys2Proof.Machine.execRefreshDone die s
  | .scrubRead g weak ok => Sys2Proof.Machine.execScrubRead g weak ok s
  | .deepHot => Sys2Proof.Machine.execDeepHot s
  | .deepCooled => Sys2Proof.Machine.execDeepCooled s
  | .wusedHour => Sys2Proof.Machine.execWusedHour s
  | .holdupSample code => Sys2Proof.Machine.execHoldupSample code s
  | .pfailAssert => Sys2Proof.Machine.execPfailAssert s
  | .pfailDeassert => Sys2Proof.Machine.execPfailDeassert s
  | .farRekey a p => Sys2Proof.Machine.execFarRekey a p s
  | .planLoad a n => Sys2Proof.Machine.execPlanLoad a n s
  | .planLoadDone n => Sys2Proof.Machine.execPlanLoadDone n s
  | .planUnload a n => Sys2Proof.Machine.execPlanUnload a n s
  | .gateWait t => Sys2Proof.Machine.execGateWait t s
  | .gateAnnounce t => Sys2Proof.Machine.execGateAnnounce t s
  | .layerComplete n k l => Sys2Proof.Machine.execLayerComplete n k l s
  | .expertFetchDone n e => Sys2Proof.Machine.execExpertFetchDone n e s
  | .stallLimit t => Sys2Proof.Machine.execStallLimit t s
  | .gateTimeout t => Sys2Proof.Machine.execGateTimeout t s
  | .openSeq a p rsv => Sys2Proof.Machine.execOpenSeq a p rsv s
  | .closeSeq a p rsv => Sys2Proof.Machine.execCloseSeq a p rsv s
  | .fork a p rsv => Sys2Proof.Machine.execFork a p rsv s
  | .truncate a p rsv => Sys2Proof.Machine.execTruncate a p rsv s
  | .stepBegin a p count => Sys2Proof.Machine.execStepBegin a p count s
  | .stepEnd a p => Sys2Proof.Machine.execStepEnd a p s
  | .stepCommit p => Sys2Proof.Machine.execStepCommit p s
  | .stepAbort a p => Sys2Proof.Machine.execStepAbort a p s
  | .feedPageSend p k => Sys2Proof.Machine.execFeedPageSend p k s
  | .allocCtx a p rsv => Sys2Proof.Machine.execAllocCtx a p rsv s
  | .admitCtx a p rsv => Sys2Proof.Machine.execAdmitCtx a p rsv s
  | .hold a p rsv => Sys2Proof.Machine.execHold a p rsv s
  | .resume a p rsv => Sys2Proof.Machine.execResume a p rsv s
  | .freeCtx a p rsv => Sys2Proof.Machine.execFreeCtx a p rsv s
  | .schedulerDoorbell a p j => Sys2Proof.Machine.execSchedulerDoorbell a p j s
  | .jobPlace j => Sys2Proof.Machine.execJobPlace j s
  | .sliceEnd j => Sys2Proof.Machine.execSliceEnd j s
  | .cheap t => Sys2Proof.Machine.execCheap t s
  | .switchAtCheap j => Sys2Proof.Machine.execSwitchAtCheap j s
  | .liveSaveDone j => Sys2Proof.Machine.execLiveSaveDone j s
  | .liveRestoreDone j => Sys2Proof.Machine.execLiveRestoreDone j s
  | .spanWatchdog t => Sys2Proof.Machine.execSpanWatchdog t s
  | .rtParkRequest j => Sys2Proof.Machine.execRtParkRequest j s
  | .rtRelease j => Sys2Proof.Machine.execRtRelease j s
  | .collective t => Sys2Proof.Machine.execCollective t s
  | .collectiveDone t => Sys2Proof.Machine.execCollectiveDone t s
  | .collectiveTimeout t => Sys2Proof.Machine.execCollectiveTimeout t s
  | .hdwWindowStart => Sys2Proof.Machine.execHdwWindowStart s
  | .requestAged k target => Sys2Proof.Machine.execRequestAged k target s
  | .requestUrgent k => Sys2Proof.Machine.execRequestUrgent k s
  | .hdwBudgetWrite a p k n w => Sys2Proof.Machine.execHdwBudgetWrite a p k n w s
  | .snsEnable a n on => Sys2Proof.Machine.execSnsEnable a n on s
  | .clearSuspect a n => Sys2Proof.Machine.execClearSuspect a n s
  | .csi2FrameStart port vc ecc => Sys2Proof.Machine.execCsi2FrameStart port vc ecc s
  | .csi2FrameEnd port vc ecc payload crcBad => Sys2Proof.Machine.execCsi2FrameEnd port vc ecc payload crcBad s
  | .ethSampleDatagram port udp mac data => Sys2Proof.Machine.execEthSampleDatagram port udp mac data s
  | .spiDataReady n => Sys2Proof.Machine.execSpiDataReady n s
  | .spiBurstDone n data => Sys2Proof.Machine.execSpiBurstDone n data s
  | .i3cIbi port addr => Sys2Proof.Machine.execI3cIbi port addr s
  | .i3cReadDone port addr data => Sys2Proof.Machine.execI3cReadDone port addr data s
  | .tdmFrameSync n slots => Sys2Proof.Machine.execTdmFrameSync n slots s
  | .sampleWrite n => Sys2Proof.Machine.execSampleWrite n s
  | .sampleIncompleteTimeout n => Sys2Proof.Machine.execSampleIncompleteTimeout n s
  | .streamLostTimeout n => Sys2Proof.Machine.execStreamLostTimeout n s
  | .unsyncClearTimeout n => Sys2Proof.Machine.execUnsyncClearTimeout n s
  | .xwInputEntry => Sys2Proof.Machine.execXwInputEntry s
  | .instantEmit k => Sys2Proof.Machine.execInstantEmit k s
  | .gridHoldExpiry k => Sys2Proof.Machine.execGridHoldExpiry k s
  | .emissionDone => Sys2Proof.Machine.execEmissionDone s
  | .auctionTimeout => Sys2Proof.Machine.execAuctionTimeout s
  | .proxTick => Sys2Proof.Machine.execProxTick s
  | .levelHoldExpiry => Sys2Proof.Machine.execLevelHoldExpiry s
  | .epochPublished => Sys2Proof.Machine.execEpochPublished s
  | .goal => Sys2Proof.Machine.execGoal s
  | .arm => Sys2Proof.Machine.execArm s
  | .cancel => Sys2Proof.Machine.execCancel s
  | .modelLoad => Sys2Proof.Machine.execModelLoad s
  | .voxels => Sys2Proof.Machine.execVoxels s
  | .layerMode => Sys2Proof.Machine.execLayerMode s
  | .mapCopy => Sys2Proof.Machine.execMapCopy s
  | .globalTick => Sys2Proof.Machine.execGlobalTick s
  | .globalDone => Sys2Proof.Machine.execGlobalDone s
  | .repairTick => Sys2Proof.Machine.execRepairTick s
  | .repairDone => Sys2Proof.Machine.execRepairDone s
  | .stageTimeout st => Sys2Proof.Machine.execStageTimeout st s
  | .outputTick => Sys2Proof.Machine.execOutputTick s
  | .cycleStart => Sys2Proof.Machine.execCycleStart s
  | .latch => Sys2Proof.Machine.execLatch s
  | .windlineFrameReturn frame fcsOk => Sys2Proof.Machine.execWindlineFrameReturn frame fcsOk s
  | .rxDeadline => Sys2Proof.Machine.execRxDeadline s
  | .loopRunStart n => Sys2Proof.Machine.execLoopRunStart n s
  | .endRun n => Sys2Proof.Machine.execEndRun n s
  | .ldin n => Sys2Proof.Machine.execLdin n s
  | .ldsp n => Sys2Proof.Machine.execLdsp n s
  | .ldk n => Sys2Proof.Machine.execLdk n s
  | .lds n => Sys2Proof.Machine.execLds n s
  | .sts n => Sys2Proof.Machine.execSts n s
  | .outOp n => Sys2Proof.Machine.execOutOp n s
  | .addOp n => Sys2Proof.Machine.execAddOp n s
  | .subOp n => Sys2Proof.Machine.execSubOp n s
  | .mulOp n => Sys2Proof.Machine.execMulOp n s
  | .mac n => Sys2Proof.Machine.execMac n s
  | .clamp n => Sys2Proof.Machine.execClamp n s
  | .minOp n => Sys2Proof.Machine.execMinOp n s
  | .maxOp n => Sys2Proof.Machine.execMaxOp n s
  | .negOp n => Sys2Proof.Machine.execNegOp n s
  | .absOp n => Sys2Proof.Machine.execAbsOp n s
  | .divOp n => Sys2Proof.Machine.execDivOp n s
  | .sqrtOp n => Sys2Proof.Machine.execSqrtOp n s
  | .curve n => Sys2Proof.Machine.execCurve n s
  | .cvt n => Sys2Proof.Machine.execCvt n s
  | .err n => Sys2Proof.Machine.execErr n s
  | .ldv n => Sys2Proof.Machine.execLdv n s
  | .stv n => Sys2Proof.Machine.execStv n s
  | .chol n => Sys2Proof.Machine.execChol n s
  | .cholDone => Sys2Proof.Machine.execCholDone s
  | .deadline => Sys2Proof.Machine.execDeadline s
  | .loopEnable a n w => Sys2Proof.Machine.execLoopEnable a n w s
  | .matrixCommit a mask => Sys2Proof.Machine.execMatrixCommit a mask s
  | .phaseWrite a timing w => Sys2Proof.Machine.execPhaseWrite a timing w s
  | .windlineEnable a w => Sys2Proof.Machine.execWindlineEnable a w s
  | .windlinePortDown p => Sys2Proof.Machine.execWindlinePortDown p s
  | .robRateWrite a v => Sys2Proof.Machine.execRobRateWrite a v s
  | .robAdjWrite a v => Sys2Proof.Machine.execRobAdjWrite a v s
  | .slewDone => Sys2Proof.Machine.execSlewDone s
  | .timeSnap a => Sys2Proof.Machine.execTimeSnap a s
  | .ptpSyncRx k m twoStep => Sys2Proof.Machine.execPtpSyncRx k m twoStep s
  | .ptpFollowUpRx k m => Sys2Proof.Machine.execPtpFollowUpRx k m s
  | .ptpAnnounceRx k m an => Sys2Proof.Machine.execPtpAnnounceRx k m an s
  | .ptpDelayRespRx k m => Sys2Proof.Machine.execPtpDelayRespRx k m s
  | .ptpPdelayReqRx k m => Sys2Proof.Machine.execPtpPdelayReqRx k m s
  | .ptpPdelayRespRx k m => Sys2Proof.Machine.execPtpPdelayRespRx k m s
  | .ptpSyncInterval k => Sys2Proof.Machine.execPtpSyncInterval k s
  | .ptpAnnounceInterval k => Sys2Proof.Machine.execPtpAnnounceInterval k s
  | .ptpDelayReqInterval k => Sys2Proof.Machine.execPtpDelayReqInterval k s
  | .announceTimeout k => Sys2Proof.Machine.execAnnounceTimeout k s
  | .holdoverExpiry k => Sys2Proof.Machine.execHoldoverExpiry k s
  | .masterDisqualifyExpiry k sender => Sys2Proof.Machine.execMasterDisqualifyExpiry k sender s
  | .ethFrameRx n frame fcsOk => Sys2Proof.Machine.execEthFrameRx n frame fcsOk s
  | .gateListGo a n => Sys2Proof.Machine.execGateListGo a n s
  | .configChange n => Sys2Proof.Machine.execConfigChange n s
  | .gateIntervalExpiry n => Sys2Proof.Machine.execGateIntervalExpiry n s
  | .ethLinkChange n up => Sys2Proof.Machine.execEthLinkChange n up s
  | .portHoldDownExpiry n => Sys2Proof.Machine.execPortHoldDownExpiry n s
  | .hpLinkTrained rate width ltssm gib => Sys2Proof.Machine.execHpLinkTrained rate width ltssm gib s
  | .hpInboundTlp t => Sys2Proof.Machine.execHpInboundTlp t s
  | .hpDoorbellWrite p v => Sys2Proof.Machine.execHpDoorbellWrite p v s
  | .hpMsiRaise a p mask => Sys2Proof.Machine.execHpMsiRaise a p mask s
  | .completionTimeout a x n => Sys2Proof.Machine.execCompletionTimeout a x n s
  | .surpriseLinkDown => Sys2Proof.Machine.execSurpriseLinkDown s
  | .hpRetrainTimer => Sys2Proof.Machine.execHpRetrainTimer s
  | .powerTick cnt => Sys2Proof.Machine.execPowerTick cnt s
  | .telemetryReading r x => Sys2Proof.Machine.execTelemetryReading r x s
  | .telemetryPeriod => Sys2Proof.Machine.execTelemetryPeriod s
  | .railNoReading r => Sys2Proof.Machine.execRailNoReading r s
  | .voltageSettled r => Sys2Proof.Machine.execVoltageSettled r s
  | .gateIdleExpiry t => Sys2Proof.Machine.execGateIdleExpiry t s
  | .tempSample l => Sys2Proof.Machine.execTempSample l s
  | .overtempPersist k => Sys2Proof.Machine.execOvertempPersist k s
  | .deepLimitStep => Sys2Proof.Machine.execDeepLimitStep s
  | .fmaxRederive t mhz => Sys2Proof.Machine.execFmaxRederive t mhz s
  | .galeTrip => Sys2Proof.Machine.execGaleTrip s
  | .galeRecord => Sys2Proof.Machine.execGaleRecord s
  | .squallAssert fault => Sys2Proof.Machine.execSquallAssert fault s
  | .squallRelease => Sys2Proof.Machine.execSquallRelease s
  | .squallHoldExpiry => Sys2Proof.Machine.execSquallHoldExpiry s
  | .squallPersist => Sys2Proof.Machine.execSquallPersist s
  | .tileWakeAdmit => Sys2Proof.Machine.execTileWakeAdmit s
  | .faultDetected f words segs corrected => Sys2Proof.Machine.execFaultDetected f words segs corrected s
  | .fenceDrainDone n served => Sys2Proof.Machine.execFenceDrainDone n served s
  | .fenceConfirmTimeout n => Sys2Proof.Machine.execFenceConfirmTimeout n s
  | .recoveryRelease n failed => Sys2Proof.Machine.execRecoveryRelease n failed s
  | .fltReset a rung part target => Sys2Proof.Machine.execFltReset a rung part target s
  | .logFlushTimer => Sys2Proof.Machine.execLogFlushTimer s
  | .logFlush a => Sys2Proof.Machine.execLogFlush a s
  | .logRead a => Sys2Proof.Machine.execLogRead a s
  | .recSelWrite a v => Sys2Proof.Machine.execRecSelWrite a v s
  | .lockstepMismatch active standby => Sys2Proof.Machine.execLockstepMismatch active standby s
  | .wboWriteReject a r => Sys2Proof.Machine.execWboWriteReject a r s
  | .estopSample low => Sys2Proof.Machine.execEstopSample low s
  | .stopTimeExpiry => Sys2Proof.Machine.execStopTimeExpiry s
  | .wbStop a => Sys2Proof.Machine.execWbStop a s
  | .wbRelease a => Sys2Proof.Machine.execWbRelease a s
  | .porstAssert aon => Sys2Proof.Machine.execPorstAssert aon s
  | .porstRelease => Sys2Proof.Machine.execPorstRelease s
  | .stageS0Done => Sys2Proof.Machine.execStageS0Done s
  | .stageS1Done fz => Sys2Proof.Machine.execStageS1Done fz s
  | .stageS2Done f0 f1 => Sys2Proof.Machine.execStageS2Done f0 f1 s
  | .stageS3Done ok addr quads => Sys2Proof.Machine.execStageS3Done ok addr quads s
  | .stageS4Done results => Sys2Proof.Machine.execStageS4Done results s
  | .stageS5Done => Sys2Proof.Machine.execStageS5Done s
  | .stageS6Done => Sys2Proof.Machine.execStageS6Done s
  | .stageS7Release => Sys2Proof.Machine.execStageS7Release s
  | .bootOk a => Sys2Proof.Machine.execBootOk a s
  | .restart a => Sys2Proof.Machine.execRestart a s
  | .doldrums a => Sys2Proof.Machine.execDoldrums a s
  | .bootWatchdogExpiry => Sys2Proof.Machine.execBootWatchdogExpiry s
  | .maintRequest m => Sys2Proof.Machine.execMaintRequest m s
  | .refclk1Loss => Sys2Proof.Machine.execRefclk1Loss s
  | .crystalLoss => Sys2Proof.Machine.execCrystalLoss s
  | .armSearchDone => Sys2Proof.Machine.execArmSearchDone s
  | .ptpDelayReqRx k m => Sys2Proof.Machine.execPtpDelayReqRx k m s
  | .tdmClockLoss port => Sys2Proof.Machine.execTdmClockLoss port s
  | .squallHeldExpiry => Sys2Proof.Machine.execSquallHeldExpiry s
  | .uncorrectableFec => Sys2Proof.Machine.execUncorrectableFec s

end Sys2Proof.Machine
end

