-- ==== Sys2Proof/Machine/Idle.lean ====
section
/-!
DEFINITION. What happens when no command waits: the raw counter advances, each memory path serves a request, and each switch
port sends a frame.
-/

namespace Sys2Proof.Machine

/-- The tile clocks over one nanosecond (TILE_CYCLES): CUR_MHZ thousandths of a cycle. -/
def State.tickClocks (s : State) : State :=
  { s with pwr := { s.pwr with clocks := (List.range 68).map (fun t => s.pwr.clocks.getD t 0 + s.fld .TILE_FREQ 15 0 t) } }

/-- One tick of the raw counter (R278), in which each path serves the first of its waiting requests (R206) and each port sends a
frame whose gate is open; requests for an extent that wait are tried again (R91), and flushes whose extent is assigned go on (R151).  DESIGN
CHOICE: a step on an empty queue is one nanosecond, one request for each path and one frame for
each port.  The counter stands while PORST_N is low or the crystal is lost (R278, R379); the always-on domain goes on counting how long
a recovery takes (R383). -/
def State.idleTick (s : State) : State :=
  let s := if s.pins.porstN && s.boot.crystal then { s.tickClocks with now := s.now + 1 }
    else { s with flt := { s.flt with recoveries := s.flt.recoveries.map (fun (r : Recovery) => { r with spent := r.spent + 1 }) } }
  (List.range 12).foldl State.netServe ([0, 1, 2].foldl State.hdwServe ((List.range 8).foldl State.goOn s.retryExtents))

end Sys2Proof.Machine
end

