-- ==== Sys2Proof/WellFormed.lean ====
section
/-!
DEFINITION. Well-formed commands: the operands lie in the ranges that the manual gives the things they name.
-/

namespace Sys2Proof

open Sys2Proof.Machine

/-- An agent exists: 16 host cores (R9), 68 tiles, 16 engines (R382), 8 partitions. -/
def Machine.Agent.wf : Agent → Bool
  | .core n => n < 16
  | .tile t p => t < 68 && p < 8
  | .engine e _ => e < 16
  | .device p => p < 8
  | .windbreak | .maint => true

/-- A holder of a pool extent names one of the 64 plan slots (R136). -/
def Machine.Holder.wf : Holder → Bool
  | .updraft n => n < 64
  | .software | .seqEngine => true

/-- A request touches at least one byte of the 48-bit physical address space (R9). -/
def Machine.MemOp.wf : MemOp → Bool
  | .read a n => 0 < n && a + n ≤ 2 ^ 48
  | .write a d => !d.isEmpty && a + d.length ≤ 2 ^ 48

/-- A command's operands are in range. -/
def Instr.wf : Instr → Bool
  | .csrBadAccess a _ x _ => a.wf && x < 0x40000000
  | .pairLoRead a x => a.wf && (match regAt x with | some r => r.name.pairHi.isSome | none => false)
  | .pairHiRead a x => a.wf && (match regAt x with | some r => r.name.pairLo.isSome | none => false)
  | .pairLoWrite a x _ => a.wf && (match regAt x with | some r => r.name.pairHi.isSome | none => false)
  | .pairHiWrite a x _ => a.wf && (match regAt x with | some r => r.name.pairLo.isSome | none => false)
  | .registerWrite a x _ => a.wf && (regAt x).isSome
  | .unmappedCsrAccess a _ x => a.wf && (x < 0x40000000 && x % 4 == 0)
  | .memoryRequest a op _ => a.wf && op.wf
  | .loadGo a bank _ => a.wf && bank < 8
  | .loadHeaderRead => true
  | .loadDigestDone => true
  | .loadSectionsChecked => true
  | .loadFenceDone _ => true
  | .loadApplyDone _ => true
  | .svnCommit a => a.wf
  | .svnCommitDone => true
  | .nop t => t < 68
  | .matmul t => t < 68
  | .ewise t => t < 68
  | .copyCmd t => t < 68
  | .scan t => t < 68
  | .waitCmd t => t < 68
  | .waitSatisfied t => t < 68
  | .waitPoll t => t < 68
  | .waitTimeout t => t < 68
  | .signal t => t < 68
  | .reservedOpcode t => t < 68
  | .commandComplete t k => t < 68 && k < 16
  | .curveCommit a c => a.wf && c < 32
  | .bankOffer a q target _ => a.wf && q < 16 && target < 16
  | .bankAccept a q => a.wf && q < 16
  | .bankCancel a q => a.wf && q < 16
  | .handoverDrainDone q => q < 16
  | .handoverDrainTimeout q => q < 16
  | .handoverDone q => q < 16
  | .testRegionStart u => u.exists
  | .testStarved u => u.exists
  | .testRegionDone u _ => u.exists
  | .lullIdleExpiry x => x.exists
  | .lullRequest a x => a.wf && x.exists
  | .lullWake x => x.exists
  | .wakeDone x => x.exists
  | .extentRequest p h _ => p < 8 && h.wf
  | .extentAssigned e => e < 65536
  | .softwareAlloc a p => a.wf && p < 8
  | .softwareFree a p e => a.wf && p < 8 && e < 65536
  | .softwareFreeAll a p => a.wf && p < 8
  | .ageTick => true
  | .deepQueueTail a p tail => a.wf && p < 8 && tail < 4096
  | .eraseDeep p => p < 8
  | .programDeep p => p < 8
  | .syncDeep p => p < 8
  | .infoDeep p => p < 8
  | .pageProgramDone p g _ => p < 8 && g < 62914560
  | .dieEraseDone p die _ => p < 8 && die < 128
  | .deepCommandDone p => p < 8
  | .deepReadDone a g _ => a.wf && g < 62914560
  | .readDisturbLimit b die => b < 1920 && die < 128
  | .refreshDone die => die < 128
  | .scrubRead g _ _ => g < 62914560
  | .deepHot => true
  | .deepCooled => true
  | .wusedHour => true
  | .holdupSample code => code < 4096
  | .pfailAssert => true
  | .pfailDeassert => true
  | .farRekey a p => a.wf && p < 8
  | .planLoad a n => a.wf && n < 64
  | .planLoadDone n => n < 64
  | .planUnload a n => a.wf && n < 64
  | .gateWait t => t < 68
  | .gateAnnounce t => t < 68
  | .layerComplete n k l => n < 64 && k < 64 && l < 1048576
  | .expertFetchDone n _ => n < 64
  | .stallLimit t => t < 68
  | .gateTimeout t => t < 68
  | .openSeq a p _ => a.wf && p < 8
  | .closeSeq a p _ => a.wf && p < 8
  | .fork a p _ => a.wf && p < 8
  | .truncate a p _ => a.wf && p < 8
  | .stepBegin a p count => a.wf && p < 8 && count < 8192
  | .stepEnd a p => a.wf && p < 8
  | .stepCommit p => p < 8
  | .stepAbort a p => a.wf && p < 8
  | .feedPageSend p k => p < 8 && k < 64
  | .allocCtx a p _ => a.wf && p < 8
  | .admitCtx a p _ => a.wf && p < 8
  | .hold a p _ => a.wf && p < 8
  | .resume a p _ => a.wf && p < 8
  | .freeCtx a p _ => a.wf && p < 8
  | .schedulerDoorbell a p j => a.wf && p < 8 && j < 1024
  | .jobPlace j => j < 1024
  | .sliceEnd j => j < 1024
  | .cheap t => t < 68
  | .switchAtCheap j => j < 1024
  | .liveSaveDone j => j < 1024
  | .liveRestoreDone j => j < 1024
  | .spanWatchdog t => t < 68
  | .rtParkRequest j => j < 1024
  | .rtRelease j => j < 1024
  | .collective t => t < 68
  | .collectiveDone t => t < 68
  | .collectiveTimeout t => t < 68
  | .hdwWindowStart => true
  | .requestAged _ _ => true
  | .requestUrgent _ => true
  | .hdwBudgetWrite a p k n _ => a.wf && p < 8 && k < 5 && n < 3
  | .snsEnable a n _ => a.wf && n < 32
  | .clearSuspect a n => a.wf && n < 32
  | .csi2FrameStart _ vc ecc => vc < 16 && ecc < 3
  | .csi2FrameEnd _ vc ecc _ _ => vc < 16 && ecc < 3
  | .ethSampleDatagram port udp _ _ => port < 8 && udp < 65536
  | .spiDataReady n => n < 32
  | .spiBurstDone n _ => n < 32
  | .i3cIbi _ addr => addr < 128
  | .i3cReadDone _ addr _ => addr < 128
  | .tdmFrameSync n _ => n < 32
  | .sampleWrite n => n < 32
  | .sampleIncompleteTimeout n => n < 32
  | .streamLostTimeout n => n < 32
  | .unsyncClearTimeout n => n < 32
  | .xwInputEntry => true
  | .instantEmit _ => true
  | .gridHoldExpiry _ => true
  | .emissionDone => true
  | .auctionTimeout => true
  | .proxTick => true
  | .levelHoldExpiry => true
  | .epochPublished => true
  | .goal => true
  | .arm => true
  | .cancel => true
  | .modelLoad => true
  | .voxels => true
  | .layerMode => true
  | .mapCopy => true
  | .globalTick => true
  | .globalDone => true
  | .repairTick => true
  | .repairDone => true
  | .stageTimeout _ => true
  | .outputTick => true
  | .cycleStart => true
  | .latch => true
  | .windlineFrameReturn _ _ => true
  | .rxDeadline => true
  | .loopRunStart n => n < 128
  | .endRun n => n < 128
  | .ldin n => n < 128
  | .ldsp n => n < 128
  | .ldk n => n < 128
  | .lds n => n < 128
  | .sts n => n < 128
  | .outOp n => n < 128
  | .addOp n => n < 128
  | .subOp n => n < 128
  | .mulOp n => n < 128
  | .mac n => n < 128
  | .clamp n => n < 128
  | .minOp n => n < 128
  | .maxOp n => n < 128
  | .negOp n => n < 128
  | .absOp n => n < 128
  | .divOp n => n < 128
  | .sqrtOp n => n < 128
  | .curve n => n < 128
  | .cvt n => n < 128
  | .err n => n < 128
  | .ldv n => n < 128
  | .stv n => n < 128
  | .chol n => n < 128
  | .cholDone => true
  | .deadline => true
  | .loopEnable a n _ => a.wf && n < 128
  | .matrixCommit a mask => a.wf && mask < 256
  | .phaseWrite a _ _ => a.wf
  | .windlineEnable a _ => a.wf
  | .windlinePortDown p => p < 2
  | .robRateWrite a _ => a.wf
  | .robAdjWrite a _ => a.wf
  | .slewDone => true
  | .timeSnap a => a.wf
  | .ptpSyncRx k m _ => (1 ≤ k && k ≤ 4) && m.port < 8
  | .ptpFollowUpRx k m => (1 ≤ k && k ≤ 4) && m.port < 8
  | .ptpAnnounceRx k m _ => (1 ≤ k && k ≤ 4) && m.port < 8
  | .ptpDelayRespRx k m => (1 ≤ k && k ≤ 4) && m.port < 8
  | .ptpPdelayReqRx k m => (1 ≤ k && k ≤ 4) && m.port < 8
  | .ptpPdelayRespRx k m => (1 ≤ k && k ≤ 4) && m.port < 8
  | .ptpSyncInterval k => 1 ≤ k && k ≤ 4
  | .ptpAnnounceInterval k => 1 ≤ k && k ≤ 4
  | .ptpDelayReqInterval k => 1 ≤ k && k ≤ 4
  | .announceTimeout k => 1 ≤ k && k ≤ 4
  | .holdoverExpiry k => 1 ≤ k && k ≤ 4
  | .masterDisqualifyExpiry k _ => 1 ≤ k && k ≤ 4
  | .ethFrameRx n _ _ => n < 12
  | .gateListGo a n => a.wf && n < 12
  | .configChange n => n < 12
  | .gateIntervalExpiry n => n < 12
  | .ethLinkChange n _ => n < 8
  | .portHoldDownExpiry n => n < 8
  | .hpLinkTrained rate width ltssm gib => (4 ≤ rate && rate ≤ 6) && [1, 2, 4, 8].contains width && ltssm < 256 && (match gib with | some g => g ≤ 4096 | none => true)
  | .hpInboundTlp _ => true
  | .hpDoorbellWrite p _ => p < 8
  | .hpMsiRaise a p mask => a.wf && p < 8 && mask < 256
  | .completionTimeout a _ n => a.wf && 0 < n
  | .surpriseLinkDown => true
  | .hpRetrainTimer => true
  | .powerTick _ => true
  | .telemetryReading r _ => r < 13
  | .telemetryPeriod => true
  | .railNoReading r => r < 13
  | .voltageSettled r => r < 3
  | .gateIdleExpiry t => t < 68
  | .tempSample l => l.length == 85
  | .overtempPersist k => k < 85
  | .deepLimitStep => true
  | .fmaxRederive t mhz => t < 68 && mhz ≤ 1400
  | .galeTrip => true
  | .galeRecord => true
  | .squallAssert _ => true
  | .squallRelease => true
  | .squallHoldExpiry => true
  | .squallPersist => true
  | .tileWakeAdmit => true
  | .faultDetected _ _ _ _ => true
  | .fenceDrainDone _ _ => true
  | .fenceConfirmTimeout _ => true
  | .recoveryRelease _ _ => true
  | .fltReset a rung part target => a.wf && rung < 8 && part < 16 && target < 65536
  | .logFlushTimer => true
  | .logFlush a => a.wf
  | .logRead a => a.wf
  | .recSelWrite a _ => a.wf
  | .lockstepMismatch _ _ => true
  | .wboWriteReject a r => a.wf && r.name.info.wbo
  | .estopSample _ => true
  | .stopTimeExpiry => true
  | .wbStop a => a.wf
  | .wbRelease a => a.wf
  | .porstAssert _ => true
  | .porstRelease => true
  | .stageS0Done => true
  | .stageS1Done fz => (match fz with | some f => f.digests.length == 4 && f.svn < 64 && (f.tilesOff == 0 || popcount 68 f.tilesOff == 16) | none => true)
  | .stageS2Done _ _ => true
  | .stageS3Done _ _ quads => quads.all (fun q => q < 16)
  | .stageS4Done results => results.length == 68 && results.all (fun x => !x.passed || (1000 ≤ x.fmaxMhz && x.fmaxMhz ≤ 1400 && x.fmaxMhz % 25 == 0))
  | .stageS5Done => true
  | .stageS6Done => true
  | .stageS7Release => true
  | .bootOk a => a.wf
  | .restart a => a.wf
  | .doldrums a => a.wf
  | .bootWatchdogExpiry => true
  | .maintRequest _ => true
  | .refclk1Loss => true
  | .crystalLoss => true
  | .armSearchDone => true
  | .ptpDelayReqRx k m => (1 ≤ k && k ≤ 4) && m.port < 8
  | .tdmClockLoss _ => true
  | .squallHeldExpiry => true
  | .uncorrectableFec => true

end Sys2Proof
end

