-- ==== Sys2Proof/Safety.lean ====
section
/-!
DEFINITION. What the statements about the AL960 speak in: the canonical forms of its register file and memory, the completion of
a command, and what a command leaves unchanged.
-/

namespace Sys2Proof.Machine

/-- The register file is in its canonical form. -/
def State.csrWf (s : State) : Bool := mapWf Reg.lt Reg.resetWord s.csr

/-- Memory is in its canonical form: addresses rising, no byte listed that reads as an unlisted one does. -/
def Memory.wf (m : List Host.Cell) : Bool := mapWf natLt (fun _ => 0#8) m

/-- Both canonical forms. -/
def State.Canonical (s : State) : Prop := s.csrWf = true ∧ Memory.wf s.mem = true

/-- The command answers a next state, of which `P` holds. -/
def Completes (c : Instr) (s : State) (P : State → Prop) : Prop := ∃ t, exec c s = .next t ∧ P t

/-- Every byte of memory reads as before. -/
def SameMemory (s t : State) : Prop := ∀ a, t.getByte a = s.getByte a

/-- Every byte of memory outside `n` bytes from `x` reads as before. -/
def SameMemoryBut (x n : Nat) (s t : State) : Prop := ∀ a, ¬ (x ≤ a ∧ a < x + n) → t.getByte a = s.getByte a

/-- Every register holds what it held, but those named. -/
def RegsBut (l : List RegName) (s t : State) : Prop := ∀ r : Reg, r.name ∉ l → t.rdReg r = s.rdReg r

/-- The components of the state beside the register file. -/
inductive Comp where
  | pending | now | free | mem | badCheck | badWord | resp | heldRead | heldWrite | recSel | isS | pulses
  | pins | boot | spl | flt | time | wb | bank | hdw | curves | pwr | sch | upool
  | deep | upd | sqe | sns | xw | veer | brz | wl | net | hp
  deriving DecidableEq, Repr

/-- A component is what it was. -/
def Comp.Same : Comp → State → State → Prop
  | .pending, s, t => t.pending = s.pending
  | .now, s, t => t.now = s.now
  | .free, s, t => t.free = s.free
  | .mem, s, t => t.mem = s.mem
  | .badCheck, s, t => t.badCheck = s.badCheck
  | .badWord, s, t => t.badWord = s.badWord
  | .resp, s, t => t.resp = s.resp
  | .heldRead, s, t => t.heldRead = s.heldRead
  | .heldWrite, s, t => t.heldWrite = s.heldWrite
  | .recSel, s, t => t.recSel = s.recSel
  | .isS, s, t => t.isS = s.isS
  | .pulses, s, t => t.pulses = s.pulses
  | .pins, s, t => t.pins = s.pins
  | .boot, s, t => t.boot = s.boot
  | .spl, s, t => t.spl = s.spl
  | .flt, s, t => t.flt = s.flt
  | .time, s, t => t.time = s.time
  | .wb, s, t => t.wb = s.wb
  | .bank, s, t => t.bank = s.bank
  | .hdw, s, t => t.hdw = s.hdw
  | .curves, s, t => t.curves = s.curves
  | .pwr, s, t => t.pwr = s.pwr
  | .sch, s, t => t.sch = s.sch
  | .upool, s, t => t.upool = s.upool
  | .deep, s, t => t.deep = s.deep
  | .upd, s, t => t.upd = s.upd
  | .sqe, s, t => t.sqe = s.sqe
  | .sns, s, t => t.sns = s.sns
  | .xw, s, t => t.xw = s.xw
  | .veer, s, t => t.veer = s.veer
  | .brz, s, t => t.brz = s.brz
  | .wl, s, t => t.wl = s.wl
  | .net, s, t => t.net = s.net
  | .hp, s, t => t.hp = s.hp

/-- What a command leaves alone: every register but those named keeps its value, every component but those named is what it was,
and the canonical forms are kept. -/
structure Within (l : List RegName) (c : List Comp) (s t : State) : Prop where
  regs : RegsBut l s t
  comps : ∀ x, x ∉ c → x.Same s t
  canon : s.Canonical → t.Canonical

/-- The registers that writing a fault record changes (R332, R334, R335). -/
def recordRegs : List RegName := [.FLT_REC_NEWEST, .FLT_REC_LOST, .FLT_STATUS, .FLT_LOG_STATUS, .FLT_P_EVENT, .MEM_DEEP_WEAR]

/-- From `s` to `t` a fault record was written last: it states the fault, bears the next number and the KIND 0 of a fault. -/
def Recorded (s t : State) (f : FaultDesc) : Prop :=
  ∃ r, t.flt.ring.getLast? = some r ∧ r.seq = s.flt.nextSeq ∧ r.fault = f ∧ r.kind = 0

/-- The value a register holds after a plain write (R6): the writable bits are the written word's, the bits that a written 1 clears
are cleared where it has one, the others stay. -/
def State.written (s : State) (r : Reg) (w : Word) : Word :=
  let m : Word := BitVec.ofNat 32 r.rwMask
  ((s.rdReg r &&& ~~~m) ||| (w &&& m)) &&& ~~~(w &&& BitVec.ofNat 32 r.w1cMask)

/-- The registers whose plain write brings something else about: an enable, a setpoint commit, the status sector's mirror, the
hold-up check, a wake, a link that drops, reserved bits kept for the next command. -/
def followedWrites : List RegName :=
  [.SNS_S_CTRL, .BRZ_SP_CTRL, .GLB_BOOT_CFG, .MEM_HOLDUP_CFG, .MEM_HOLDUP_CAP, .MEM_HOLDUP_ENERGY, .BANK_CQ_CTRL, .HP_LINK_CTRL,
   .SCH_P_ARG]

/-- Agent `a` may write `w` to register `r`, and the write is a plain one (R6, R13): neither Windbreak's, nor a command, nor refused by
a fence, an owner, a load, a lock, an engine or a range. -/
structure State.PlainlyWritable (s : State) (a : Agent) (r : Reg) (w : Word) : Prop where
  wbo : r.name.info.wbo = false
  trig : r.name.info.trig = 0
  followed : r.name ∉ followedWrites
  fenced : s.csrFenced a r = false
  engineRow : s.engineRow a r w = none
  chipRow : s.chipRow a r w = none
  owner : s.mayWrite a r = true
  apply : s.underApply r = false
  lock : s.lockedReg r = false
  refuses : s.engineRefuses r = none
  value : s.valueOk r w = true

/-- Command `c` is the next of tile `t`, its header is right, its slot can be read, and no command in progress holds it back (R62, R63,
R69): none conflicts with its ranges, and with BARRIER none is left. -/
structure State.Startable (s : State) (t : Nat) (c : NextCmd) : Prop where
  next : s.nextCmd t = some c
  header : headerOk c.words = true
  free : ∀ d ∈ (s.run t).running, d.done = false → wfld c.words 0 12 12 = 0 ∧
    (s.tileRanges t d.words).conflict (s.tileRanges t c.words) = false
  fresh : ∀ d ∈ (s.run t).running, d.slot ≠ c.slot
  slot : (s.readAs (s.tileAgent t c.job) (s.slotAddr c.job c.pos c.slot) 64).1.isSome = true

/-- From `s` to `u` tile `t` has started `c`: it is in progress behind the others, the position's next slot follows it, and nothing but
the tile's status has changed. -/
structure Started (s u : State) (t : Nat) (c : NextCmd) : Prop where
  running : (u.run t).running = (s.run t).running ++ [{ words := c.words, slot := c.slot, started := s.now }]
  next : (u.gangPos c.job c.pos).next = (c.slot + 1) % 2 ^ 32
  frame : Within [.TILE_STATUS] [.sch] s u

/-- From `s` to `u` tile `t` has completed the command with words `w` (R69, R73). -/
def Finished (s u : State) (t : Nat) (w : List Nat) : Prop :=
  u.rd .TILE_DONE_TAG t = tagOf w ∧ u.rd .TILE_CMD_COUNT t = (s.rd .TILE_CMD_COUNT t + 1) % 2 ^ 32

/-- No COLLECTIVE of job `j` is in progress but one in slot `n` of tile `t`. -/
def State.NoOtherCollective (s : State) (j t n : Nat) : Prop :=
  ∀ k, (s.run k).ctx = some j → ∀ d ∈ (s.run k).running, d.done = false → opcodeOf d.words = 9 → k = t ∧ d.slot = n

/-- From `s` to `u` the command in slot `n` with words `w` of job `j` on tile `t` has ended with a status other than OK (R70, R73): its
record is written, the last one where no COLLECTIVE of the job ends ABORTED with it (R198), and TILE_ERR shows it unless it holds an
earlier one. -/
def CommandFailed (s u : State) (t j n : Nat) (w : List Nat) (status : Nat) : Prop :=
  (s.NoOtherCollective j t n → Recorded s u { cls := 0x05, part := s.jobOwner j, source := t, detail := status, context := j, tag := tagOf w }) ∧
  (s.bit .TILE_ERR 31 t = false → u.rd .TILE_ERR t = (2 ^ 31 + status * 0x10000 + tagOf w) % 2 ^ 32)

/-- No refresh waits to start, and no PROGRAM of a deep queue for pages to be accepted (R102, R106, R111). -/
def State.NoStoresWait (s : State) : Prop :=
  s.deep.wanted = [] ∧ ∀ p, p < 8 → ∀ r, alGet s.deep.queues p = some r → r.op = 2 → r.status.isNone → r.failed.isNone → r.pageCount ≤ r.accepted

/-- A die-block that serves the log (R334): the last four of each die. -/
def logDieBlock (x : Nat) : Prop := 1920 ≤ x ∧ x < 1924

/-- Those registers and others. -/
def andRecord (l : List RegName) : List RegName := recordRegs ++ l

/-- A value brought into the range of Q31 (R45, R272). -/
def saturated (x : Int) : Int := max (-2147483648) (min 2147483647 x)

/-- SAT where that changes it. -/
def satFlag (x : Int) : Nat := if saturated x = x then 0 else flagSat

/-- The run of a loop after an instruction that wrote `x` to its register D and raised flags `f`. -/
def BrzRun.after (r : BrzRun) (w : BrzWord) (x f : Nat) : BrzRun :=
  { r with pc := r.pc + 1, v := r.v.set w.d (x % 2 ^ 32), flags := r.flags ||| f }

/-- From `s` to `t` loop `n` has executed one instruction that only its run takes part in: its run is `r`, the other loops' runs are what
they were, and nothing else has changed. -/
def Ran (n : Nat) (r : BrzRun) (s t : State) : Prop :=
  t.brzRun n = some r ∧ (∀ m, m ≠ n → t.brzRun m = s.brzRun m) ∧ t.brz = { s.brz with runs := t.brz.runs } ∧ Within [] [.brz] s t

/-- From `s` to `t` a recovery of domain `d` has opened for fault `f` (R337, R383): the next number, the domain's rung, its fence begun (a
rung 4 waits for a security-version commit), its record of KIND 0 in the ring, its rung counted. -/
structure Opened (s t : State) (d : Domain) (f : FaultDesc) : Prop where
  recovery : ∃ r ∈ t.flt.recoveries, r.number = s.flt.nextRecovery ∧ r.domain = d ∧ r.rung = d.rung ∧
    r.phase = (if d == .chip && s.spl.commit then .waiting else .fencing) ∧ r.since = s.now
  next : t.flt.nextRecovery = s.flt.nextRecovery + 1
  recorded : ∃ x ∈ t.flt.ring, x.kind = 0 ∧ x.rung = d.rung ∧ x.recovery = s.flt.nextRecovery ∧ x.fault.cls = f.cls ∧
    x.fault.source = f.source ∧ x.fault.detail = f.detail ∧ x.fault.context = f.context
  counted : t.rd .FLT_RUNG_COUNT d.rung = (s.rd .FLT_RUNG_COUNT d.rung + 1) % 2 ^ 32

/-- Nothing turns a fault of domain `d` from its own rung (R37, R339, R340): no recovery is open, no load's fence takes it in and no
count has escalated it. -/
structure State.OpensAlone (s : State) (d : Domain) : Prop where
  none : s.flt.recoveries = []
  load : s.mergedInLoad d = false
  count : s.escalate d = d

end Sys2Proof.Machine
end

