-- ==== Sys2Proof/Certificates/Slice0/Obligations.lean ====
section
/-!
DEFINITION. The statements for the provers.
-/

open Sys2Proof Sys2Proof.Machine

/-- A step is the effect of the command in front, on the state whose queue holds the rest. -/
def Obligations.StepRunsTheFront : Prop :=
  ∀ (c : Instr) (r : List Instr) (s : State), step { s with pending := c :: r } = exec c { s with pending := r }

/-- An empty queue is one tick of the raw counter.  The model's choice: log entry 1. -/
def Obligations.EmptyQueueTicks : Prop :=
  ∀ s : State, s.pending = [] → ∃ t, step s = .next t ∧ t.pending = [] ∧
    t.now = (if s.pins.porstN && s.boot.crystal then s.now + 1 else s.now) ∧ t.isS = s.isS ∧ t.boot = s.boot ∧ t.spl = s.spl

/-- Reset values of the register tables.  That memory reads zero is the model's choice. -/
def Obligations.ResetState : Prop :=
  State.reset.pending = [] ∧ State.reset.pins.porstN = false ∧ State.reset.spl.chip = none ∧
  State.reset.flt.ring = [] ∧ State.reset.flt.nextSeq = 1 ∧ (∀ a, State.reset.getByte a = 0#8) ∧
  State.reset.rd .HDW_PATH 0 = 0x2EE00000 ∧ State.reset.rd .HDW_PATH 1 = 0x07800000 ∧ State.reset.rd .HDW_PATH 2 = 0x01E00000 ∧
  State.reset.rd .PWR_WEIGHT 0 = 0x3D75C28F ∧ State.reset.rd .PWR_WEIGHT 15 = 0x41200000 ∧
  State.reset.rd .BRZ_CURVE_CTRL 0 = 0x80000001 ∧ State.reset.rd .BRZ_CURVE_CTRL 1 = 0x80000001 ∧ State.reset.rd .BRZ_CURVE_CTRL 2 = 0 ∧
  State.reset.rd .BRZ_CURVE_Y 0 16 = 0x3F000000 ∧ State.reset.rd .BRZ_CURVE_Y 1 16 = 0 ∧
  State.reset.rd .FLT_REC_NEWEST = 0 ∧ State.reset.rd .FLT_REC_LOST = 0 ∧ State.reset.fld .GLB_BOOT_STATUS 31 28 = 0

/-- The invariant of `StepKeepsCanonical` at reset. -/
def Obligations.ResetCanonical : Prop := State.reset.Canonical

/-- Canonical register file and memory, kept by every step from every state that has them. -/
def Obligations.StepKeepsCanonical : Prop :=
  ∀ s t : State, s.Canonical → step s = .next t → t.Canonical

/-- Commands leave the queue and the variant alone, and none stops. -/
def Obligations.CommandsLeaveTheQueue : Prop :=
  ∀ (c : Instr) (s : State), ∃ t, exec c s = .next t ∧ t.pending = s.pending ∧ t.isS = s.isS

/-- Frame of the commands of the register space and of the image loader. -/
def Obligations.AccessCommandsFrame : Prop :=
  ∀ s t : State,
    (∀ (a : Agent) (wr : Bool) (x : Nat) (n : Nat), exec (.csrBadAccess a wr x n) s = .next t → Within recordRegs [.resp, .pulses, .flt, .deep, .hp] s t) ∧
    (∀ (a : Agent) (x : Nat), exec (.pairLoRead a x) s = .next t → Within recordRegs [.free, .resp, .heldRead, .pulses, .flt, .deep, .hp] s t) ∧
    (∀ (a : Agent) (x : Nat), exec (.pairHiRead a x) s = .next t → Within recordRegs [.free, .resp, .heldRead, .pulses, .flt, .deep, .hp] s t) ∧
    (∀ (a : Agent) (x : Nat) (w : Word), exec (.pairLoWrite a x w) s = .next t → Within (andRecord [.WB_EVENT, .WB_REJECTS]) [.resp, .heldWrite, .flt, .deep] s t) ∧
    (∀ (a : Agent) (x : Nat) (w : Word), exec (.pairHiWrite a x w) s = .next t → Within RegName.all [.free, .mem, .badCheck, .badWord, .resp, .heldWrite, .recSel, .pulses, .pins, .boot, .spl, .flt, .time, .wb, .bank, .hdw, .curves, .pwr, .sch, .upool, .deep, .upd, .sqe, .sns, .brz, .wl, .net, .hp] s t) ∧
    (∀ (a : Agent) (x : Nat) (w : Word), exec (.registerWrite a x w) s = .next t → Within RegName.all [.free, .mem, .badCheck, .badWord, .resp, .recSel, .pulses, .pins, .boot, .spl, .flt, .time, .wb, .bank, .hdw, .curves, .pwr, .sch, .upool, .deep, .upd, .sqe, .sns, .brz, .wl, .net, .hp] s t) ∧
    (∀ (a : Agent) (wr : Bool) (x : Nat), exec (.unmappedCsrAccess a wr x) s = .next t → Within recordRegs [.free, .resp, .pulses, .flt, .deep, .hp] s t) ∧
    (∀ (a : Agent) (op : MemOp) (busy : Bool), exec (.memoryRequest a op busy) s = .next t → Within RegName.all [.free, .mem, .badCheck, .badWord, .resp, .heldRead, .heldWrite, .recSel, .pulses, .pins, .boot, .spl, .flt, .time, .wb, .bank, .hdw, .curves, .pwr, .sch, .upool, .deep, .upd, .sqe, .sns, .brz, .wl, .net, .hp] s t) ∧
    (∀ (a : Agent) (bank : Nat) (w : Word), exec (.loadGo a bank w) s = .next t → Within (andRecord [.SPL_BUSY, .SPL_CTRL, .SPL_STATUS]) [.resp, .pulses, .spl, .flt, .deep] s t) ∧
    (exec .loadHeaderRead s = .next t → Within (andRecord [.SPL_BUSY, .SPL_CTRL, .SPL_STATUS]) [.pulses, .spl, .flt, .deep] s t) ∧
    (exec .loadDigestDone s = .next t → Within (andRecord [.SPL_BUSY, .SPL_CTRL, .SPL_STATUS]) [.pulses, .spl, .flt, .deep] s t) ∧
    (exec .loadSectionsChecked s = .next t → Within (andRecord [.SPL_BUSY, .SPL_CTRL, .SPL_STATUS, .TILE_STATUS, .UPD_PLAN_STATUS, .UPD_PLAN_STALL_US, .UPD_PLAN_STALL_MAX, .SCH_OVERRUNS, .SCH_P_EVENT, .SCH_CTX, .FLT_RUNG_COUNT]) [.pulses, .boot, .spl, .flt, .sch, .deep, .upd] s t) ∧
    (∀ (served : Nat), exec (.loadFenceDone served) s = .next t → Within (andRecord [.GLB_LTILE_MAP, .TILE_INFO, .TILE_STATUS, .TILE_FLAGS, .TILE_ERR, .BANK_CQ_STATUS, .BANK_TQ_STATUS, .MEM_P_DQ_HEAD, .MEM_P_DQ_STATUS, .UPD_PLAN_STATUS, .UPD_PLAN_STALL_US, .UPD_PLAN_STALL_MAX, .SEQ_P_STEP_STATUS, .SEQ_ENT, .SCH_FREE_CTX, .SCH_P_EVENT, .SCH_CTX, .HDW_P_EVENT, .HDW_P_MISSES, .SNS_S_STATUS, .SNS_S_EVENT, .VEER_OUT_CTRL, .BRZ_SP_CTRL, .NET_P_CTRL, .NET_P_GATE_CTRL, .HP_P_WIN_CTRL, .HP_P_DB]) [.mem, .badCheck, .badWord, .resp, .pulses, .boot, .spl, .flt, .bank, .hdw, .pwr, .sch, .upool, .deep, .upd, .sqe, .sns, .veer, .net, .hp] s t) ∧
    (∀ (failed : List Nat), exec (.loadApplyDone failed) s = .next t → Within (andRecord [.SPL_BUSY, .SPL_LOADED, .SPL_CTRL, .SPL_STATUS, .TILE_INFO, .MEM_P_EVICTS, .MEM_P_ALLOC, .SEQ_ENT, .HDW_P_EVENT, .HDW_P_MISSES, .SNS_S_CTRL, .SNS_S_STATUS, .SNS_S_TUNE0, .SNS_S_TUNE1, .SNS_S_ADJ]) [.mem, .badCheck, .badWord, .resp, .pulses, .spl, .flt, .hdw, .upool, .deep, .upd, .sqe, .hp] s t) ∧
    (∀ (a : Agent), exec (.svnCommit a) s = .next t → Within (andRecord [.SPL_BUSY]) [.resp, .spl, .flt, .deep] s t) ∧
    (exec .svnCommitDone s = .next t → Within [.SPL_SVN, .SPL_KEYS, .SPL_BUSY, .TILE_STATUS] [.spl, .flt, .sch] s t) ∧
    (∀ (a : Agent) (c : Nat), exec (.curveCommit a c) s = .next t → Within recordRegs [.resp, .flt, .curves, .deep] s t)

/-- Frame of the commands of the tiles and of their collectives. -/
def Obligations.TileCommandsFrame : Prop :=
  ∀ s t : State,
    (∀ (xt : Nat), exec (.nop xt) s = .next t → Within (andRecord [.TILE_STATUS, .TILE_FLAGS, .TILE_ERR, .TILE_DONE_TAG, .TILE_CMD_COUNT, .BANK_CQ_STATUS, .BANK_TQ_STATUS, .UPD_PLAN_STATUS, .UPD_PLAN_STALL_US, .UPD_PLAN_STALL_MAX, .SCH_P_EVENT, .SCH_CTX]) [.mem, .badCheck, .badWord, .pulses, .flt, .bank, .hdw, .sch, .deep, .upd] s t) ∧
    (∀ (xt : Nat), exec (.matmul xt) s = .next t → Within (andRecord [.TILE_STATUS, .TILE_ERR, .BANK_CQ_STATUS, .BANK_TQ_STATUS, .UPD_PLAN_STATUS, .UPD_PLAN_STALL_US, .UPD_PLAN_STALL_MAX, .SCH_P_EVENT, .SCH_CTX]) [.pulses, .flt, .sch, .deep, .upd] s t) ∧
    (∀ (xt : Nat), exec (.ewise xt) s = .next t → Within (andRecord [.TILE_STATUS, .TILE_ERR, .BANK_CQ_STATUS, .BANK_TQ_STATUS, .UPD_PLAN_STATUS, .UPD_PLAN_STALL_US, .UPD_PLAN_STALL_MAX, .SCH_P_EVENT, .SCH_CTX]) [.pulses, .flt, .sch, .deep, .upd] s t) ∧
    (∀ (xt : Nat), exec (.copyCmd xt) s = .next t → Within (andRecord [.TILE_STATUS, .TILE_ERR, .BANK_CQ_STATUS, .BANK_TQ_STATUS, .UPD_PLAN_STATUS, .UPD_PLAN_STALL_US, .UPD_PLAN_STALL_MAX, .SCH_P_EVENT, .SCH_CTX]) [.pulses, .flt, .sch, .deep, .upd] s t) ∧
    (∀ (xt : Nat), exec (.scan xt) s = .next t → Within (andRecord [.TILE_STATUS, .TILE_ERR, .BANK_CQ_STATUS, .BANK_TQ_STATUS, .UPD_PLAN_STATUS, .UPD_PLAN_STALL_US, .UPD_PLAN_STALL_MAX, .SCH_P_EVENT, .SCH_CTX]) [.pulses, .flt, .sch, .deep, .upd] s t) ∧
    (∀ (xt : Nat), exec (.waitCmd xt) s = .next t → Within (andRecord [.TILE_STATUS, .TILE_FLAGS, .TILE_ERR, .TILE_DONE_TAG, .TILE_CMD_COUNT, .BANK_CQ_STATUS, .BANK_TQ_STATUS, .UPD_PLAN_STATUS, .UPD_PLAN_STALL_US, .UPD_PLAN_STALL_MAX, .SCH_P_EVENT, .SCH_CTX]) [.mem, .badCheck, .badWord, .pulses, .flt, .bank, .hdw, .sch, .deep, .upd] s t) ∧
    (∀ (xt : Nat), exec (.waitSatisfied xt) s = .next t → Within (andRecord [.TILE_STATUS, .TILE_FLAGS, .TILE_ERR, .TILE_DONE_TAG, .TILE_CMD_COUNT, .BANK_CQ_STATUS, .BANK_TQ_STATUS, .UPD_PLAN_STATUS, .UPD_PLAN_STALL_US, .UPD_PLAN_STALL_MAX, .SCH_P_EVENT, .SCH_CTX]) [.mem, .badCheck, .badWord, .pulses, .flt, .bank, .hdw, .sch, .deep, .upd] s t) ∧
    (∀ (xt : Nat), exec (.waitPoll xt) s = .next t → Within (andRecord [.TILE_STATUS, .TILE_FLAGS, .TILE_ERR, .TILE_DONE_TAG, .TILE_CMD_COUNT, .BANK_CQ_STATUS, .BANK_TQ_STATUS, .UPD_PLAN_STATUS, .UPD_PLAN_STALL_US, .UPD_PLAN_STALL_MAX, .SCH_P_EVENT, .SCH_CTX]) [.mem, .badCheck, .badWord, .pulses, .flt, .bank, .hdw, .sch, .deep, .upd] s t) ∧
    (∀ (xt : Nat), exec (.waitTimeout xt) s = .next t → Within (andRecord [.TILE_STATUS, .TILE_ERR, .UPD_PLAN_STATUS, .UPD_PLAN_STALL_US, .UPD_PLAN_STALL_MAX, .SCH_P_EVENT, .SCH_CTX]) [.pulses, .flt, .sch, .deep, .upd] s t) ∧
    (∀ (xt : Nat), exec (.signal xt) s = .next t → Within (andRecord [.TILE_STATUS, .TILE_FLAGS, .TILE_ERR, .TILE_DONE_TAG, .TILE_CMD_COUNT, .BANK_CQ_STATUS, .BANK_TQ_STATUS, .UPD_PLAN_STATUS, .UPD_PLAN_STALL_US, .UPD_PLAN_STALL_MAX, .SCH_P_EVENT, .SCH_CTX]) [.mem, .badCheck, .badWord, .pulses, .flt, .bank, .hdw, .sch, .deep, .upd] s t) ∧
    (∀ (xt : Nat), exec (.reservedOpcode xt) s = .next t → Within (andRecord [.TILE_STATUS, .TILE_ERR, .BANK_CQ_STATUS, .BANK_TQ_STATUS, .UPD_PLAN_STATUS, .UPD_PLAN_STALL_US, .UPD_PLAN_STALL_MAX, .SCH_P_EVENT, .SCH_CTX]) [.pulses, .flt, .sch, .deep, .upd] s t) ∧
    (∀ (xt : Nat) (k : Nat), exec (.commandComplete xt k) s = .next t → Within (andRecord [.TILE_STATUS, .TILE_FLAGS, .TILE_ERR, .TILE_DONE_TAG, .TILE_CMD_COUNT, .TILE_BUSY_LO, .TILE_BUSY_HI, .BANK_CQ_STATUS, .BANK_TQ_STATUS, .UPD_PLAN_STATUS, .UPD_PLAN_STALL_US, .UPD_PLAN_STALL_MAX, .SCH_P_EVENT, .SCH_CTX]) [.mem, .badCheck, .badWord, .pulses, .flt, .bank, .hdw, .sch, .deep, .upd] s t) ∧
    (∀ (xt : Nat), exec (.collective xt) s = .next t → Within (andRecord [.TILE_STATUS, .TILE_ERR, .BANK_CQ_STATUS, .BANK_TQ_STATUS, .UPD_PLAN_STATUS, .UPD_PLAN_STALL_US, .UPD_PLAN_STALL_MAX, .SCH_P_EVENT, .SCH_CTX]) [.pulses, .flt, .sch, .deep, .upd] s t) ∧
    (∀ (xt : Nat), exec (.collectiveDone xt) s = .next t → Within (andRecord [.TILE_STATUS, .TILE_FLAGS, .TILE_ERR, .TILE_DONE_TAG, .TILE_CMD_COUNT, .BANK_CQ_STATUS, .BANK_TQ_STATUS, .UPD_PLAN_STATUS, .UPD_PLAN_STALL_US, .UPD_PLAN_STALL_MAX, .SCH_P_EVENT, .SCH_CTX]) [.mem, .badCheck, .badWord, .pulses, .flt, .bank, .hdw, .sch, .deep, .upd] s t) ∧
    (∀ (xt : Nat), exec (.collectiveTimeout xt) s = .next t → Within (andRecord [.TILE_STATUS, .TILE_ERR, .UPD_PLAN_STATUS, .UPD_PLAN_STALL_US, .UPD_PLAN_STALL_MAX, .SCH_P_EVENT, .SCH_CTX]) [.pulses, .flt, .sch, .deep, .upd] s t)

/-- Frame of the commands of the banks, of the warm pool and of the far tier. -/
def Obligations.BankAndPoolCommandsFrame : Prop :=
  ∀ s t : State,
    (∀ (a : Agent) (q : Nat) (target : Nat) (clear : Bool), exec (.bankOffer a q target clear) s = .next t → Within (andRecord [.BANK_CQ_CTRL, .BANK_CQ_STATUS]) [.resp, .flt, .bank, .deep] s t) ∧
    (∀ (a : Agent) (q : Nat), exec (.bankAccept a q) s = .next t → Within (andRecord [.BANK_CQ_STATUS]) [.resp, .flt, .deep] s t) ∧
    (∀ (a : Agent) (q : Nat), exec (.bankCancel a q) s = .next t → Within (andRecord [.BANK_CQ_STATUS]) [.resp, .flt, .deep] s t) ∧
    (∀ (q : Nat), exec (.handoverDrainDone q) s = .next t → Within [] [.mem, .badCheck, .badWord, .bank] s t) ∧
    (∀ (q : Nat), exec (.handoverDrainTimeout q) s = .next t → Within [.BANK_CQ_STATUS] [.mem, .badCheck, .badWord, .resp, .pulses, .bank, .hp] s t) ∧
    (∀ (q : Nat), exec (.handoverDone q) s = .next t → Within [.BANK_CQ_STATUS] [.pulses, .bank] s t) ∧
    (∀ (u : BankUnit), exec (.testRegionStart u) s = .next t → Within (andRecord [.BANK_CQ_STATUS, .BANK_TQ_STATUS]) [.flt, .bank, .deep] s t) ∧
    (∀ (u : BankUnit), exec (.testStarved u) s = .next t → Within [] [.bank] s t) ∧
    (∀ (u : BankUnit) (passed : Bool), exec (.testRegionDone u passed) s = .next t → Within (andRecord [.BANK_CQ_STATUS, .BANK_TQ_STATUS]) [.flt, .bank, .deep] s t) ∧
    (∀ (x : QuadRef), exec (.lullIdleExpiry x) s = .next t → Within [.BANK_CQ_STATUS, .BANK_TQ_STATUS] [.bank] s t) ∧
    (∀ (a : Agent) (x : QuadRef), exec (.lullRequest a x) s = .next t → Within (andRecord [.BANK_CQ_STATUS, .BANK_TQ_STATUS]) [.resp, .flt, .bank, .deep] s t) ∧
    (∀ (x : QuadRef), exec (.lullWake x) s = .next t → Within [.BANK_CQ_STATUS, .BANK_TQ_STATUS] [] s t) ∧
    (∀ (x : QuadRef), exec (.wakeDone x) s = .next t → Within (andRecord [.BANK_CQ_STATUS, .BANK_TQ_STATUS]) [.mem, .badCheck, .badWord, .resp, .pulses, .flt, .bank, .deep, .hp] s t) ∧
    (∀ (p : Nat) (h : Holder) (pinned : Bool), exec (.extentRequest p h pinned) s = .next t → Within (andRecord [.MEM_P_EVICTS, .MEM_P_ALLOC, .SEQ_ENT, .HDW_P_EVENT, .HDW_P_MISSES]) [.mem, .badCheck, .badWord, .resp, .pulses, .flt, .hdw, .upool, .deep, .upd, .sqe, .hp] s t) ∧
    (∀ (e : Nat), exec (.extentAssigned e) s = .next t → Within [.MEM_P_ALLOC] [.mem, .badCheck, .badWord, .upool, .upd] s t) ∧
    (∀ (a : Agent) (p : Nat), exec (.softwareAlloc a p) s = .next t → Within (andRecord [.MEM_P_EVICTS, .MEM_P_ALLOC, .SEQ_ENT, .HDW_P_EVENT, .HDW_P_MISSES]) [.mem, .badCheck, .badWord, .resp, .pulses, .flt, .hdw, .upool, .deep, .upd, .sqe, .hp] s t) ∧
    (∀ (a : Agent) (p : Nat) (e : Nat), exec (.softwareFree a p e) s = .next t → Within recordRegs [.resp, .flt, .upool, .deep] s t) ∧
    (∀ (a : Agent) (p : Nat), exec (.softwareFreeAll a p) s = .next t → Within recordRegs [.resp, .flt, .upool, .deep] s t) ∧
    (exec .ageTick s = .next t → Within (andRecord [.MEM_P_EVICTS, .MEM_P_ALLOC, .SEQ_ENT, .HDW_P_EVENT, .HDW_P_MISSES]) [.mem, .badCheck, .badWord, .resp, .pulses, .flt, .hdw, .upool, .deep, .upd, .sqe, .hp] s t)

/-- Frame of the commands of the deep tier. -/
def Obligations.DeepCommandsFrame : Prop :=
  ∀ s t : State,
    (∀ (a : Agent) (p : Nat) (tail : Nat), exec (.deepQueueTail a p tail) s = .next t → Within (andRecord [.MEM_P_DQ_TAIL]) [.resp, .flt, .deep] s t) ∧
    (∀ (p : Nat), exec (.eraseDeep p) s = .next t → Within (andRecord [.BANK_CQ_STATUS, .BANK_TQ_STATUS, .MEM_P_DQ_STATUS]) [.flt, .hdw, .deep] s t) ∧
    (∀ (p : Nat), exec (.programDeep p) s = .next t → Within (andRecord [.BANK_CQ_STATUS, .BANK_TQ_STATUS, .MEM_HOLDUP_STATUS, .MEM_P_DQ_STATUS]) [.mem, .badCheck, .badWord, .flt, .hdw, .deep] s t) ∧
    (∀ (p : Nat), exec (.syncDeep p) s = .next t → Within (andRecord [.BANK_CQ_STATUS, .BANK_TQ_STATUS, .MEM_P_DQ_STATUS]) [.flt, .hdw, .deep] s t) ∧
    (∀ (p : Nat), exec (.infoDeep p) s = .next t → Within (andRecord [.BANK_CQ_STATUS, .BANK_TQ_STATUS, .MEM_P_DQ_STATUS]) [.mem, .badCheck, .badWord, .flt, .bank, .hdw, .deep] s t) ∧
    (∀ (p : Nat) (g : Nat) (ok : Bool), exec (.pageProgramDone p g ok) s = .next t → Within (andRecord [.BANK_CQ_STATUS, .BANK_TQ_STATUS, .MEM_DEEP_STATUS, .MEM_DEEP_WUSED, .MEM_HOLDUP_STATUS, .MEM_P_DQ_STATUS]) [.free, .mem, .badCheck, .badWord, .flt, .hdw, .deep] s t) ∧
    (∀ (p : Nat) (die : Nat) (ok : Bool), exec (.dieEraseDone p die ok) s = .next t → Within recordRegs [.free, .mem, .badCheck, .badWord, .flt, .deep] s t) ∧
    (∀ (p : Nat), exec (.deepCommandDone p) s = .next t → Within (andRecord [.BANK_CQ_STATUS, .BANK_TQ_STATUS, .MEM_P_DQ_HEAD, .MEM_P_DQ_STATUS]) [.mem, .badCheck, .badWord, .pulses, .flt, .bank, .hdw, .deep] s t) ∧
    (∀ (a : Agent) (g : Nat) (ok : Bool), exec (.deepReadDone a g ok) s = .next t → Within recordRegs [.resp, .pulses, .flt, .deep, .hp] s t) ∧
    (∀ (b : Nat) (die : Nat), exec (.readDisturbLimit b die) s = .next t → Within [.MEM_DEEP_STATUS, .MEM_HOLDUP_STATUS] [.deep] s t) ∧
    (∀ (die : Nat), exec (.refreshDone die) s = .next t → Within (andRecord [.BANK_CQ_STATUS, .BANK_TQ_STATUS, .MEM_DEEP_STATUS, .MEM_HOLDUP_STATUS, .MEM_P_DQ_STATUS]) [.free, .mem, .badCheck, .badWord, .flt, .hdw, .deep] s t) ∧
    (∀ (g : Nat) (weak : Bool) (ok : Bool), exec (.scrubRead g weak ok) s = .next t → Within (andRecord [.MEM_DEEP_STATUS, .MEM_HOLDUP_STATUS]) [.flt, .deep] s t) ∧
    (exec .deepHot s = .next t → Within [.MEM_DEEP_STATUS] [] s t) ∧
    (exec .deepCooled s = .next t → Within (andRecord [.BANK_CQ_STATUS, .BANK_TQ_STATUS, .MEM_DEEP_STATUS, .MEM_HOLDUP_STATUS, .MEM_P_DQ_STATUS]) [.mem, .badCheck, .badWord, .flt, .hdw, .deep] s t) ∧
    (exec .wusedHour s = .next t → Within [.MEM_DEEP_WUSED] [.deep] s t) ∧
    (∀ (code : Nat), exec (.holdupSample code) s = .next t → Within (andRecord [.BANK_CQ_STATUS, .BANK_TQ_STATUS, .MEM_DEEP_STATUS, .MEM_HOLDUP_STATUS, .MEM_P_DQ_STATUS]) [.mem, .badCheck, .badWord, .flt, .hdw, .deep] s t) ∧
    (exec .pfailAssert s = .next t → Within (andRecord [.SPL_BUSY, .SPL_CTRL, .SPL_STATUS, .TILE_FREQ, .MEM_DEEP_STATUS, .PWR_STATUS, .PWR_EVENT, .PWR_HOST, .GLB_BOOT_STATUS]) [.pulses, .pins, .boot, .spl, .flt, .pwr, .deep] s t) ∧
    (exec .pfailDeassert s = .next t → Within (andRecord [.BANK_CQ_STATUS, .BANK_TQ_STATUS, .MEM_DEEP_STATUS, .MEM_HOLDUP_STATUS, .MEM_P_DQ_STATUS]) [.mem, .badCheck, .badWord, .pins, .flt, .hdw, .pwr, .deep] s t) ∧
    (∀ (a : Agent) (p : Nat), exec (.farRekey a p) s = .next t → Within (andRecord [.HDW_P_EVENT, .HDW_P_MISSES]) [.free, .mem, .badCheck, .badWord, .resp, .pulses, .flt, .hdw, .deep, .hp] s t)

/-- Frame of the commands of Updraft and of the sequence engine. -/
def Obligations.StreamingAndSequenceCommandsFrame : Prop :=
  ∀ s t : State,
    (∀ (a : Agent) (n : Nat), exec (.planLoad a n) s = .next t → Within (andRecord [.MEM_P_EVICTS, .UPD_PLAN_STATUS, .UPD_PLAN_STALLS, .UPD_PLAN_STALL_US, .UPD_PLAN_STALL_MAX, .UPD_PLAN_HITS, .UPD_PLAN_MISSES, .SEQ_ENT, .HDW_P_EVENT, .HDW_P_MISSES]) [.mem, .badCheck, .badWord, .resp, .pulses, .flt, .hdw, .upool, .deep, .upd, .sqe, .hp] s t) ∧
    (∀ (n : Nat), exec (.planLoadDone n) s = .next t → Within (andRecord [.BANK_CQ_STATUS, .BANK_TQ_STATUS, .UPD_PLAN_STATUS]) [.mem, .badCheck, .badWord, .pulses, .flt, .hdw, .upool, .deep, .upd] s t) ∧
    (∀ (a : Agent) (n : Nat), exec (.planUnload a n) s = .next t → Within (andRecord [.UPD_PLAN_STATUS]) [.resp, .pulses, .flt, .upool, .deep, .upd] s t) ∧
    (∀ (xt : Nat), exec (.gateWait xt) s = .next t → Within (andRecord [.TILE_STATUS, .TILE_FLAGS, .TILE_ERR, .TILE_DONE_TAG, .TILE_CMD_COUNT, .BANK_CQ_STATUS, .BANK_TQ_STATUS, .MEM_P_EVICTS, .UPD_PLAN_STATUS, .UPD_PLAN_STALLS, .UPD_PLAN_STALL_US, .UPD_PLAN_STALL_MAX, .SEQ_ENT, .SCH_P_EVENT, .SCH_CTX, .HDW_P_EVENT, .HDW_P_MISSES]) [.mem, .badCheck, .badWord, .resp, .pulses, .flt, .bank, .hdw, .sch, .upool, .deep, .upd, .sqe, .hp] s t) ∧
    (∀ (xt : Nat), exec (.gateAnnounce xt) s = .next t → Within (andRecord [.TILE_STATUS, .TILE_FLAGS, .TILE_ERR, .TILE_DONE_TAG, .TILE_CMD_COUNT, .BANK_CQ_STATUS, .BANK_TQ_STATUS, .UPD_PLAN_STATUS, .UPD_PLAN_STALL_US, .UPD_PLAN_STALL_MAX, .UPD_PLAN_HITS, .UPD_PLAN_MISSES, .SCH_P_EVENT, .SCH_CTX]) [.mem, .badCheck, .badWord, .pulses, .flt, .bank, .hdw, .sch, .upool, .deep, .upd] s t) ∧
    (∀ (n : Nat) (k : Nat) (l : Nat), exec (.layerComplete n k l) s = .next t → Within (andRecord [.TILE_STATUS, .TILE_FLAGS, .TILE_ERR, .TILE_DONE_TAG, .TILE_CMD_COUNT, .BANK_CQ_STATUS, .BANK_TQ_STATUS, .MEM_P_EVICTS, .UPD_PLAN_STATUS, .UPD_PLAN_STALL_US, .UPD_PLAN_STALL_MAX, .SEQ_ENT, .SCH_P_EVENT, .SCH_CTX, .HDW_P_EVENT, .HDW_P_MISSES]) [.mem, .badCheck, .badWord, .resp, .pulses, .flt, .bank, .hdw, .sch, .upool, .deep, .upd, .sqe, .hp] s t) ∧
    (∀ (n : Nat) (e : Nat), exec (.expertFetchDone n e) s = .next t → Within (andRecord [.TILE_STATUS, .TILE_ERR, .MEM_P_EVICTS, .UPD_PLAN_STATUS, .UPD_PLAN_STALL_US, .UPD_PLAN_STALL_MAX, .SEQ_ENT, .SCH_P_EVENT, .SCH_CTX, .HDW_P_EVENT, .HDW_P_MISSES]) [.mem, .badCheck, .badWord, .resp, .pulses, .flt, .hdw, .sch, .upool, .deep, .upd, .sqe, .hp] s t) ∧
    (∀ (xt : Nat), exec (.stallLimit xt) s = .next t → Within (andRecord [.TILE_STATUS, .TILE_ERR, .UPD_PLAN_STATUS, .UPD_PLAN_STALL_US, .UPD_PLAN_STALL_MAX, .SCH_CTX]) [.pulses, .flt, .sch, .deep, .upd] s t) ∧
    (∀ (xt : Nat), exec (.gateTimeout xt) s = .next t → Within (andRecord [.TILE_STATUS, .TILE_ERR, .UPD_PLAN_STATUS, .UPD_PLAN_STALL_US, .UPD_PLAN_STALL_MAX, .SCH_P_EVENT, .SCH_CTX]) [.pulses, .flt, .sch, .deep, .upd] s t) ∧
    (∀ (a : Agent) (p : Nat) (rsv : Nat), exec (.openSeq a p rsv) s = .next t → Within (andRecord [.BANK_CQ_STATUS, .BANK_TQ_STATUS, .SEQ_P_CMD, .SEQ_P_RESULT, .SEQ_ENT]) [.mem, .badCheck, .badWord, .resp, .flt, .hdw, .deep, .sqe] s t) ∧
    (∀ (a : Agent) (p : Nat) (rsv : Nat), exec (.closeSeq a p rsv) s = .next t → Within (andRecord [.SEQ_P_CMD, .SEQ_P_RESULT, .SEQ_ENT]) [.mem, .badCheck, .badWord, .resp, .flt, .upool, .deep, .sqe] s t) ∧
    (∀ (a : Agent) (p : Nat) (rsv : Nat), exec (.fork a p rsv) s = .next t → Within (andRecord [.BANK_CQ_STATUS, .BANK_TQ_STATUS, .SEQ_P_CMD, .SEQ_P_RESULT, .SEQ_ENT]) [.mem, .badCheck, .badWord, .resp, .flt, .hdw, .deep, .sqe] s t) ∧
    (∀ (a : Agent) (p : Nat) (rsv : Nat), exec (.truncate a p rsv) s = .next t → Within (andRecord [.SEQ_P_CMD, .SEQ_P_RESULT, .SEQ_ENT]) [.resp, .flt, .deep] s t) ∧
    (∀ (a : Agent) (p : Nat) (count : Nat), exec (.stepBegin a p count) s = .next t → Within (andRecord [.BANK_CQ_STATUS, .BANK_TQ_STATUS, .MEM_P_EVICTS, .SEQ_P_STEP_CTRL, .SEQ_P_STEP_STATUS, .SEQ_P_EPOCH, .SEQ_P_WAITS, .SEQ_ENT, .HDW_P_EVENT, .HDW_P_MISSES]) [.free, .mem, .badCheck, .badWord, .resp, .pulses, .flt, .bank, .hdw, .upool, .deep, .upd, .sqe, .hp] s t) ∧
    (∀ (a : Agent) (p : Nat), exec (.stepEnd a p) s = .next t → Within (andRecord [.SEQ_P_STEP_STATUS]) [.resp, .flt, .deep, .sqe] s t) ∧
    (∀ (p : Nat), exec (.stepCommit p) s = .next t → Within [.BANK_CQ_STATUS, .BANK_TQ_STATUS, .SEQ_P_STEP_STATUS, .SEQ_ENT] [.mem, .badCheck, .badWord, .hdw, .upool, .sqe] s t) ∧
    (∀ (a : Agent) (p : Nat), exec (.stepAbort a p) s = .next t → Within (andRecord [.BANK_CQ_STATUS, .BANK_TQ_STATUS, .SEQ_P_STEP_STATUS, .SEQ_ENT]) [.mem, .badCheck, .badWord, .resp, .flt, .hdw, .upool, .deep, .sqe] s t) ∧
    (∀ (p : Nat) (k : Nat), exec (.feedPageSend p k) s = .next t → Within (andRecord [.BANK_CQ_STATUS, .BANK_TQ_STATUS]) [.mem, .badCheck, .badWord, .flt, .hdw, .upool, .deep, .sqe] s t)

/-- Frame of the commands of the scheduler and of Headwind. -/
def Obligations.SchedulerAndHeadwindCommandsFrame : Prop :=
  ∀ s t : State,
    (∀ (a : Agent) (p : Nat) (rsv : Nat), exec (.allocCtx a p rsv) s = .next t → Within (andRecord [.SCH_FREE_CTX, .SCH_P_CMD, .SCH_P_RESULT, .SCH_CTX]) [.resp, .flt, .deep] s t) ∧
    (∀ (a : Agent) (p : Nat) (rsv : Nat), exec (.admitCtx a p rsv) s = .next t → Within (andRecord [.BANK_CQ_STATUS, .BANK_TQ_STATUS, .UPD_PLAN_STATUS, .UPD_PLAN_JOB, .SCH_P_CMD, .SCH_P_RESULT, .SCH_CTX]) [.resp, .flt, .sch, .deep] s t) ∧
    (∀ (a : Agent) (p : Nat) (rsv : Nat), exec (.hold a p rsv) s = .next t → Within (andRecord [.SCH_P_CMD, .SCH_P_RESULT]) [.resp, .flt, .sch, .deep] s t) ∧
    (∀ (a : Agent) (p : Nat) (rsv : Nat), exec (.resume a p rsv) s = .next t → Within (andRecord [.TILE_STATUS, .BANK_CQ_STATUS, .BANK_TQ_STATUS, .SCH_P_CMD, .SCH_P_RESULT, .SCH_CTX]) [.resp, .flt, .sch, .deep] s t) ∧
    (∀ (a : Agent) (p : Nat) (rsv : Nat), exec (.freeCtx a p rsv) s = .next t → Within (andRecord [.TILE_STATUS, .UPD_PLAN_STATUS, .UPD_PLAN_STALL_US, .UPD_PLAN_STALL_MAX, .SCH_FREE_CTX, .SCH_P_CMD, .SCH_P_RESULT, .SCH_CTX]) [.resp, .flt, .sch, .deep, .upd] s t) ∧
    (∀ (a : Agent) (p : Nat) (j : Nat), exec (.schedulerDoorbell a p j) s = .next t → Within (andRecord [.TILE_STATUS, .TILE_FREQ, .BANK_CQ_STATUS, .BANK_TQ_STATUS, .SCH_P_EVENT, .SCH_CTX]) [.resp, .flt, .pwr, .sch, .deep] s t) ∧
    (∀ (j : Nat), exec (.jobPlace j) s = .next t → Within [.TILE_STATUS, .TILE_FREQ, .SCH_CTX] [.pwr, .sch] s t) ∧
    (∀ (j : Nat), exec (.sliceEnd j) s = .next t → Within [] [.sch] s t) ∧
    (∀ (xt : Nat), exec (.cheap xt) s = .next t → Within (andRecord [.TILE_STATUS, .TILE_FLAGS, .TILE_ERR, .TILE_DONE_TAG, .TILE_CMD_COUNT, .BANK_CQ_STATUS, .BANK_TQ_STATUS, .UPD_PLAN_STATUS, .UPD_PLAN_STALL_US, .UPD_PLAN_STALL_MAX, .SCH_P_EVENT, .SCH_CTX]) [.mem, .badCheck, .badWord, .pulses, .flt, .bank, .hdw, .sch, .deep, .upd] s t) ∧
    (∀ (j : Nat), exec (.switchAtCheap j) s = .next t → Within [.TILE_STATUS, .UPD_PLAN_STATUS, .UPD_PLAN_STALL_US, .UPD_PLAN_STALL_MAX, .SCH_OVERRUNS, .SCH_P_EVENT, .SCH_CTX] [.sch, .upd] s t) ∧
    (∀ (j : Nat), exec (.liveSaveDone j) s = .next t → Within (andRecord [.TILE_STATUS, .TILE_ERR, .BANK_CQ_STATUS, .BANK_TQ_STATUS, .UPD_PLAN_STATUS, .UPD_PLAN_STALL_US, .UPD_PLAN_STALL_MAX, .SCH_P_EVENT, .SCH_CTX]) [.mem, .badCheck, .badWord, .pulses, .flt, .hdw, .sch, .deep, .upd] s t) ∧
    (∀ (j : Nat), exec (.liveRestoreDone j) s = .next t → Within (andRecord [.TILE_STATUS, .TILE_ERR, .BANK_CQ_STATUS, .BANK_TQ_STATUS, .UPD_PLAN_STATUS, .UPD_PLAN_STALL_US, .UPD_PLAN_STALL_MAX, .SCH_P_EVENT, .SCH_CTX]) [.mem, .badCheck, .badWord, .pulses, .flt, .hdw, .sch, .deep, .upd] s t) ∧
    (∀ (j : Nat), exec (.rtParkRequest j) s = .next t → Within [] [.sch] s t) ∧
    (∀ (j : Nat), exec (.rtRelease j) s = .next t → Within [.TILE_STATUS, .TILE_FREQ, .SCH_P_EVENT, .SCH_CTX] [.pwr, .sch] s t) ∧
    (exec .hdwWindowStart s = .next t → Within [.HDW_P_EVENT, .HDW_P_OVER] [.hdw] s t) ∧
    (∀ (k : Nat) (target : Bool), exec (.requestAged k target) s = .next t → Within [] [.hdw] s t) ∧
    (∀ (k : Nat), exec (.requestUrgent k) s = .next t → Within [] [.hdw] s t) ∧
    (∀ (a : Agent) (p : Nat) (k : Nat) (n : Nat) (w : Word), exec (.hdwBudgetWrite a p k n w) s = .next t → Within (andRecord [.HDW_PATH, .HDW_P_BUD]) [.resp, .flt, .hdw, .deep] s t)

/-- Frame of the commands of the sensor ingress and of Crosswind. -/
def Obligations.SensorAndFusionCommandsFrame : Prop :=
  ∀ s t : State,
    (∀ (a : Agent) (n : Nat) (on : Bool), exec (.snsEnable a n on) s = .next t → Within (andRecord [.SNS_ACTIVE, .SNS_S_CTRL, .SNS_S_STATUS, .SNS_S_EVENT]) [.resp, .flt, .deep, .sns] s t) ∧
    (∀ (a : Agent) (n : Nat), exec (.clearSuspect a n) s = .next t → Within (andRecord [.SNS_S_STATUS, .SNS_S_EVENT]) [.resp, .flt, .deep, .sns] s t) ∧
    (∀ (port : Nat) (vc : Nat) (ecc : Nat), exec (.csi2FrameStart port vc ecc) s = .next t → Within (andRecord [.SNS_PORT_ERRORS, .SNS_S_STATUS, .SNS_S_ERRORS, .SNS_S_EVENT]) [.flt, .deep, .sns] s t) ∧
    (∀ (port : Nat) (vc : Nat) (ecc : Nat) (payload : List Byte) (crcBad : Bool), exec (.csi2FrameEnd port vc ecc payload crcBad) s = .next t → Within (andRecord [.SNS_PORT_ERRORS, .SNS_S_STATUS, .SNS_S_ERRORS, .SNS_S_EVENT]) [.flt, .deep, .sns] s t) ∧
    (∀ (port : Nat) (udp : Nat) (mac : Nat) (data : List Byte), exec (.ethSampleDatagram port udp mac data) s = .next t → Within (andRecord [.SNS_PORT_ERRORS]) [.flt, .deep, .sns] s t) ∧
    (∀ (n : Nat), exec (.spiDataReady n) s = .next t → Within (andRecord [.SNS_PORT_ERRORS]) [.flt, .deep, .sns] s t) ∧
    (∀ (n : Nat) (data : List Byte), exec (.spiBurstDone n data) s = .next t → Within (andRecord [.SNS_PORT_ERRORS, .SNS_S_STATUS, .SNS_S_ERRORS, .SNS_S_EVENT]) [.flt, .deep, .sns] s t) ∧
    (∀ (port : Nat) (addr : Nat), exec (.i3cIbi port addr) s = .next t → Within (andRecord [.SNS_PORT_ERRORS]) [.flt, .deep, .sns] s t) ∧
    (∀ (port : Nat) (addr : Nat) (data : List Byte), exec (.i3cReadDone port addr data) s = .next t → Within (andRecord [.SNS_PORT_ERRORS]) [.flt, .deep, .sns] s t) ∧
    (∀ (n : Nat) (slots : List Nat), exec (.tdmFrameSync n slots) s = .next t → Within (andRecord [.SNS_PORT_ERRORS]) [.flt, .deep, .sns] s t) ∧
    (∀ (n : Nat), exec (.sampleWrite n) s = .next t → Within (andRecord [.BANK_CQ_STATUS, .BANK_TQ_STATUS, .SNS_S_STATUS, .SNS_S_SEQ, .SNS_S_UNC, .SNS_S_LATEMAP, .SNS_S_DROPPED, .SNS_S_ERRORS, .SNS_S_EVENT, .XW_EVENT, .TIME_OLD_CONV]) [.free, .mem, .badCheck, .badWord, .flt, .hdw, .deep, .sns, .xw] s t) ∧
    (∀ (n : Nat), exec (.sampleIncompleteTimeout n) s = .next t → Within (andRecord [.SNS_S_STATUS, .SNS_S_ERRORS, .SNS_S_EVENT]) [.flt, .deep, .sns] s t) ∧
    (∀ (n : Nat), exec (.streamLostTimeout n) s = .next t → Within [.SNS_S_STATUS, .SNS_S_EVENT] [] s t) ∧
    (∀ (n : Nat), exec (.unsyncClearTimeout n) s = .next t → Within [.SNS_S_STATUS, .SNS_S_EVENT] [] s t) ∧
    (exec .xwInputEntry s = .next t → Within (andRecord [.BANK_CQ_STATUS, .BANK_TQ_STATUS, .SNS_S_STATUS, .SNS_S_LATEMAP, .SNS_S_DROPPED, .SNS_S_EVENT, .XW_IN_HEAD, .XW_EVENT]) [.heldRead, .flt, .hdw, .deep, .xw] s t) ∧
    (∀ (k : Nat), exec (.instantEmit k) s = .next t → Within [] [.xw] s t) ∧
    (∀ (k : Nat), exec (.gridHoldExpiry k) s = .next t → Within [] [.xw] s t) ∧
    (exec .emissionDone s = .next t → Within (andRecord [.BANK_CQ_STATUS, .BANK_TQ_STATUS, .SNS_S_STATUS, .SNS_S_EVENT, .XW_INSTANT, .XW_EVENT, .XW_TRK]) [.free, .mem, .badCheck, .badWord, .flt, .hdw, .deep, .sns, .xw, .veer] s t) ∧
    (exec .auctionTimeout s = .next t → Within [.XW_EVENT] [.xw] s t) ∧
    (exec .proxTick s = .next t → Within (andRecord [.BANK_CQ_STATUS, .BANK_TQ_STATUS, .XW_LEVEL, .XW_EVENT, .XW_PROX_SEC]) [.heldRead, .flt, .hdw, .deep, .xw] s t) ∧
    (exec .levelHoldExpiry s = .next t → Within [.XW_LEVEL, .XW_EVENT] [] s t) ∧
    (∀ (port : Nat), exec (.tdmClockLoss port) s = .next t → Within (andRecord [.SNS_S_STATUS, .SNS_S_ERRORS, .SNS_S_EVENT]) [.flt, .deep, .sns] s t)

/-- Frame of the commands of Veer. -/
def Obligations.VeerCommandsFrame : Prop :=
  ∀ s t : State,
    (exec .epochPublished s = .next t → Within (andRecord [.BANK_CQ_STATUS, .BANK_TQ_STATUS, .VEER_EPOCH, .VEER_ORIGIN, .VEER_EVENT]) [.flt, .hdw, .deep, .veer] s t) ∧
    (exec .goal s = .next t → Within (andRecord [.BANK_CQ_STATUS, .BANK_TQ_STATUS, .VEER_Q_HEAD, .VEER_STATUS, .VEER_EVENT]) [.mem, .badCheck, .badWord, .flt, .hdw, .deep, .veer] s t) ∧
    (exec .arm s = .next t → Within (andRecord [.BANK_CQ_STATUS, .BANK_TQ_STATUS, .VEER_Q_HEAD]) [.mem, .badCheck, .badWord, .flt, .hdw, .deep, .veer] s t) ∧
    (exec .cancel s = .next t → Within (andRecord [.BANK_CQ_STATUS, .BANK_TQ_STATUS, .VEER_Q_HEAD]) [.mem, .badCheck, .badWord, .flt, .hdw, .deep, .veer] s t) ∧
    (exec .modelLoad s = .next t → Within (andRecord [.BANK_CQ_STATUS, .BANK_TQ_STATUS, .VEER_Q_HEAD]) [.mem, .badCheck, .badWord, .flt, .hdw, .deep, .veer] s t) ∧
    (exec .voxels s = .next t → Within (andRecord [.BANK_CQ_STATUS, .BANK_TQ_STATUS, .VEER_Q_HEAD]) [.mem, .badCheck, .badWord, .flt, .hdw, .deep, .veer] s t) ∧
    (exec .layerMode s = .next t → Within (andRecord [.BANK_CQ_STATUS, .BANK_TQ_STATUS, .VEER_Q_HEAD]) [.mem, .badCheck, .badWord, .flt, .hdw, .deep, .veer] s t) ∧
    (exec .mapCopy s = .next t → Within (andRecord [.BANK_CQ_STATUS, .BANK_TQ_STATUS, .VEER_Q_HEAD]) [.mem, .badCheck, .badWord, .flt, .hdw, .deep] s t) ∧
    (exec .globalTick s = .next t → Within (andRecord [.BANK_CQ_STATUS, .BANK_TQ_STATUS, .VEER_STATUS, .VEER_EVENT]) [.mem, .badCheck, .badWord, .flt, .hdw, .deep, .veer] s t) ∧
    (exec .globalDone s = .next t → Within (andRecord [.BANK_CQ_STATUS, .BANK_TQ_STATUS, .VEER_STATUS, .VEER_EVENT, .VEER_CHECKS]) [.free, .mem, .badCheck, .badWord, .flt, .hdw, .deep, .veer] s t) ∧
    (exec .repairTick s = .next t → Within (andRecord [.VEER_STATUS, .VEER_EVENT]) [.flt, .deep, .veer] s t) ∧
    (exec .repairDone s = .next t → Within (andRecord [.VEER_STATUS, .VEER_EVENT, .VEER_CHECKS]) [.free, .flt, .deep, .veer] s t) ∧
    (∀ (st : VeerStage), exec (.stageTimeout st) s = .next t → Within (andRecord [.BANK_CQ_STATUS, .BANK_TQ_STATUS, .VEER_STATUS, .VEER_EVENT, .VEER_CHECKS]) [.free, .mem, .badCheck, .badWord, .flt, .hdw, .deep, .veer] s t) ∧
    (exec .outputTick s = .next t → Within (andRecord [.BANK_CQ_STATUS, .BANK_TQ_STATUS, .VEER_STATUS, .VEER_EVENT, .VEER_CHECKS]) [.free, .mem, .badCheck, .badWord, .flt, .hdw, .deep, .veer] s t) ∧
    (exec .armSearchDone s = .next t → Within (andRecord [.BANK_CQ_STATUS, .BANK_TQ_STATUS, .VEER_EVENT, .VEER_CHECKS]) [.free, .mem, .badCheck, .badWord, .flt, .hdw, .deep, .veer] s t)

/-- Frame of the commands of Breeze and of the Windline ring. -/
def Obligations.BreezeAndWindlineCommandsFrame : Prop :=
  ∀ s t : State,
    (exec .cycleStart s = .next t → Within [.BRZ_MAT_CTRL, .WL_CYCLE_LO, .WL_CYCLE_HI, .WL_STO_LO, .WL_STO_HI, .TIME_WL_ORIGIN_LO, .TIME_WL_ORIGIN_HI, .WB_STATUS, .WB_CAUSE, .WB_EVENT] [.pins, .time, .wb, .brz, .wl] s t) ∧
    (exec .latch s = .next t → Within (andRecord [.BANK_CQ_STATUS, .BANK_TQ_STATUS, .BRZ_SP_SEQ, .BRZ_EVENT, .BRZ_L_FLAGS]) [.flt, .hdw, .deep, .brz] s t) ∧
    (∀ (frame : List Byte) (fcsOk : Bool), exec (.windlineFrameReturn frame fcsOk) s = .next t → Within (andRecord [.WL_STATUS, .WL_RTT, .WL_EVENT, .WL_N_STATUS, .WL_N_ERRORS, .WL_N_TSAMPLE]) [.flt, .deep, .wl] s t) ∧
    (exec .rxDeadline s = .next t → Within (andRecord [.WL_STATUS, .WL_STO_LO, .WL_STO_HI, .WL_EVENT, .WL_LOST_LO, .WL_LOST_HI, .WL_N_STATUS, .WL_N_ERRORS, .WB_STATUS, .WB_CAUSE, .WB_LIMIT, .WB_EVENT]) [.pins, .flt, .wb, .deep, .wl] s t) ∧
    (∀ (n : Nat), exec (.loopRunStart n) s = .next t → Within [] [.brz] s t) ∧
    (∀ (n : Nat), exec (.endRun n) s = .next t → Within [] [.brz] s t) ∧
    (∀ (n : Nat), exec (.ldin n) s = .next t → Within [] [.brz] s t) ∧
    (∀ (n : Nat), exec (.ldsp n) s = .next t → Within [] [.brz] s t) ∧
    (∀ (n : Nat), exec (.ldk n) s = .next t → Within [] [.brz] s t) ∧
    (∀ (n : Nat), exec (.lds n) s = .next t → Within [] [.brz] s t) ∧
    (∀ (n : Nat), exec (.sts n) s = .next t → Within [] [.brz] s t) ∧
    (∀ (n : Nat), exec (.outOp n) s = .next t → Within [] [.brz] s t) ∧
    (∀ (n : Nat), exec (.addOp n) s = .next t → Within [] [.brz] s t) ∧
    (∀ (n : Nat), exec (.subOp n) s = .next t → Within [] [.brz] s t) ∧
    (∀ (n : Nat), exec (.mulOp n) s = .next t → Within [] [.brz] s t) ∧
    (∀ (n : Nat), exec (.mac n) s = .next t → Within [] [.brz] s t) ∧
    (∀ (n : Nat), exec (.clamp n) s = .next t → Within [] [.brz] s t) ∧
    (∀ (n : Nat), exec (.minOp n) s = .next t → Within [] [.brz] s t) ∧
    (∀ (n : Nat), exec (.maxOp n) s = .next t → Within [] [.brz] s t) ∧
    (∀ (n : Nat), exec (.negOp n) s = .next t → Within [] [.brz] s t) ∧
    (∀ (n : Nat), exec (.absOp n) s = .next t → Within [] [.brz] s t) ∧
    (∀ (n : Nat), exec (.divOp n) s = .next t → Within [] [.brz] s t) ∧
    (∀ (n : Nat), exec (.sqrtOp n) s = .next t → Within [] [.brz] s t) ∧
    (∀ (n : Nat), exec (.curve n) s = .next t → Within [] [.brz] s t) ∧
    (∀ (n : Nat), exec (.cvt n) s = .next t → Within [] [.brz] s t) ∧
    (∀ (n : Nat), exec (.err n) s = .next t → Within [] [.brz] s t) ∧
    (∀ (n : Nat), exec (.ldv n) s = .next t → Within [] [.brz] s t) ∧
    (∀ (n : Nat), exec (.stv n) s = .next t → Within [] [.brz] s t) ∧
    (∀ (n : Nat), exec (.chol n) s = .next t → Within [] [.brz] s t) ∧
    (exec .cholDone s = .next t → Within [] [.brz] s t) ∧
    (exec .deadline s = .next t → Within (andRecord [.BRZ_EVENT, .BRZ_MISSES, .BRZ_L_CTRL, .BRZ_L_FLAGS, .BRZ_L_MISSES, .BRZ_L_FIRES, .BRZ_L_LAST, .BRZ_L_S, .WL_STO_LO, .WL_STO_HI, .WB_STATUS, .WB_CAUSE, .WB_EVENT]) [.pins, .flt, .wb, .deep, .brz, .wl] s t) ∧
    (∀ (a : Agent) (n : Nat) (w : Word), exec (.loopEnable a n w) s = .next t → Within (andRecord [.BRZ_L_CTRL]) [.resp, .flt, .deep, .brz] s t) ∧
    (∀ (a : Agent) (mask : Nat), exec (.matrixCommit a mask) s = .next t → Within (andRecord [.BRZ_MAT_CTRL]) [.resp, .flt, .deep] s t) ∧
    (∀ (a : Agent) (timing : Bool) (w : Word), exec (.phaseWrite a timing w) s = .next t → Within (andRecord [.BRZ_PHASE, .WL_TIMING]) [.resp, .flt, .deep] s t) ∧
    (∀ (a : Agent) (w : Word), exec (.windlineEnable a w) s = .next t → Within (andRecord [.WL_CTRL, .WL_STATUS, .WL_LOST_LO, .WL_LOST_HI, .WL_N_STATUS]) [.resp, .flt, .deep, .brz, .wl] s t) ∧
    (∀ (p : Nat), exec (.windlinePortDown p) s = .next t → Within (andRecord [.WL_EVENT, .WL_N_STATUS, .WL_N_ERRORS]) [.flt, .deep, .wl] s t)

/-- Frame of the commands of the time unit, of the switch and of the host port. -/
def Obligations.TimeAndNetworkCommandsFrame : Prop :=
  ∀ s t : State,
    (∀ (a : Agent) (v : Word), exec (.robRateWrite a v) s = .next t → Within (andRecord [.TIME_ROB_RATE, .TIME_B_RATE]) [.resp, .flt, .time, .deep] s t) ∧
    (∀ (a : Agent) (v : Word), exec (.robAdjWrite a v) s = .next t → Within (andRecord [.TIME_ROB_ADJ, .TIME_ROB_STATUS, .TIME_B_RATE]) [.resp, .flt, .time, .deep] s t) ∧
    (exec .slewDone s = .next t → Within [.TIME_ROB_ADJ, .TIME_ROB_STATUS, .TIME_EVENT, .TIME_B_RATE] [.time] s t) ∧
    (∀ (a : Agent), exec (.timeSnap a) s = .next t → Within (andRecord [.TIME_SNAPJ_LO, .TIME_SNAPJ_HI]) [.resp, .flt, .deep] s t) ∧
    (∀ (k : Nat) (m : PtpMsg) (twoStep : Bool), exec (.ptpSyncRx k m twoStep) s = .next t → Within (andRecord [.TIME_ROB_RATE, .TIME_ROB_STATUS, .TIME_EVENT, .TIME_OLD_CONV, .TIME_B_RATE, .TIME_B_STATUS, .TIME_B_UNC, .TIME_B_ERRORS]) [.free, .flt, .time, .deep] s t) ∧
    (∀ (k : Nat) (m : PtpMsg), exec (.ptpFollowUpRx k m) s = .next t → Within (andRecord [.TIME_ROB_RATE, .TIME_ROB_STATUS, .TIME_EVENT, .TIME_OLD_CONV, .TIME_B_RATE, .TIME_B_STATUS, .TIME_B_UNC, .TIME_B_ERRORS]) [.free, .flt, .time, .deep] s t) ∧
    (∀ (k : Nat) (m : PtpMsg) (an : Announce), exec (.ptpAnnounceRx k m an) s = .next t → Within (andRecord [.TIME_ROB_STATUS, .TIME_EVENT, .TIME_B_STATUS, .TIME_B_UNC, .TIME_B_ERRORS]) [.flt, .time, .deep] s t) ∧
    (∀ (k : Nat) (m : PtpMsg), exec (.ptpDelayRespRx k m) s = .next t → Within (andRecord [.TIME_EVENT, .TIME_OLD_CONV, .TIME_B_STATUS, .TIME_B_ERRORS]) [.flt, .time, .deep] s t) ∧
    (∀ (k : Nat) (m : PtpMsg), exec (.ptpPdelayReqRx k m) s = .next t → Within (andRecord [.TIME_EVENT, .TIME_B_STATUS, .TIME_B_ERRORS]) [.flt, .time, .deep] s t) ∧
    (∀ (k : Nat) (m : PtpMsg), exec (.ptpPdelayRespRx k m) s = .next t → Within (andRecord [.TIME_EVENT, .TIME_B_STATUS, .TIME_B_ERRORS]) [.flt, .time, .deep] s t) ∧
    (∀ (k : Nat), exec (.ptpSyncInterval k) s = .next t → Within (andRecord [.TIME_EVENT, .TIME_B_STATUS, .TIME_B_ERRORS]) [.flt, .time, .deep] s t) ∧
    (∀ (k : Nat), exec (.ptpAnnounceInterval k) s = .next t → Within [] [.time] s t) ∧
    (∀ (k : Nat), exec (.ptpDelayReqInterval k) s = .next t → Within [] [.time] s t) ∧
    (∀ (k : Nat), exec (.announceTimeout k) s = .next t → Within [.TIME_ROB_STATUS, .TIME_EVENT, .TIME_B_RATE, .TIME_B_STATUS, .TIME_B_UNC] [.time] s t) ∧
    (∀ (k : Nat), exec (.holdoverExpiry k) s = .next t → Within [.TIME_ROB_STATUS, .TIME_B_STATUS, .TIME_B_UNC] [] s t) ∧
    (∀ (k : Nat) (sender : Nat), exec (.masterDisqualifyExpiry k sender) s = .next t → Within [] [.time] s t) ∧
    (∀ (n : Nat) (frame : List Byte) (fcsOk : Bool), exec (.ethFrameRx n frame fcsOk) s = .next t → Within (andRecord [.NET_P_ERRORS, .NET_P_EVENT]) [.free, .flt, .deep, .net] s t) ∧
    (∀ (a : Agent) (n : Nat), exec (.gateListGo a n) s = .next t → Within (andRecord [.NET_P_GATE_CTRL]) [.resp, .flt, .deep, .net] s t) ∧
    (∀ (n : Nat), exec (.configChange n) s = .next t → Within [.NET_P_GATE_CTRL, .NET_P_EVENT] [.net] s t) ∧
    (∀ (n : Nat), exec (.gateIntervalExpiry n) s = .next t → Within [] [.net] s t) ∧
    (∀ (n : Nat) (up : Bool), exec (.ethLinkChange n up) s = .next t → Within (andRecord [.TIME_ROB_STATUS, .TIME_EVENT, .TIME_B_STATUS, .TIME_B_UNC, .NET_P_STATUS, .NET_P_ERRORS, .NET_P_EVENT]) [.flt, .time, .deep, .net] s t) ∧
    (∀ (n : Nat), exec (.portHoldDownExpiry n) s = .next t → Within [.TIME_ROB_STATUS, .TIME_EVENT, .TIME_B_STATUS, .TIME_B_UNC, .NET_P_STATUS, .NET_P_EVENT] [.time, .net] s t) ∧
    (∀ (rate : Nat) (width : Nat) (ltssm : Nat) (gib : Option Nat), exec (.hpLinkTrained rate width ltssm gib) s = .next t → Within [.HP_LINK_STATUS, .HP_CXL_SIZE, .HP_EVENT] [.hp] s t) ∧
    (∀ (xt : HpTlp), exec (.hpInboundTlp xt) s = .next t → Within RegName.all [.free, .mem, .badCheck, .badWord, .resp, .heldRead, .heldWrite, .recSel, .pulses, .pins, .boot, .spl, .flt, .time, .wb, .bank, .hdw, .curves, .pwr, .sch, .upool, .deep, .upd, .sqe, .sns, .brz, .wl, .net, .hp] s t) ∧
    (∀ (p : Nat) (v : Word), exec (.hpDoorbellWrite p v) s = .next t → Within [.HP_P_DB] [.pulses] s t) ∧
    (∀ (a : Agent) (p : Nat) (mask : Nat), exec (.hpMsiRaise a p mask) s = .next t → Within recordRegs [.resp, .pulses, .flt, .deep, .hp] s t) ∧
    (∀ (a : Agent) (x : Nat) (n : Nat), exec (.completionTimeout a x n) s = .next t → Within (andRecord [.TILE_STATUS, .TILE_ERR, .UPD_PLAN_STATUS, .UPD_PLAN_STALL_US, .UPD_PLAN_STALL_MAX, .SCH_P_EVENT, .SCH_CTX, .HP_ERRORS, .HP_EVENT]) [.resp, .pulses, .flt, .sch, .deep, .upd, .hp] s t) ∧
    (exec .surpriseLinkDown s = .next t → Within (andRecord [.HP_LINK_STATUS, .HP_CXL_SIZE, .HP_ERRORS, .HP_EVENT]) [.flt, .deep] s t) ∧
    (exec .hpRetrainTimer s = .next t → Within [.HP_LINK_STATUS] [.free, .hp] s t) ∧
    (∀ (k : Nat) (m : PtpMsg), exec (.ptpDelayReqRx k m) s = .next t → Within (andRecord [.TIME_EVENT, .TIME_OLD_CONV, .TIME_B_STATUS, .TIME_B_ERRORS]) [.flt, .time, .deep] s t) ∧
    (exec .uncorrectableFec s = .next t → Within (andRecord [.HP_LINK_STATUS, .HP_ERRORS, .HP_EVENT]) [.free, .flt, .deep, .hp] s t)

/-- Frame of the commands of power, clocks and temperature. -/
def Obligations.PowerCommandsFrame : Prop :=
  ∀ s t : State,
    (∀ (cnt : List Nat), exec (.powerTick cnt) s = .next t → Within [.TILE_FREQ, .PWR_STATUS, .PWR_EST, .PWR_EVENT, .PWR_DOM, .PWR_P, .PWR_HOST, .PWR_TILE] [.free, .pwr] s t) ∧
    (∀ (r : Nat) (x : Reading), exec (.telemetryReading r x) s = .next t → Within (andRecord [.TILE_FREQ, .PWR_STATUS, .PWR_SQUALL, .PWR_EVENT, .PWR_SCALE, .PWR_HOST, .PWR_RAIL_READ]) [.flt, .pwr, .deep] s t) ∧
    (exec .telemetryPeriod s = .next t → Within [.PWR_MEAS] [] s t) ∧
    (∀ (r : Nat), exec (.railNoReading r) s = .next t → Within (andRecord [.PWR_STATUS, .PWR_EVENT, .PWR_RAIL_READ]) [.flt, .pwr, .deep] s t) ∧
    (∀ (r : Nat), exec (.voltageSettled r) s = .next t → Within [.TILE_FREQ, .PWR_HOST] [.pwr] s t) ∧
    (∀ (xt : Nat), exec (.gateIdleExpiry xt) s = .next t → Within [.TILE_FREQ, .BANK_CQ_STATUS, .BANK_TQ_STATUS] [.bank, .pwr] s t) ∧
    (∀ (l : List Nat), exec (.tempSample l) s = .next t → Within [.MEM_DEEP_STATUS, .PWR_TEMP, .PWR_HOST, .PWR_TILE] [.pwr] s t) ∧
    (∀ (k : Nat), exec (.overtempPersist k) s = .next t → Within recordRegs [.flt, .deep] s t) ∧
    (exec .deepLimitStep s = .next t → Within [.PWR_STATUS] [.pwr] s t) ∧
    (∀ (xt : Nat) (mhz : Nat), exec (.fmaxRederive xt mhz) s = .next t → Within (andRecord [.TILE_FREQ, .PWR_EVENT]) [.boot, .flt, .pwr, .deep] s t) ∧
    (exec .galeTrip s = .next t → Within [.TILE_FREQ, .WL_STO_LO, .WL_STO_HI, .PWR_STATUS, .PWR_EVENT, .PWR_HOST, .WB_STATUS, .WB_CAUSE, .WB_EVENT] [.pins, .wb, .pwr] s t) ∧
    (exec .galeRecord s = .next t → Within (andRecord [.SPL_BUSY, .SPL_CTRL, .SPL_STATUS, .TILE_STATUS, .FLT_RUNG_COUNT]) [.pulses, .pins, .spl, .flt, .sch, .deep] s t) ∧
    (∀ (fault : Option (Nat × Nat)), exec (.squallAssert fault) s = .next t → Within (andRecord [.TILE_FREQ, .PWR_STATUS, .PWR_SQUALL, .PWR_EVENT, .PWR_HOST]) [.pins, .flt, .pwr, .deep] s t) ∧
    (exec .squallRelease s = .next t → Within [] [.pins, .pwr] s t) ∧
    (exec .squallHoldExpiry s = .next t → Within [.PWR_STATUS] [.pwr] s t) ∧
    (exec .squallPersist s = .next t → Within recordRegs [.flt, .deep] s t) ∧
    (exec .tileWakeAdmit s = .next t → Within [.TILE_FREQ, .BANK_CQ_STATUS, .BANK_TQ_STATUS] [.bank, .pwr] s t) ∧
    (exec .squallHeldExpiry s = .next t → Within [] [.pwr] s t)

/-- Frame of the commands of fault handling, of Windbreak and of the boot stages. -/
def Obligations.FaultAndBootCommandsFrame : Prop :=
  ∀ s t : State,
    (∀ (xt : Nat), exec (.spanWatchdog xt) s = .next t → Within (andRecord [.SPL_BUSY, .SPL_CTRL, .SPL_STATUS, .TILE_STATUS, .TILE_ERR, .UPD_PLAN_STATUS, .UPD_PLAN_STALL_US, .UPD_PLAN_STALL_MAX, .SCH_P_EVENT, .SCH_CTX, .FLT_RUNG_COUNT]) [.pulses, .spl, .flt, .sch, .deep, .upd] s t) ∧
    (∀ (f : FaultDesc) (words : List Nat) (segs : List Nat) (corrected : Nat), exec (.faultDetected f words segs corrected) s = .next t → Within (andRecord [.SPL_BUSY, .SPL_CTRL, .SPL_STATUS, .TILE_STATUS, .MEM_WARM_STATUS, .FLT_RUNG_COUNT]) [.badCheck, .badWord, .pulses, .spl, .flt, .sch, .deep] s t) ∧
    (∀ (n : Nat) (served : Nat), exec (.fenceDrainDone n served) s = .next t → Within RegName.all [.now, .free, .mem, .badCheck, .badWord, .resp, .heldRead, .heldWrite, .recSel, .pulses, .pins, .boot, .spl, .flt, .time, .wb, .bank, .hdw, .curves, .pwr, .sch, .upool, .deep, .upd, .sqe, .sns, .xw, .veer, .brz, .wl, .net, .hp] s t) ∧
    (∀ (n : Nat), exec (.fenceConfirmTimeout n) s = .next t → Within (andRecord [.SPL_BUSY, .SPL_CTRL, .SPL_STATUS, .TILE_STATUS, .FLT_RUNG_COUNT]) [.pulses, .spl, .flt, .sch, .deep] s t) ∧
    (∀ (n : Nat) (failed : List Nat), exec (.recoveryRelease n failed) s = .next t → Within (andRecord [.TILE_INFO]) [.mem, .badCheck, .badWord, .flt, .hdw, .deep, .upd] s t) ∧
    (∀ (a : Agent) (rung : Nat) (part : Nat) (target : Nat), exec (.fltReset a rung part target) s = .next t → Within (andRecord [.SPL_BUSY, .SPL_CTRL, .SPL_STATUS, .TILE_STATUS, .FLT_RESET, .FLT_RESET_STATUS, .FLT_RUNG_COUNT]) [.resp, .pulses, .spl, .flt, .sch, .deep] s t) ∧
    (exec .logFlushTimer s = .next t → Within [.MEM_DEEP_WEAR, .FLT_STATUS, .FLT_LOG_STATUS] [.flt, .deep] s t) ∧
    (∀ (a : Agent), exec (.logFlush a) s = .next t → Within recordRegs [.resp, .flt, .deep] s t) ∧
    (∀ (a : Agent), exec (.logRead a) s = .next t → Within (andRecord [.BANK_CQ_STATUS, .BANK_TQ_STATUS]) [.mem, .badCheck, .badWord, .resp, .flt, .bank, .deep] s t) ∧
    (∀ (a : Agent) (v : Word), exec (.recSelWrite a v) s = .next t → Within [] [.resp, .recSel] s t) ∧
    (∀ (active : Bool) (standby : Bool), exec (.lockstepMismatch active standby) s = .next t → Within (andRecord [.WL_STO_LO, .WL_STO_HI, .WB_STATUS, .WB_CAUSE, .WB_EVENT, .WB_PAIR]) [.pins, .flt, .wb, .deep] s t) ∧
    (∀ (a : Agent) (r : Reg), exec (.wboWriteReject a r) s = .next t → Within (andRecord [.WB_EVENT, .WB_REJECTS]) [.resp, .flt, .deep] s t) ∧
    (∀ (low : Bool), exec (.estopSample low) s = .next t → Within [.WL_STO_LO, .WL_STO_HI, .WB_STATUS, .WB_CAUSE, .WB_EVENT] [.pins, .wb] s t) ∧
    (exec .stopTimeExpiry s = .next t → Within [.WL_STO_LO, .WL_STO_HI, .WB_STATUS, .WB_EVENT] [.pins] s t) ∧
    (∀ (a : Agent), exec (.wbStop a) s = .next t → Within (andRecord [.WB_STATUS, .WB_CAUSE, .WB_EVENT]) [.resp, .flt, .wb, .deep] s t) ∧
    (∀ (a : Agent), exec (.wbRelease a) s = .next t → Within (andRecord [.WL_STO_LO, .WL_STO_HI, .WB_STATUS, .WB_CAUSE, .WB_LIMIT, .WB_EVENT]) [.resp, .pins, .flt, .wb, .deep] s t) ∧
    (∀ (aon : Bool), exec (.porstAssert aon) s = .next t → Within RegName.all [.now, .free, .mem, .badCheck, .badWord, .resp, .heldRead, .heldWrite, .recSel, .pulses, .pins, .boot, .spl, .flt, .time, .wb, .bank, .hdw, .curves, .pwr, .sch, .upool, .deep, .upd, .sqe, .sns, .xw, .veer, .brz, .wl, .net, .hp] s t) ∧
    (exec .porstRelease s = .next t → Within [.MEM_DEEP_STATUS, .PWR_STATUS] [.now, .free, .pins, .boot, .flt, .time, .deep] s t) ∧
    (exec .stageS0Done s = .next t → Within [.GLB_BOOT_STATUS, .GLB_BOOT_CFG, .GLB_BOOT_CTRL] [.boot] s t) ∧
    (∀ (fz : Option Fuses), exec (.stageS1Done fz) s = .next t → Within (andRecord [.SPL_SVN, .SPL_KEYS, .WL_STO_LO, .WL_STO_HI, .TIME_ROB_STATUS, .TIME_B_RATE, .TIME_B_STATUS, .TIME_B_UNC, .NET_P_CTRL, .WB_STATUS, .WB_CAUSE, .WB_EVENT, .GLB_BOOT_STATUS]) [.pins, .boot, .spl, .flt, .time, .wb, .pwr, .deep] s t) ∧
    (∀ (f0 : Bool) (f1 : Bool), exec (.stageS2Done f0 f1) s = .next t → Within (andRecord [.WL_STO_LO, .WL_STO_HI, .TIME_ROB_STATUS, .TIME_B_RATE, .TIME_B_STATUS, .TIME_B_UNC, .NET_P_CTRL, .WB_STATUS, .WB_CAUSE, .WB_EVENT, .GLB_BOOT_STATUS]) [.pins, .boot, .spl, .flt, .time, .wb, .pwr, .deep] s t) ∧
    (∀ (ok : Bool) (addr : Nat) (quads : List Nat), exec (.stageS3Done ok addr quads) s = .next t → Within (andRecord [.SPL_BUSY, .SPL_CTRL, .SPL_STATUS, .TILE_STATUS, .MEM_WARM_STATUS, .MEM_DEEP_WUSED, .FLT_RUNG_COUNT, .GLB_BOOT_STATUS]) [.free, .pulses, .boot, .spl, .flt, .sch, .deep] s t) ∧
    (∀ (results : List TileTest), exec (.stageS4Done results) s = .next t → Within (andRecord [.GLB_LTILE_MAP, .TILE_INFO, .TILE_FREQ, .GLB_BOOT_STATUS]) [.boot, .flt, .deep] s t) ∧
    (exec .stageS5Done s = .next t → Within (andRecord [.WL_STO_LO, .WL_STO_HI, .TIME_ROB_STATUS, .TIME_B_RATE, .TIME_B_STATUS, .TIME_B_UNC, .NET_P_CTRL, .WB_STATUS, .WB_CAUSE, .WB_EVENT, .GLB_BOOT_STATUS]) [.pins, .boot, .spl, .flt, .time, .wb, .pwr, .deep] s t) ∧
    (exec .stageS6Done s = .next t → Within (andRecord [.SPL_SVN, .SPL_KEYS, .SPL_CHIP_VERSION, .SPL_LOADED, .SPL_STATUS, .TILE_INFO, .BANK_CQ_STATUS, .MEM_P_EVICTS, .MEM_P_ALLOC, .SEQ_ENT, .HDW_P_EVENT, .HDW_P_MISSES, .SNS_S_CTRL, .SNS_S_STATUS, .SNS_S_TUNE0, .SNS_S_TUNE1, .SNS_S_ADJ, .WL_STO_LO, .WL_STO_HI, .TIME_ROB_STATUS, .TIME_B_RATE, .TIME_B_STATUS, .TIME_B_UNC, .NET_P_CTRL, .PWR_CAP, .PWR_CEILING, .PWR_STATUS, .WB_STATUS, .WB_CAUSE, .WB_EVENT, .GLB_BOOT_STATUS]) [.mem, .badCheck, .badWord, .resp, .pulses, .pins, .boot, .spl, .flt, .time, .wb, .hdw, .pwr, .upool, .deep, .upd, .sqe, .hp] s t) ∧
    (exec .stageS7Release s = .next t → Within (andRecord [.GLB_BOOT_STATUS, .GLB_BOOT_TIME]) [.boot, .flt, .deep] s t) ∧
    (∀ (a : Agent), exec (.bootOk a) s = .next t → Within (andRecord [.GLB_BOOT_STATUS]) [.resp, .boot, .flt, .deep] s t) ∧
    (∀ (a : Agent), exec (.restart a) s = .next t → Within (andRecord [.SPL_BUSY, .SPL_CTRL, .SPL_STATUS, .TILE_STATUS, .FLT_RUNG_COUNT, .GLB_BOOT_STATUS, .GLB_BOOT_CTRL]) [.resp, .pulses, .boot, .spl, .flt, .sch, .deep] s t) ∧
    (∀ (a : Agent), exec (.doldrums a) s = .next t → Within (andRecord [.GLB_BOOT_CTRL]) [.resp, .boot, .flt, .deep] s t) ∧
    (exec .bootWatchdogExpiry s = .next t → Within (andRecord [.SPL_BUSY, .SPL_CTRL, .SPL_STATUS, .TILE_STATUS, .FLT_RUNG_COUNT, .GLB_BOOT_STATUS]) [.pulses, .boot, .spl, .flt, .sch, .deep] s t) ∧
    (∀ (m : MaintReq), exec (.maintRequest m) s = .next t → Within (andRecord [.SPL_BUSY, .SPL_CTRL, .SPL_STATUS, .TILE_STATUS, .MEM_DEEP_WUSED, .FLT_RUNG_COUNT, .GLB_BOOT_STATUS, .GLB_BOOT_CTRL]) [.free, .mem, .badCheck, .badWord, .resp, .pulses, .boot, .spl, .flt, .sch, .deep] s t) ∧
    (exec .refclk1Loss s = .next t → Within (andRecord [.SPL_BUSY, .SPL_CTRL, .SPL_STATUS, .TILE_STATUS, .FLT_RUNG_COUNT]) [.pulses, .spl, .flt, .sch, .deep] s t) ∧
    (exec .crystalLoss s = .next t → Within (andRecord [.SPL_BUSY, .SPL_CTRL, .SPL_STATUS, .TILE_STATUS, .WL_STO_LO, .WL_STO_HI, .FLT_RUNG_COUNT, .WB_STATUS, .WB_EVENT]) [.pulses, .pins, .boot, .spl, .flt, .sch, .deep] s t)

/-- R5. -/
def Obligations.CsrBadAccess : Prop :=
  ∀ (a : Agent) (wr : Bool) (x n : Nat) (s : State), x < 0x40000000 → ¬ (n = 4 ∧ x % 4 = 0) →
    Completes (.csrBadAccess a wr x n) s fun t =>
      t.resp.err = true ∧ (wr = false → t.resp.data = List.replicate n 0) ∧ Within recordRegs [.flt, .resp, .pulses, .deep, .hp] s t ∧
      (let k : RateKey := { cls := 0x01, code := blockOf x, unit := 0, agent := some a }
       let f : FaultDesc := { cls := 0x01, part := s.agentPart a, source := a.code, address := x }
       match alGet s.flt.rates k with
       | some t0 => if s.now < t0 + 100000000 then t.flt = s.flt else Recorded s t f ∧ alGet t.flt.rates k = some s.now
       | none => Recorded s t f ∧ alGet t.flt.rates k = some s.now)

/-- R12, R347. -/
def Obligations.UnmappedCsrAccess : Prop :=
  (∀ (a : Agent) (wr : Bool) (x : Nat) (s : State), x < 0x40000000 → x % 4 = 0 → regAt x = none → wbPrivate x = false →
    Completes (.unmappedCsrAccess a wr x) s fun t =>
      t.resp.err = true ∧ (wr = false → t.resp.data = [0, 0, 0, 0]) ∧ Within recordRegs [.flt, .resp, .pulses, .deep, .hp] s t ∧
      (let k : RateKey := { cls := 0x01, code := blockOf x, unit := 0, agent := some a }
       let f : FaultDesc := { cls := 0x01, part := s.agentPart a, source := a.code, address := x }
       match alGet s.flt.rates k with
       | some t0 => if s.now < t0 + 100000000 then t.flt = s.flt else Recorded s t f ∧ alGet t.flt.rates k = some s.now
       | none => Recorded s t f ∧ alGet t.flt.rates k = some s.now)) ∧
  (∀ (a : Agent) (x : Nat) (s : State), x < 0x40000000 → x % 4 = 0 → regAt x = none → wbPrivate x = true → a ≠ .windbreak →
    Completes (.unmappedCsrAccess a false x) s fun t =>
      t.resp.err = true ∧ t.resp.data = [0, 0, 0, 0] ∧
      Recorded s t { cls := 0x02, part := s.agentPart a, source := a.code, address := x })

/-- R8, reads. -/
def Obligations.PairReads : Prop :=
  (∀ (a : Agent) (x : Nat) (s : State) (r : Reg) (hi : RegName), regAt x = some r → r.name.pairHi = some hi → s.csrFenced a r = false →
    r.name ≠ .UPD_INFLIGHT → hi ≠ .UPD_INFLIGHT →
    Completes (.pairLoRead a x) s fun t =>
      t.resp = ⟨false, bytesLE 4 (s.readValue a r).1.toNat⟩ ∧
      alGet t.heldRead (a, r) = some (s.readValue a { r with name := hi }).1 ∧
      (∀ k, k ≠ (a, r) → alGet t.heldRead k = alGet s.heldRead k) ∧ Within [] [.resp, .heldRead] s t) ∧
  (∀ (a : Agent) (x : Nat) (s : State) (r : Reg) (lo : RegName), regAt x = some r → r.name.pairLo = some lo → r.name.pairHi = none →
    s.csrFenced a r = false → r.name ≠ .UPD_INFLIGHT →
    Completes (.pairHiRead a x) s fun t =>
      (match alGet s.heldRead (a, { r with name := lo }) with
       | some w => t.resp = ⟨false, bytesLE 4 w.toNat⟩
       | none => t.resp = ⟨false, bytesLE 4 (s.readValue a r).1.toNat⟩) ∧
      alGet t.heldRead (a, { r with name := lo }) = none ∧ Within [] [.resp, .heldRead] s t) ∧
  (∀ (a : Agent) (s : State), (s.readValue a ⟨.TIME_RAW_LO, 0, 0⟩).1.toNat + 2 ^ 32 * (s.readValue a ⟨.TIME_RAW_HI, 0, 0⟩).1.toNat = s.now % 2 ^ 64)

/-- R8, writes.  That a held half is consumed is the model's reading (log entry 13). -/
def Obligations.PairWrites : Prop :=
  (∀ (a : Agent) (x : Nat) (w : Word) (s : State) (r : Reg), regAt x = some r → r.name.pairHi.isSome = true → r.name.info.wbo = false →
    s.csrFenced a r = false → s.mayWrite a r = true → r.readOnly = false →
    Completes (.pairLoWrite a x w) s fun t =>
      t.resp.err = false ∧ alGet t.heldWrite (a, r) = some w ∧ Within [] [.resp, .heldWrite] s t) ∧
  (∀ (a : Agent) (x : Nat) (w l : Word) (s : State) (r : Reg) (lo : RegName), regAt x = some r → r.name.pairLo = some lo →
    alGet s.heldWrite (a, { r with name := lo }) = some l →
    (∀ u, Within [lo] [.resp, .heldWrite] s u → u.PlainlyWritable a { r with name := lo } l ∧ u.PlainlyWritable a r w) →
    Completes (.pairHiWrite a x w) s fun t =>
      t.resp.err = false ∧ alGet t.heldWrite (a, { r with name := lo }) = none ∧
      t.rdReg { r with name := lo } = s.written { r with name := lo } l ∧ t.rdReg r = s.written r w ∧
      Within [lo, r.name] [.resp, .heldWrite] s t) ∧
  (∀ (a : Agent) (x : Nat) (w : Word) (s : State) (r : Reg) (lo : RegName), regAt x = some r → r.name.pairLo = some lo →
    alGet s.heldWrite (a, { r with name := lo }) = none → (∀ u, Within [] [.heldWrite] s u → u.PlainlyWritable a r w) →
    Completes (.pairHiWrite a x w) s fun t =>
      t.resp.err = false ∧ t.rdReg r = s.written r w ∧ Within [r.name] [.resp, .heldWrite] s t)

/-- R6, R13, R348. -/
def Obligations.RegisterWrites : Prop :=
  (∀ (a : Agent) (x : Nat) (w : Word) (s : State) (r : Reg), regAt x = some r → r.name.pairHi.isSome = false → r.name.pairLo.isSome = false →
    s.PlainlyWritable a r w →
    Completes (.registerWrite a x w) s fun t =>
      t.resp = ⟨false, []⟩ ∧ t.rdReg r = s.written r w ∧ (∀ q, q ≠ r → t.rdReg q = s.rdReg q) ∧ Within [r.name] [.resp] s t) ∧
  (∀ (a : Agent) (x : Nat) (w : Word) (s : State) (r : Reg), regAt x = some r → r.name.pairHi.isSome = false → r.name.pairLo.isSome = false →
    r.name.info.wbo = false → s.csrFenced a r = false → s.engineRow a r w = none → s.chipRow a r w = none → s.mayWrite a r = false →
    Completes (.registerWrite a x w) s fun t =>
      t.resp.err = true ∧ Within recordRegs [.resp, .flt, .deep] s t ∧
      Recorded s t { cls := 0x02, part := s.agentPart a, source := a.code, address := r.addr }) ∧
  (∀ (a : Agent) (x : Nat) (w : Word) (s : State) (r : Reg), regAt x = some r → r.name.pairHi.isSome = false → r.name.pairLo.isSome = false →
    r.name.info.wbo = true → a ≠ .windbreak → r.name ≠ .WB_REJECTS → r.name ≠ .WB_EVENT →
    Completes (.registerWrite a x w) s fun t =>
      t.resp.err = false ∧ t.rd .WB_REJECTS = (s.rd .WB_REJECTS + 1) % 2 ^ 32 ∧ t.rdReg r = s.rdReg r)

/-- R9, R10, R78. -/
def Obligations.MemoryRequests : Prop :=
  (∀ (a : Agent) (x n : Nat) (busy : Bool) (s : State), 0x40000000 ≤ x → pathOf x = none → x + n ≤ deepBase → s.fencedRequest a x = false →
    s.holdOn a (.read x n) = none → s.verdict a false x n = .ok → s.readable x n = true →
    Completes (.memoryRequest a (.read x n) busy) s fun t =>
      t.resp.err = false ∧ t.resp.data = s.getBytes x n ∧ SameMemory s t ∧ ((∀ p, a ≠ .device p) → Within [] [.resp] s t)) ∧
  (∀ (a : Agent) (x : Nat) (d : List Byte) (busy : Bool) (s : State), 0x40000000 ≤ x → pathOf x = none → x + d.length ≤ deepBase →
    s.fencedRequest a x = false → s.holdOn a (.write x d) = none → s.verdict a true x d.length = .ok →
    Completes (.memoryRequest a (.write x d) busy) s fun t =>
      t.resp.err = false ∧ t.getBytes x d.length = d ∧ SameMemoryBut x d.length s t ∧ Within [] [.resp, .mem, .badCheck, .badWord] s t) ∧
  (∀ (a : Agent) (op : MemOp) (busy : Bool) (s : State), 0x40000000 ≤ op.range.1 → pathOf op.range.1 = none →
    s.fencedRequest a op.range.1 = false → s.opVerdict a op = .violation →
    Completes (.memoryRequest a op busy) s fun t =>
      t.resp.err = true ∧ (match op with | .read _ n => t.resp.data = List.replicate n 0 | .write _ _ => True) ∧
      SameMemory s t ∧ Recorded s t { cls := 0x02, part := s.agentPart a, source := a.code, address := op.range.1 })

/-- R31 to R33, R35, R40, R41. -/
def Obligations.LoadStart : Prop :=
  (∀ (a : Agent) (bank : Nat) (w : Word) (s : State), s.accessFenced a none = false → s.agentPart a = bank → bank < 8 →
    s.spl.load.any (fun l => l.bank == bank) = false →
    let target := if fieldOf w 8 8 = 1 then none else some (fieldOf w 2 0)
    let dry : Bool := fieldOf w 16 16 = 1
    let src := s.rd .SPL_SRC_LO bank + 2 ^ 32 * s.fld .SPL_SRC_HI 15 0 bank
    let c := s.goCode bank target dry src (s.rd .SPL_LEN bank)
    Completes (.loadGo a bank w) s fun t =>
      t.resp.err = false ∧
      (c = .ok → t.bit .SPL_CTRL 31 bank = true ∧ t.bit .SPL_BUSY 0 = true ∧ t.fld .SPL_BUSY 11 8 = target.getD 0xF ∧
        t.spl.load = some { bank, target, dryRun := dry, src, len := s.rd .SPL_LEN bank } ∧
        Within [.SPL_CTRL, .SPL_BUSY] [.resp, .spl] s t) ∧
      (c ≠ .ok → t.fld .SPL_STATUS 7 0 bank = c.num ∧ t.bit .SPL_STATUS 9 bank = true ∧ t.spl = s.spl ∧ .loader bank ∈ t.pulses ∧
        Recorded s t { cls := 0x04, part := target.getD 0xFF, source := 0x7000, detail := c.num })) ∧
  (∀ (s : State) (bank : Nat) (target : Option Nat) (dry : Bool) (src len : Nat), bank ≠ s.ctrl → target ≠ some bank →
    s.goCode bank target dry src len = .permission) ∧
  (∀ (s : State) (bank : Nat) (target : Option Nat) (dry : Bool) (src len : Nat), bank = s.ctrl ∨ target = some bank →
    s.spl.load.isSome = true ∨ s.spl.commit = true → s.goCode bank target dry src len = .busy) ∧
  (∀ (a : Agent) (bank : Nat) (w : Word) (s : State), s.accessFenced a none = false → s.agentPart a ≠ bank →
    Completes (.loadGo a bank w) s fun t => t.resp.err = true ∧ t.spl = s.spl ∧ Within recordRegs [.resp, .flt, .deep] s t ∧
      Recorded s t { cls := 0x02, part := s.agentPart a, source := a.code })

/-- R20 to R27, R33 to R35. -/
def Obligations.LoadChecks : Prop :=
  (∀ (s : State) (l : Load), s.spl.load = some l → l.phase = .header →
    let c := headerCode (s.loaderBytes l.src l.len) l.len s.variant l.target s.partMask
    Completes .loadHeaderRead s fun t =>
      (c = .ok → t.spl.load = some { l with phase := .digest } ∧ Within [] [.spl] s t) ∧
      (c ≠ .ok → t.spl.load = none ∧ t.bit .SPL_CTRL 31 l.bank = false ∧ t.bit .SPL_BUSY 0 = false ∧ t.fld .SPL_STATUS 7 0 l.bank = c.num ∧
        t.bit .SPL_STATUS 9 l.bank = true ∧ .loader l.bank ∈ t.pulses ∧ Recorded s t { cls := 0x04, part := l.target.getD 0xFF, source := 0x7000, detail := c.num })) ∧
  (∀ (s : State) (l : Load), s.spl.load = some l → l.phase = .digest →
    let c := signatureCode (s.loaderBytes l.src l.len) s.spl.fuses
    Completes .loadDigestDone s fun t =>
      (c = .ok → t.spl.load = some { l with phase := .sections } ∧ Within [] [.spl] s t) ∧
      (c ≠ .ok → t.spl.load = none ∧ t.bit .SPL_CTRL 31 l.bank = false ∧ t.bit .SPL_BUSY 0 = false ∧ t.fld .SPL_STATUS 7 0 l.bank = c.num ∧
        t.bit .SPL_STATUS 9 l.bank = true ∧ .loader l.bank ∈ t.pulses ∧ Recorded s t { cls := 0x04, part := l.target.getD 0xFF, source := 0x7000, detail := c.num })) ∧
  (∀ (s : State) (l : Load), s.spl.load = some l → l.phase = .sections →
    let r := sectionsCode (s.loaderBytes l.src l.len) l.target s.tileCount s.spl.chip s.spl.parts
    (∀ img, r.2 = some img → l.dryRun = true → Completes .loadSectionsChecked s fun t =>
      t.spl.load = none ∧ t.fld .SPL_STATUS 7 0 l.bank = 0 ∧ t.bit .SPL_STATUS 8 l.bank = true ∧ .loader l.bank ∈ t.pulses ∧ t.flt = s.flt ∧ t.bit .SPL_BUSY 0 = false ∧
      t.bit .SPL_CTRL 31 l.bank = false) ∧
    (∀ img p, r.2 = some img → l.dryRun = false → l.target = some p → Completes .loadSectionsChecked s fun t =>
      t.spl.load = some { l with phase := .fence, image := some img } ∧ t.spl.parts = s.spl.parts ∧ SameMemory s t) ∧
    (∀ img, r.2 = some img → l.dryRun = false → l.target = none → Completes .loadSectionsChecked s fun t =>
      t.boot.loaded = some (img, (l.src, l.len)) ∧ t.boot.next = .afterLoad ∧ SameMemory s t) ∧
    (r.2 = none → r.1 ≠ .ok → Completes .loadSectionsChecked s fun t =>
      t.spl.load = none ∧ t.fld .SPL_STATUS 7 0 l.bank = r.1.num ∧ t.bit .SPL_STATUS 9 l.bank = true ∧
      Recorded s t { cls := 0x04, part := l.target.getD 0xFF, source := 0x7000, detail := r.1.num }))

/-- R26, R28, R34, R39, R41, R60, R61. -/
def Obligations.LoadAppliesAndCommits : Prop :=
  (∀ (served : Nat) (s : State) (l : Load) (p : Nat) (img : Image), s.spl.load = some l → l.phase = .fence → l.target = some p →
    l.image = some img → Completes (.loadFenceDone served) s fun t =>
      t.spl.load = some { l with phase := .apply } ∧ (∃ e, alGet t.sqe.parts p = some { ended := e }) ∧ t.spl.parts = s.spl.parts ∧ t.spl.chip = s.spl.chip) ∧
  (∀ (failed : List Nat) (s : State) (l : Load) (p : Nat) (img : Image), s.spl.load = some l → l.phase = .apply → l.target = some p →
    l.image = some img → Completes (.loadApplyDone failed) s fun t =>
      t.spl.load = none ∧ alGet t.spl.parts p = some ((alGet img.parts p).getD {}) ∧ t.fld .SPL_STATUS 7 0 l.bank = 0 ∧
      t.bit .SPL_STATUS 8 l.bank = true ∧ t.bit .SPL_BUSY 0 = false ∧ t.rd .SPL_LOADED p = img.version % 2 ^ 32 ∧
      (p < 32 → t.bit .FLT_STATUS p = false)) ∧
  (∀ (a : Agent) (s : State), s.accessFenced a none = false → s.agentPart a = s.ctrl → s.ctrl ≠ 0xFF → s.spl.load = none → s.spl.commit = false →
    Completes (.svnCommit a) s fun t => t.resp.err = false ∧ t.bit .SPL_BUSY 1 = true ∧ t.spl.commit = true ∧
      t.spl.fuses = s.spl.fuses ∧ Within [.SPL_BUSY] [.resp, .spl] s t) ∧
  (∀ (a : Agent) (s : State), s.accessFenced a none = false → s.agentPart a = s.ctrl → s.ctrl ≠ 0xFF → s.spl.load.isSome = true ∨ s.spl.commit = true →
    Completes (.svnCommit a) s fun t => t.resp.err = true ∧ t.spl = s.spl ∧
      Recorded s t { cls := 0x04, part := s.agentPart a, source := 0x7000, detail := 0x0C }) ∧
  (∀ (s : State) (c : ChipImage), s.spl.commit = true → s.spl.chip = some c → Completes .svnCommitDone s fun t =>
      t.spl.fuses.svn = max s.spl.fuses.svn c.svn ∧ t.spl.fuses.revoked = s.spl.fuses.revoked ||| c.revokeMask ∧ t.spl.commit = false ∧
      t.bit .SPL_BUSY 1 = false ∧ t.rd .SPL_SVN = (c.svn * 0x100 + max s.spl.fuses.svn c.svn) % 2 ^ 32 ∧
      ((∀ r ∈ s.flt.recoveries, r.phase ≠ .waiting) → Within [.SPL_BUSY, .SPL_SVN, .SPL_KEYS] [.spl] s t)) ∧
  (∀ (a : Agent) (c : Nat) (s : State), 2 ≤ c → c < 32 → s.accessFenced a (some 14) = false → s.agentPart a = s.ctrl → s.ctrl ≠ 0xFF → s.curveLocked c = false →
    Completes (.curveCommit a c) s fun t => t.resp.err = false ∧ alGet t.curves c = some (s.curveStaged c) ∧
      (∀ k, k ≠ c → alGet t.curves k = alGet s.curves k) ∧ Within [] [.resp, .curves] s t)

/-- R79, R80. -/
def Obligations.BankHandover : Prop :=
  (∀ (a : Agent) (q target : Nat) (clear : Bool) (s : State), q < 16 → target < 8 → s.accessFenced a none = false → s.ownsQuad a q = true → s.hstate q ≠ 2 →
    Completes (.bankOffer a q target clear) s fun t =>
      t.resp.err = false ∧ t.hstate q = 1 ∧ t.quadTarget q = target ∧ t.quadOwner q = s.quadOwner q ∧ t.bit .BANK_CQ_CTRL 28 q = clear ∧
      t.bank.clear.contains q = clear ∧ (∀ k, k ≠ q → t.hstate k = s.hstate k ∧ t.quadTarget k = s.quadTarget k ∧
        t.bank.clear.contains k = s.bank.clear.contains k) ∧ Within [.BANK_CQ_CTRL, .BANK_CQ_STATUS] [.resp, .bank] s t) ∧
  (∀ (a : Agent) (q target : Nat) (clear : Bool) (s : State), q < 16 → target < 8 → s.accessFenced a none = false → s.ownsQuad a q = false →
    Completes (.bankOffer a q target clear) s fun t =>
      t.resp.err = true ∧ t.hstate q = s.hstate q ∧
      Recorded s t { cls := 0x02, part := s.agentPart a, source := a.code, address := 0x601000 + q * 0x10 }) ∧
  (∀ (a : Agent) (q : Nat) (s : State), q < 16 → s.accessFenced a none = false → s.hstate q = 1 → s.quadTarget q = s.agentPart a →
    Completes (.bankAccept a q) s fun t =>
      t.resp.err = false ∧ t.hstate q = 2 ∧ t.quadOwner q = s.quadOwner q ∧ Within [.BANK_CQ_STATUS] [.resp] s t) ∧
  (∀ (a : Agent) (q : Nat) (s : State), q < 16 → s.accessFenced a none = false → s.ownsQuad a q = true → s.hstate q = 1 →
    Completes (.bankCancel a q) s fun t =>
      t.resp.err = false ∧ t.hstate q = 0 ∧ t.quadOwner q = s.quadOwner q ∧ Within [.BANK_CQ_STATUS] [.resp] s t) ∧
  (∀ (q : Nat) (s : State), q < 16 → s.hstate q = 2 → q ∉ s.bank.drained → s.outstanding q = false →
    Completes (.handoverDrainDone q) s fun t =>
      q ∈ t.bank.drained ∧
      (s.bank.clear.contains q = true → ∀ x, 0x0110000000 + q * 0x400000 ≤ x → x < 0x0110000000 + q * 0x400000 + 0x400000 → t.getByte x = 0) ∧
      (s.bank.clear.contains q = false → SameMemory s t) ∧ SameMemoryBut (0x0110000000 + q * 0x400000) 0x400000 s t ∧
      Within [] [.bank, .mem, .badCheck, .badWord] s t) ∧
  (∀ (q : Nat) (s : State), q < 16 → s.hstate q = 2 → q ∉ s.bank.drained → s.outstanding q = true →
    Completes (.handoverDrainTimeout q) s fun t =>
      q ∈ t.bank.drained ∧ t.bit .BANK_CQ_STATUS 1 q = true ∧ t.outstanding q = false ∧
      (s.bank.clear.contains q = true → ∀ x, 0x0110000000 + q * 0x400000 ≤ x → x < 0x0110000000 + q * 0x400000 + 0x400000 → t.getByte x = 0) ∧
      SameMemoryBut (0x0110000000 + q * 0x400000) 0x400000 s t) ∧
  (∀ (q : Nat) (s : State), q < 16 → s.hstate q = 2 → q ∈ s.bank.drained →
    Completes (.handoverDone q) s fun t =>
      t.fld .BANK_CQ_STATUS 31 28 q = s.quadTarget q ∧ t.hstate q = 0 ∧ t.bit .BANK_CQ_STATUS 0 q = true ∧ q ∉ t.bank.drained ∧
      t.pulses = s.pulses ++ [.bank (s.fld .BANK_CQ_STATUS 31 28 q), .bank (s.quadTarget q)] ∧ SameMemory s t)

/-- R81 to R84. -/
def Obligations.BankTestAndLull : Prop :=
  (∀ (u : BankUnit) (s : State), u.exists = true → s.bit .BANK_CFG 0 = true → s.testBit u 9 = false → u ∉ s.bank.testing →
    s.testSkips u = false → (∀ w ∈ s.regionWords u (s.testRegion u), w / 64 ∉ s.badWord) →
    Completes (.testRegionStart u) s fun t =>
      u ∈ t.bank.testing ∧ t.testBit u 8 = true ∧ t.testRegion u = s.testRegion u ∧ Within [.BANK_CQ_STATUS, .BANK_TQ_STATUS] [.bank] s t) ∧
  (∀ (u : BankUnit) (s : State), u.exists = true → s.bit .BANK_CFG 0 = true → s.testBit u 9 = false → u ∉ s.bank.testing →
    s.testSkips u = true →
    Completes (.testRegionStart u) s fun t => t.testRegion u = (s.testRegion u + 1) % 1024 ∧ t.bank = s.bank) ∧
  (∀ (u : BankUnit) (s : State), u ∈ s.bank.testing → u ∉ s.bank.starved →
    Completes (.testStarved u) s fun t => t.bank.starved = u :: s.bank.starved ∧ Within [] [.bank] s t) ∧
  (∀ (u : BankUnit) (s : State), u ∈ s.bank.testing →
    Completes (.testRegionDone u true) s fun t =>
      u ∉ t.bank.testing ∧ u ∉ t.bank.starved ∧ t.testBit u 8 = false ∧ t.testRegion u = (s.testRegion u + 1) % 1024 ∧
      Within [.BANK_CQ_STATUS, .BANK_TQ_STATUS] [.bank] s t) ∧
  (∀ (u : BankUnit) (s : State), u ∈ s.bank.testing →
    Completes (.testRegionDone u false) s fun t =>
      u ∉ t.bank.testing ∧ t.testBit u 9 = true ∧ t.testBit u 8 = s.testBit u 8 ∧ t.testRegion u = s.testRegion u ∧
      ∃ f, Recorded s t f ∧ f.cls = 0x06 ∧ f.source = u.code) ∧
  (∀ (x : QuadRef) (s : State), x.exists = true → s.bit .BANK_CFG 1 = true → s.noLull x = false → s.inLull x = false → s.waking x = false →
    Completes (.lullIdleExpiry x) s fun t => t.inLull x = true ∧ Within [.BANK_CQ_STATUS, .BANK_TQ_STATUS] [] s t) ∧
  (∀ (a : Agent) (x : QuadRef) (s : State), x.exists = true → s.accessFenced a none = false → s.quadHolder x = some (s.agentPart a) → s.inLull x = false → s.waking x = false →
    Completes (.lullRequest a x) s fun t => t.resp.err = false ∧ t.inLull x = true ∧ Within [.BANK_CQ_STATUS, .BANK_TQ_STATUS] [.resp] s t) ∧
  (∀ (x : QuadRef) (s : State), x.exists = true → s.inLull x = true →
    Completes (.lullWake x) s fun t => t.inLull x = false ∧ t.waking x = true ∧ Within [.BANK_CQ_STATUS, .BANK_TQ_STATUS] [] s t) ∧
  (∀ (x : QuadRef) (s : State), x.exists = true → s.waking x = true →
    s.inLull x = false → Completes (.wakeDone x) s fun t => t.waking x = false ∧ ∀ h ∈ t.bank.held, h.1 ≠ x) ∧
  (∀ (x : QuadRef) (s : State), x.exists = true → s.waking x = true → (∀ h ∈ s.bank.held, h.1 ≠ x) → x ∉ s.bank.lullAfter →
    Completes (.wakeDone x) s fun t => t.waking x = false ∧ t.inLull x = s.inLull x ∧ Within [.BANK_CQ_STATUS, .BANK_TQ_STATUS] [.bank] s t)

/-- R89 to R95. -/
def Obligations.PoolCommands : Prop :=
  (∀ (s : State) (e : Nat), s.lowestFree = some e → e < 65536 ∧ s.extentTaken e = false ∧ ∀ k, k < e → s.extentTaken k = true) ∧
  (∀ (p e : Nat) (h : Holder) (pinned : Bool) (s : State), s.partExists p = true → s.mayAsk p h pinned = true →
    s.heldBy p < (s.part p).poolQuota → s.lowestFree = some e → (h = .software → s.pinnedBy p < (s.part p).pinnedQuota) →
    Completes (.extentRequest p h pinned) s fun t =>
      t.upool.extents = s.upool.extents ∧
      t.upool.grants = s.upool.grants ++ [{ ext := e, taker := { part := p, holder := h, pinned := h == .software } }] ∧
      Within [] [.upool] s t) ∧
  (∀ (a : Agent) (p e : Nat) (s : State), s.accessFenced a none = false → s.agentPart a = p → p < 8 → s.bit .MEM_P_ALLOC 31 p = false → s.heldBy p < (s.part p).poolQuota →
    s.lowestFree = some e → s.pinnedBy p < (s.part p).pinnedQuota →
    Completes (.softwareAlloc a p) s fun t =>
      t.resp.err = false ∧ t.rd .MEM_P_ALLOC p = 0x80000000 ∧
      t.upool.grants = s.upool.grants ++ [{ ext := e, taker := { part := p, holder := .software, pinned := true } }] ∧
      Within [.MEM_P_ALLOC] [.resp, .upool] s t) ∧
  (∀ (a : Agent) (p : Nat) (s : State), s.accessFenced a none = false → s.agentPart a = p → p < 8 → s.bit .MEM_P_ALLOC 31 p = false →
    (s.part p).pinnedQuota ≤ s.pinnedBy p →
    Completes (.softwareAlloc a p) s fun t =>
      t.resp.err = false ∧ t.rd .MEM_P_ALLOC p = 0x20000000 ∧ Within [.MEM_P_ALLOC] [.resp] s t) ∧
  (∀ (e : Nat) (g : ExtentGrant) (s : State), s.upool.grants.find? (fun g => g.ext == e) = some g → g.taker.holder = .software →
    Completes (.extentAssigned e) s fun t =>
      (e, g.taker) ∈ t.upool.extents ∧ (∀ x ∈ t.upool.grants, x.ext ≠ e) ∧ t.rd .MEM_P_ALLOC g.taker.part = (0x40000000 + e) % 2 ^ 32 ∧
      (∀ q, alGet s.upool.lastPart e = some q → q ≠ g.taker.part →
        ∀ x, 0x2000000000 + e * 0x200000 ≤ x → x < 0x2000000000 + e * 0x200000 + 0x200000 → t.getByte x = 0) ∧
      (alGet s.upool.lastPart e = none ∨ alGet s.upool.lastPart e = some g.taker.part → SameMemory s t) ∧
      SameMemoryBut (0x2000000000 + e * 0x200000) 0x200000 s t) ∧
  (∀ (a : Agent) (p e : Nat) (s : State), s.accessFenced a none = false → s.agentPart a = p → p < 8 → s.softwareExtent p e = true →
    Completes (.softwareFree a p e) s fun t =>
      t.resp.err = false ∧ alGet t.upool.extents e = none ∧ (∀ k, k ≠ e → alGet t.upool.extents k = alGet s.upool.extents k) ∧
      alGet t.upool.lastPart e = some p ∧ Within [] [.resp, .upool] s t) ∧
  (∀ (a : Agent) (p e : Nat) (s : State), s.accessFenced a none = false → s.agentPart a = p → p < 8 → s.softwareExtent p e = false →
    Completes (.softwareFree a p e) s fun t =>
      t.upool = s.upool ∧ Recorded s t { cls := 0x02, part := p, source := a.code, address := 0x701010 + p * 0x100 }) ∧
  (∀ (a : Agent) (p : Nat) (s : State), s.accessFenced a none = false → s.agentPart a = p → p < 8 →
    (s.upool.extents.map Prod.fst).Nodup → Completes (.softwareFreeAll a p) s fun t =>
      t.resp.err = false ∧ (∀ e, t.softwareExtent p e = false) ∧
      (∀ e x, alGet s.upool.extents e = some x → x.part ≠ p ∨ x.holder ≠ .software → alGet t.upool.extents e = some x) ∧
      Within [] [.resp, .upool] s t) ∧
  (∀ s : State, s.upool.wants = [] → Completes .ageTick s fun t =>
      (∀ e x, alGet s.upool.extents e = some x →
        alGet t.upool.extents e = some (if x.pinned then x else { x with age := min 255 (x.age + 1) })) ∧
      t.upool.extents.map Prod.fst = s.upool.extents.map Prod.fst ∧ Within [] [.upool] s t)

/-- R62 to R67, R70, R165, R196. -/
def Obligations.TileCommandStarts : Prop :=
  (∀ (t : Nat) (c : NextCmd) (s : State), s.Startable t c →
    let inBanks : Bool :=
      ((s.tileRanges t c.words).reads ++ (s.tileRanges t c.words).writes).all
        (s.rangeOk (s.jobOwner c.job) (s.logicalOfRun t))
    (opcodeOf c.words = 1 → ewBadCmd c.words = false → ewBadFormat c.words = false → inBanks = true →
      Completes (.matmul t) s fun u => Started s u t c) ∧
    (opcodeOf c.words = 2 → ewBadCmd c.words = false → ewBadFormat c.words = false → inBanks = true →
      Completes (.ewise t) s fun u => Started s u t c) ∧
    (opcodeOf c.words = 3 → copyBadCmd (s.logicalOfRun t) c.words = false → inBanks = true →
      Completes (.copyCmd t) s fun u => Started s u t c) ∧
    (opcodeOf c.words = 4 → scanBadCmd c.words = false → scanBadFormat c.words = false → inBanks = true →
      Completes (.scan t) s fun u => Started s u t c) ∧
    (opcodeOf c.words = 9 → collCheck (s.jobGang c.job) c.pos c.words = 0 → inBanks = true →
      Completes (.collective t) s fun u => Started s u t c) ∧
    (opcodeOf c.words = 1 → ewBadCmd c.words = true → Completes (.matmul t) s fun u => CommandFailed s u t c.job c.slot c.words 1 ∧ SameMemory s u) ∧
    (opcodeOf c.words = 2 → ewBadCmd c.words = false → ewBadFormat c.words = true →
      Completes (.ewise t) s fun u => CommandFailed s u t c.job c.slot c.words 3 ∧ SameMemory s u) ∧
    (opcodeOf c.words = 4 → scanBadCmd c.words = false → scanBadFormat c.words = false → inBanks = false →
      Completes (.scan t) s fun u => CommandFailed s u t c.job c.slot c.words 2 ∧ SameMemory s u)) ∧
  (∀ (t : Nat) (c : NextCmd) (s : State), s.nextCmd t = some c → 9 < opcodeOf c.words → wfld c.words 0 12 12 = 0 →
    (s.readAs (s.tileAgent t c.job) (s.slotAddr c.job c.pos c.slot) 64).1.isSome = true →
    Completes (.reservedOpcode t) s fun u => CommandFailed s u t c.job c.slot c.words 1 ∧ SameMemory s u)

/-- R64, R68, R69, R70. -/
def Obligations.TileWaitsAndSignals : Prop :=
  (∀ (t : Nat) (c : NextCmd) (s : State), s.Startable t c → s.headAddr c.job c.pos < deepBase → opcodeOf c.words = 0 → (∀ k, k < 15 → wordAt c.words (k + 1) = 0) →
    Completes (.nop t) s fun u => Finished s u t c.words ∧ SameMemoryBut (s.headAddr c.job c.pos) 4 s u ∧
      ((s.run t).running = [] → s.verdict (s.schAgent c.job) true (s.headAddr c.job c.pos) 4 = .ok →
        s.holdOn (s.schAgent c.job) (.write (s.headAddr c.job c.pos) (bytesLE 4 ((c.slot + 1) % 2 ^ 32))) = none →
        u.getBytes (s.headAddr c.job c.pos) 4 = bytesLE 4 ((c.slot + 1) % 2 ^ 32))) ∧
  (∀ (t : Nat) (c : NextCmd) (s : State) (v : Nat), s.Startable t c → s.headAddr c.job c.pos < deepBase → opcodeOf c.words = 5 → counterBad c.words true = false →
    s.sleepingQuads (counterAddr c.words) 4 = [] → (∀ d ∈ (s.run t).running, d.done = true ∨ opcodeOf d.words ≠ 5) →
    (s.issueCmd t c).readCounter t c.job (counterAddr c.words) = (some v, s.issueCmd t c) →
    Completes (.waitCmd t) s fun u =>
      (sintOf 32 (uintOf 32 ((v : Int) - wordAt c.words 4)) < 0 → Started s u t c) ∧
      (0 ≤ sintOf 32 (uintOf 32 ((v : Int) - wordAt c.words 4)) →
        Finished s u t c.words ∧ SameMemoryBut (s.headAddr c.job c.pos) 4 s u)) ∧
  (∀ (t j v : Nat) (c : RunCmd) (s : State), s.waitCmd t = some (j, c) → s.sleepingQuads (counterAddr c.words) 4 = [] →
    s.readCounter t j (counterAddr c.words) = (some v, s) → (∀ d ∈ (s.run t).running, d.slot = c.slot → d = c) →
    (0 ≤ sintOf 32 (uintOf 32 ((v : Int) - wordAt c.words 4)) → Completes (.waitSatisfied t) s fun u => Finished s u t c.words) ∧
    (0 ≤ sintOf 32 (uintOf 32 ((v : Int) - wordAt c.words 4)) → (∃ e, regionOf (counterAddr c.words) = .warm e) →
      Completes (.waitPoll t) s fun u => Finished s u t c.words) ∧
    (sintOf 32 (uintOf 32 ((v : Int) - wordAt c.words 4)) < 0 → Completes (.waitSatisfied t) s fun u => u = s) ∧
    (wfld c.words 5 15 0 ≠ 0 → Completes (.waitTimeout t) s fun u => CommandFailed s u t j c.slot c.words 6 ∧ SameMemory s u)) ∧
  (∀ (t : Nat) (c : NextCmd) (s : State) (v : Nat), s.Startable t c → s.headAddr c.job c.pos < deepBase → opcodeOf c.words = 6 → counterBad c.words false = false →
    (∀ d ∈ (s.run t).running, d.done = true) → s.sleepingQuads (counterAddr c.words) 4 = [] → counterAddr c.words < deepBase →
    (s.issueCmd t c).readCounter t c.job (counterAddr c.words) = (some v, s.issueCmd t c) →
    (s.issueCmd t c).verdict (s.tileAgent t c.job) true (counterAddr c.words) 4 = .ok →
    Completes (.signal t) s fun u => Finished s u t c.words ∧
      (∀ k, k < 4 → ¬ (s.headAddr c.job c.pos ≤ counterAddr c.words + k ∧ counterAddr c.words + k < s.headAddr c.job c.pos + 4) →
        u.getByte (counterAddr c.words + k) = (bytesLE 4 (v + wordAt c.words 4)).getD k 0) ∧
      (∀ x, ¬ (counterAddr c.words ≤ x ∧ x < counterAddr c.words + 4) →
        ¬ (s.headAddr c.job c.pos ≤ x ∧ x < s.headAddr c.job c.pos + 4) → u.getByte x = s.getByte x))

/-- R55, R63, R65 to R67, R69, R70, R196, R197. -/
def Obligations.TileCompletions : Prop :=
  (∀ (t k j : Nat) (c : RunCmd) (s : State), (s.run t).ctx = some j → ((s.run t).running.filter (fun c => !c.done))[k]? = some c →
    s.pwr.gale = false → s.headAddr j (s.run t).pos < deepBase → s.cmdAsleep t j c.words = [] → (∀ d ∈ (s.run t).running, d.slot = c.slot → d = c) →
    let l := s.logicalOfRun t
    let headWord := s.headAddr j (s.run t).pos
    (∀ (f : List Nat → Scratch → EwOut) (rg : Ranges),
      (opcodeOf c.words = 1 ∧ f = matmul ∧ rg = matmulRanges c.words) ∨ (opcodeOf c.words = 2 ∧ f = ewise ∧ rg = ewiseRanges c.words) ∨
        (opcodeOf c.words = 4 ∧ f = scan ∧ rg = scanRanges (scanEntry c.words (s.scratch l))) →
      (s.badRange l rg.reads = none → Completes (.commandComplete t k) s fun u => Finished s u t c.words ∧
        ∀ x, ¬ (headWord ≤ x ∧ x < headWord + 4) →
          u.getByte x = (s.putResults l (checkBit c.words) (f c.words (s.scratch l)).writes).getByte x) ∧
      (∀ a, s.badRange l rg.reads = some a → Completes (.commandComplete t k) s fun u => SameMemory s u ∧
        (s.NoOtherCollective j t c.slot → ∃ r ∈ u.flt.ring, r.fault = { cls := 0x05, part := s.jobOwner j, source := t, detail := 4, context := j, tag := tagOf c.words }))) ∧
    (opcodeOf c.words = 3 → ∀ st u0, s.copyRows (s.tileAgent t j) c.words (copyArgs c.words) (List.range (copyArgs c.words).rows) = (st, u0) →
      (st = 0 → Completes (.commandComplete t k) s fun u => Finished s u t c.words ∧
        ∀ x, ¬ (headWord ≤ x ∧ x < headWord + 4) → u.getByte x = u0.getByte x) ∧
      (st ≠ 0 → Completes (.commandComplete t k) s fun u => CommandFailed u0 u t j c.slot c.words st ∧ ∀ x, u.getByte x = u0.getByte x))) ∧
  (∀ (t j : Nat) (c : RunCmd) (s : State), s.collCmd t = some (j, c) → wfld c.words 8 15 0 ≠ 0 →
    Completes (.collectiveTimeout t) s fun u => CommandFailed s u t j c.slot c.words 6 ∧ SameMemory s u) ∧
  (∀ (t : Nat) (m : CollMember) (l : List CollMember) (s : State), s.collAll t = some (m :: l) →
    (∀ x ∈ l, x.cmd.words.drop 1 = m.cmd.words.drop 1) → ((m :: l).map CollMember.tile).Nodup →
    let rg (x : CollMember) : Ranges := collRanges (s.jobGang ((s.run x.tile).ctx.getD 0)) x.pos m.cmd.words
    s.asleep ((m :: l).flatMap (fun x => ((rg x).reads ++ (rg x).writes).map (fun r => (tileBase x.logical + r.1, r.2)))) = [] →
    (∀ x ∈ m :: l, s.badRange x.logical (rg x).reads = none) →
    (∀ x ∈ m :: l, x.cmd ∈ (s.run x.tile).running ∧ x.cmd.done = false ∧ ∀ d ∈ (s.run x.tile).running, d.slot = x.cmd.slot → d = x.cmd) →
    Completes (.collectiveDone t) s fun u => ∀ x ∈ m :: l, Finished s u x.tile x.cmd.words) ∧
  (∀ (t : Nat) (m : CollMember) (s : State), s.collAll t = some [m] →
    let rg : Ranges := collRanges (s.jobGang ((s.run m.tile).ctx.getD 0)) m.pos m.cmd.words
    s.asleep ((rg.reads ++ rg.writes).map (fun r => (tileBase m.logical + r.1, r.2))) = [] → s.badRange m.logical rg.reads = none →
    Completes (.collectiveDone t) s fun u =>
      ∀ j, (s.run m.tile).ctx = some j → s.headAddr j (s.run m.tile).pos < deepBase →
        ∀ x, ¬ (s.headAddr j (s.run m.tile).pos ≤ x ∧ x < s.headAddr j (s.run m.tile).pos + 4) →
        u.getByte x = (s.putResults m.logical (checkBit m.cmd.words)
          [(offAt m.cmd.words 4, ((s.collResults m.cmd.words [m]).headD ([], 0)).1)]).getByte x)

/-- R96, R99 to R103, R108, R111. -/
def Obligations.DeepCommandsStart : Prop :=
  (∀ (a : Agent) (p tail : Nat) (s : State), s.accessFenced a none = false → s.agentPart a = p → p < 8 → tail < 4096 →
    Completes (.deepQueueTail a p tail) s fun t =>
      t.resp.err = false ∧ t.fld .MEM_P_DQ_TAIL 11 0 p = tail ∧ Within [.MEM_P_DQ_TAIL] [.resp] s t) ∧
  (∀ (p : Nat) (r : DeepRun) (s : State), (s.nextDeep p).1 = some r → r.op = 1 →
    (r.fieldsOk = true → r.deep % 0x20000000 = 0 → r.len = 0 → r.deep / 0x20000000 < 1920 → s.deepWindow p (r.deep / 0x20000000) 1 = true →
      (s.eraseDefer = 0 → Completes (.eraseDeep p) s fun t =>
        alGet t.deep.queues p = some { r with dies := List.range 128 } ∧ t.fld .MEM_P_DQ_STATUS 3 2 p = 0 ∧
        (∀ x, deepBase + r.deep ≤ x → x < deepBase + r.deep + 0x20000000 → t.deepBlank x = true) ∧
        (∀ b, b ≠ r.deep / 0x20000000 → t.deepBlock b = s.deepBlock b) ∧ Within [.MEM_P_DQ_STATUS] [.deep, .hdw] s t) ∧
      (s.eraseDefer ≠ 0 → Completes (.eraseDeep p) s fun t =>
        t.fld .MEM_P_DQ_STATUS 3 2 p = s.eraseDefer ∧ Within [.MEM_P_DQ_STATUS] [.hdw] s t)) ∧
    (r.fieldsOk = false ∨ r.deep % 0x20000000 ≠ 0 ∨ r.len ≠ 0 →
      Completes (.eraseDeep p) s fun t => alGet t.deep.queues p = some { r with status := some 1 } ∧ t.deep.blocks = s.deep.blocks) ∧
    (r.fieldsOk = true → r.deep % 0x20000000 = 0 → r.len = 0 → 1920 ≤ r.deep / 0x20000000 ∨ s.deepWindow p (r.deep / 0x20000000) 1 = false →
      Completes (.eraseDeep p) s fun t => alGet t.deep.queues p = some { r with status := some 2 } ∧ t.deep.blocks = s.deep.blocks)) ∧
  (∀ (p : Nat) (r : DeepRun) (s : State), (s.nextDeep p).1 = some r → r.op = 2 →
    (s.programStatus p r ≠ 0 → Completes (.programDeep p) s fun t =>
      alGet t.deep.queues p = some { r with status := some (s.programStatus p r) } ∧ Within [.MEM_P_DQ_STATUS] [.deep, .hdw] s t) ∧
    (s.programStatus p r = 0 → r.len = 0 → Completes (.programDeep p) s fun t =>
      alGet t.deep.queues p = some { r with status := some 0 } ∧ Within [.MEM_P_DQ_STATUS] [.deep, .hdw] s t) ∧
    (s.programStatus p r = 0 → r.len ≠ 0 → s.storeDefer ≠ 0 → Completes (.programDeep p) s fun t =>
      alGet t.deep.queues p = some r ∧ t.fld .MEM_P_DQ_STATUS 3 2 p = s.storeDefer ∧ Within [.MEM_P_DQ_STATUS] [.deep, .hdw] s t) ∧
    (s.programStatus p r = 0 → r.len = 0x4000 → s.pageAcceptable r.firstPage = true → s.asleep [(r.addr, 0x4000)] = [] →
      (s.readAs (deepAgent p) r.addr 0x4000).1.isSome = true → s.sourceChecks r.addr 0x4000 = true → Completes (.programDeep p) s fun t =>
        alGet t.deep.queues p = some { r with accepted := 1, inFlight := [r.firstPage] } ∧
        (∀ k, k < 0x4000 → t.getByte (deepBase + r.firstPage * 0x4000 + k) = s.memByte p (r.addr + k)) ∧
        SameMemoryBut (deepBase + r.firstPage * 0x4000) 0x4000 s t ∧
        Within [.MEM_P_DQ_STATUS, .MEM_HOLDUP_STATUS] [.deep, .hdw, .mem, .badCheck, .badWord] s t)) ∧
  (∀ (p : Nat) (r : DeepRun) (s : State), (s.nextDeep p).1 = some r → r.op = 3 →
    Completes (.syncDeep p) s fun t =>
      alGet t.deep.queues p = some { r with status := some (if r.fieldsOk then 0 else 1) } ∧ Within [.MEM_P_DQ_STATUS] [.deep, .hdw] s t) ∧
  (∀ (p : Nat) (r : DeepRun) (s : State), (s.nextDeep p).1 = some r → r.op = 4 →
    (r.fieldsOk = true → r.deep / 0x20000000 < 1920 → s.deepWindow p (r.deep / 0x20000000) 0 = true → s.ownsRange p r.addr 64 true = true →
      Completes (.infoDeep p) s fun t =>
        alGet t.deep.queues p = some { r with status := some 0 } ∧ SameMemoryBut r.addr 64 s t ∧
        Within (andRecord [.MEM_P_DQ_STATUS, .BANK_CQ_STATUS, .BANK_TQ_STATUS]) [.deep, .hdw, .mem, .badCheck, .badWord, .flt, .bank] s t) ∧
    (r.fieldsOk = false → Completes (.infoDeep p) s fun t =>
      alGet t.deep.queues p = some { r with status := some 1 } ∧ Within [.MEM_P_DQ_STATUS] [.deep, .hdw] s t))

/-- R99 to R105. -/
def Obligations.DeepCommandsEnd : Prop :=
  (∀ (p g : Nat) (r : DeepRun) (s : State), alGet s.deep.queues p = some r → p < 8 → g ∈ r.inFlight → r.failed = none → r.status = none →
    r.accepted = r.pageCount → s.NoStoresWait →
    Completes (.pageProgramDone p g true) s fun t =>
      (∃ q, alGet t.deep.queues p = some q ∧ q.inFlight = r.inFlight.filter (fun x => x != g) ∧
        q.status = (if (r.inFlight.filter (fun x => x != g)).isEmpty then some 0 else none) ∧
        (t.deepBlock (g / deepPages)).writePtr = q.durable - g / deepPages * deepPages) ∧ SameMemory s t) ∧
  (∀ (p g : Nat) (r : DeepRun) (s : State), alGet s.deep.queues p = some r → p < 8 → r.inFlight = [g] → r.failed = none → r.status = none →
    s.spareOf (dieOf g) = [] → s.NoStoresWait →
    Completes (.pageProgramDone p g false) s fun t =>
      (∃ q, alGet t.deep.queues p = some q ∧ q.inFlight = [] ∧ q.failed = some g ∧ q.status = some 5) ∧ SameMemory s t) ∧
  (∀ (p die : Nat) (r : DeepRun) (s : State), alGet s.deep.queues p = some r → die ∈ r.dies → r.status = none → ¬ logDieBlock (s.dieBlock (r.deep / 0x20000000) die) →
    Completes (.dieEraseDone p die true) s fun t =>
      t.wearOf die (s.dieBlock (r.deep / 0x20000000) die) = s.wearOf die (s.dieBlock (r.deep / 0x20000000) die) + 1 ∧
      (r.dies.filter (fun d => d != die) ≠ [] → alGet t.deep.queues p = some { r with dies := r.dies.filter (fun d => d != die) } ∧ SameMemory s t) ∧
      (r.dies.filter (fun d => d != die) = [] → alGet t.deep.queues p = some { r with dies := [], status := some 0 } ∧
        t.deepBlock (r.deep / 0x20000000) = {} ∧ (∀ g ∈ t.deep.damaged, g / deepPages ≠ r.deep / 0x20000000) ∧
        (∀ x, deepBase + r.deep / 0x20000000 * 0x20000000 ≤ x → x < deepBase + r.deep / 0x20000000 * 0x20000000 + 0x20000000 → t.getByte x = 0) ∧
        SameMemoryBut (deepBase + r.deep / 0x20000000 * 0x20000000) 0x20000000 s t)) ∧
  (∀ (p st : Nat) (r : DeepRun) (s u : State), st < 8 → u.dqAddr p r.slot + 28 < deepBase →
    (alGet s.deep.queues p = some r ∧ r.status = some st ∧ r.inFlight = [] ∧ u = s) ∨
      (alGet s.deep.queues p = none ∧ s.nextDeep p = (some r, u) ∧ (r.op = 0 ∨ 4 < r.op) ∧ st = 1) →
    Completes (.deepCommandDone p) s fun t =>
      alGet t.deep.queues p = none ∧
      t.rd .MEM_P_DQ_HEAD p = (r.slot + 1 + r.skip) % max 1 (u.fld .MEM_P_DQ_CTRL 12 0 p) ∧
      t.bit .MEM_P_DQ_STATUS 0 p = true ∧ (st ≠ 0 → t.bit .MEM_P_DQ_STATUS 1 p = true) ∧
      SameMemoryBut (u.dqAddr p r.slot + 28) 4 u t ∧
      (u.verdict (deepAgent p) true (u.dqAddr p r.slot + 28) 4 = .ok →
        u.holdOn (deepAgent p) (.write (u.dqAddr p r.slot + 28) (bytesLE 4 (2 ^ 31 + st))) = none →
        t.getBytes (u.dqAddr p r.slot + 28) 4 = bytesLE 4 (2 ^ 31 + st)) ∧
      t.pulses = u.pulses ++ (if u.bit .MEM_P_DQ_CTRL 30 p then [.memory p] else []) ∧
      Within (andRecord [.MEM_P_DQ_HEAD, .MEM_P_DQ_STATUS, .BANK_CQ_STATUS, .BANK_TQ_STATUS])
        [.mem, .badCheck, .badWord, .pulses, .deep, .hdw, .flt, .bank] u t)

/-- R98, R105 to R109, R111, R112, R115. -/
def Obligations.DeepUpkeep : Prop :=
  (∀ (a : Agent) (g : Nat) (s : State), s.pageWritten g = true →
    Completes (.deepReadDone a g true) s fun t =>
      t.readsOf (dieOf g) (s.dieBlock (g / deepPages) (dieOf g)) = s.readsOf (dieOf g) (s.dieBlock (g / deepPages) (dieOf g)) + 1 ∧
      t.deep.damaged = s.deep.damaged ∧ Within [] [.deep] s t) ∧
  (∀ (a : Agent) (g : Nat) (s : State), s.pageWritten g = true →
    Completes (.deepReadDone a g false) s fun t => g ∈ t.deep.damaged ∧ (t.deepBlock (g / deepPages)).damaged = true ∧
      Recorded s t { cls := 0x07, part := s.agentPart a, source := 0x3001, context := 0xFFFF0000 + a.code, address := deepBase + g * 0x4000 }) ∧
  (∀ (b die : Nat) (s : State), b < 1920 → die < 128 → s.readLimit ≤ s.readsOf die (s.dieBlock b die) → s.canRefresh die = true →
    Completes (.readDisturbLimit b die) s fun t =>
      alGet t.deep.refreshing die = some b ∧ t.bit .MEM_DEEP_STATUS 21 = true ∧ Within [.MEM_DEEP_STATUS, .MEM_HOLDUP_STATUS] [.deep] s t) ∧
  (∀ (b die : Nat) (s : State), alGet s.deep.refreshing die = some b → s.storeDefer = 0 → s.NoStoresWait → ¬ logDieBlock (s.dieBlock b die) →
    Completes (.refreshDone die) s fun t =>
      alGet t.deep.refreshing die = none ∧
      t.wearOf die (s.dieBlock b die) = s.wearOf die (s.dieBlock b die) + 1 ∧ t.readsOf die (s.dieBlock b die) = 0 ∧
      (∀ x, minBy (s.wearOf die) (s.spareOf die) = some x → t.dieBlock b die = x ∧ s.dieBlock b die ∈ t.spareOf die) ∧ SameMemory s t) ∧
  (∀ (g : Nat) (weak : Bool) (s : State), s.bit .MEM_CFG 0 = true → s.pageWritten g = true →
    Completes (.scrubRead g weak false) s fun t => g ∈ t.deep.damaged ∧
      Recorded s t { cls := 0x07, part := 0xFF, source := 0x3001, context := 0xFFFFFFFF, address := deepBase + g * 0x4000 }) ∧
  (∀ (g : Nat) (s : State), s.bit .MEM_CFG 0 = true → s.pageWritten g = true → s.canRefresh (dieOf g) = true →
    Completes (.scrubRead g true true) s fun t =>
      alGet t.deep.refreshing (dieOf g) = some (g / deepPages) ∧ t.bit .MEM_DEEP_STATUS 21 = true ∧ t.deep.damaged = s.deep.damaged) ∧
  (∀ s : State, 85 < s.fld .MEM_DEEP_STATUS 31 24 →
    Completes .deepHot s fun t => t.bit .MEM_DEEP_STATUS 23 = true ∧ t.fld .MEM_DEEP_STATUS 31 24 = s.fld .MEM_DEEP_STATUS 31 24 ∧
      Within [.MEM_DEEP_STATUS] [] s t) ∧
  (∀ s : State, s.fld .MEM_DEEP_STATUS 31 24 < 80 → s.NoStoresWait →
    Completes .deepCooled s fun t => t.bit .MEM_DEEP_STATUS 23 = false ∧ Within [.MEM_DEEP_STATUS] [] s t) ∧
  (∀ s : State, Completes .wusedHour s fun t =>
      t.deep.buckets = 0 :: s.deep.buckets.take 23 ∧ t.programmed = (s.deep.buckets.take 23).sum ∧
      t.rd .MEM_DEEP_WUSED = (t.programmed + 2 ^ 30 - 1) / 2 ^ 30 % 2 ^ 32 ∧ Within [.MEM_DEEP_WUSED] [.deep] s t) ∧
  (∀ (code : Nat) (s : State), code < 4096 → s.NoStoresWait →
    Completes (.holdupSample code) s fun t =>
      t.deep.vSense = code ∧ t.bit .MEM_HOLDUP_STATUS 31 = t.storeOk ∧
      t.fld .MEM_HOLDUP_STATUS 15 0 = min 0xFFFF (quotEven (code * s.fld .MEM_HOLDUP_CFG 31 16 * 100 : Nat) (4095 * 256)).toNat ∧
      Within [.MEM_HOLDUP_STATUS] [.deep] s t) ∧
  (∀ s : State, s.pins.pfailN = true →
    Completes .pfailAssert s fun t => t.pins.pfailN = false ∧ t.bit .MEM_DEEP_STATUS 22 = true ∧ t.bit .PWR_STATUS 31 = true ∧
      t.storeDefer = 3 ∧ (∀ l, s.spl.load = some l → l.phase = .header ∨ l.phase = .digest ∨ l.phase = .sections → t.spl.load = none) ∧
      (∀ p r, p < 8 → alGet s.deep.queues p = some r → r.status = none → r.op = 2 → r.accepted < r.pageCount →
        alGet t.deep.queues p = some { r with status := some 6 })) ∧
  (∀ s : State, s.pins.pfailN = false → s.NoStoresWait →
    Completes .pfailDeassert s fun t => t.pins.pfailN = true ∧ t.bit .MEM_DEEP_STATUS 22 = false ∧ SameMemory s t ∧
      Within [.MEM_DEEP_STATUS] [.pins, .pwr] s t) ∧
  (∀ (a : Agent) (p : Nat) (s : State), s.accessFenced a none = false → s.agentPart a = p → p < 8 → s.deep.farKeys.length = 8 →
    (∀ w ∈ s.hdw.waiting, w.path ≠ 2) →
    Completes (.farRekey a p) s fun t => t.resp.err = false ∧
      (∃ k m, t.deep.farKeys[p]? = some (k, m) ∧ k ≠ m) ∧ (∀ q, q ≠ p → t.deep.farKeys[q]? = s.deep.farKeys[q]?) ∧
      SameMemory s t)

/-- R120, R123 to R125, R135, R136. -/
def Obligations.PlanLoadAndUnload : Prop :=
  (∀ (a : Agent) (n : Nat) (s : State), s.accessFenced a (some 0) = false → s.agentPart a = n / 8 → n < 64 →
    (s.fld .UPD_PLAN_STATUS 31 30 n = 0 →
      let b := s.respOk.clearCounters n
      let base := s.rd .UPD_PLAN_BASE_LO n + 2 ^ 32 * s.fld .UPD_PLAN_BASE_HI 15 0 n
      (∀ x l u, b.readPlan (n / 8) base = (0, x) →
        b.takeExtents (n / 8) (.updraft n) true (extentsFor (((x.layers.filter (fun y => y.reside == 1)).map x.layerBytes).sum)) = some (l, u) →
        Completes (.planLoad a n) s fun t =>
          (u.resp = b.resp → t.resp.err = false) ∧ t.fld .UPD_PLAN_STATUS 31 30 n = 1 ∧ t.plan? n = some { plan := x, pinned := l } ∧
          l.length = extentsFor (((x.layers.filter (fun y => y.reside == 1)).map x.layerBytes).sum) ∧
          t.rd .UPD_PLAN_STALLS n = 0 ∧ t.rd .UPD_PLAN_STALL_US n = 0 ∧ t.rd .UPD_PLAN_STALL_MAX n = 0 ∧ t.rd .UPD_PLAN_HITS n = 0 ∧
          t.rd .UPD_PLAN_MISSES n = 0 ∧ SameMemory u t) ∧
      (∀ x, b.readPlan (n / 8) base = (0, x) →
        b.takeExtents (n / 8) (.updraft n) true (extentsFor (((x.layers.filter (fun y => y.reside == 1)).map x.layerBytes).sum)) = none →
        Completes (.planLoad a n) s fun t => t.bit .UPD_PLAN_STATUS 9 n = true ∧ t.fld .UPD_PLAN_STATUS 7 0 n = 4 ∧ t.plan? n = s.plan? n ∧
          Recorded s t { cls := 0x05, part := n / 8, source := 0x2000, detail := 4, context := n } ∧ SameMemory s t) ∧
      ((b.readPlan (n / 8) base).1 ≠ 0 → Completes (.planLoad a n) s fun t =>
        t.bit .UPD_PLAN_STATUS 9 n = true ∧ t.fld .UPD_PLAN_STATUS 7 0 n = (b.readPlan (n / 8) base).1 ∧ t.fld .UPD_PLAN_STATUS 31 30 n = 0 ∧
        Recorded s t { cls := 0x05, part := n / 8, source := 0x2000, detail := (b.readPlan (n / 8) base).1, context := n } ∧ SameMemory s t)) ∧
    (s.fld .UPD_PLAN_STATUS 31 30 n ≠ 0 → Completes (.planLoad a n) s fun t =>
      t.fld .UPD_PLAN_STATUS 7 0 n = 6 ∧ t.plan? n = s.plan? n ∧ Recorded s t { cls := 0x05, part := n / 8, source := 0x2000, detail := 6, context := n })) ∧
  (∀ (n : Nat) (x : PlanState) (s : State), s.plan? n = some x → x.ready = false → s.fencedEngine 0 (n / 8) = false →
    (∀ u v, s.pinsAsleep x.plan = [] → s.loadPinned n x.plan x.pinned 0 x.plan.layers = (true, u) →
      u.loadTilePinned n x.plan (List.range x.plan.gangTiles) x.plan.layers = (true, v) →
      Completes (.planLoadDone n) s fun t => t.fld .UPD_PLAN_STATUS 31 30 n = 2 ∧ t.bit .UPD_PLAN_STATUS 8 n = true ∧
        t.fld .UPD_PLAN_STATUS 7 0 n = 0 ∧ t.plan? n = some { x with ready := true } ∧ SameMemory v t) ∧
    ((∀ y ∈ x.plan.layers, y.reside ≠ 1 ∧ y.reside ≠ 3) → Completes (.planLoadDone n) s fun t =>
      t.fld .UPD_PLAN_STATUS 31 30 n = 2 ∧ t.plan? n = some { x with ready := true } ∧ SameMemory s t) ∧
    (∀ u, s.pinsAsleep x.plan = [] → s.loadPinned n x.plan x.pinned 0 x.plan.layers = (false, u) →
      Completes (.planLoadDone n) s fun t => t.fld .UPD_PLAN_STATUS 31 30 n = 0 ∧ t.bit .UPD_PLAN_STATUS 9 n = true ∧
        t.fld .UPD_PLAN_STATUS 7 0 n = 5 ∧ t.plan? n = none)) ∧
  (∀ (a : Agent) (n : Nat) (s : State), s.accessFenced a (some 0) = false → s.agentPart a = n / 8 → n < 64 →
    (s.plan? n = none → Completes (.planUnload a n) s fun t => t.resp.err = false ∧ t.bit .UPD_PLAN_STATUS 8 n = true ∧
      t.fld .UPD_PLAN_STATUS 7 0 n = 0 ∧ Within [.UPD_PLAN_STATUS] [.resp, .pulses] s t) ∧
    (∀ x, s.plan? n = some x → x.ready = true → s.bit .UPD_PLAN_STATUS 29 n = false → (s.upool.extents.map Prod.fst).Nodup →
      Completes (.planUnload a n) s fun t => t.fld .UPD_PLAN_STATUS 31 30 n = 0 ∧ t.bit .UPD_PLAN_STATUS 8 n = true ∧ t.plan? n = none ∧
        (∀ e y, alGet t.upool.extents e = some y → y.holder ≠ .updraft n) ∧
        (∀ e y, alGet s.upool.extents e = some y → y.holder ≠ .updraft n → alGet t.upool.extents e = some y) ∧ SameMemory s t) ∧
    (∀ x, s.plan? n = some x → x.ready = true → s.bit .UPD_PLAN_STATUS 29 n = true →
      Completes (.planUnload a n) s fun t => t.plan? n = some x ∧ t.fld .UPD_PLAN_STATUS 7 0 n = 6) ∧
    (∀ x, s.plan? n = some x → x.ready = false →
      Completes (.planUnload a n) s fun t => t.plan? n = none ∧ t.fld .UPD_PLAN_STATUS 31 30 n = 0 ∧ t.fld .UPD_PLAN_STATUS 7 0 n = 7 ∧ SameMemory s t))

/-- R126 to R131, R133. -/
def Obligations.GatesAndLayers : Prop :=
  (∀ (t n : Nat) (c : NextCmd) (x : PlanState) (s : State), s.Startable t c → opcodeOf c.words = 7 → wfld c.words 2 31 31 = 0 →
    (∀ d ∈ (s.run t).running, d.done = true) → s.gateCheck t c = 0 → s.planOfJob c.job = some (n, x) →
    (∀ d, d < x.plan.warmAhead → x.plan.toStage x.layers ((gateLayer c.words + d + 1) % x.plan.count) = false) →
    let g := x.gateOf c.pos
    let l := gateLayer c.words
    let passes := (x.plan.layer l).reside = 3 ∨ (g.expected = l ∧ l ∈ g.filled.filter (fun y => y != (l + x.plan.count - 1) % x.plan.count))
    (passes → Completes (.gateWait t) s fun u => Finished s u t c.words ∧
      ∃ y, u.plan? n = some y ∧ (y.gateOf c.pos).expected = (l + 1) % x.plan.count ∧ (y.gateOf c.pos).gate = none) ∧
    (¬ passes → Completes (.gateWait t) s fun u =>
      u.rd .UPD_PLAN_STALLS n = (s.rd .UPD_PLAN_STALLS n + 1) % 2 ^ 32 ∧ u.bit .UPD_PLAN_STATUS 28 n = true ∧
      ∃ y, u.plan? n = some y ∧ (y.gateOf c.pos).expected = l ∧ (y.gateOf c.pos).gate = some l ∧ (y.gateOf c.pos).stalled = true)) ∧
  (∀ (t n : Nat) (c : NextCmd) (x : PlanState) (s : State), s.Startable t c → opcodeOf c.words = 7 → wfld c.words 2 31 31 = 1 →
    gateFieldsOk c.words = true → gateLayer c.words < x.plan.layers.length → (x.plan.layer (gateLayer c.words)).kind = 1 →
    s.planOfJob c.job = some (n, x) → s.rangeOk (s.jobOwner c.job) (s.logicalOfRun t) (offAt c.words 3, 64) = true →
    s.sleepingQuads (tileBase (s.logicalOfRun t) + offAt c.words 3) 64 = [] →
    s.readable (tileBase (s.logicalOfRun t) + offAt c.words 3) 64 = true →
    let all := (List.range 8).map (fun k => s.getNum (tileBase (s.logicalOfRun t) + offAt c.words 3 + 2 * k) 2)
    let r := usedRoute all
    (∀ e ∈ r, e < x.plan.experts.length) → r.length ≤ (x.plan.layer (gateLayer c.words)).routeMax → (∀ e ∈ all.drop r.length, e = 0xFFFF) →
    Completes (.gateAnnounce t) s fun u => Finished s u t c.words ∧
      u.rd .UPD_PLAN_HITS n % 2 ^ 32 = (s.rd .UPD_PLAN_HITS n + (r.filter (fun e => (alGet x.experts e).isSome)).length) % 2 ^ 32 ∧
      u.rd .UPD_PLAN_MISSES n % 2 ^ 32 = (s.rd .UPD_PLAN_MISSES n + (r.filter (fun e => (alGet x.experts e).isNone)).length) % 2 ^ 32 ∧
      (∃ y, u.plan? n = some y ∧ y.routeOf c.pos (gateLayer c.words) = some r) ∧
      (s.headAddr c.job c.pos < deepBase → SameMemoryBut (s.headAddr c.job c.pos) 4 s u)) ∧
  (∀ (n i l lt t : Nat) (x : PlanState) (ws : List (Nat × List Byte)) (s u : State), s.plan? n = some x → x.ready = true →
    s.fencedEngine 0 (n / 8) = false → s.bit .UPD_PLAN_STATUS 29 n = true → x.window i l = true →
    ((x.plan.layer l).kind = 1 → (x.routeOf i l).isSome = true) →
    (s.gangTiles (s.fld .UPD_PLAN_JOB 9 0 n))[i]? = some lt → s.gangTile (s.fld .UPD_PLAN_JOB 9 0 n) i = some t →
    s.worksOn (s.fld .UPD_PLAN_JOB 9 0 n) t = true → s.rangeOk (s.jobOwner (s.fld .UPD_PLAN_JOB 9 0 n)) lt (x.plan.slotRange l) = true →
    s.sleepingQuads (tileBase lt + (x.plan.slotRange l).1) (x.plan.slotRange l).2 = [] →
    (if (x.plan.layer l).kind = 1 then s.expertShares n i l x (((x.routeOf i l).getD []).zipIdx.map (fun z => (z.2, z.1)))
      else s.denseShare n i l x) = (.landed ws, u) →
    ((x.gateOf i).gate ≠ some l → (∃ y, u.plan? n = some y) → Completes (.layerComplete n i l) s fun v =>
      (∃ y, v.plan? n = some y ∧ l ∈ (y.gateOf i).filled) ∧
      SameMemory (ws.foldl (fun s z => s.store (tileBase lt + (x.plan.slotRange l).1 + z.1) z.2) u) v) ∧
    (∀ j c y, (x.gateOf i).gate = some l → u.plan? n = some y → u.gateCmd t = some (j, c) → (∀ d ∈ (u.run t).running, d.slot = c.slot → d = c) →
      Completes (.layerComplete n i l) s fun v => Finished u v t c.words ∧ (∃ y, v.plan? n = some y ∧ (y.gateOf i).gate = none ∧ l ∈ (y.gateOf i).filled) ∧
        (u.headAddr j (u.run t).pos < deepBase →
          SameMemoryBut (u.headAddr j (u.run t).pos) 4 (ws.foldl (fun s z => s.store (tileBase lt + (x.plan.slotRange l).1 + z.1) z.2) u) v))) ∧
  (∀ (n e : Nat) (x z : PlanState) (d : List Byte) (ex : List Nat) (s u v : State), s.plan? n = some x → x.ready = true →
    s.fencedEngine 0 (n / 8) = false →
    e < x.plan.experts.length → alGet x.experts e = none → (∃ g ∈ x.gates, ∃ r ∈ g.2.routes, e ∈ r.2) →
    s.readDeep n (x.plan.experts.getD e (0, 0)).1 (x.plan.experts.getD e (0, 0)).2 = (some d, u) →
    (u.cacheExtents n (extentsFor d.length) = (some ex, v) → v.plan? n = some z → Completes (.expertFetchDone n e) s fun t =>
      (∃ y, t.plan? n = some y ∧ alGet y.experts e = some ex) ∧ SameMemory (v.fillExtents n ex 0 d) t) ∧
    (u.cacheExtents n (extentsFor d.length) = (none, v) → Completes (.expertFetchDone n e) s fun t => t = v)) ∧
  (∀ (t n j : Nat) (c : RunCmd) (x : PlanState) (s : State), s.gateCmd t = some (j, c) → s.planOfJob j = some (n, x) →
    (x.gateOf (s.run t).pos).stalled = true → (s.run t).pos < (s.job j).pos.length →
    ((s.gangPos j (s.run t).pos).atCheap = false → Completes (.stallLimit t) s fun u =>
      (u.job j).displaced = true ∧ u.fld .SCH_CTX 23 16 j 1 = 8 ∧ Within [.SCH_CTX] [.sch] s u) ∧
    ((s.gangPos j (s.run t).pos).atCheap = true → Completes (.stallLimit t) s fun u => (u.job j).displaced = true ∧ u.fld .SCH_CTX 23 16 j 1 = 8 ∧
      (u.run t).stopped = true ∧ (u.gangPos j (s.run t).pos).next = c.slot ∧ (∀ d ∈ (u.run t).running, d.slot = c.slot → d.done = true) ∧
      Recorded s u { cls := 0x05, part := s.jobOwner j, source := t, detail := 8, context := j, tag := tagOf c.words } ∧ SameMemory s u)) ∧
  (∀ (t j : Nat) (c : RunCmd) (s : State), s.gateCmd t = some (j, c) → wfld c.words 4 15 0 ≠ 0 →
    Completes (.gateTimeout t) s fun u => CommandFailed s u t j c.slot c.words 6 ∧ SameMemory s u)

/-- R142 to R145, R161, R163. -/
def Obligations.SequenceCommands : Prop :=
  (∀ (a : Agent) (p : Nat) (s : State), s.accessFenced a (some 2) = false → s.agentPart a = p → p < 8 →
    (let b := s.respOk.wr .SEQ_P_CMD 1 p
     let x := s.openArgs p
     let r := b.newSeqRec p x
     s.fld .SEQ_P_ARG 31 16 p 1 = 0 → s.fld .SEQ_P_ARG 30 19 p 2 = 0 → x.parent = 0 →
     (∀ n, b.openRefusal p x r = 0 → n < 4096 → s.seqState n = 0 → (∀ k, k < n → s.seqState k ≠ 0) → alGet s.sqe.seqs n = none →
       Completes (.openSeq a p 0) s fun t => t.resp.err = false ∧ t.rd .SEQ_P_CMD p = 1 ∧
         t.bit .SEQ_P_RESULT 31 p = true ∧ t.fld .SEQ_P_RESULT 23 16 p = 0 ∧ t.fld .SEQ_P_RESULT 15 0 p = n ∧
         t.seqState n = 1 ∧ t.fld .SEQ_ENT 27 24 n 0 = p ∧ t.seqLength n = 0 ∧ t.seqStaged n = 0 ∧ t.seqPages n = 0 ∧ t.seqMax n = x.maxLen ∧
         t.fld .SEQ_ENT 15 0 n 7 = x.budget ∧ t.fld .SEQ_ENT 31 16 n 7 = 0xFFFF ∧ alGet t.sqe.seqs n = some r ∧
         (∀ y, r.table.1 ≤ y → y < r.table.1 + r.table.2 → t.getByte y = 0#8) ∧ SameMemoryBut r.table.1 r.table.2 s t) ∧
     (b.openRefusal p x r ≠ 0 → Completes (.openSeq a p 0) s fun t =>
         t.bit .SEQ_P_RESULT 30 p = true ∧ t.fld .SEQ_P_RESULT 23 16 p = b.openRefusal p x r ∧ t.sqe = s.sqe ∧ SameMemory s t ∧
         Recorded s t { cls := 0x05, part := p, source := 0x2002, detail := b.openRefusal p x r, context := s.fld .SEQ_P_RESULT 15 0 p })) ∧
    (let b := s.respOk.wr .SEQ_P_CMD 3 p
     let x := s.openArgs p
     let q := x.parent
     let r := b.newSeqRec p x
     let tables := (List.range r.layers).map (s.seqTable q)
     ∀ n, s.fld .SEQ_P_ARG 31 16 p 1 = 0 → s.fld .SEQ_P_ARG 30 19 p 2 = 0 → s.ownsSeq p q = true →
       b.openRefusal p x r = 0 → s.seqLength q ≤ x.maxLen → n < 4096 → s.seqState n = 0 → (∀ k, k < n → s.seqState k ≠ 0) →
       alGet s.sqe.seqs n = none → s.seqPages q ≤ r.stride → s.seqStaged q ≤ r.slots →
       Completes (.fork a p 0) s fun t => t.bit .SEQ_P_RESULT 31 p = true ∧ t.fld .SEQ_P_RESULT 23 16 p = 0 ∧ t.fld .SEQ_P_RESULT 15 0 p = n ∧
         t.seqState n = 1 ∧ t.fld .SEQ_ENT 27 24 n 0 = p ∧ t.seqLength n = s.seqLength q ∧ t.seqStaged n = s.seqStaged q ∧
         t.seqPages n = s.seqPages q ∧ t.seqMax n = x.maxLen ∧ t.fld .SEQ_ENT 31 16 n 7 = q ∧ alGet t.sqe.seqs n = some r ∧
         (∀ g c, alGet s.sqe.pages g = some c →
           alGet t.sqe.pages g = some { c with count := c.count + (tables.flatten.filter (fun y => y == g)).length }) ∧
         SameMemoryBut x.mem r.bytes s t)) ∧
  (∀ (a : Agent) (p : Nat) (s : State), s.accessFenced a (some 2) = false → s.agentPart a = p → p < 8 →
    (let n := s.fld .SEQ_P_ARG 15 0 p 0
     s.fld .SEQ_P_ARG 31 16 p 0 = 0 → s.ownsSeq p n = true →
     (s.seqState n = 2 → Completes (.closeSeq a p 0) s fun t => t.bit .SEQ_P_RESULT 31 p = true ∧ t.fld .SEQ_P_RESULT 15 0 p = n ∧
       t.seqState n = 4 ∧ t.sqe = s.sqe ∧ SameMemory s t) ∧
     (s.seqState n ≠ 2 → s.seqState n ≠ 4 → Completes (.closeSeq a p 0) s fun t => t.bit .SEQ_P_RESULT 31 p = true ∧
       t.fld .SEQ_P_RESULT 15 0 p = n ∧ t.seqState n = 0 ∧ alGet t.sqe.seqs n = none ∧
       SameMemoryBut (s.seqRec n).table.1 (s.seqRec n).table.2 s t) ∧
     (s.seqState n = 4 → Completes (.closeSeq a p 0) s fun t => t.bit .SEQ_P_RESULT 30 p = true ∧ t.fld .SEQ_P_RESULT 23 16 p = 9 ∧
       t.seqState n = 4 ∧ t.sqe = s.sqe ∧ SameMemory s t ∧
       Recorded s t { cls := 0x05, part := p, source := 0x2002, detail := 9, context := n }) ∧
     (∀ len, s.rd .SEQ_P_ARG p 1 = len →
       (s.seqState n ≠ 2 → s.seqLength n ≤ len + s.seqStaged n → len ≤ s.seqLength n →
         Completes (.truncate a p 0) s fun t => t.bit .SEQ_P_RESULT 31 p = true ∧ t.fld .SEQ_P_RESULT 15 0 p = n ∧ t.seqLength n = len ∧
           t.seqStaged n + (s.seqLength n - len) = s.seqStaged n ∧ t.seqState n = s.seqState n ∧ t.seqPages n = s.seqPages n ∧
           t.sqe = s.sqe ∧ SameMemory s t) ∧
       (s.seqState n = 2 → Completes (.truncate a p 0) s fun t => t.bit .SEQ_P_RESULT 30 p = true ∧ t.fld .SEQ_P_RESULT 23 16 p = 8 ∧
         t.seqLength n = s.seqLength n ∧ Recorded s t { cls := 0x05, part := p, source := 0x2002, detail := 8, context := n })))) ∧
  (∀ (a : Agent) (p : Nat) (s : State), s.agentPart a ≠ p → ∀ c ∈ [Instr.openSeq a p 0, .closeSeq a p 0, .fork a p 0, .truncate a p 0],
    Completes c s fun t => t.resp.err = true ∧ t.sqe = s.sqe ∧ SameMemory s t)

/-- R146 to R150. -/
def Obligations.StepsAndPageFeed : Prop :=
  (∀ (a : Agent) (p count : Nat) (d : List Byte) (s u : State), s.accessFenced a (some 2) = false → s.agentPart a = p → p < 8 → (s.seqPart p).steps.length < 2 →
    let b := s.respOk.wrF .SEQ_P_STEP_CTRL 12 0 count p
    let req := b.rd .SEQ_P_REQ_LO p + 2 ^ 32 * b.fld .SEQ_P_REQ_HI 15 0 p
    let wl := b.rd .SEQ_P_WL_LO p + 2 ^ 32 * b.fld .SEQ_P_WL_HI 15 0 p
    0 < count → count ≤ 4096 → req % 64 = 0 → wl % 64 = 0 → b.ownsRange p req (4 * count) = true →
    b.verdict (seqAgent p) true wl (0x240 + 32 * count) = .ok → b.ownsRange p wl (0x240 + 32 * count) true = true →
    (b.wakeAll (b.sleepingQuads req (4 * count))).engineRead (seqAgent p) req (4 * count) = (some d, u) →
    Completes (.stepBegin a p count) s fun t =>
      t.rd .SEQ_P_EPOCH p = (s.rd .SEQ_P_EPOCH p + 1) % 2 ^ 32 ∧
      t.fld .SEQ_P_STEP_STATUS 31 30 p = (s.seqPart p).steps.length + 1 ∧
      (t.seqPart p).steps.map SeqStep.epoch = (s.seqPart p).steps.map SeqStep.epoch ++ [t.rd .SEQ_P_EPOCH p] ∧
      (count = 1 → s.fencedEngine 2 p = false → (s.seqPart p).builds = [] →
        (∀ g ∈ s.upool.grants, g.taker.part = p → g.taker.holder ≠ .seqEngine) →
        let n := leAt d 0 2
        s.ownsSeq p n = true → (∀ st ∈ (s.seqPart p).steps, ∀ e ∈ st.ents, e.seq ≠ n) → s.seqState n = 1 → s.seqLength n < s.seqMax n →
        s.seqStaged n < (s.seqRec n).slots → s.feedTiles p ≠ [] →
        t.bit .SEQ_P_STEP_STATUS 29 p = true ∧ t.seqState n = 2 ∧ t.seqLength n = s.seqLength n ∧ t.seqStaged n = s.seqStaged n ∧
        ∃ st e, (t.seqPart p).steps.getLast? = some st ∧ st.ents = [e] ∧ e.seq = n ∧ e.tile = 0 ∧ e.base = s.seqLength n ∧
          e.staged = s.seqStaged n ∧
          e.granted = min (leAt d 2 2) (min ((s.seqRec n).slots - s.seqStaged n) (s.seqMax n - s.seqLength n)))) ∧
  (∀ (a : Agent) (p : Nat) (s : State), s.accessFenced a (some 2) = false → s.agentPart a = p → p < 8 →
    (∀ st r, (s.seqPart p).steps = st :: r →
      (Completes (.stepEnd a p) s fun t => t.resp.err = false ∧ (t.seqPart p).steps = { st with ending := true } :: r ∧
        Within [] [.resp, .sqe] s t) ∧
      ((st.ents.map StepEnt.seq).Nodup → Completes (.stepAbort a p) s fun t => (t.seqPart p).steps = r ∧ (t.seqPart p).ended = st.epoch ∧
        t.fld .SEQ_P_STEP_STATUS 31 30 p = r.length % 4 ∧
        (∀ e ∈ st.ents, s.seqState e.seq = 2 → t.seqState e.seq = 1 ∧ t.seqLength e.seq = s.seqLength e.seq ∧
          t.seqStaged e.seq = s.seqStaged e.seq) ∧
        (∀ e ∈ st.ents, s.seqState e.seq = 4 → t.seqState e.seq = 0))) ∧
    ((s.seqPart p).steps = [] → ∀ c ∈ [Instr.stepEnd a p, .stepAbort a p], Completes c s fun t =>
      t.bit .SEQ_P_STEP_STATUS 27 p = true ∧ t.fld .SEQ_P_STEP_STATUS 23 16 p = 0xC ∧
      Recorded s t { cls := 0x05, part := p, source := 0x2002, detail := 0xC })) ∧
  (∀ (p i l ctr slots k g : Nat) (f : FeedTile) (rest : List (Nat × Nat)) (s : State), s.feedAddrs p i = some (l, ctr, slots) →
    alGet (s.seqPart p).feeds i = some f → f.queue = (k, g) :: rest → s.feedSlots p ≠ 0 → s.fencedEngine 2 p = false → s.feedHeld p i = true → s.feedAsleep p i = [] →
    reached (s.getNum (ctr + 4) 4 + s.feedSlots p) (k + 1) = true → s.readable (pageAddr g) 0x10000 = true →
    let u := s.settleFeed p i
    let slot := slots + k % s.feedSlots p * 0x10000
    (ctr + 4 ≤ slot ∨ slot + 0x10000 ≤ ctr) →
    Completes (.feedPageSend p i) s fun t => t.getBytes slot 0x10000 = u.getBytes (pageAddr g) 0x10000 ∧
      t.getNum ctr 4 = (u.getNum ctr 4 + 1) % 2 ^ 32 ∧
      (∀ y, ¬ (slot ≤ y ∧ y < slot + 0x10000) → ¬ (ctr ≤ y ∧ y < ctr + 4) → t.getByte y = u.getByte y) ∧
      ∃ w, alGet (t.seqPart p).feeds i = some w ∧ w.queue = rest ∧ w.sent.getLast? = some (k, g)) ∧
  (∀ (p : Nat) (st : SeqStep) (r : List SeqStep) (s : State), (s.seqPart p).steps = st :: r → st.ending = true → s.fencedEngine 2 p = false →
    (∀ b ∈ (s.seqPart p).builds, b.epoch ≠ st.epoch) → s.feedsAsleep p = [] → s.stepReleased p st = true → (st.ents.map StepEnt.seq).Nodup → (∀ e ∈ st.ents, s.seqState e.seq = 2) →
    Completes (.stepCommit p) s fun t => t.bit .SEQ_P_STEP_STATUS 28 p = true ∧ (t.seqPart p).steps = r ∧ (t.seqPart p).ended = st.epoch ∧
      ∀ e ∈ st.ents, t.seqState e.seq = 1 ∧ t.seqLength e.seq = (s.seqLength e.seq + e.granted) % 2 ^ 32 ∧
        t.seqStaged e.seq = (s.seqStaged e.seq + e.granted) % 2 ^ 9 ∧ t.rd .SEQ_ENT e.seq 8 = st.epoch % 2 ^ 32)

/-- R202, R204, R205, R208, R210, R211. -/
def Obligations.HeadwindWindowsAndBudgets : Prop :=
  (∀ s : State, Completes .hdwWindowStart s fun t =>
    (∀ p j, p < 8 → j ∈ hdwEntries → t.hdwCredit p j =
      if s.hdwEnabled p j then some ((s.hdwRate p j * s.hdwWindow : Nat) + min 0 ((s.hdwCredit p j).getD 0)) else s.hdwCredit p j) ∧
    (∀ p, p < 8 → hdwEntries.any (fun j => s.hdwOver p j) = true →
      t.rd .HDW_P_OVER p = (s.rd .HDW_P_OVER p + 1) % 2 ^ 32 ∧ t.bit .HDW_P_EVENT 1 p = true) ∧
    (∀ p, p < 8 → hdwEntries.any (fun j => s.hdwOver p j) = false → t.rd .HDW_P_OVER p = s.rd .HDW_P_OVER p) ∧
    Within [.HDW_P_EVENT, .HDW_P_OVER] [.hdw] s t) ∧
  (∀ (k : Nat) (w : WaitingReq) (s : State), s.hdw.waiting[k]? = some w → s.hdwAged w = true →
    Completes (.requestAged k false) s fun t => t.hdw.waiting = s.hdw.waiting.set k { w with aged := true } ∧
      1 ≤ t.hdwLevel { w with aged := true } ∧ Within [] [.hdw] s t) ∧
  (∀ (k : Nat) (w : WaitingReq) (s : State), s.hdw.waiting[k]? = some w → s.hdwTarget w = true →
    Completes (.requestAged k true) s fun t => t.hdw.waiting = s.hdw.waiting.set k { w with raised := true } ∧
      (s.hdwEnabled (s.agentPart w.agent) (w.agent.entry w.path) = true → s.hdwOver (s.agentPart w.agent) (w.agent.entry w.path) = false →
        2 ≤ t.hdwLevel { w with raised := true }) ∧ Within [] [.hdw] s t) ∧
  (∀ (k : Nat) (w : WaitingReq) (s : State), s.hdw.waiting[k]? = some w → s.hdwNear w = true →
    Completes (.requestUrgent k) s fun t => t.hdw.waiting = s.hdw.waiting.set k { w with urgent := true } ∧
      t.hdwLevel { w with urgent := true } = 3 ∧ Within [] [.hdw] s t) ∧
  (∀ (a : Agent) (p k n : Nat) (w : Word) (s : State), p < 8 → k < 5 → n < 3 → s.accessFenced a (some 1) = false → s.ctrl ≠ 0xFF →
    (s.agentPart a = s.ctrl → s.hdwSum n p (4 * k + n) (w &&& 0x8000FFFF#32) ≤ s.fld .HDW_PATH 31 16 n →
      Completes (.hdwBudgetWrite a p k n w) s fun t => t.resp.err = false ∧
        t.rdReg ⟨.HDW_P_BUD, p, 4 * k + n⟩ = w &&& 0x8000FFFF#32 ∧
        t.fld .HDW_PATH 15 0 n = s.hdwSum n p (4 * k + n) (w &&& 0x8000FFFF#32) % 65536 ∧
        (fieldOf w 31 31 = 0 → t.hdwCredit p (4 * k + n) = none) ∧
        Within [.HDW_P_BUD, .HDW_PATH] [.resp, .hdw] s t) ∧
    (s.agentPart a = s.ctrl → s.fld .HDW_PATH 31 16 n < s.hdwSum n p (4 * k + n) (w &&& 0x8000FFFF#32) →
      Completes (.hdwBudgetWrite a p k n w) s fun t => t.resp.err = true ∧ Within recordRegs [.resp, .flt, .deep] s t ∧
        Recorded s t { cls := 0x05, part := s.agentPart a, source := 0x2001, address := 0xA81000 + p * 0x100 + k * 0x20 + n * 8 }) ∧
    (s.agentPart a ≠ s.ctrl → Completes (.hdwBudgetWrite a p k n w) s fun t => t.resp.err = true ∧
      Within recordRegs [.resp, .flt, .deep] s t ∧
      Recorded s t { cls := 0x02, part := s.agentPart a, source := a.code, address := 0xA81000 + p * 0x100 + k * 0x20 + n * 8 }))

/-- R180 to R185, R199. -/
def Obligations.SchedulerCommands : Prop :=
  (∀ (a : Agent) (p : Nat) (s : State), p < 8 → s.accessFenced a (some 3) = false → s.agentPart a = p → s.sch.argRsv.contains p = false →
    let j := s.fld .SCH_P_ARG 9 0 p
    let ended (code : Nat) (t : State) : Prop := t.resp.err = false ∧ t.fld .SCH_P_RESULT 23 16 p = code ∧ t.bit .SCH_P_RESULT (if code = 0 then 31 else 30) p = true
    (∀ f, (s.usedJobs.filter (fun j => s.jobOwner j == p)).length < (s.part p).jobContexts →
      f < 1024 → s.jobState f = ctxFree → (∀ k, k < f → s.jobState k ≠ ctxFree) →
      Completes (.allocCtx a p 0) s fun t => ended 0 t ∧ t.fld .SCH_P_RESULT 9 0 p = f ∧ t.jobState f = ctxSetup ∧ t.jobOwner f = p ∧
        t.rd .SCH_FREE_CTX = (s.rd .SCH_FREE_CTX - 1) % 2 ^ 32 ∧ (∀ k w, k ≠ f → t.rd .SCH_CTX k w = s.rd .SCH_CTX k w) ∧
        Within [.SCH_P_CMD, .SCH_CTX, .SCH_FREE_CTX, .SCH_P_RESULT] [.resp] s t) ∧
    ((s.part p).jobContexts ≤ (s.usedJobs.filter (fun j => s.jobOwner j == p)).length →
      Completes (.allocCtx a p 0) s fun t => ended 1 t ∧ Within [.SCH_P_CMD, .SCH_P_RESULT] [.resp] s t) ∧
    (s.jobState j = ctxFree ∨ s.jobOwner j = p →
      (s.jobState j = ctxSetup →
        let u := s.respOk.wr .SCH_P_CMD 2 p
        (u.admission j = 0 → Completes (.admitCtx a p 0) s fun t => ended 0 t ∧ t.jobState j = ctxReady ∧ t.fld .SCH_CTX 31 24 j 1 = 0 ∧
          (∀ n, n < 64 → s.jobPlan j = some n → t.bit .UPD_PLAN_STATUS 29 n = true ∧ t.fld .UPD_PLAN_JOB 9 0 n = j)) ∧
        (u.admission j ≠ 0 → Completes (.admitCtx a p 0) s fun t => ended (u.admission j) t ∧ t.jobState j = ctxSetup ∧
          t.fld .SCH_CTX 31 24 j 1 = u.admission j ∧ Within [.SCH_P_CMD, .SCH_CTX, .SCH_P_RESULT] [.resp] s t)) ∧
      (s.jobState j ≠ ctxSetup → Completes (.admitCtx a p 0) s fun t => ended 9 t ∧ Within [.SCH_P_CMD, .SCH_P_RESULT] [.resp] s t) ∧
      (s.jobState j = ctxRunning → Completes (.hold a p 0) s fun t => ended 0 t ∧ t.job j = { s.job j with holdReq := true } ∧
        (∀ k, k ≠ j → t.job k = s.job k) ∧ Within [.SCH_P_CMD, .SCH_P_RESULT] [.resp, .sch] s t) ∧
      (s.jobState j ≠ ctxRunning → Completes (.hold a p 0) s fun t => ended 9 t ∧ Within [.SCH_P_CMD, .SCH_P_RESULT] [.resp] s t) ∧
      (s.jobState j = ctxStopped → Completes (.resume a p 0) s fun t => ended 0 t ∧ t.jobState j = ctxPreempted) ∧
      (s.jobState j ≠ ctxStopped → Completes (.resume a p 0) s fun t => ended 9 t ∧ Within [.SCH_P_CMD, .SCH_P_RESULT] [.resp] s t) ∧
      (s.jobState j ≠ ctxFree → Completes (.freeCtx a p 0) s fun t => ended 0 t ∧ t.jobState j = ctxFree ∧ (∀ k, k < 16 → t.rd .SCH_CTX j k = 0) ∧
        t.rd .SCH_FREE_CTX = (s.rd .SCH_FREE_CTX + 1) % 2 ^ 32) ∧
      (s.jobState j = ctxFree → Completes (.freeCtx a p 0) s fun t => ended 9 t ∧ Within [.SCH_P_CMD, .SCH_P_RESULT] [.resp] s t)) ∧
    (s.jobState j ≠ ctxFree → s.jobOwner j ≠ p → ∀ c ∈ [Instr.admitCtx a p 0, .hold a p 0, .resume a p 0, .freeCtx a p 0],
      Completes c s fun t => ended 8 t ∧ Within [.SCH_P_CMD, .SCH_P_RESULT] [.resp] s t)) ∧
  (∀ (a : Agent) (p rsv : Nat) (s : State), p < 8 → s.accessFenced a (some 3) = false → s.agentPart a = p → rsv ≠ 0 ∨ s.sch.argRsv.contains p = true →
    ∀ c ∈ [Instr.allocCtx a p rsv, .admitCtx a p rsv, .hold a p rsv, .resume a p rsv, .freeCtx a p rsv],
      Completes c s fun t => t.resp.err = false ∧ t.fld .SCH_P_RESULT 23 16 p = 8 ∧ t.bit .SCH_P_RESULT 30 p = true ∧
        Within [.SCH_P_CMD, .SCH_P_RESULT] [.resp] s t) ∧
  (∀ (a : Agent) (p rsv j : Nat) (s : State), s.accessFenced a (some 3) = false → s.agentPart a ≠ p →
    ∀ c ∈ [Instr.allocCtx a p rsv, .admitCtx a p rsv, .hold a p rsv, .resume a p rsv, .freeCtx a p rsv, .schedulerDoorbell a p j],
      Completes c s fun t => t.resp.err = true ∧ Within recordRegs [.resp, .flt, .deep] s t ∧
        Recorded s t { cls := 0x02, part := s.agentPart a, source := a.code }) ∧
  (∀ (a : Agent) (p j : Nat) (s : State), p < 8 → s.accessFenced a (some 3) = false → s.agentPart a = p →
    (s.jobState j = ctxFree ∨ s.jobOwner j ≠ p → Completes (.schedulerDoorbell a p j) s fun t => t.resp.err = false ∧
      Within recordRegs [.resp, .flt, .deep] s t ∧ Recorded s t { cls := 0x02, part := s.agentPart a, source := a.code, context := j }) ∧
    (j < 1024 → s.jobState j ≠ ctxFree → s.jobOwner j = p → s.jobClass j ≠ 0 ∨ s.bit .SCH_CTX 31 j 12 = true →
      (∀ i, i < s.jobGang j → s.asleep [(s.tailAddr j i, 4), (s.headAddr j i, 4)] = []) → (s.job j).pos.length = s.jobGang j →
      ∀ v : Nat → Nat, (∀ i, i < s.jobGang j → (s.jobTail j i).1 = some (v i)) →
      Completes (.schedulerDoorbell a p j) s fun t => t.resp.err = false ∧ Within [.TILE_STATUS] [.resp, .sch] s t ∧
        ∀ i, i < s.jobGang j → t.gangPos j i = { s.gangPos j i with tail := v i }))

/-- R184, R187 to R194. -/
def Obligations.SchedulerPlacement : Prop :=
  (∀ (j : Nat) (s : State), j < 1024 →
    let ls := s.candidates j
    let ts := ls.map (fun l => (s.physOf l).getD 0)
    (s.jobWaits j = true → s.placedLater j = false → s.jobGang j ≤ ls.length → (∀ t ∈ ts, s.inWay j t = []) →
      Completes (.jobPlace j) s fun t => t.jobState j = ctxRunning ∧ t.jobPlaced j = maskOf ls % 2 ^ 64 ∧ t.fld .SCH_CTX 31 16 j 11 = 0 ∧
        (t.job j).slice = s.sliceUs j ∧ (t.job j).sliceAt = s.now ∧ SameMemory s t) ∧
    (s.jobWaits j = true → s.placedLater j = false → s.jobGang j ≤ ls.length → (∃ t ∈ ts, s.inWay j t ≠ []) →
      Completes (.jobPlace j) s fun t => Within [] [.sch] s t ∧ (∀ x ∈ ts, ∀ k ∈ s.inWay j x,
        if s.jobClass j = 0 ∧ s.jobOwner k ≠ s.jobOwner j then x ∈ (t.job k).parkFor else (t.job k).displaced = true)) ∧
    (s.jobWaits j = false ∨ s.placedLater j = true ∨ ls.length < s.jobGang j → Completes (.jobPlace j) s fun t => t = s) ∧
    (let c := s.job j
     (s.jobState j = ctxRunning → s.jobClass j ≠ 0 → c.sliceAt + c.slice * 1000 ≤ s.now →
       Completes (.sliceEnd j) s fun t => (t.job j).sliceEnded = some (c.sliceEnded.getD (c.sliceAt + c.slice * 1000)) ∧
         (c.displaced = true → (t.job j).displaced = true) ∧ Within [] [.sch] s t) ∧
     (s.jobState j ≠ ctxRunning ∨ s.jobClass j = 0 ∨ s.now < c.sliceAt + c.slice * 1000 → Completes (.sliceEnd j) s fun t => t = s)) ∧
    (s.jobState j = ctxRunning → (s.job j).saving = none → (s.job j).restoring = false → (s.job j).displaced = true ∨ (s.job j).holdReq = true →
      ((∀ x ∈ s.tilesOf j, s.atCheapFor j x = true) → Completes (.switchAtCheap j) s fun t =>
        (t.job j).saving = some (if (s.job j).holdReq then .stopped else .preempted) ∧ t.jobState j = ctxRunning ∧ SameMemory s t) ∧
      ((∃ x ∈ s.tilesOf j, s.atCheapFor j x = false) → Completes (.switchAtCheap j) s fun t => t = s)) ∧
    (s.jobState j = ctxRunning → (s.job j).saving = none → (s.job j).restoring = false → (s.job j).displaced = false → (s.job j).holdReq = false →
      s.lentTiles j ≠ [] → (∀ x ∈ s.lentTiles j, s.atCheapPoint x = true) →
      Completes (.switchAtCheap j) s fun t => t.jobState j = ctxParked ∧ SameMemory s t) ∧
    ((s.job j).saving = none → Completes (.liveSaveDone j) s fun t => t = s) ∧
    (∀ dest, (s.job j).saving = some dest → (∃ g ∈ (s.job j).pos, s.jobSaveKib j * 1024 < rangesBytes g.ranges) →
      Completes (.liveSaveDone j) s fun t => t.jobState j = ctxStopped ∧ t.fld .SCH_CTX 23 16 j 1 = 2 ∧ SameMemory s t) ∧
    (∀ dest u, (s.job j).saving = some dest → (∀ g ∈ (s.job j).pos, rangesBytes g.ranges ≤ s.jobSaveKib j * 1024) →
      let ms := (List.range (s.jobGang j)).flatMap (s.positionMoves j)
      s.asleep (movedRanges ms) = [] → s.moveRanges (s.schAgent j) ms = (0, u) →
      Completes (.liveSaveDone j) s fun t => t.jobState j = (if dest = .stopped then ctxStopped else ctxPreempted) ∧
        (t.job j).saving = none ∧ (t.job j).saved = true ∧ (∀ x, t.getByte x = u.getByte x)) ∧
    ((s.job j).restoring = false → Completes (.liveRestoreDone j) s fun t => t = s) ∧
    (∀ u, (s.job j).restoring = true →
      let ms := ((s.job j).needRestore.flatMap (s.positionMoves j)).map (fun x => (x.2.1, x.1, x.2.2))
      s.asleep (movedRanges ms) = [] → (∀ x ∈ ms, s.checksOk x.1 x.2.2 = true) → s.moveRanges (s.schAgent j) ms = (0, u) →
      Completes (.liveRestoreDone j) s fun t => (t.job j).restoring = false ∧ (∀ x, t.getByte x = u.getByte x)) ∧
    (s.jobClass j = 0 → s.bit .SCH_CTX 31 j 12 = true → s.admitted j = true →
      Completes (.rtParkRequest j) s fun t => Within [] [.sch] s t ∧
        ∀ l x k, l ∈ bitsSet 64 (if s.jobState j = ctxRunning then s.jobPlaced j else s.jobAllowed j) → s.physOf l = some x →
          k ∈ s.tileJobs x → s.jobOwner k ≠ s.jobOwner j → s.jobState k = ctxRunning → x ∈ (t.job k).parkFor) ∧
    (s.jobClass j ≠ 0 ∨ s.bit .SCH_CTX 31 j 12 = false ∨ s.admitted j = false → Completes (.rtParkRequest j) s fun t => t = s) ∧
    (s.jobClass j = 0 → s.bit .SCH_CTX 31 j 12 = true → s.admitted j = true → s.periodDue j = true →
      ((s.job j).released = true → Completes (.rtRelease j) s fun t => t = s) ∧
      (s.jobState j = ctxRunning → (s.job j).released = false → (s.job j).working = false → s.rtTilesReady j = true →
        Completes (.rtRelease j) s fun t => (t.job j).working = true ∧ (t.job j).released = false ∧ Within [.TILE_STATUS] [.sch] s t) ∧
      (s.jobState j = ctxRunning → (s.job j).released = false → (s.job j).working = true ∨ s.rtTilesReady j = false →
        Completes (.rtRelease j) s fun t => (t.job j).released = true ∧
          t.fld .SCH_CTX 31 16 j 13 = (s.fld .SCH_CTX 31 16 j 13 + 1) % 2 ^ 16 ∧ t.bit .SCH_P_EVENT 0 (s.jobOwner j) = true ∧
          Within [.SCH_CTX, .SCH_P_EVENT] [.sch] s t)) ∧
    (s.jobClass j ≠ 0 ∨ s.bit .SCH_CTX 31 j 12 = false ∨ s.admitted j = false ∨ s.periodDue j = false → Completes (.rtRelease j) s fun t => t = s)) ∧
  (∀ (t : Nat) (c : NextCmd) (s : State), t < 68 → s.nextCmd t = some c → opcodeOf c.words = 8 →
    (s.readAs (s.tileAgent t c.job) (s.slotAddr c.job c.pos c.slot) 64).1.isSome = true → (∀ d ∈ (s.run t).running, d.done = true) →
    (s.Startable t c → s.cheapCheck t c = 0 → s.headAddr c.job c.pos < deepBase → wfld c.words 2 31 31 = 0 ∨ s.jobClass c.job ≠ 0 →
      Completes (.cheap t) s fun u => Finished s u t c.words ∧ SameMemoryBut (s.headAddr c.job c.pos) 4 s u ∧
        (c.pos < (s.job c.job).pos.length → (u.gangPos c.job c.pos).ranges = cheapRanges c.words ∧ (u.gangPos c.job c.pos).atCheap = true)) ∧
    (headerOk c.words = false ∨ s.cheapCheck t c = 1 → Completes (.cheap t) s fun u => CommandFailed s u t c.job c.slot c.words 1 ∧ SameMemory s u) ∧
    (headerOk c.words = true → s.cheapCheck t c = 2 → Completes (.cheap t) s fun u => CommandFailed s u t c.job c.slot c.words 2 ∧ SameMemory s u)) ∧
  (∀ (t j : Nat) (s : State), (s.run t).ctx = some j → j < 1024 →
    (s.jobState j = ctxRunning ∨ s.jobState j = ctxParked → 800 < s.tileSpan t →
      Completes (.spanWatchdog t) s fun u => u.jobState j = ctxStopped ∧ u.fld .SCH_CTX 23 16 j 1 = 9 ∧
        (∃ r ∈ u.flt.ring, r.fault.cls = 0x10 ∧ r.fault.source = t ∧ r.fault.detail = 9 ∧ r.fault.context = j ∧ r.fault.tag = (s.gangPos j (s.run t).pos).cheapId)) ∧
    (s.tileSpan t ≤ 800 → Completes (.spanWatchdog t) s fun u => u = s))

/-- R269, R270, R272. -/
def Obligations.ControlLawInstructions : Prop :=
  (∀ (n : Nat) (r : BrzRun) (w : BrzWord) (s : State), s.brzNext n 0 = some (r, w) →
    Completes (.endRun n) s (Ran n { r with pc := r.pc + 1, done := true } s)) ∧
  (∀ (n : Nat) (r : BrzRun) (w : BrzWord) (s : State), s.brzNext n 1 = some (r, w) →
    Completes (.ldin n) s (Ran n (r.after w (((alGet s.wl.values (bitsOf w.imm 13 8)).getD []).getD (bitsOf w.imm 3 0) 0)
      (if s.slotValid (bitsOf w.imm 13 8) then 0 else 0x40)) s)) ∧
  (∀ (n : Nat) (r : BrzRun) (w : BrzWord) (s : State), s.brzNext n 2 = some (r, w) →
    Completes (.ldsp n) s (Ran n (r.after w (((alGet s.brz.setpoints n).getD []).getD (bitsOf w.imm 1 0) 0) 0) s)) ∧
  (∀ (n : Nat) (r : BrzRun) (w : BrzWord) (s : State), s.brzNext n 3 = some (r, w) → alGet r.gains (bitsOf w.imm 3 0) = none →
    Completes (.ldk n) s (Ran n { r.after w (s.rd .BRZ_L_K n (16 * r.gainSet + bitsOf w.imm 3 0)) 0 with
      gains := alSet r.gains (bitsOf w.imm 3 0) (s.rd .BRZ_L_K n (16 * r.gainSet + bitsOf w.imm 3 0)) } s)) ∧
  (∀ (n x : Nat) (r : BrzRun) (w : BrzWord) (s : State), s.brzNext n 3 = some (r, w) → alGet r.gains (bitsOf w.imm 3 0) = some x →
    Completes (.ldk n) s fun t => ∃ q, t.brzRun n = some q ∧ q.v = r.v.set w.d (x % 2 ^ 32) ∧ q.pc = r.pc + 1) ∧
  (∀ (n : Nat) (r : BrzRun) (w : BrzWord) (s : State), s.brzNext n 4 = some (r, w) →
    Completes (.lds n) s (Ran n (r.after w (r.state.getD (bitsOf w.imm 3 0) 0) 0) s)) ∧
  (∀ (n : Nat) (r : BrzRun) (w : BrzWord) (s : State), s.brzNext n 5 = some (r, w) →
    Completes (.sts n) s (Ran n { r with pc := r.pc + 1, state := r.state.set (bitsOf w.imm 3 0) (r.v.getD w.a 0) } s)) ∧
  (∀ (n : Nat) (r : BrzRun) (w : BrzWord) (s : State), s.brzNext n 6 = some (r, w) →
    Completes (.outOp n) s (Ran n { r with pc := r.pc + 1, outs := alSet r.outs (bitsOf w.imm 13 8, bitsOf w.imm 3 0) (r.v.getD w.a 0) } s)) ∧
  (∀ (n : Nat) (r : BrzRun) (w : BrzWord) (s : State),
    let x := sintOf 32 (r.v.getD w.a 0)
    let y := sintOf 32 (r.v.getD w.b 0)
    let z := sintOf 32 (r.v.getD w.d 0)
    let q (v : Int) : State → Prop := Ran n (r.after w (uintOf 32 (saturated v)) (satFlag v)) s
    w.f = false →
    (s.brzNext n 7 = some (r, w) → Completes (.addOp n) s (q (x + y))) ∧
    (s.brzNext n 8 = some (r, w) → Completes (.subOp n) s (q (x - y))) ∧
    (s.brzNext n 9 = some (r, w) → Completes (.mulOp n) s (q (shiftEvenInt (x * y) 31))) ∧
    (s.brzNext n 0xA = some (r, w) → Completes (.mac n) s (q (shiftEvenInt (z * 2 ^ 31 + x * y) 31))) ∧
    (s.brzNext n 0xE = some (r, w) → Completes (.negOp n) s (q (-x))) ∧
    (s.brzNext n 0xF = some (r, w) → Completes (.absOp n) s (q x.natAbs)) ∧
    (s.brzNext n 0xB = some (r, w) → Completes (.clamp n) s
      (Ran n (r.after w (uintOf 32 (min (sintOf 32 (uintOf 32 (max x y))) (sintOf 32 (r.v.getD ((w.b + 1) % 32) 0)))) 0) s)) ∧
    (s.brzNext n 0xC = some (r, w) → Completes (.minOp n) s (Ran n (r.after w (uintOf 32 (min x y)) 0) s)) ∧
    (s.brzNext n 0xD = some (r, w) → Completes (.maxOp n) s (Ran n (r.after w (uintOf 32 (max x y)) 0) s)) ∧
    (s.brzNext n 0x13 = some (r, w) → Completes (.cvt n) s (Ran n (r.after w (convInt 0xA (of32 (r.v.getD w.a 0))).1
      ((convInt 0xA (of32 (r.v.getD w.a 0))).2 ||| nanIn [of32 (r.v.getD w.a 0)])) s)) ∧
    (s.brzNext n 0x12 = some (r, w) → Completes (.curve n) s (Ran n
      (r.after w (convInt 0xA (s.curve (bitsOf w.imm 4 0) (intTo32 x (-31)).1).1).1
        ((s.curve (bitsOf w.imm 4 0) (intTo32 x (-31)).1).2 ||| (convInt 0xA (s.curve (bitsOf w.imm 4 0) (intTo32 x (-31)).1).1).2)) s))) ∧
  (∀ (n : Nat) (r : BrzRun) (w : BrzWord) (s : State),
    let x := of32 (r.v.getD w.a 0)
    let y := of32 (r.v.getD w.b 0)
    let z := of32 (r.v.getD w.d 0)
    let q (v : Fp × Nat) (l : List Fp) : State → Prop := Ran n (r.after w v.1.bits32 (v.2 ||| nanIn l)) s
    w.f = true →
    (s.brzNext n 7 = some (r, w) → Completes (.addOp n) s (q (x.add y) [x, y])) ∧
    (s.brzNext n 8 = some (r, w) → Completes (.subOp n) s (q (x.sub y) [x, y])) ∧
    (s.brzNext n 9 = some (r, w) → Completes (.mulOp n) s (q (x.mul y) [x, y])) ∧
    (s.brzNext n 0xA = some (r, w) → Completes (.mac n) s (q (fpMac z x y) [x, y, z])) ∧
    (s.brzNext n 0xE = some (r, w) → Completes (.negOp n) s (q (x.neg, 0) [x])) ∧
    (s.brzNext n 0xF = some (r, w) → Completes (.absOp n) s (q (x.abs, 0) [x])) ∧
    (s.brzNext n 0xB = some (r, w) → x.isNan = true ∨ y.isNan = true → Completes (.clamp n) s (q (.nan, 0) [.nan])) ∧
    (s.brzNext n 0xC = some (r, w) → x.isNan = true ∨ y.isNan = true → Completes (.minOp n) s (q (.nan, 0) [.nan])) ∧
    (s.brzNext n 0xD = some (r, w) → x.isNan = true ∨ y.isNan = true → Completes (.maxOp n) s (q (.nan, 0) [.nan])) ∧
    (s.brzNext n 0xC = some (r, w) → x.lt y = true → Completes (.minOp n) s (Ran n (r.after w (r.v.getD w.a 0) 0) s)) ∧
    (s.brzNext n 0xC = some (r, w) → y.lt x = true → Completes (.minOp n) s (Ran n (r.after w (r.v.getD w.b 0) 0) s)) ∧
    (s.brzNext n 0xD = some (r, w) → x.lt y = true → Completes (.maxOp n) s (Ran n (r.after w (r.v.getD w.b 0) 0) s)) ∧
    (s.brzNext n 0xD = some (r, w) → y.lt x = true → Completes (.maxOp n) s (Ran n (r.after w (r.v.getD w.a 0) 0) s)) ∧
    (s.brzNext n 0x13 = some (r, w) → Completes (.cvt n) s (q (intTo32 (sintOf 32 (r.v.getD w.a 0)) (-31)) [])) ∧
    (s.brzNext n 0x12 = some (r, w) → Completes (.curve n) s (q (s.curve (bitsOf w.imm 4 0) x) []))) ∧
  (∀ (n : Nat) (r : BrzRun) (w : BrzWord) (s : State), s.brzNext n 0x10 = some (r, w) →
    Completes (.divOp n) s (Ran n (r.after w ((of32 (r.v.getD w.a 0)).div (of32 (r.v.getD w.b 0))).1.bits32
      (((of32 (r.v.getD w.a 0)).div (of32 (r.v.getD w.b 0))).2 ||| nanIn [of32 (r.v.getD w.a 0), of32 (r.v.getD w.b 0)])) s)) ∧
  (∀ (n : Nat) (r : BrzRun) (w : BrzWord) (s : State), s.brzNext n 0x11 = some (r, w) →
    Completes (.sqrtOp n) s (Ran n (r.after w (of32 (r.v.getD w.a 0)).sqrt.1.bits32
      ((of32 (r.v.getD w.a 0)).sqrt.2 ||| nanIn [of32 (r.v.getD w.a 0)])) s)) ∧
  (∀ (n : Nat) (r : BrzRun) (w : BrzWord) (s : State), s.brzNext n 0x14 = some (r, w) →
    Completes (.err n) s (Ran n { r with pc := r.pc + 1, err := some (r.v.getD w.a 0, w.f) } s)) ∧
  (∀ (n : Nat) (r : BrzRun) (w : BrzWord) (s : State), s.brzNext n 0x15 = some (r, w) →
    Completes (.ldv n) s (Ran n (r.after w ((s.workVec (bitsOf w.imm 10 8)).getD (bitsOf w.imm 5 0) 0) 0) s)) ∧
  (∀ (n : Nat) (r : BrzRun) (w : BrzWord) (s : State), s.brzNext n 0x16 = some (r, w) →
    Completes (.stv n) s fun t => t.brzRun n = some { r with pc := r.pc + 1 } ∧
      t.workVec (bitsOf w.imm 10 8) = (s.workVec (bitsOf w.imm 10 8)).set (bitsOf w.imm 5 0) (r.v.getD w.a 0) ∧
      (∀ k, k ≠ bitsOf w.imm 10 8 → t.workVec k = s.workVec k) ∧ Within [] [.brz] s t) ∧
  (∀ (n : Nat) (r : BrzRun) (w : BrzWord) (s : State), s.brzNext n 0x17 = some (r, w) →
    Completes (.chol n) s fun t => t.brzRun n = some { r with pc := r.pc + 1, solve := some (bitsOf w.imm 2 0) } ∧
      t.brz.chol = s.brz.chol ++ [n] ∧ Within [] [.brz] s t) ∧
  (∀ (n k : Nat) (l : List Nat) (r : BrzRun) (s : State), s.brz.chol = n :: l → s.brzRun n = some r → r.solve = some k →
    let x := cholSolve ((alGet s.brz.banks k).getD ([], [])).1 (s.workVec k)
    Completes .cholDone s fun t => t.brz.chol = l ∧ t.workVec k = x.1 ∧
      t.brzRun n = some { r with solve := none, flags := r.flags ||| (if x.2 then flagInv else 0) } ∧ Within [] [.brz] s t)

/-- R257, R258, R267, R268, R270, R271, R273. -/
def Obligations.ControlCycle : Prop :=
  (∀ s : State, s.spl.chip.isSome = true → s.cycleDue = true → s.bit .WL_CTRL 31 = true →
    let c := match s.wl.cycle with | some c => c + 1 | none => 0
    Completes .cycleStart s fun t => t.wl.cycle = some c ∧
      t.time.origin = (if s.wl.cycle.isNone then s.now else s.time.origin) ∧
      t.wl.startAt = t.time.origin + c * s.cycleNs ∧
      t.wl.rxDone = false ∧ t.wl.dlDone = false ∧ t.brz.latched = false ∧ t.brz.runs = [] ∧ t.fld .BRZ_MAT_CTRL 7 0 = 0 ∧
      (∀ n, n < 128 → (n ∈ t.brz.due ↔ s.bit .BRZ_CFG 0 = true ∧ s.loopOn n = true ∧
        c % (s.fld .BRZ_L_CTRL 23 21 n + 1) = s.fld .BRZ_L_CTRL 20 18 n)) ∧
      (∀ k, k < 8 → s.fld .BRZ_MAT_CTRL 7 0 / 2 ^ k % 2 = 1 → alGet t.brz.banks k = some (s.stagedBank k) ∧ t.workVec k = (s.stagedBank k).2) ∧
      (s.wl.mute = 0 → t.wl.sent.map Prod.fst = (List.range 2).filter s.wlPort)) ∧
  (∀ (d e : List Byte) (s u v : State), s.wl.cycle.isSome = true → s.brz.latched = false → s.wl.rxDone = false →
    s.wlPast (s.fld .BRZ_PHASE 31 16) = true → s.brzRuns = true → s.bit .BRZ_SP_CTRL 31 = true →
    ({ s with brz := { s.brz with latched := true } } : State).fetch (.engine 8 s.brzOwner) s.spBase 4 = (some d, u) →
    leAt d 0 4 ≠ s.brz.published →
    u.fetch (.engine 8 s.brzOwner) (s.spBase + 512 + leAt d 0 4 % 2 * 2560) 2560 = (some e, v) →
    v.checksOk (s.spBase + 512 + leAt d 0 4 % 2 * 2560) 2560 = true →
    Completes .latch s fun t => t.brz = { s.brz with latched := true, setpoints := bufferSetpoints e, published := leAt d 0 4, noBlock := 0 } ∧
      t.rd .BRZ_SP_SEQ = leAt e 0 4 % 2 ^ 32 ∧ SameMemory s t) ∧
  (∀ (d : List Byte) (s u : State), s.wl.cycle.isSome = true → s.brz.latched = false → s.wl.rxDone = false →
    s.wlPast (s.fld .BRZ_PHASE 31 16) = true → s.brzRuns = true → s.bit .BRZ_SP_CTRL 31 = true →
    ({ s with brz := { s.brz with latched := true } } : State).fetch (.engine 8 s.brzOwner) s.spBase 4 = (some d, u) →
    leAt d 0 4 = s.brz.published →
    Completes .latch s fun t => t.brz = { s.brz with latched := true, noBlock := s.brz.noBlock + 1 } ∧
      (max 1 (s.fld .BRZ_SP_CTRL 7 0) ≤ s.brz.noBlock + 1 → t.bit .BRZ_EVENT 2 = true ∧
        ∀ n, n < 128 → s.loopOn n = true → t.bit .BRZ_L_FLAGS 7 n = true) ∧
      (s.brz.noBlock + 1 < max 1 (s.fld .BRZ_SP_CTRL 7 0) → ∀ n, t.rd .BRZ_L_FLAGS n = s.rd .BRZ_L_FLAGS n)) ∧
  (∀ (n : Nat) (s : State), s.mayStart n = true →
    Completes (.loopRunStart n) s (Ran n
      { pc := s.fld .BRZ_L_PROG 29 16 n
        state := (List.range 16).map (fun k => s.rd .BRZ_L_S n k)
        stop := min 16384 (s.fld .BRZ_L_PROG 29 16 n + s.fld .BRZ_L_PROG 7 0 n)
        gainSet := s.fld .BRZ_L_CTRL 30 30 n } s)) ∧
  (∀ (c : Nat) (s : State), s.wl.cycle = some c → s.wl.dlDone = false → s.wl.rxDone = true → s.wlPast (s.fld .BRZ_PHASE 15 0) = true →
    s.brzRuns = true → s.brz.down = false → s.brz.due.Nodup →
    Completes .deadline s fun t => t.wl.dlDone = true ∧ t.brz.due = [] ∧ t.brz.runs = [] ∧ SameMemory s t ∧
      (∀ n r, n ∈ s.brz.due → s.loopOn n = true → s.brzRun n = some r → r.done = true →
        (∀ k, k < r.state.length → t.rd .BRZ_L_S n k = r.state.getD k 0 % 2 ^ 32) ∧ t.rd .BRZ_L_LAST n = c % 2 ^ 32 ∧
        (r.err = none → t.rd .BRZ_L_FLAGS n = (s.rd .BRZ_L_FLAGS n ||| r.flags) % 2 ^ 32) ∧
        (∀ o x, alGet r.outs o = some x → (∀ m q, m ∈ s.brz.due → m ≠ n → s.brzRun m = some q → q.done = true → alGet q.outs o = none) →
          alGet t.wl.outs o = some x)) ∧
      (∀ o, (∀ m q, m ∈ s.brz.due → s.brzRun m = some q → q.done = true → alGet q.outs o = none) → alGet t.wl.outs o = alGet s.wl.outs o) ∧
      (∀ n, n ∈ s.brz.due → s.loopOn n = true → (∀ r, s.brzRun n = some r → r.done = false) →
        t.bit .BRZ_L_FLAGS 5 n = true ∧ t.bit .BRZ_EVENT 0 = true ∧ t.rd .BRZ_L_MISSES n = (s.rd .BRZ_L_MISSES n + 1) % 2 ^ 32 ∧
        t.rd .BRZ_L_LAST n = s.rd .BRZ_L_LAST n ∧ (∀ k, t.rd .BRZ_L_S n k = s.rd .BRZ_L_S n k))) ∧
  (∀ (a : Agent) (n : Nat) (w : Word) (s : State), n < 128 → s.accessFenced a (some 8) = false → s.brzDenied a = false →
    (bitOf w.toNat 31 = false ∨ s.loopOk n = true → Completes (.loopEnable a n w) s fun t => t.resp.err = false ∧
      t.rd .BRZ_L_CTRL n = w.toNat / 2 ^ 18 * 2 ^ 18 ∧
      (bitOf w.toNat 31 = false → t.brzRun n = none ∧ n ∉ t.brz.due ∧ n ∉ t.brz.chol) ∧
      (bitOf w.toNat 31 = true → t.brz = s.brz) ∧ Within [.BRZ_L_CTRL] [.resp, .brz] s t) ∧
    (bitOf w.toNat 31 = true → s.loopOk n = false → Completes (.loopEnable a n w) s fun t => t.resp.err = true ∧
      Within recordRegs [.resp, .flt, .deep] s t ∧ Recorded s t { cls := 0x05, part := s.agentPart a, source := 0x2008 })) ∧
  (∀ (a : Agent) (n : Nat) (w : Word) (s : State), n < 128 → s.accessFenced a (some 8) = false → s.brzDenied a = true →
    Completes (.loopEnable a n w) s fun t => t.resp.err = true ∧ Within recordRegs [.resp, .flt, .deep] s t ∧
      Recorded s t { cls := 0x02, part := s.agentPart a, source := a.code, address := 0xC81000 + 0x20 * n }) ∧
  (∀ (a : Agent) (mask : Nat) (s : State), s.accessFenced a (some 8) = false →
    (s.brzDenied a = false → Completes (.matrixCommit a mask) s fun t => t.resp.err = false ∧
      t.fld .BRZ_MAT_CTRL 7 0 = s.fld .BRZ_MAT_CTRL 7 0 ||| mask % 256 ∧ Within [.BRZ_MAT_CTRL] [.resp] s t) ∧
    (s.brzDenied a = true → Completes (.matrixCommit a mask) s fun t => t.resp.err = true ∧
      Within recordRegs [.resp, .flt, .deep] s t ∧
      Recorded s t { cls := 0x02, part := s.agentPart a, source := a.code, address := 0xC80024 })) ∧
  (∀ (a : Agent) (w : Word) (s : State), s.accessFenced a (some 8) = false → s.brzDenied a = false →
    (fieldOf w 31 16 < s.fld .WL_TIMING 31 16 → s.fld .WL_TIMING 31 16 < fieldOf w 15 0 →
      Completes (.phaseWrite a false w) s fun t => t.resp.err = false ∧ t.rd .BRZ_PHASE = w.toNat ∧ Within [.BRZ_PHASE] [.resp] s t) ∧
    (s.fld .WL_TIMING 31 16 ≤ fieldOf w 31 16 ∨ fieldOf w 15 0 ≤ s.fld .WL_TIMING 31 16 →
      Completes (.phaseWrite a false w) s fun t => t.resp.err = true ∧ Within recordRegs [.resp, .flt, .deep] s t ∧
        Recorded s t { cls := 0x05, part := s.agentPart a, source := 0x2008 })) ∧
  (∀ (a : Agent) (w : Word) (s : State), s.accessFenced a (some 9) = false → s.agentPart a = s.ctrl → s.ctrl ≠ 0xFF →
    (s.fld .BRZ_PHASE 31 16 < fieldOf w 31 16 → fieldOf w 31 16 < s.fld .BRZ_PHASE 15 0 →
      Completes (.phaseWrite a true w) s fun t => t.resp.err = false ∧ t.rd .WL_TIMING = w.toNat ∧ Within [.WL_TIMING] [.resp] s t) ∧
    (fieldOf w 31 16 ≤ s.fld .BRZ_PHASE 31 16 ∨ s.fld .BRZ_PHASE 15 0 ≤ fieldOf w 31 16 →
      Completes (.phaseWrite a true w) s fun t => t.resp.err = true ∧ Within recordRegs [.resp, .flt, .deep] s t ∧
        Recorded s t { cls := 0x05, part := s.agentPart a, source := 0x2009 }))

/-- R263, R265, R266, R277. -/
def Obligations.WindlineRing : Prop :=
  (∀ (a : Agent) (w : Word) (s : State), s.accessFenced a (some 9) = false → s.ctrl ≠ 0xFF →
    (s.agentPart a = s.ctrl → bitOf w.toNat 31 = true → Completes (.windlineEnable a w) s fun t => t.resp.err = false ∧
      t.bit .WL_CTRL 31 = true ∧ t.fld .WL_CTRL 1 0 = w.toNat % 4 ∧ Within [.WL_CTRL] [.resp] s t) ∧
    (s.agentPart a = s.ctrl → bitOf w.toNat 31 = false → Completes (.windlineEnable a w) s fun t => t.resp.err = false ∧
      t.bit .WL_CTRL 31 = false ∧ t.wl.cycle = none ∧ t.brz.due = [] ∧ (∀ k, k < 64 → t.nodeState k = 0) ∧
      t.rd .WL_LOST_LO = 0 ∧ t.rd .WL_LOST_HI = 0) ∧
    (s.agentPart a ≠ s.ctrl → Completes (.windlineEnable a w) s fun t => t.resp.err = true ∧
      Within recordRegs [.resp, .flt, .deep] s t ∧
      Recorded s t { cls := 0x02, part := s.agentPart a, source := a.code, address := 0xD00000 })) ∧
  (∀ (frame : List Byte) (c : Nat) (i : ChipImage) (s : State), s.wl.cycle = some c → s.spl.chip = some i →
    ofBytesBE (sliceBytes frame 0 6) = s.rd64 .WL_DA_LO → ofBytesBE (sliceBytes frame 12 2) = i.ethertype →
    frame.length = 30 + 64 * s.nodeCount → leAt frame 14 1 = 1 → leAt frame 16 1 = s.nodeCount → leAt frame 18 4 = c % 2 ^ 32 →
    let path := leAt frame 15 1 % 2
    let turned := bitOf (leAt frame 15 1) 1
    let slot (k : Nat) := sliceBytes frame (30 + 64 * k) 64
    (s.wlLate = false → Completes (.windlineFrameReturn frame true) s fun t =>
      alGet t.wl.returned path = some turned ∧
      (path = 0 → t.fld .WL_RTT 31 16 = min 0xFFFF (quotEven (s.now - s.wl.startAt : Nat) 10).toNat) ∧
      (∀ k, k < s.nodeCount → (turned = false ∨ slot k ≠ s.wl.slots.getD k []) → s.copyCodes c k (slot k) = [] →
        alGet t.wl.copies (k, path) = some (slot k) ∧ (path = 0 → alGet t.wl.values k = some (uplinkValues (slot k)))) ∧
      (turned = true → t.bit .WL_EVENT 1 = true)) ∧
    (s.wlLate = true → Completes (.windlineFrameReturn frame true) s fun t =>
      t.bit .WL_EVENT 3 = true ∧ t.wl.copies = s.wl.copies ∧ t.wl.values = s.wl.values) ∧
    Completes (.windlineFrameReturn frame false) s fun t =>
      t.bit .WL_EVENT 2 = true ∧ t.wl.copies = s.wl.copies ∧ t.wl.returned = s.wl.returned) ∧
  (∀ (frame : List Byte) (ok : Bool) (c : Nat) (s : State), s.wl.cycle = some c → ofBytesBE (sliceBytes frame 0 6) ≠ s.rd64 .WL_DA_LO →
    Completes (.windlineFrameReturn frame ok) s fun t =>
      t.bit .WL_EVENT 2 = true ∧ t.wl.copies = s.wl.copies ∧ t.wl.returned = s.wl.returned) ∧
  (∀ (p : Nat) (s : State), p < 2 → s.bit .WL_CTRL 31 = true → s.wlPort p = true → p ∉ s.wl.down →
    Completes (.windlinePortDown p) s fun t => t.wl.down = p :: s.wl.down ∧ t.bit .WL_EVENT 4 = true ∧ t.bit .WL_EVENT 2 = true) ∧
  (∀ s : State, s.wl.cycle.isSome = true → s.wl.rxDone = false → s.wlLate = true → s.wl.quiet = false →
    Completes .rxDeadline s fun t => t.wl.rxDone = true ∧
      ∀ k, k < s.nodeCount → k < 64 →
        (s.slotValid k = true → s.nodeState k ≠ 3 → t.nodeState k = 1) ∧
        (s.slotValid k = false → s.nodeState k = 0 → t.nodeState k = 0) ∧
        (s.slotValid k = false → s.nodeState k = 1 → 1 < s.lossCycles k → t.nodeState k = 2 ∧ t.nodeMissed k = 1) ∧
        (s.slotValid k = false → s.nodeState k = 2 → s.nodeMissed k + 1 < s.lossCycles k →
          t.nodeState k = 2 ∧ t.nodeMissed k = min 63 (s.nodeMissed k + 1)) ∧
        (s.slotValid k = false → s.nodeState k = 1 → s.lossCycles k ≤ 1 → t.nodeState k = 3 ∧ t.bit .WL_EVENT 0 = true) ∧
        (s.slotValid k = false → s.nodeState k = 2 → s.lossCycles k ≤ s.nodeMissed k + 1 →
          t.nodeState k = 3 ∧ t.bit .WL_EVENT 0 = true) ∧
        (s.slotValid k = false → s.nodeState k = 3 → t.nodeState k = 3))

/-- R214, R219, R222. -/
def Obligations.SamplesComplete : Prop :=
  (∀ (port vc : Nat) (e : StreamEntry) (s : State), s.streamBy 0 port vc = some e → (s.strm e.number).cur = none →
    Completes (.csi2FrameStart port vc 0) s fun t => (t.strm e.number).cur = some (s.newSample e.number s.now) ∧
      (t.strm e.number).ready = (s.strm e.number).ready ∧ Within [] [.sns] s t) ∧
  (∀ (port vc : Nat) (e : StreamEntry) (s : State), s.streamBy 0 port vc = some e → (s.strm e.number).cur.isSome = true →
    Completes (.csi2FrameStart port vc 0) s fun t => (∃ o, (t.strm e.number).cur = some o ∧ o.raw = s.now ∧ o.data = []) ∧
      t.fld .SNS_S_STATUS 7 0 e.number = 4 ∧ t.rd .SNS_S_ERRORS e.number = (s.rd .SNS_S_ERRORS e.number + 1) % 2 ^ 32) ∧
  (∀ (port vc : Nat) (e : StreamEntry) (s : State), s.streamBy 0 port vc = some e → (s.strm e.number).cur = none →
    Completes (.csi2FrameStart port vc 2) s fun t => (t.strm e.number).cur = none ∧
      t.fld .SNS_S_STATUS 7 0 e.number = 2 ∧ t.rd .SNS_S_ERRORS e.number = (s.rd .SNS_S_ERRORS e.number + 1) % 2 ^ 32) ∧
  (∀ (port vc ecc : Nat) (d : List Byte) (e : StreamEntry) (o : OpenSample) (s : State), s.streamBy 0 port vc = some e → ecc < 2 →
    (s.strm e.number).cur = some o →
    ((s.strm e.number).skip = 0 → Completes (.csi2FrameEnd port vc ecc d false) s fun t => (t.strm e.number).cur = none ∧
      (t.strm e.number).ready = (s.strm e.number).ready ++ [{ o with data := d, count := 1 }]) ∧
    (0 < (s.strm e.number).skip → Completes (.csi2FrameEnd port vc ecc d false) s fun t => (t.strm e.number).cur = none ∧
      (t.strm e.number).ready = (s.strm e.number).ready ∧ (t.strm e.number).skip = (s.strm e.number).skip - 1) ∧
    Completes (.csi2FrameEnd port vc ecc d true) s fun t => (t.strm e.number).cur = none ∧
      (t.strm e.number).ready = (s.strm e.number).ready ∧ t.fld .SNS_S_STATUS 7 0 e.number = 3) ∧
  (∀ (port udp mac : Nat) (d : List Byte) (e : StreamEntry) (s : State), s.streamBy 1 port udp = some e →
    let o := (s.strm e.number).cur.getD (s.newSample e.number (s.rxStamp port mac))
    (o.count + 1 < max 1 e.readLen → Completes (.ethSampleDatagram port udp mac d) s fun t =>
      (t.strm e.number).cur = some { o with data := o.data ++ d, count := o.count + 1 } ∧ Within [] [.sns] s t) ∧
    (max 1 e.readLen ≤ o.count + 1 → (s.strm e.number).skip = 0 → Completes (.ethSampleDatagram port udp mac d) s fun t =>
      (t.strm e.number).cur = none ∧ (t.strm e.number).ready = (s.strm e.number).ready ++ [{ o with data := o.data ++ d, count := o.count + 1 }] ∧
      Within [] [.sns] s t)) ∧
  (∀ (n : Nat) (e : StreamEntry) (s : State), s.streamOf n 2 = some e →
    Completes (.spiDataReady n) s fun t => t.spiQueue e.port = s.spiQueue e.port ++ [(n, s.newSample n s.now)] ∧ Within [] [.sns] s t) ∧
  (∀ (n : Nat) (d : List Byte) (e : StreamEntry) (o : OpenSample) (l : List (Nat × OpenSample)) (s : State), s.streamOf n 2 = some e →
    s.spiQueue e.port = (n, o) :: l → (s.strm n).skip = 0 →
    Completes (.spiBurstDone n d) s fun t => t.spiQueue e.port = l ∧
      (t.strm n).ready = (s.strm n).ready ++ [{ o with data := sliceBytes d 0 e.readLen, count := 1 }] ∧ Within [] [.sns] s t) ∧
  (∀ (n : Nat) (d : List Byte) (e : StreamEntry) (s : State), s.streamOf n 2 = some e → (∀ x ∈ s.spiQueue e.port, x.1 ≠ n) →
    Completes (.spiBurstDone n d) s fun t => (t.strm n).skip = 2 ∧ (t.strm n).ready = (s.strm n).ready ∧
      t.fld .SNS_S_STATUS 7 0 n = 0xA) ∧
  (∀ (port addr : Nat) (e : StreamEntry) (s : State), s.streamBy 4 port addr = some e →
    Completes (.i3cIbi port addr) s fun t => (t.strm e.number).cur = some (s.newSample e.number s.now) ∧ Within [] [.sns] s t) ∧
  (∀ (port addr : Nat) (d : List Byte) (e : StreamEntry) (o : OpenSample) (s : State), s.streamBy 4 port addr = some e →
    (s.strm e.number).cur = some o → (s.strm e.number).skip = 0 →
    Completes (.i3cReadDone port addr d) s fun t => (t.strm e.number).cur = none ∧
      (t.strm e.number).ready = (s.strm e.number).ready ++ [{ o with data := sliceBytes d 0 e.readLen, count := 1 }] ∧ Within [] [.sns] s t) ∧
  (∀ (n : Nat) (l : List Nat) (e : StreamEntry) (s : State), s.streamOf n 3 = some e →
    let o := (s.strm n).cur.getD (s.newSample n s.now)
    (o.count + 1 < e.readLen → Completes (.tdmFrameSync n l) s fun t =>
      (t.strm n).cur = some { o with data := o.data ++ tdmFrame e l, count := o.count + 1 } ∧ Within [] [.sns] s t) ∧
    (e.readLen ≤ o.count + 1 → (s.strm n).skip = 0 → Completes (.tdmFrameSync n l) s fun t =>
      (t.strm n).cur = none ∧ (t.strm n).ready = (s.strm n).ready ++ [{ o with data := o.data ++ tdmFrame e l, count := o.count + 1 }] ∧
      Within [] [.sns] s t)) ∧
  (∀ (port n : Nat) (e : StreamEntry) (s : State), n < 32 → s.streamOf n 3 = some e → e.port = port →
    Completes (.tdmClockLoss port) s fun t => (t.strm n).cur = none ∧ (t.strm n).skip = 2 ∧ (t.strm n).ready = (s.strm n).ready ∧
      t.fld .SNS_S_STATUS 7 0 n = 0xA) ∧
  (∀ (n : Nat) (e : StreamEntry) (s : State), s.stream n = some e → e.source ≤ 1 → (s.strm n).cur.isSome = true →
    Completes (.sampleIncompleteTimeout n) s fun t => (t.strm n).cur = none ∧ t.fld .SNS_S_STATUS 7 0 n = 4 ∧
      t.rd .SNS_S_ERRORS n = (s.rd .SNS_S_ERRORS n + 1) % 2 ^ 32) ∧
  (∀ (port vc ecc : Nat) (s : State), s.streamBy 0 port vc = none →
    Completes (.csi2FrameStart port vc ecc) s fun t => t.rd .SNS_PORT_ERRORS = (s.rd .SNS_PORT_ERRORS + 1) % 2 ^ 32 ∧ t.sns = s.sns)

/-- R217 to R223. -/
def Obligations.SamplesWritten : Prop :=
  (∀ (a : Agent) (n : Nat) (on : Bool) (s : State), n < 32 → s.streamOwner n = some (s.agentPart a) → s.fencedEngine 4 (s.agentPart a) = false →
    s.bit .SNS_S_CTRL 31 n ≠ on → Completes (.snsEnable a n on) s fun t => t.resp.err = false ∧
      t.bit .SNS_S_CTRL 31 n = on ∧ t.bit .SNS_ACTIVE n = on ∧ (t.strm n).cur = none ∧ (t.strm n).ready = [] ∧
      (on = true → (t.strm n).next = 0) ∧ (∀ m, m ≠ n → t.strm m = s.strm m)) ∧
  (∀ (a : Agent) (n : Nat) (on : Bool) (s : State), n < 32 → s.streamOwner n ≠ some (s.agentPart a) →
    Completes (.snsEnable a n on) s fun t => t.resp.err = true ∧ Within recordRegs [.resp, .flt, .deep] s t ∧
      Recorded s t { cls := 0x02, part := s.agentPart a, source := a.code }) ∧
  (∀ (a : Agent) (n : Nat) (s : State), n < 32 → s.streamOwner n = some (s.agentPart a) → s.fencedEngine 4 (s.agentPart a) = false →
    Completes (.clearSuspect a n) s fun t => t.resp.err = false ∧ t.strmFlag n flagSuspect = false ∧ (t.strm n).disagree = 0) ∧
  (∀ (n : Nat) (s : State), n < 32 → s.bit .SNS_S_CTRL 31 n = true →
    Completes (.streamLostTimeout n) s fun t => t.strmFlag n flagLost = true ∧ t.strmRun n = false ∧
      Within [.SNS_S_STATUS, .SNS_S_EVENT] [] s t) ∧
  (∀ (n : Nat) (e : StreamEntry) (s : State), s.stream n = some e → s.strmFlag n flagUnsync = true → 2 * s.rd .SNS_S_UNC n < e.periodUs →
    Completes (.unsyncClearTimeout n) s fun t => t.strmFlag n flagUnsync = false ∧ Within [.SNS_S_STATUS, .SNS_S_EVENT] [] s t) ∧
  (∀ (n p : Nat) (e : StreamEntry) (o : OpenSample) (l : List OpenSample) (s : State), (s.strm n).ready = o :: l → s.stream n = some e →
    s.streamOwner n = some p → s.sleepingQuads e.bufBase e.ringSize = [] → s.bit .SNS_S_CTRL 31 n = true →
    (e.sampleBytes < o.data.length → Completes (.sampleWrite n) s fun t => (t.strm n).ready = l ∧ t.fld .SNS_S_STATUS 7 0 n = 5 ∧
      t.rd .SNS_S_SEQ n = s.rd .SNS_S_SEQ n ∧ SameMemory s t) ∧
    (∀ r, o.data.length ≤ e.sampleBytes → (s.strm n).lastRaw = some r → 2 * (o.raw - r) < e.periodUs * 1000 →
      Completes (.sampleWrite n) s fun t => (t.strm n).ready = l ∧ t.fld .SNS_S_STATUS 7 0 n = 6 ∧
      t.rd .SNS_S_SEQ n = s.rd .SNS_S_SEQ n ∧ SameMemory s t) ∧
    (∀ c, o.data.length ≤ e.sampleBytes → (∀ r, (s.strm n).lastRaw = some r → e.periodUs * 1000 ≤ 2 * (o.raw - r)) →
      e.timeSrc ≠ 0 → (s.strm n).lastSensor = some c → leAt o.data e.tsOff 8 ≤ c →
      Completes (.sampleWrite n) s fun t => (t.strm n).ready = l ∧ t.fld .SNS_S_STATUS 7 0 n = 8 ∧
      t.rd .SNS_S_SEQ n = s.rd .SNS_S_SEQ n ∧ SameMemory s t) ∧
    (∀ (x : Int) (unc : Nat) (old : Bool) (u : State), o.data.length ≤ e.sampleBytes →
      (∀ r, (s.strm n).lastRaw = some r → e.periodUs * 1000 ≤ 2 * (o.raw - r)) →
      (∀ c, e.timeSrc ≠ 0 → (s.strm n).lastSensor = some c → c < leAt o.data e.tsOff 8) →
      (s.setStrm n (fun r => { r with ready := l })).sampleTime n e o = (x, unc, old, u) →
      (e.timeSrc ≠ 0 → (x - s.robotAt o.raw).natAbs ≤ 1000000000) →
      s.verdict (.engine 4 p) true e.bufBase e.ringSize = .ok → e.bufBase + e.ringSize < deepBase → 0 < e.bufCount →
      (ringFree (s.strm n).next (s.getNum (e.bufBase + 4) 4) e.bufCount = true →
        let b := e.buffer ((s.strm n).next % e.bufCount)
        Completes (.sampleWrite n) s fun t => (t.strm n).ready = l ∧ (t.strm n).next = ((s.strm n).next + 1) % 2 ^ 32 ∧
          t.rd .SNS_S_SEQ n = (s.strm n).next % 2 ^ 32 ∧ t.rd .SNS_S_UNC n = min 0xFFFFFFFF unc ∧
          t.getBytes (b + 512) o.data.length = o.data ∧
          t.getBytes b 512 = sampleHeader n (o.marks + 4 * old.toNat) (s.strm n).next (x + sintOf 32 o.adj) o.raw (min 0xFFFFFFFF unc) o.data.length ∧
          t.getNum e.bufBase 4 = (s.getNum e.bufBase 4 + 1) % 2 ^ 32 ∧ SameMemoryBut e.bufBase e.ringSize s t) ∧
      (ringFree (s.strm n).next (s.getNum (e.bufBase + 4) 4) e.bufCount = false →
        Completes (.sampleWrite n) s fun t => (t.strm n).ready = l ∧ (t.strm n).next = (s.strm n).next ∧
          t.rd .SNS_S_DROPPED n = (s.rd .SNS_S_DROPPED n + 1) % 2 ^ 32 ∧ SameMemory s t)))

/-- R225 to R227, R229, R231, R233 to R235. -/
def Obligations.CrosswindWorks : Prop :=
  (∀ (p : Nat) (s : State), s.xwOwner = some p → s.bit .XW_IN_CTRL 31 = true → s.fencedEngine 5 p = false →
    let h := s.fld .XW_IN_HEAD 11 0
    let h' := (h + 1) % max 1 (s.fld .XW_IN_CTRL 11 0)
    (h = s.fld .XW_IN_TAIL 11 0 → Completes .xwInputEntry s fun t => t = s) ∧
    (h ≠ s.fld .XW_IN_TAIL 11 0 → s.sleepingQuads (s.rd64 .XW_IN_BASE_LO + 32 * h) 32 = [] →
      (∀ u, s.engineRead (.engine 5 p) (s.rd64 .XW_IN_BASE_LO + 32 * h) 32 = (none, u) →
        Completes .xwInputEntry s fun t => t.fld .XW_IN_HEAD 11 0 = h' ∧ t.xw = s.xw ∧ SameMemory s t) ∧
      (∀ e u, s.engineRead (.engine 5 p) (s.rd64 .XW_IN_BASE_LO + 32 * h) 32 = (some e, u) →
        (entryKind e s.gridSize = none → Completes .xwInputEntry s fun t => t.fld .XW_IN_HEAD 11 0 = h' ∧ t.xw = s.xw ∧ SameMemory s t) ∧
        (∀ kind len, entryKind e s.gridSize = some (kind, len) →
          ((∀ r ∈ (s.strm (leAt e 1 1)).recs, r.seq ≠ leAt e 4 4) →
            Completes .xwInputEntry s fun t => t.fld .XW_IN_HEAD 11 0 = h' ∧ t.bit .XW_EVENT 5 = true ∧ t.xw = s.xw) ∧
          (∀ r d v pose, (s.strm (leAt e 1 1)).recs.find? (fun r => r.seq == leAt e 4 4) = some r →
            s.strmFlag (leAt e 1 1) flagUnsync = false → s.strmFlag (leAt e 1 1) flagSuspect = false → s.aligned (leAt e 1 1) r.unc = true →
            u.fetch (.engine 5 p) (leAt e 8 8) len = (some d, v) → v.checksOk (leAt e 8 8) len = true →
            v.readPoses.poseAt r.capture = some pose → (∀ m, s.xw.last = some m → (m : Int) < s.instantOf r.capture) →
            Completes .xwInputEntry s fun t => t.fld .XW_IN_HEAD 11 0 = h' ∧ t.xw = { s.xw with waiting := s.xw.waiting ++
              [{ stream := leAt e 1 1, capture := r.capture, pose, instant := s.instantOf r.capture, kind, data := d }] }))))) ∧
  (∀ (k : Nat) (s : State),
    (s.mayEmit k = true → s.awaited.all (s.contributed k) = true →
      Completes (.instantEmit k) s fun t => Within [] [.xw] s t ∧ t.xw.last = some k ∧
        t.xw.emission = some { instant := k, contribs := s.xw.waiting.filter (fun c => decide (c.instant ≤ (k : Int))), missing := 0 } ∧
        t.xw.waiting = s.xw.waiting.filter (fun c => decide ((k : Int) < c.instant))) ∧
    (s.mayEmit k = false ∨ s.awaited.all (s.contributed k) = false → Completes (.instantEmit k) s fun t => t = s) ∧
    (s.mayEmit k = true → Completes (.gridHoldExpiry k) s fun t => Within [] [.xw] s t ∧ t.xw.last = some k ∧
      ∃ e, t.xw.emission = some e ∧ e.instant = k ∧ e.contribs = s.xw.waiting.filter (fun c => decide (c.instant ≤ (k : Int))) ∧
        ∀ n, bitOf e.missing n = true ↔ n ∈ s.awaited ∧ s.contributed k n = false) ∧
    (s.mayEmit k = false → Completes (.gridHoldExpiry k) s fun t => t = s)) ∧
  (∀ s : State, (∀ e, s.xw.emission = some e → Completes .auctionTimeout s fun t =>
      t.xw = { s.xw with emission := some { e with trunc := true } } ∧ t.bit .XW_EVENT 4 = true ∧ Within [.XW_EVENT] [.xw] s t) ∧
    (s.xw.emission = none → Completes .auctionTimeout s fun t => t = s)) ∧
  (∀ (e : Emission) (p : Nat) (s : State), s.xw.emission = some e → s.xwOwner = some p →
    let base := s.rd64 .XW_OUT_BASE_LO
    let count := s.fld .XW_OUT_CTRL 3 0
    let size := 512 + count * s.bufferBytes
    let k := s.getNum base 4
    (s.verdict (.engine 5 p) true base size ≠ .ok → Completes .emissionDone s fun t => t.xw = { s.xw with emission := none } ∧ SameMemory s t ∧
      t.rd .XW_INSTANT = s.rd .XW_INSTANT) ∧
    (s.verdict (.engine 5 p) true base size = .ok → s.sleepingQuads base size = [] → ringFree k (s.getNum (base + 4) 4) count = false →
      Completes .emissionDone s fun t => t = s) ∧
    (s.verdict (.engine 5 p) true base size = .ok → s.sleepingQuads base size = [] → ringFree k (s.getNum (base + 4) 4) count = true →
      base + size ≤ deepBase → Completes .emissionDone s fun t => t.xw.emission = none ∧ t.xw.lastEmit = some s.now ∧ t.xw.gridDown = false ∧
        t.rd .XW_INSTANT = (s.rd .XW_INSTANT + 1) % 2 ^ 32 ∧ t.getBytes base 4 = bytesLE 4 (k + 1) ∧
        let x := base + 512 + k % max 1 count * s.bufferBytes
        ∀ a, ¬ (base ≤ a ∧ a < base + 4) → ¬ (x ≤ a ∧ a < x + s.bufferBytes) → t.getByte a = s.getByte a)) ∧
  (∀ s : State, Completes .proxTick s fun t => SameMemory s t ∧ t.xw.proxDown = false ∧
    (∀ j, j < 16 → t.fld .XW_PROX_SEC (16 * (j % 2) + 15) (16 * (j % 2)) (j / 2) = (s.readProx.sectorDistances.getD j none).getD 0xFFFF) ∧
    s.fld .XW_LEVEL 31 28 ≤ t.fld .XW_LEVEL 31 28 ∧ (s.fld .XW_LEVEL 31 28 < t.fld .XW_LEVEL 31 28 → t.bit .XW_EVENT 0 = true)) ∧
  (∀ s : State,
    (s.dueLevel.1 < s.fld .XW_LEVEL 31 28 → Completes .levelHoldExpiry s fun t => t.fld .XW_LEVEL 31 28 = s.fld .XW_LEVEL 31 28 - 1 ∧
      t.bit .XW_EVENT 0 = true ∧ Within [.XW_LEVEL, .XW_EVENT] [] s t) ∧
    (s.fld .XW_LEVEL 31 28 ≤ s.dueLevel.1 → Completes .levelHoldExpiry s fun t => t = s))

/-- R240 to R247, R254. -/
def Obligations.VeerQueries : Prop :=
  (∀ (k : Nat) (c : Instr) (s : State), (k, c) ∈ [(1, Instr.goal), (2, .arm), (3, .cancel), (4, .modelLoad), (5, .voxels), (6, .layerMode), (7, .mapCopy)] →
    (s.veerFront = none → Completes c s fun t => t = s) ∧
    (∀ p q u, s.veerFront = some (p, q, u) → k ≠ 2 ∨ s.veer.armRun = none →
      (q.kind ≠ k → 1 ≤ q.kind → q.kind ≤ 7 → Completes c s fun t => t = s) ∧
      (q.bad = true → q.kind = k ∨ q.kind = 0 ∨ 7 < q.kind → Completes c s fun t => t.veer = s.veer ∧
        t.fld .VEER_Q_HEAD 7 0 = (s.fld .VEER_Q_HEAD 7 0 + 1) % max 1 (s.fld .VEER_Q_CTRL 7 0) ∧
        (s.veerEntry q.slot + 0x40 ≤ deepBase → SameMemoryBut (s.veerEntry q.slot + 0x3C) 4 s t ∧
          ((u.veerAdvance.put (.engine 7 p) (s.veerEntry q.slot + 0x3C) (bytesLE 4 0x80000009)).1 = true →
            t.getBytes (s.veerEntry q.slot + 0x3C) 4 = bytesLE 4 0x80000009))))) ∧
  (∀ (p : Nat) (q : VeerQuery) (u s : State), s.veerFront = some (p, q, u) → q.bad = false →
    let e := s.veerEntry q.slot
    let v := u.veerAdvance
    let taken (t : State) : Prop := t.fld .VEER_Q_HEAD 7 0 = (s.fld .VEER_Q_HEAD 7 0 + 1) % max 1 (s.fld .VEER_Q_CTRL 7 0)
    (q.kind = 1 → Completes .goal s fun t => taken t ∧ t.veer.goal = some q ∧ t.veer.path = [] ∧
      (s.veer.globalRun = none → t.veer.goalWaits = true)) ∧
    (q.kind = 2 → s.veer.armRun = none →
      (q.arg < 2 ∨ 64 < q.arg → Completes .arm s fun t => taken t ∧ t.veer = s.veer) ∧
      (2 ≤ q.arg → q.arg ≤ 64 → s.veer.epoch = none → Completes .arm s fun t => taken t ∧ t.veer = s.veer) ∧
      (∀ ep d w, 2 ≤ q.arg → q.arg ≤ 64 → s.veer.epoch = some ep → v.fetch (.engine 7 p) q.addr 128 = (some d, w) →
        ep.passes s.lethal w.startConfig.1 (joints16 w.startConfig.2) = true →
        ep.passes s.lethal w.startConfig.1 ((List.range 32).map (fun k => fixedOf32 (leAt d (4 * k) 4))) = true →
        Completes .arm s fun t => taken t ∧ t.veer = { s.veer with armRun := some (q, ep) })) ∧
    (q.kind = 3 → Completes .cancel s fun t => taken t ∧
      (∀ g, s.veer.goal = some g → g.id = q.arg → t.veer.goal = none ∧ t.veer.globalRun = none ∧ t.veer.stopNext = true) ∧
      ((∀ g, s.veer.goal = some g → g.id ≠ q.arg) → t.veer.goal = s.veer.goal ∧ t.veer.stopNext = s.veer.stopNext) ∧
      (∀ r ep, s.veer.armRun = some (r, ep) → t.veer.armRun = if r.id = q.arg then none else s.veer.armRun)) ∧
    (q.kind = 4 → ∀ h b w x, v.veerRead p q.addr 16 = (some h, w) → w.veerRead p (q.addr + 16) (32 * leAt h 1 1 + 16 * leAt h 2 1) = (some b, x) →
      Completes .modelLoad s fun t => taken t ∧ t.veer = (match readModel h b with | some m => { s.veer with model := some m } | none => s.veer)) ∧
    (q.kind = 5 → ∀ d w, v.veerRead p q.addr 0x100000 = (some d, w) →
      Completes .voxels s fun t => taken t ∧ 
        let grid : VoxelGrid := { corner := [q.words.getD 4 0, q.words.getD 5 0, q.words.getD 6 0]
                                  occupied := (d.zipIdx.map (fun b => (bitsSet 8 b.1.toNat).map (fun k => 8 * b.2 + k))).flatten }
        t.veer = { s.veer with voxels := some grid }) ∧
    (q.kind = 6 → q.arg = 5 ∨ q.arg = 6 → ∀ d w, v.veerRead p q.addr 0x40000 = (some d, w) →
      Completes .layerMode s fun t => taken t ∧
        t.veer = { s.veer with users := alSet s.veer.users q.arg ((d.zipIdx.filter (fun b => b.1 ≠ 0)).map (fun b => (b.2, b.1.toNat))) }) ∧
    (q.kind = 6 → q.arg ≠ 5 → q.arg ≠ 6 → Completes .layerMode s fun t => taken t ∧ t.veer = s.veer) ∧
    (q.kind = 7 → ∀ ep, s.veer.epoch = some ep → q.arg ≤ 255 →
      let data := ((bitsSet 8 q.arg).map (fun k => Plane.bytes (ep.layer k))).flatten
      (v.put (.engine 7 p) q.addr data).1 = true → q.addr + data.length ≤ deepBase → e + 0x40 ≤ deepBase →
      ¬ rangesMeet q.addr data.length (e + 0x3C) 4 →
      Completes .mapCopy s fun t => taken t ∧ t.veer = s.veer ∧ t.getBytes q.addr data.length = data ∧
        ∀ x, ¬ (q.addr ≤ x ∧ x < q.addr + data.length) → ¬ (e + 0x3C ≤ x ∧ x < e + 0x40) → t.getByte x = s.getByte x)) ∧
  (∀ (p : Nat) (f : Fused) (s : State), s.veerOwner = some p → s.veer.opening = some f →
    let b := s.buildEpoch p f
    Completes .epochPublished s fun t => t.veer = { s.veer with epoch := some b.1, opening := none, users := [], lostAt := none } ∧
      b.1.number = (s.rd .VEER_EPOCH + 1) % 2 ^ 32 ∧ t.rd .VEER_EPOCH = b.1.number ∧ t.fld .VEER_ORIGIN 31 16 = uintOf 16 b.1.ox ∧
      t.fld .VEER_ORIGIN 15 0 = uintOf 16 b.1.oy ∧ (b.2 = true → t.bit .VEER_EVENT 3 = true) ∧ SameMemory s t) ∧
  (∀ s : State, s.veerOwner = none ∨ s.veer.opening = none → Completes .epochPublished s fun t => t = s)

/-- R248 to R254. -/
def Obligations.VeerSearches : Prop :=
  (∀ (p : Nat) (s : State), s.veerOwner = some p →
    (s.veer.globalRun.isSome = true → Completes .globalTick s fun t => t = s) ∧
    (∀ q e, s.veer.globalRun = none → s.veer.goal = some q → s.veer.epoch = some e →
      (s.blocked e q = none → Completes .globalTick s fun t => t = { s with veer := { s.veer with globalRun := some e } }) ∧
      (∀ code, s.blocked e q = some code → Completes .globalTick s fun t => t.veer.globalRun = none ∧ t.fld .VEER_STATUS 31 24 = code ∧
        t.bit .VEER_EVENT 0 = true ∧ t.veer.goal = some q ∧ t.veer.goalWaits = false)) ∧
    (∀ e q, s.veer.globalRun = some e → s.veer.goal = some q →
      (s.globalPath p e q ≠ [] → Completes .globalDone s fun t => t.veer.path = s.globalPath p e q ∧ t.veer.globalRun = none ∧
        t.fld .VEER_STATUS 31 24 = 0 ∧ t.veer.goalWaits = false ∧ t.veer.stopNext = s.veer.stopNext) ∧
      (s.globalPath p e q = [] → Completes .globalDone s fun t => t.veer.path = s.veer.path ∧ t.veer.globalRun = none ∧
        t.fld .VEER_STATUS 31 24 = 4 ∧ t.bit .VEER_EVENT 0 = true) ∧
      Completes (.stageTimeout .globalSearch) s fun t => t.veer.globalRun = none ∧ t.fld .VEER_STATUS 31 24 = 5 ∧ t.bit .VEER_EVENT 1 = true) ∧
    (∀ q e, s.veer.goal = some q → s.veer.epoch = some e → s.veer.repairRun = none →
      (e.passes s.lethal s.startConfig.1 (joints16 s.startConfig.2) = true →
        Completes .repairTick s fun t => t = { s with veer := { s.veer with repairRun := some e } }) ∧
      (e.passes s.lethal s.startConfig.1 (joints16 s.startConfig.2) = false →
        Completes .repairTick s fun t => t.veer.repairRun = none ∧ t.fld .VEER_STATUS 23 16 = 6 ∧ t.bit .VEER_EVENT 0 = true ∧ SameMemory s t)) ∧
    (∀ e, s.veer.repairRun = some e →
      (Completes .repairDone s fun t => t.veer.repairRun = none ∧ t.veer.candidates.length ≤ 8 ∧ (∀ x ∈ t.veer.candidates, e.keepsLimits x = true) ∧
        t.fld .VEER_STATUS 23 16 = (if t.veer.candidates = [] then 4 else 0) ∧ SameMemory s t) ∧
      Completes (.stageTimeout .repair) s fun t => t.veer.repairRun = none ∧ t.fld .VEER_STATUS 23 16 = 5 ∧ t.bit .VEER_EVENT 1 = true) ∧
    (∀ q e, s.veer.armRun = some (q, e) →
      let c := s.startConfig
      let path := (Config.armWaypoints c.2 ((List.range 32).map (fun k => s.getNum (q.addr + 4 * k) 4)) q.arg).take q.arg
      (path = [] ∨ e.armPasses s.lethal c.1 c.2 path = false → Completes .armSearchDone s fun t => t.veer = { s.veer with armRun := none } ∧
        t.bit .VEER_EVENT 0 = true) ∧
      (path ≠ [] → e.armPasses s.lethal c.1 c.2 path = true → Completes .armSearchDone s fun t => t.veer.armRun = none ∧
        (t.veer.armPath = path ∨ t.veer.armPath = s.veer.armPath)) ∧
      Completes (.stageTimeout .arm) s fun t => t.veer = { s.veer with armRun := none } ∧ t.bit .VEER_EVENT 1 = true) ∧
    (s.bit .VEER_OUT_CTRL 31 = false → Completes .outputTick s fun t => t = s) ∧
    (s.bit .VEER_OUT_CTRL 31 = true →
      let base := s.rd64 .VEER_OUT_BASE_LO
      let n := s.fld .VEER_OUT_CTRL 3 0
      let k := s.getNum base 4
      let room : Bool := s.verdict (.engine 7 p) true base (512 + n * 5120) == .ok && ringFree k (s.getNum (base + 4) 4) n
      let emitted (t : State) : Prop := t.veer.seq = (s.veer.seq + 1) % 2 ^ 32 ∧ t.veer.stopNext = false ∧ t.getBytes base 4 = bytesLE 4 (k + 1) ∧
        ∀ a, ¬ (base ≤ a ∧ a < base + 512 + n * 5120) → t.getByte a = s.getByte a
      (s.veer.epoch = none → s.veer.lostAt = none → Completes .outputTick s fun t => t.fld .VEER_STATUS 15 8 = 0xB ∧ t.veer = s.veer ∧ SameMemory s t) ∧
      (∀ e, s.veer.epoch = some e →
        (e.model = none → Completes .outputTick s fun t => t.fld .VEER_STATUS 15 8 = 0xB ∧ t.veer = s.veer ∧ SameMemory s t) ∧
        (e.model.isSome = true → s.fld .XW_LEVEL 31 28 = 4 ∨ s.fld .WB_STATUS 31 29 = 2 ∨ s.veer.stopNext = true →
          Completes .outputTick s fun t => t.fld .VEER_STATUS 15 8 = 3 ∧ t.fld .VEER_STATUS 3 0 = 9 ∧ t.bit .VEER_EVENT 2 = true ∧
            (room = true → base + 512 + n * 5120 ≤ deepBase → emitted t) ∧ (room = false → t.bit .VEER_EVENT 4 = true ∧ t.veer = s.veer ∧ SameMemory s t)) ∧
        (e.model.isSome = true → s.fld .XW_LEVEL 31 28 ≠ 4 → s.fld .WB_STATUS 31 29 ≠ 2 → s.veer.stopNext = false →
          let all := (s.veer.candidates.zipIdx.map (fun x => (x.1.advance s.robotNow, x.2))) ++
            (match s.veer.last with | some x => [(x.advance s.robotNow, 8)] | none => [])
          (∀ x rank, all.find? (fun x => s.validTraj e x.1) = some (x, rank) → rank < 9 →
            Completes .outputTick s fun t => t.fld .VEER_STATUS 15 8 = (if rank = 0 then 0 else if rank = 8 then 2 else 1) ∧ t.fld .VEER_STATUS 3 0 = rank ∧
              (room = true → base + 512 + n * 5120 ≤ deepBase → emitted t ∧ t.veer.last = some x)) ∧
          (all.find? (fun x => s.validTraj e x.1) = none → Completes .outputTick s fun t => t.fld .VEER_STATUS 15 8 = 3 ∧ t.fld .VEER_STATUS 3 0 = 9 ∧
            t.bit .VEER_EVENT 2 = true)))))

/-- R278 to R280, R290. -/
def Obligations.RobotTime : Prop :=
  (∀ (a : Agent) (v : Word) (s : State), s.accessFenced a (some 10) = false → s.agentPart a = s.ctrl → s.ctrl ≠ 0xFF →
    (∀ x, s.time.robot.head? = some x → x.since ≤ s.now) →
    (-slewRate ≤ v.toInt → v.toInt ≤ slewRate → s.robotSource = 0 → Completes (.robRateWrite a v) s fun t => t.resp.err = false ∧
      t.rd .TIME_ROB_RATE = v.toNat ∧ t.time.robotRate = v.toInt ∧ t.time.adj = s.time.adj ∧ t.robotNow = s.robotNow ∧
      Within [.TIME_ROB_RATE, .TIME_B_RATE] [.resp, .time] s t) ∧
    (v.toInt < -slewRate ∨ slewRate < v.toInt ∨ s.robotSource ≠ 0 → Completes (.robRateWrite a v) s fun t => t.resp.err = true ∧
      Within recordRegs [.resp, .flt, .deep] s t ∧ Recorded s t { cls := 0x05, part := s.agentPart a, source := 0x200A }) ∧
    Completes (.robAdjWrite a v) s fun t => t.resp.err = false ∧ t.rd .TIME_ROB_ADJ = v.toNat ∧ t.time.adj = v.toInt ∧ t.time.adjAt = s.now ∧
      t.bit .TIME_ROB_STATUS 27 = decide (v ≠ 0) ∧ t.time.robotRate = s.time.robotRate ∧ t.robotNow = s.robotNow ∧
      Within [.TIME_ROB_ADJ, .TIME_B_RATE, .TIME_ROB_STATUS] [.resp, .time] s t) ∧
  (∀ (a : Agent) (v : Word) (s : State), s.accessFenced a (some 10) = false → s.agentPart a ≠ s.ctrl ∨ s.ctrl = 0xFF →
    ∀ c ∈ [Instr.robRateWrite a v, .robAdjWrite a v, .timeSnap a], Completes c s fun t => t.resp.err = true ∧
      Within recordRegs [.resp, .flt, .deep] s t ∧ Recorded s t { cls := 0x02, part := s.agentPart a, source := a.code }) ∧
  (∀ s : State,
    (s.time.adj = 0 ∨ s.adjLeft ≠ 0 → Completes .slewDone s fun t => t = s) ∧
    (s.time.adj ≠ 0 → s.adjLeft = 0 → Completes .slewDone s fun t => t.time.adj = 0 ∧ t.rd .TIME_ROB_ADJ = 0 ∧ t.bit .TIME_ROB_STATUS 27 = false ∧
      t.bit .TIME_EVENT 0 = true ∧ t.time.robotRate = s.time.robotRate ∧
      Within [.TIME_ROB_ADJ, .TIME_B_RATE, .TIME_ROB_STATUS, .TIME_EVENT] [.time] s t)) ∧
  (∀ (a : Agent) (s : State), s.accessFenced a (some 10) = false → s.agentPart a = s.ctrl → s.ctrl ≠ 0xFF →
    Completes (.timeSnap a) s fun t => t.resp.err = false ∧ Within [.TIME_SNAPJ_LO, .TIME_SNAPJ_HI] [.resp] s t ∧
      t.rd64 .TIME_SNAPJ_LO 0 = s.now % 2 ^ 64 ∧ t.rd64 .TIME_SNAPJ_LO 1 = s.robotNow ∧
      ∀ k, 1 ≤ k → k ≤ 4 → t.rd64 .TIME_SNAPJ_LO (k + 1) = s.baseNow k)

/-- R282 to R286. -/
def Obligations.PtpMessages : Prop :=
  (∀ (k : Nat) (m : PtpMsg) (an : Announce) (two : Bool) (s : State), 1 ≤ k → k ≤ 4 → s.time.bases.length = 4 →
    (∀ kind c, (kind, c) ∈ [(0, Instr.ptpSyncRx k m two), (8, .ptpFollowUpRx k m), (11, .ptpAnnounceRx k m an), (9, .ptpDelayRespRx k m),
        (1, .ptpDelayReqRx k m), (2, .ptpPdelayReqRx k m), (3, .ptpPdelayRespRx k m)] →
      (s.baseState k = tbOff ∨ bitOf (s.tbase k).entry.portMask m.port = false → Completes c s fun t => t = s) ∧
      (s.baseState k ≠ tbOff → bitOf (s.tbase k).entry.portMask m.port = true →
        m.version ≠ 2 ∨ m.domain ≠ (s.tbase k).entry.domain ∨ m.lengthOk = false →
        Completes c s fun t => t.rd .TIME_B_ERRORS k = (s.rd .TIME_B_ERRORS k + 1) % 2 ^ 32 ∧ t.fld .TIME_B_STATUS 23 16 k = 2 ∧
          t.bit .TIME_EVENT 4 = true ∧ t.time = s.time ∧ t.baseState k = s.baseState k)) ∧
    (∀ u, s.ptpTake k 0 m = (true, u) →
      (s.fromMaster k m = false → Completes (.ptpSyncRx k m two) s fun t => t = u) ∧
      (s.fromMaster k m = true → (s.tbase k).sync = none → Completes (.ptpSyncRx k m true) s fun t =>
        t.tbase k = { u.tbase k with sync := some (m.seq, s.rxStamp m.port m.mac, m.port) } ∧ t.baseState k = s.baseState k) ∧
      (s.fromMaster k m = true → (s.tbase k).entry.mode ≠ 2 → s.baseState k = tbListening → m.port < 16 →
        Completes (.ptpSyncRx k m false) s fun t => t.baseState k = tbLocking ∧ t.fld .TIME_B_STATUS 27 24 k = m.port ∧
          t.baseAt k t.now = m.time + (s.tbase k).meanDelay + sintOf 16 (s.fld .TIME_B_ASYM 31 16 k) + ((s.now : Int) - s.rxStamp m.port m.mac))) ∧
    (∀ u, s.ptpTake k 8 m = (true, u) → s.fromMaster k m = true →
      (∀ seq stamp port, (s.tbase k).sync = some (seq, stamp, port) → seq = m.seq → port = m.port → s.followUpLate k = false →
        s.baseState k = tbListening → m.port < 16 → Completes (.ptpFollowUpRx k m) s fun t => t.baseState k = tbLocking ∧ (t.tbase k).sync = none ∧
          t.baseAt k t.now = m.time + (s.tbase k).meanDelay + sintOf 16 (s.fld .TIME_B_ASYM 31 16 k) + ((s.now : Int) - stamp)) ∧
      (∀ seq stamp port, (s.tbase k).sync = some (seq, stamp, port) → seq ≠ m.seq ∨ port ≠ m.port ∨ s.followUpLate k = true →
        Completes (.ptpFollowUpRx k m) s fun t => (t.tbase k).sync = none ∧ t.fld .TIME_B_STATUS 23 16 k = 1 ∧ t.baseState k = s.baseState k)) ∧
    (∀ u, s.ptpTake k 11 m = (true, u) → (s.tbase k).entry.role = 0 → (s.tbase k).disqualified.contains an.identity = false →
      ((s.tbase k).best = none → m.port < 16 → Completes (.ptpAnnounceRx k m an) s fun t => (t.tbase k).best = some (an, m.port) ∧
        t.fld .TIME_B_STATUS 27 24 k = m.port) ∧
      (∀ x q, (s.tbase k).best = some (x, q) → x.identity ≠ an.identity → betterMaster an x = false →
        Completes (.ptpAnnounceRx k m an) s fun t => t = u)) ∧
    (∀ u, s.ptpTake k 9 m = (true, u) → s.fromMaster k m = true → ∀ t1 t2 t3, (s.tbase k).delayReq = some (m.seq, t3) → (s.tbase k).lastSync = some (t1, t2) →
      let d := quotEven ((s.baseAt k t2 - t1) + (m.time - s.baseAt k t3)) 2
      Completes (.ptpDelayRespRx k m) s fun t => (t.tbase k).delayReq = none ∧
        (t.tbase k).meanDelay = (if d < 0 ∨ 100000 < d then (s.tbase k).meanDelay else d) ∧ (d < 0 ∨ 100000 < d → t.fld .TIME_B_STATUS 23 16 k = 3)) ∧
    (∀ u, s.ptpTake k 3 m = (true, u) → ∀ t1, (s.tbase k).pdelayReq.find? (fun r => r.1 == m.port && r.2.1 == m.seq) = some (m.port, m.seq, t1) →
      (s.tbase k).peers.find? (fun p => p.port == m.port) = none →
      let d := quotEven ((s.rxStamp m.port m.mac : Int) - t1 - m.time) 2
      Completes (.ptpPdelayRespRx k m) s fun t => (t.tbase k).meanDelay = (if d < 0 ∨ 100000 < d then (s.tbase k).meanDelay else d) ∧
        (d < 0 ∨ 100000 < d → t.fld .TIME_B_STATUS 23 16 k = 3)) ∧
    (∀ u, s.ptpTake k 1 m = (true, u) → (s.tbase k).entry.mode = 1 → (s.servedPorts k).contains m.port = true →
      Completes (.ptpDelayReqRx k m) s fun t => t.time.sent = s.time.sent ++
        [⟨k, 9, m.port, m.seq, s.baseAt k (s.rxStamp m.port m.mac), s.txStamp m.port s.now⟩]) ∧
    (∀ u, s.ptpTake k 2 m = (true, u) → (s.tbase k).entry.mode = 2 → Completes (.ptpPdelayReqRx k m) s fun t => t.time.sent = s.time.sent ++
      [⟨k, 3, m.port, m.seq, (s.txStamp m.port s.now : Int) - s.rxStamp m.port m.mac, s.txStamp m.port s.now⟩])) ∧
  (∀ (k : Nat) (s : State), 1 ≤ k → k ≤ 4 → s.time.bases.length = 4 →
    (s.baseState k = tbOff → ∀ c ∈ [Instr.ptpSyncInterval k, .ptpAnnounceInterval k, .ptpDelayReqInterval k], Completes c s fun t => t = s) ∧
    (s.baseState k ≠ tbOff →
      let q := (s.tbase k).txSeq
      (Completes (.ptpSyncInterval k) s fun t => (t.tbase k).txSeq = (q + 1) % 0x10000 ∧
        t.time.sent = s.time.sent ++ (s.servedPorts k).flatMap (fun p =>
          [⟨k, 0, p, q, s.baseAt k (s.txStamp p s.now), s.txStamp p s.now⟩, ⟨k, 8, p, q, s.baseAt k (s.txStamp p s.now), s.txStamp p s.now⟩])) ∧
      (Completes (.ptpAnnounceInterval k) s fun t => (t.tbase k).txSeq = (q + 1) % 0x10000 ∧
        t.time.sent = s.time.sent ++ (s.servedPorts k).map (fun p => ⟨k, 11, p, q, s.baseAt k s.now, s.txStamp p s.now⟩)) ∧
      ((s.tbase k).entry.mode = 2 → Completes (.ptpDelayReqInterval k) s fun t => (t.tbase k).txSeq = (q + 1) % 0x10000 ∧
        t.time.sent = s.time.sent ++ (bitsSet 8 (s.tbase k).entry.portMask).map (fun p => ⟨k, 2, p, q, 0, s.txStamp p s.now⟩)) ∧
      (∀ an port, (s.tbase k).entry.mode ≠ 2 → (s.tbase k).best = some (an, port) → Completes (.ptpDelayReqInterval k) s fun t =>
        (t.tbase k).delayReq = some (q, s.txStamp port s.now) ∧ t.time.sent = s.time.sent ++ [⟨k, 1, port, q, 0, s.txStamp port s.now⟩])) ∧
    (s.baseState k = tbListening → (s.tbase k).entry.role = 2 → Completes (.announceTimeout k) s fun t => t.baseState k = tbMaster ∧
      (t.tbase k).best = none ∧ t.rd .TIME_B_RATE k = uintOf 32 s.time.robotRate) ∧
    (s.baseState k = tbLocked → Completes (.announceTimeout k) s fun t => t.baseState k = tbHoldover ∧ (t.tbase k).best = none ∧
      (t.tbase k).lostAt = s.now ∧ t.bit .TIME_EVENT 2 = true) ∧
    (s.baseState k = tbLocking → Completes (.announceTimeout k) s fun t => t.baseState k = tbListening ∧ (t.tbase k).best = none) ∧
    (s.baseState k = tbHoldover → Completes (.holdoverExpiry k) s fun t => t.baseState k = tbFreerun ∧ t.time = s.time) ∧
    (s.baseState k ≠ tbHoldover → Completes (.holdoverExpiry k) s fun t => t = s) ∧
    ∀ sender, Completes (.masterDisqualifyExpiry k sender) s fun t => Within [] [.time] s t ∧
      (t.tbase k).disqualified = (s.tbase k).disqualified.filter (· != sender))

/-- R291 to R294, R299, R301. -/
def Obligations.EthernetSwitch : Prop :=
  (∀ (n : Nat) (frame : List Byte) (ok : Bool) (s : State),
    let dropped (t : State) : Prop := t.rd .NET_P_ERRORS n = (s.rd .NET_P_ERRORS n + 1) % 2 ^ 32 ∧ t.bit .NET_P_EVENT 2 n = true ∧ t.net.queues = s.net.queues
    let badLength : Prop := frame.length < 60 ∨ s.fld .NET_CFG 13 0 < frame.length + 4
    (s.netUp n = false → Completes (.ethFrameRx n frame ok) s fun t => t = s) ∧
    (s.netUp n = true → ok = false ∨ badLength → Completes (.ethFrameRx n frame ok) s fun t => dropped t ∧ Within [.NET_P_ERRORS, .NET_P_EVENT] [] s t) ∧
    (s.netUp n = true → ok = true → ¬ badLength → beAt frame 12 2 = 0x8808 → Completes (.ethFrameRx n frame ok) s fun t => dropped t ∧
      (alGet s.flt.rates { cls := 0x0C, code := 3, unit := n } = none → Recorded s t { cls := 0x0C, part := (s.netOwner n).getD 0xFF, source := 0x4000 + n, detail := 3 })) ∧
    (s.netUp n = true → ok = true → ¬ badLength → beAt frame 12 2 ≠ 0x8808 → s.netVlan n (frameVid frame) = false →
      Completes (.ethFrameRx n frame ok) s fun t => dropped t ∧
        (alGet s.flt.rates { cls := 0x0C, code := 2, unit := n } = none → Recorded s t { cls := 0x0C, part := (s.netOwner n).getD 0xFF, source := 0x4000 + n, detail := 2 })) ∧
    (s.netUp n = true → ok = true → ¬ badLength → beAt frame 12 2 ≠ 0x8808 → s.netVlan n (frameVid frame) = true →
      (∀ k q, s.frerOf (frameVid frame) = some k → s.bit .NET_CB 30 k = true → rtagSeq frame = some q →
        (recover (s.fld .NET_CB 28 24 k + 1) (alGet s.net.recovery k) q).2 = false → Completes (.ethFrameRx n frame ok) s fun t => dropped t) ∧
      (s.frerOf (frameVid frame) = none →
        let out := (s.learn (frameVid frame) (beAt frame 6 6) n).egressPorts n frame none
        Completes (.ethFrameRx n frame ok) s fun t => Within [] [.net, .free] s t ∧
          ∀ m, (alGet t.net.queues m).getD [] = (alGet s.net.queues m).getD [] ++
            (if m ∈ out then [{ cls := frameClass frame, vid := frameVid frame, data := frame, source := n }] else [])))) ∧
  (∀ (a : Agent) (n : Nat) (s : State), n < 12 → s.accessFenced a (some 11) = false →
    (s.netOwner n = some (s.agentPart a) → s.adminOk n = true → Completes (.gateListGo a n) s fun t => t.resp.err = false ∧
      t.bit .NET_P_GATE_CTRL 30 n = true ∧ alGet t.net.admin n = some (s.adminList n) ∧ t.net.oper = s.net.oper ∧ Within [.NET_P_GATE_CTRL] [.resp, .net] s t) ∧
    (s.netOwner n = some (s.agentPart a) → s.adminOk n = false → Completes (.gateListGo a n) s fun t => t.resp.err = true ∧
      Within recordRegs [.resp, .flt, .deep] s t ∧ Recorded s t { cls := 0x05, part := s.agentPart a, source := 0x200B }) ∧
    (s.netOwner n ≠ some (s.agentPart a) → Completes (.gateListGo a n) s fun t => t.resp.err = true ∧
      Within recordRegs [.resp, .flt, .deep] s t ∧ Recorded s t { cls := 0x02, part := s.agentPart a, source := a.code, address := 0xE01010 + 0x800 * n })) ∧
  (∀ (n : Nat) (s : State),
    (∀ g, alGet s.net.admin n = some g →
      (s.robotNow < g.start → Completes (.configChange n) s fun t => t = s) ∧
      (g.start ≤ s.robotNow → Completes (.configChange n) s fun t => alGet t.net.admin n = none ∧
        alGet t.net.oper n = some { g with index := 0, until_ := g.start + (g.entries.headD (0, 0)).2 } ∧
        t.bit .NET_P_GATE_CTRL 30 n = false ∧ t.bit .NET_P_EVENT 1 n = true ∧ Within [.NET_P_GATE_CTRL, .NET_P_EVENT] [.net] s t)) ∧
    (alGet s.net.admin n = none → Completes (.configChange n) s fun t => t = s) ∧
    (∀ g, alGet s.net.oper n = some g →
      (s.robotNow < g.until_ → Completes (.gateIntervalExpiry n) s fun t => t = s) ∧
      (g.until_ ≤ s.robotNow →
        let i := (g.index + 1) % max 1 g.entries.length
        Completes (.gateIntervalExpiry n) s fun t => Within [] [.net] s t ∧
          alGet t.net.oper n = some { g with index := i, until_ := g.until_ + (g.entries.getD i (0, 0)).2 })) ∧
    (alGet s.net.oper n = none → Completes (.gateIntervalExpiry n) s fun t => t = s)) ∧
  (∀ (n : Nat) (up : Bool) (s : State), n < 12 →
    let recent := ((alGet s.net.changes n).getD []).filter (fun x => s.now < x + 1000000000)
    (alGet s.net.actual n = none → recent.length < 10 → Completes (.ethLinkChange n up) s fun t => t.bit .NET_P_STATUS 31 n = up ∧
      (s.bit .NET_P_STATUS 31 n ≠ up → t.bit .NET_P_EVENT 0 n = true)) ∧
    (alGet s.net.actual n = none → 10 ≤ recent.length → Completes (.ethLinkChange n up) s fun t => t.bit .NET_P_STATUS 31 n = false ∧
      alGet t.net.actual n = some up ∧ t.rd .NET_P_ERRORS n = (s.rd .NET_P_ERRORS n + 1) % 2 ^ 32) ∧
    (∀ x, alGet s.net.actual n = some x →
      (Completes (.ethLinkChange n up) s fun t => t.bit .NET_P_STATUS 31 n = s.bit .NET_P_STATUS 31 n ∧ alGet t.net.actual n = some up) ∧
      Completes (.portHoldDownExpiry n) s fun t => t.bit .NET_P_STATUS 31 n = x ∧ alGet t.net.actual n = none) ∧
    (alGet s.net.actual n = none → Completes (.portHoldDownExpiry n) s fun t => t = s))

/-- R10, R113, R295 to R299. -/
def Obligations.HostPort : Prop :=
  (∀ (rate width ltssm : Nat) (gib : Option Nat) (s : State),
    let ok : Prop := s.hostMode ≠ 0 ∧ s.bit .HP_LINK_CTRL 31 = true ∧ 4 ≤ rate ∧ rate ≤ s.fld .HP_LINK_CTRL 2 0 ∧ width ∈ [1, 2, 4, 8]
    let cxl := if s.hostMode = 1 ∧ (s.spl.chip.any (fun c => c.farTier == 1)) = true then gib else none
    (ok → ltssm < 256 → Completes (.hpLinkTrained rate width ltssm gib) s fun t => t.bit .HP_LINK_STATUS 31 = true ∧ t.bit .HP_LINK_STATUS 30 = cxl.isSome ∧
      t.fld .HP_LINK_STATUS 18 16 = rate ∧ t.fld .HP_LINK_STATUS 11 8 = width ∧ t.fld .HP_LINK_STATUS 7 0 = ltssm ∧
      t.rd .HP_CXL_SIZE = (match cxl with | some g => expanderGib g | none => 0) ∧ t.bit .HP_EVENT 0 = true ∧
      Within [.HP_LINK_STATUS, .HP_CXL_SIZE, .HP_EVENT] [.hp] s t) ∧
    (¬ ok → Completes (.hpLinkTrained rate width ltssm gib) s fun t => t = s)) ∧
  (∀ (p : Nat) (v : Word) (s : State),
    (s.hostMode = 2 → s.hostUp = true → s.partExists p = true → Completes (.hpDoorbellWrite p v) s fun t =>
      t.rd .HP_P_DB p = s.rd .HP_P_DB p ||| v.toNat ∧ Within [.HP_P_DB] [.pulses] s t ∧
      t.pulses = s.pulses ++ (if s.rd .HP_P_DB p = 0 ∧ v ≠ 0 then [.doorbell p] else [])) ∧
    (s.hostMode ≠ 2 ∨ s.hostUp = false ∨ s.partExists p = false → Completes (.hpDoorbellWrite p v) s fun t => t = s)) ∧
  (∀ (a : Agent) (p mask : Nat) (s : State), p < 8 → s.accessFenced a (some 12) = false →
    (s.agentPart a = p → s.hostMode = 2 → s.hostUp = true → Completes (.hpMsiRaise a p mask) s fun t => t.resp.err = false ∧ Within [] [.resp, .pulses, .hp] s t ∧
      ∀ i, i < 8 → bitOf mask i = true → if s.vectorMasked (8 * p + i) = true then 8 * p + i ∈ t.hp.pba else Pulse.msi p i ∈ t.pulses) ∧
    (s.agentPart a = p → s.hostMode ≠ 2 ∨ s.hostUp = false → Completes (.hpMsiRaise a p mask) s fun t => t = s.respOk) ∧
    (s.agentPart a ≠ p → Completes (.hpMsiRaise a p mask) s fun t => t.resp.err = true ∧ Within recordRegs [.resp, .flt, .deep] s t ∧
      Recorded s t { cls := 0x02, part := s.agentPart a, source := a.code, address := 0xE8100C + 0x10 * p })) ∧
  (∀ s : State,
    let violation (t : State) : Prop := t.rd .HP_ERRORS = (s.rd .HP_ERRORS + 1) % 2 ^ 32 ∧ t.bit .HP_EVENT 1 = true
    (s.hostUp = true → Completes .surpriseLinkDown s fun t => t.hostUp = false ∧ t.bit .HP_LINK_STATUS 30 = false ∧ t.rd .HP_CXL_SIZE = 0 ∧
      t.bit .HP_EVENT 0 = true ∧ violation t ∧ SameMemory s t) ∧
    (s.hostUp = false → Completes .surpriseLinkDown s fun t => t = s) ∧
    (s.hostUp = false → s.bit .HP_LINK_CTRL 31 = true → s.hostMode ≠ 0 → Completes .hpRetrainTimer s fun t => t.hp = { s.hp with retraining := true } ∧
      t.hostUp = false ∧ Within [.HP_LINK_STATUS] [.hp, .free] s t) ∧
    (s.hostUp = true ∨ s.bit .HP_LINK_CTRL 31 = false ∨ s.hostMode = 0 → Completes .hpRetrainTimer s fun t => t = s) ∧
    (s.hostUp = false → Completes .uncorrectableFec s fun t => t = s) ∧
    (let recent := s.hp.fec.filter (fun x => s.now < x + 1000000000)
     s.hostUp = true →
      (recent.length < 2 → Completes .uncorrectableFec s fun t => t = { s with hp := { s.hp with fec := s.now :: recent } }) ∧
      (2 ≤ recent.length → Completes .uncorrectableFec s fun t => t.hp = { s.hp with fec := [], retraining := true } ∧ violation t)) ∧
    (s.hostUp = false → ∀ x, Completes (.hpInboundTlp x) s fun t => t = s) ∧
    (s.hostUp = true → ∀ x ∈ [HpTlp.malformed, .unexpected], Completes (.hpInboundTlp x) s fun t => violation t ∧ SameMemory s t) ∧
    (s.hostUp = true → ∀ n x d, Completes (.hpInboundTlp (.poisonedCompletion (.core n) x d)) s fun t => violation t ∧ t.resp.err = true ∧ SameMemory s t) ∧
    (s.hostUp = true → s.hostMode ≠ 2 → ∀ bar off n d poison, ∀ x ∈ [HpTlp.read bar off n, .write bar off d poison], Completes (.hpInboundTlp x) s fun t => t = s) ∧
    (s.hostUp = true → s.hostMode = 2 → ∀ bar off n d,
      (Completes (.hpInboundTlp (.write bar off d true)) s fun t => violation t ∧ SameMemory s t) ∧
      (Completes (.hpInboundTlp (.read 0 off n)) s fun t => t = s.hpAnswer (.completion (s.bar0Bytes off n))) ∧
      (Completes (.hpInboundTlp (.write 0 off d false)) s fun t => SameMemory s t ∧ Within [.HP_P_DB] [.pulses, .hp] s t) ∧
      (bar ≠ 0 → s.bar2 off n false = none → Completes (.hpInboundTlp (.read bar off n)) s fun t => violation t ∧ t.hp.reply = .unsupported ∧ SameMemory s t) ∧
      (bar ≠ 0 → s.bar2 off d.length true = none → Completes (.hpInboundTlp (.write bar off d false)) s fun t => violation t ∧ SameMemory s t) ∧
      (∀ p x, bar ≠ 0 → s.bar2 off n false = some (p, x) → s.accessFenced (.device p) (some 12) = false →
        (0x40000000 ≤ x → Completes (.hpInboundTlp (.read bar off n)) s fun t => t = (s.hpAnswer .none).memRequest (.device p) (.read x n) false) ∧
        (x < 0x40000000 →
          let u := (s.hpAnswer .none).csrRequest (.device p) (.read x n)
          Completes (.hpInboundTlp (.read bar off n)) s fun t => t = u.hpAnswer (if u.resp.err = true then .abort else .completion u.resp.data))) ∧
      (∀ p x, bar ≠ 0 → s.bar2 off d.length true = some (p, x) → s.accessFenced (.device p) (some 12) = false →
        (0x40000000 ≤ x → Completes (.hpInboundTlp (.write bar off d false)) s fun t => t = s.memRequest (.device p) (.write x d) false) ∧
        (x < 0x40000000 → Completes (.hpInboundTlp (.write bar off d false)) s fun t => t = s.csrRequest (.device p) (.write x d)))) ∧
    (∀ n x d, Completes (.completionTimeout (.core n) x d) s fun t => violation t ∧ t.resp.err = true ∧ SameMemory s t) ∧
    (∀ t p x n j c, t < 68 → j < 1024 → (s.run t).ctx = some j → s.farCopy t = some c → Completes (.completionTimeout (.tile t p) x n) s fun u =>
      violation u ∧ u.jobState j = ctxStopped ∧ u.fld .SCH_CTX 23 16 j 1 = 4 ∧ SameMemory s u))

/-- R303 to R305, R308 to R311, R314, R315, R318 to R324. -/
def Obligations.PowerManager : Prop :=
  (∀ (cnt : List Nat) (s : State),
    let est (d : Nat) : Nat := wattsCw (s.domEstimate cnt d)
    let ests := (List.range 4).map est
    let borrow := s.domExcess ests 2 + s.domExcess ests 3
    let shown (t : State) : Prop := (∀ d, d < 4 → t.fld .PWR_DOM 15 0 d = est d ∧
      t.fld .PWR_DOM 31 16 d = min 0xFFFF (if d = 0 then s.domBudget 0 - borrow else s.domBudget d)) ∧ (borrow ≠ 0 → t.bit .PWR_EVENT 2 = true)
    (s.pwr.gale = true → Completes (.powerTick cnt) s fun t => shown t ∧ (∀ x, t.tileMhz x = s.tileMhz x) ∧ (∀ c, t.hostMhz c = s.hostMhz c)) ∧
    (s.pwr.gale = false → Completes (.powerTick cnt) s fun t => shown t ∧ (∀ x, x < 68 → (s.run x).ctx = none → t.tileMhz x = 0) ∧
      t.pwr.ratio = [] ∧ t.pwr.raise = [] ∧
      (s.squall = true → (∀ g ∈ s.gangs, ∀ x ∈ g.tiles, x ∉ s.pwr.gated → t.tileMhz x = 400) ∧ (∀ c, c < 4 → t.hostMhz c = 600)))) ∧
  (∀ (r : Nat) (x : Reading) (s : State),
    (13 ≤ r ∨ s.bit .PWR_RAIL_CFG 31 r = false ∨ readingFits r x = false → Completes (.telemetryReading r x) s fun t => t = s) ∧
    (r < 13 → s.bit .PWR_RAIL_CFG 31 r = true →
      (readingFits r x = true → ∀ cw, readingCw r x = some cw → Completes (.telemetryReading r x) s fun t => t.rd .PWR_RAIL_READ r = min 0xFFFF cw ∧
        (alGet t.pwr.valid r).isSome = true) ∧
      (∀ mode vout iout, r < 3 → readingCw r (.volts mode vout iout) = none → Completes (.telemetryReading r (.volts mode vout iout)) s fun t =>
        alGet t.pwr.valid r = none ∧ t.rd .PWR_RAIL_READ r = s.rd .PWR_RAIL_READ r) ∧
      (Completes (.telemetryReading r .pec) s fun t => alGet t.pwr.valid r = none ∧ Within [] [.pwr] s t) ∧
      (Completes (.telemetryReading r .missing) s fun t => alGet t.pwr.valid r = none ∧ 1 ≤ t.fld .PWR_RAIL_READ 31 30 r) ∧
      (∀ w, s.pins.squallN = true → Completes (.telemetryReading r (.fault w)) s fun t => t.squall = true ∧ t.bit .PWR_EVENT 0 = true ∧
        t.rd .PWR_SQUALL = r * 2 ^ 28 % 2 ^ 32 + w % 2 ^ 16) ∧
      (s.fld .PWR_RAIL_READ 31 30 r ≠ 2 → Completes (.railNoReading r) s fun t => t.fld .PWR_RAIL_READ 31 30 r = 2 ∧ t.trust (railDom r) = 2 ∧
        (s.trust (railDom r) ≠ 2 → t.bit .PWR_EVENT 5 = true)) ∧
      (s.fld .PWR_RAIL_READ 31 30 r = 2 → Completes (.railNoReading r) s fun t => t = s)) ∧
    (r < 3 → s.pwr.settled.contains r = false → Completes (.voltageSettled r) s fun t => r ∈ t.pwr.settled ∧ SameMemory s t) ∧
    (3 ≤ r ∨ s.pwr.settled.contains r = true → Completes (.voltageSettled r) s fun t => t = s)) ∧
  (∀ s : State, Completes .telemetryPeriod s fun t => Within [.PWR_MEAS] [] s t ∧ t.rd .PWR_MEAS = min 0xFFFF ((List.range 4).map s.measured).sum) ∧
  (∀ (l : List Nat) (s : State), l.length = 85 → (∀ x ∈ l, x ≤ 255) → Completes (.tempSample l) s fun t => t.pwr.temps = l ∧
    t.fld .PWR_TEMP 31 24 = l.foldl max 0 ∧ t.fld .MEM_DEEP_STATUS 31 24 = l.getD 76 0 ∧
    (∀ x, x < 68 → t.fld .PWR_TILE 31 24 x = l.getD x 0) ∧ Within [.PWR_TEMP, .MEM_DEEP_STATUS, .PWR_HOST, .PWR_TILE] [.pwr] s t) ∧
  (∀ (k : Nat) (s : State),
    (105 < s.temp k → Completes (.overtempPersist k) s fun t => Within recordRegs [.flt, .deep] s t ∧
      Recorded s t { cls := 0x0F, part := 0xFF, source := 0x200D, context := k }) ∧
    (s.temp k ≤ 105 → Completes (.overtempPersist k) s fun t => t = s) ∧
    (80 < s.temp 76 → Completes .deepLimitStep s fun t => t.bit .PWR_STATUS 28 = true ∧
      t.pwr = { s.pwr with cut := min (s.fld .PWR_CAP 7 0 - (match s.spl.chip with | some c => c.capMin | none => 0)) (s.pwr.cut + 2) }) ∧
    (s.temp 76 < 78 → Completes .deepLimitStep s fun t => t.bit .PWR_STATUS 28 = decide (s.pwr.cut - 2 ≠ 0) ∧ t.pwr = { s.pwr with cut := s.pwr.cut - 2 }) ∧
    (78 ≤ s.temp 76 → s.temp 76 ≤ 80 → Completes .deepLimitStep s fun t => t = s)) ∧
  (∀ (x mhz : Nat) (s : State), mhz < 2 ^ 16 →
    (x < 68 → mhz / 25 * 25 < s.tileFmax x → Completes (.fmaxRederive x mhz) s fun t => t.tileFmax x = mhz / 25 * 25 ∧ t.tileMhz x = s.tileMhz x ∧
      (mhz / 25 * 25 < s.tileMhz x → t.bit .PWR_EVENT 7 = true) ∧ (mhz / 25 * 25 < 1000 → x ∈ t.pwr.retiring ∧ t.bit .PWR_EVENT 8 = true) ∧ SameMemory s t) ∧
    (68 ≤ x ∨ s.tileFmax x ≤ mhz / 25 * 25 → Completes (.fmaxRederive x mhz) s fun t => t = s)) ∧
  (∀ s : State,
    (Completes .galeTrip s fun t => t.pwr.gale = true ∧ t.pwr.rises = [] ∧ (∀ x, x < 68 → t.tileMhz x = 0) ∧ (∀ c, c < 4 → t.hostMhz c = 0) ∧ SameMemory s t) ∧
    (s.pwr.gale = true → Completes .galeRecord s fun t => t.pins.pwrcycReqN = false ∧ SameMemory s t) ∧
    (s.pwr.gale = false → Completes .galeRecord s fun t => t = s) ∧
    (∀ fault, s.pins.squallN = true → Completes (.squallAssert fault) s fun t => t.pins.squallN = false ∧ t.squall = true ∧ t.bit .PWR_EVENT 0 = true ∧
      (s.pwr.gale = false → ∀ g ∈ s.gangs, ∀ x ∈ g.tiles, x ∉ s.pwr.gated → t.tileMhz x = 400) ∧
      (11 ≤ (s.pwr.asserts.filter (fun x => s.now < x + 1000000000)).length → t.pwr.held = true)) ∧
    (∀ fault, s.pins.squallN = false → Completes (.squallAssert fault) s fun t => t = s) ∧
    (Completes .squallRelease s fun t => t.pins = { s.pins with squallN := true } ∧ Within [] [.pins, .pwr] s t ∧
      (s.pins.pfailN = true → s.pwr.held = false → s.squall = true → t.pwr.released = true) ∧ (s.pwr.held = true → t.pwr = s.pwr)) ∧
    (s.pwr.held = true → Completes .squallHeldExpiry s fun t => t.pwr.held = false ∧ Within [] [.pwr] s t) ∧
    (s.pwr.held = false → Completes .squallHeldExpiry s fun t => t = s) ∧
    (s.squall = true → s.pwr.released = true → Completes .squallHoldExpiry s fun t => t.squall = false ∧
      t.pwr = { s.pwr with released := false, ramp := true, frozen := none } ∧ Within [.PWR_STATUS] [.pwr] s t) ∧
    (s.squall = false ∨ s.pwr.released = false → Completes .squallHoldExpiry s fun t => t = s) ∧
    (s.pins.squallN = false → Completes .squallPersist s fun t => Within recordRegs [.flt, .deep] s t ∧
      Recorded s t { cls := 0x0F, part := 0xFF, source := 0x200D, context := 0xFFFFFFFF }) ∧
    (s.pins.squallN = true → Completes .squallPersist s fun t => t = s)) ∧
  (∀ (x : Nat) (s : State), x < 68 →
    ((s.run x).ctx = none → (s.run x).parked = none → s.fld .PWR_CTRL 15 0 ≠ 0 → x ∉ s.pwr.gated →
      (∀ k, s.logicalOf x = some k → (∀ j ∈ s.usedJobs, s.jobClass j = 0 → s.admitted j = true → bitOf (s.jobAllowed j) k = false) ∧
        ∀ p, p < 8 → ∀ y ∈ (s.part p).loans, bitOf y.tileMask k = false) →
      Completes (.gateIdleExpiry x) s fun t => t.pwr = { s.pwr with gated := x :: s.pwr.gated } ∧ t.tileMhz x = 0 ∧ SameMemory s t) ∧
    ((s.run x).ctx.isSome = true ∨ s.fld .PWR_CTRL 15 0 = 0 ∨ x ∈ s.pwr.gated → Completes (.gateIdleExpiry x) s fun t => t = s)) ∧
  (∀ s : State, (s.nextWake = none → Completes .tileWakeAdmit s fun t => t = s) ∧
    (∀ x, s.nextWake = some x →
      (s.wakeDue = false → Completes .tileWakeAdmit s fun t => t = s) ∧
      (s.wakeDue = true → Completes .tileWakeAdmit s fun t => x ∉ t.pwr.gated ∧ t.pwr.wokeAt = some s.now ∧ 
        (∀ y, y ≠ x → (y ∈ t.pwr.gated ↔ y ∈ s.pwr.gated)) ∧ t.tileMhz x ≤ max 400 (s.tileLimit x) ∧ SameMemory s t)))

/-- R331, R335 to R340, R345, R383. -/
def Obligations.FaultController : Prop :=
  (∀ (f : FaultDesc) (words segs : List Nat) (corrected : Nat) (s : State),
    let marked (t : State) : Prop := (∀ w, w ∈ t.badWord ↔ w ∈ s.badWord ∨ w ∈ words) ∧ (∀ g, g ∈ t.badCheck ↔ g ∈ s.badCheck ∨ g ∈ segs) ∧
      t.fld .MEM_WARM_STATUS 31 16 = min 0xFFFF (s.fld .MEM_WARM_STATUS 31 16 + corrected) ∧ SameMemory s t
    (s.firstDomain f = none → Completes (.faultDetected f words segs corrected) s fun t => marked t ∧ Recorded s t f ∧
      t.flt.recoveries = s.flt.recoveries) ∧
    (∀ d, s.firstDomain f = some d → s.OpensAlone d → Completes (.faultDetected f words segs corrected) s fun t => marked t ∧ Opened s t d f) ∧
    (∀ d r, s.firstDomain f = some d → s.mergedInLoad d = false → s.flt.recoveries.any (fun x => x.rung == 4) = false →
      s.flt.recoveries.find? (fun x => (s.resources (s.escalate d)).within (s.resources x.domain)) = some r →
      Completes (.faultDetected f words segs corrected) s fun t => marked t ∧ t.flt.nextRecovery = s.flt.nextRecovery ∧
        (∀ k, t.rd .FLT_RUNG_COUNT k = s.rd .FLT_RUNG_COUNT k) ∧
        ∃ x, t.flt.ring.getLast? = some x ∧ x.kind = 1 ∧ x.recovery = r.number ∧ x.fault = f)) ∧
  (∀ (a : Agent) (rung part target : Nat) (s : State),
    let answered (code : Nat) (t : State) : Prop := t.resp.err = false ∧ t.fld .FLT_RESET_STATUS 7 0 = code ∧
      t.bit .FLT_RESET_STATUS (if code = 0 then 31 else 30) = true
    (s.accessFenced a none = true → Completes (.fltReset a rung part target) s fun t => t.resp.err = true ∧ Within [] [.resp] s t) ∧
    (s.accessFenced a none = false →
      (resetDomain rung part target = none → Completes (.fltReset a rung part target) s fun t => answered 2 t ∧ t.flt = s.flt) ∧
      (∀ d, resetDomain rung part target = some d →
        (s.mayReset (s.agentPart a) d = false → Completes (.fltReset a rung part target) s fun t => answered 1 t ∧
          Recorded s t { cls := 0x02, part := s.agentPart a, source := a.code }) ∧
        (s.mayReset (s.agentPart a) d = true → s.domainExists d = false → Completes (.fltReset a rung part target) s fun t =>
          answered 2 t ∧ t.flt = s.flt) ∧
        (s.mayReset (s.agentPart a) d = true → s.domainExists d = true →
          s.flt.recoveries.any (fun r => (s.resources d).within (s.resources r.domain)) = true →
          Completes (.fltReset a rung part target) s fun t => answered 3 t ∧ t.flt = s.flt) ∧
        (s.mayReset (s.agentPart a) d = true → s.domainExists d = true → s.OpensAlone d → (∀ q, q < 8 → s.bit .FLT_STATUS q = false) →
          Completes (.fltReset a rung part target) s fun t => answered 0 t ∧
            Opened s t d { cls := 0x12, part := s.domainPart d, source := a.code, detail := 3, context := if rung = 3 then part else target })))) ∧
  (∀ (n : Nat) (s : State),
    (s.flt.recoveries.find? (fun r => r.number == n && r.phase == .fencing) = none → Completes (.fenceConfirmTimeout n) s fun t => t = s) ∧
    (∀ r, s.flt.recoveries = [r] → r.number = n → r.phase = .fencing → Completes (.fenceConfirmTimeout n) s fun t =>
      (∃ x ∈ t.flt.recoveries, x.number = s.flt.nextRecovery ∧ x.domain = s.nextUp r.domain ∧ x.rung = (s.nextUp r.domain).rung ∧ x.since = r.since) ∧
      (∃ y ∈ t.flt.ring, y.seq = s.flt.nextSeq ∧ y.kind = 2 ∧ y.fault.cls = 0x12 ∧ y.fault.detail = 1 ∧ y.rung = r.rung ∧ y.recovery = n ∧
        y.duration = (r.spent + (s.now - r.since)) / 1000) ∧
      t.rd .FLT_RUNG_COUNT (s.nextUp r.domain).rung = (s.rd .FLT_RUNG_COUNT (s.nextUp r.domain).rung + 1) % 2 ^ 32 ∧ SameMemory s t)) ∧
  (∀ (n served : Nat) (s : State),
    (s.flt.recoveries.find? (fun r => r.number == n && r.phase == .fencing) = none → Completes (.fenceDrainDone n served) s fun t => t = s) ∧
    (∀ r, s.flt.recoveries.find? (fun r => r.number == n && r.phase == .fencing) = some r → Completes (.fenceDrainDone n served) s fun t =>
      (∃ x ∈ t.flt.recoveries, x.number = n ∧ x.domain = r.domain ∧ x.phase = .resetting) ∧
      (∀ w ∈ t.hdw.waiting, s.inDomain r.domain w.agent = false) ∧
      (match r.domain with
       | .ctx j => s.jobState j = ctxRunning → t.jobState j = ctxStopped ∧ t.fld .SCH_CTX 23 16 j 1 = 7
       | .tile x => s.fld .TILE_INFO 18 16 x ∈ [1, 2, 3] → t.fld .TILE_INFO 18 16 x = 1 ∧ t.rd .TILE_FLAGS x = 0 ∧ t.rd .TILE_ERR x = 0 ∧
         ∀ l, s.logicalOf x = some l → ∀ k, k < 0x400000 → t.getByte (tileBase l + k) = 0
       | .chip => t.stage = 1 ∧ t.now = s.now ∧ t.wbState = 3 ∧ t.pins.safeStopN = false ∧ t.rd .WL_STO_LO = 0xFFFFFFFF ∧
         t.rd .WL_STO_HI = 0xFFFFFFFF ∧ t.spl.load = none ∧ t.spl.parts = [] ∧ t.sch = {} ∧ (∀ a, sramAddr a = true → t.getByte a = 0)
       | .package => t.pins.pwrcycReqN = false
       | _ => True))) ∧
  (∀ (n : Nat) (failed : List Nat) (s : State),
    (s.flt.recoveries.find? (fun r => r.number == n && r.phase == .resetting) = none → Completes (.recoveryRelease n failed) s fun t => t = s) ∧
    (∀ r, s.flt.recoveries.find? (fun r => r.number == n && r.phase == .resetting) = some r →
      (r.quarantine = true ∨ 4 ≤ r.rung → Completes (.recoveryRelease n failed) s fun t => t = s) ∧
      (r.quarantine = false → r.rung < 4 → Completes (.recoveryRelease n failed) s fun t =>
        (∀ x ∈ t.flt.recoveries, x.number ≠ n) ∧
        (∃ y, t.flt.ring.getLast? = some y ∧ y.kind = 2 ∧ y.fault.cls = 0x12 ∧ y.fault.detail = 0 ∧ y.rung = r.rung ∧ y.recovery = n ∧
          y.merged = r.merged ∧ y.duration = (r.spent + (s.now - r.since)) / 1000) ∧
        ∀ x, r.domain = .tile x → s.fld .TILE_INFO 18 16 x = 1 → t.fld .TILE_INFO 18 16 x =
          (if failed.contains x then 1 else if (s.logicalOf x).isSome then 2 else 3)))) ∧
  (∀ s : State,
    let page := s.fld .FLT_LOG_STATUS 16 0
    let logged (t : State) : Prop := alGet t.flt.log page = some s.waiting ∧ t.fld .FLT_LOG_STATUS 16 0 = (page + 1) % 2 ^ 17 ∧
      t.flt.oldestWaiting = none ∧ t.waiting = [] ∧ SameMemory s t
    (∀ x, s.flt.oldestWaiting = some x →
      (s.now < x + s.fld .FLT_LOG_CTRL 15 0 * 1000000000 → Completes .logFlushTimer s fun t => t = s) ∧
      (x + s.fld .FLT_LOG_CTRL 15 0 * 1000000000 ≤ s.now → s.bit .FLT_CFG 18 = true → s.waiting ≠ [] →
        (s.logDeferred = false → Completes .logFlushTimer s logged) ∧
        (s.logDeferred = true → Completes .logFlushTimer s fun t => t.bit .FLT_STATUS 24 = true ∧ Within [.FLT_STATUS] [] s t))) ∧
    (s.flt.oldestWaiting = none → Completes .logFlushTimer s fun t => t = s) ∧
    ∀ a : Agent, s.accessFenced a none = false →
      (s.agentPart a ≠ s.ctrl → ∀ c ∈ [Instr.logFlush a, .logRead a], Completes c s fun t => t.resp.err = true ∧
        Recorded s t { cls := 0x02, part := s.agentPart a, source := a.code }) ∧
      (s.agentPart a = s.ctrl → s.ctrl ≠ 0xFF →
        (s.bit .FLT_CFG 18 = true → s.waiting ≠ [] → s.logDeferred = false → Completes (.logFlush a) s fun t => t.resp.err = false ∧ logged t) ∧
        (let dst := s.rd .FLT_LOG_ADDR_LO + 2 ^ 32 * s.fld .FLT_LOG_ADDR_HI 15 0
         let data := logPageBytes ((alGet s.flt.log (s.fld .FLT_LOG_PAGE 16 0)).getD [])
         (dst % 512 ≠ 0 ∨ s.ownsRange s.ctrl dst 0x4000 true = false → Completes (.logRead a) s fun t => t.resp.err = false ∧
           t.bit .FLT_LOG_STATUS 30 = true ∧ Within [.FLT_LOG_STATUS] [.resp] s t) ∧
         (dst % 512 = 0 → s.ownsRange s.ctrl dst 0x4000 true = true → s.verdict (faultAgent s.ctrl) true dst data.length = .ok →
           s.holdOn (faultAgent s.ctrl) (.write dst data) = none → Completes (.logRead a) s fun t => t.resp.err = false ∧
           t.bit .FLT_LOG_STATUS 31 = true ∧ t.getBytes dst data.length = data ∧ SameMemoryBut dst data.length s t))) ∧
      ∀ v : Word, Completes (.recSelWrite a v) s fun t => t.resp.err = false ∧ alGet t.recSel a = some v ∧ Within [] [.resp, .recSel] s t ∧
        ∀ k, t.recWord a k = (match s.flt.ring.find? (fun r => BitVec.ofNat 32 r.seq == v) with | some r => leAt r.bytes (4 * k) 4 | none => 0))

/-- R278, R357 to R365, R368, R371, R379, R385. -/
def Obligations.StartUp : Prop :=
  (∀ (c : Instr) (k : Nat) (s : State),
    (c = .stageS0Done ∧ k = 0) ∨ (∃ fz, c = .stageS1Done fz ∧ k = 1) ∨ (∃ f g, c = .stageS2Done f g ∧ k = 2) ∨
      (∃ addr l, c = .stageS3Done false addr l ∧ k = 3) ∨ (∃ l, c = .stageS4Done l ∧ k = 4) ∨ (c = .stageS5Done ∧ k = 5) ∨
      (c = .stageS6Done ∧ k = 6) ∨ (c = .stageS7Release ∧ k = 7) →
    s.inStage k = false → Completes c s fun t => t = s) ∧
  (∀ s : State, s.inStage 0 = true →
    (s.boot.aonLost = false → Completes .stageS0Done s fun t => t.stage = 1 ∧ t.boot = { s.boot with s1At := s.now } ∧
      t.bootCount = s.bootCount ∧ Within [.GLB_BOOT_STATUS] [.boot] s t) ∧
    (s.boot.aonLost = true → Completes .stageS0Done s fun t => t.stage = 1 ∧ t.bootCount = s.boot.sector.count % 4 ∧
      t.rd .GLB_BOOT_CFG = s.boot.sector.bootCfg.toNat ∧ t.bit .GLB_BOOT_CTRL 29 = s.boot.sector.doldrums ∧
      t.boot = { s.boot with aonLost := false, tileRecord := s.boot.sector.tileRecord, logicalMap := s.boot.sector.logicalMap, s1At := s.now })) ∧
  (let doldrums (reason : Nat) (t : State) : Prop := t.stage = 15 ∧ t.fld .GLB_BOOT_STATUS 23 16 = reason ∧ t.spl.parts = [] ∧ t.spl.chip = none ∧
     t.wbState = 3 ∧ t.pins.safeStopN = false ∧ t.pwr.gated = List.range 68 ∧ t.boot.watchdog = false
   (∀ (fz : Option Fuses) (s : State), s.inStage 1 = true → Completes (.stageS1Done fz) s fun t =>
     (s.spl.fuses.programmed = true → t.spl.fuses = s.spl.fuses) ∧
     (s.spl.fuses.programmed = false → ∀ f, fz = some f → t.spl.fuses = { f with programmed := true }) ∧
     t.boot.countBefore = s.bootCount ∧ t.boot.resetDue = false ∧
     (s.bootCount = 3 → doldrums 1 t ∧ t.bootCount = 3) ∧
     (s.bootCount ≠ 3 → t.bootCount = s.bootCount + 1 ∧ t.boot.sector.count = s.bootCount + 1 ∧
       (s.bit .GLB_BOOT_CTRL 29 = true → doldrums 4 t) ∧ (s.bit .GLB_BOOT_CTRL 29 = false → t.stage = 2))) ∧
   (∀ (f0 f1 : Bool) (s : State), s.inStage 2 = true →
     ((f0 || f1) = true → Completes (.stageS2Done f0 f1) s fun t => t.stage = 3 ∧ Within [.GLB_BOOT_STATUS] [] s t) ∧
     ((f0 || f1) = false → Completes (.stageS2Done f0 f1) s (doldrums 3))) ∧
   (∀ (addr : Nat) (quads : List Nat) (s : State),
     (s.inStage 3 = true →
       (Completes (.stageS3Done true addr quads) s fun t => t.stage = 4 ∧ t.bit .MEM_WARM_STATUS 0 = true ∧
         t.boot.failedQuads = (List.range 16).filter quads.contains ∧ SameMemory s t) ∧
       (s.flt.recoveries = [] → Completes (.stageS3Done false addr quads) s fun t => t.fld .GLB_BOOT_STATUS 15 12 = 1 ∧ t.boot.noted = true ∧
         Opened s t (s.escalate .chip) (bootFault 1 0xFFFFFFFF addr))) ∧
     (s.inStage 15 = true → s.bit .MEM_WARM_STATUS 0 = false → Completes (.stageS3Done true addr quads) s fun t => t.stage = 15 ∧
       t.bit .MEM_WARM_STATUS 0 = true ∧ SameMemory s t)) ∧
   (∀ (results : List TileTest) (s : State), s.inStage 4 = true → Completes (.stageS4Done results) s fun t =>
     t.stage = (if s.boot.kind = .afterLoad then 6 else 5) ∧ SameMemory s t ∧
     (let map := fillMap s.tileCount (fun x => (s.testedEntry results x).1 == .spare && decide (x < 68)) s.boot.logicalMap
      t.boot.logicalMap = map ∧ t.boot.sector.logicalMap = map ∧ t.boot.sector.tileRecord = t.boot.tileRecord ∧ t.boot.tileRecord.length = 68 ∧
      (∀ l, l < s.tileCount → t.fld .GLB_LTILE_MAP (8 * (l % 4) + 7) (8 * (l % 4)) (l / 4) = (match map.getD l none with | some x => 0x80 + x | none => 0)) ∧
      ∀ x, x < 68 → t.fld .TILE_FREQ 31 16 x = (s.testedEntry results x).2 % 2 ^ 16 ∧
        t.fld .TILE_INFO 18 16 x = (match (s.testedEntry results x).1 with
          | .fusedOff => 0 | .retired => 4 | _ => if map.contains (some x) then 2 else 3))) ∧
   (∀ s : State, s.inStage 5 = true →
     let pass := s.sourceOrder.findSome? (fun x => (checkStored (s.sourceBytes x.2 x.1) s.variant s.tileCount s.spl.fuses).2.map (fun i => (i, x)))
     (pass = none → Completes .stageS5Done s (doldrums 2)) ∧
     (∀ x, pass = some x → Completes .stageS5Done s fun t => t.stage = 6 ∧ t.boot = { s.boot with selected := some x } ∧
       t.fld .GLB_BOOT_STATUS 27 26 = x.2.1.ctorIdx ∧ Within [.GLB_BOOT_STATUS] [.boot] s t)) ∧
   (∀ s : State, s.inStage 6 = true →
     let x : Option (Image × (ImageSource × (Nat × Nat))) :=
       if s.boot.kind = .afterLoad then s.boot.loaded.map (fun y => (y.1, (.chipLoad, y.2))) else s.boot.selected
     (x = none → Completes .stageS6Done s (doldrums 2)) ∧
     (∀ img src, x = some (img, src) → img.chip = none → Completes .stageS6Done s (doldrums 2)) ∧
     (∀ img src c, x = some (img, src) → img.chip = some c → Completes .stageS6Done s fun t => t.stage = 7 ∧ t.spl.chip = some c ∧
       t.wb.safety = some c.safety ∧ t.rd .PWR_CAP = c.cap % 2 ^ 32 ∧ t.rd .PWR_CEILING = c.ceilingMhz % 2 ^ 32 ∧ t.boot.active = some src ∧
       t.fld .GLB_BOOT_STATUS 27 26 = src.1.ctorIdx ∧
       (∀ q, q < 16 → q ∉ s.boot.failedQuads → t.fld .BANK_CQ_STATUS 31 28 q = namedFor img.parts q % 16) ∧
       (s.boot.kind = .afterLoad → t.fld .SPL_STATUS 7 0 c.ctrlPart = 0 ∧ t.bit .SPL_STATUS 8 c.ctrlPart = true))) ∧
   (∀ s : State, s.inStage 7 = true → Completes .stageS7Release s fun t => t.stage = 8 ∧ t.boot.watchdog = true ∧ t.boot.s7At = s.now ∧
     t.rd .GLB_BOOT_TIME = (s.now - s.boot.s1At) / 1000 % 2 ^ 32 ∧ (∀ r ∈ t.flt.recoveries, r.rung < 4) ∧ SameMemory s t)) ∧
  (∀ (a : Agent) (s : State), s.accessFenced a none = false →
    (s.bootWriter a = false → ∀ c ∈ [Instr.bootOk a, .restart a, .doldrums a], Completes c s fun t => t.resp.err = true ∧ t.boot = s.boot ∧
      Recorded s t { cls := 0x02, part := s.agentPart a, source := a.code, address := 0x208 }) ∧
    (s.bootWriter a = true →
      (a ≠ .maint → s.bootCount ≠ 0 → Completes (.bootOk a) s fun t => t.resp.err = false ∧ t.bootCount = 0 ∧ t.boot.watchdog = false ∧
        t.boot.sector.count = 0 ∧ Within [.GLB_BOOT_STATUS] [.resp, .boot] s t) ∧
      (a = .maint ∨ s.bootCount = 0 → Completes (.bootOk a) s fun t => t.resp.err = false ∧ Within [] [.resp] s t) ∧
      (s.stage ≠ 15 → s.OpensAlone .chip → Completes (.restart a) s fun t => t.resp.err = false ∧ t.boot.next = .restart ∧ t.bootCount = s.bootCount ∧
        Opened s t .chip { cls := 0x12, part := 0xFF, source := a.code, detail := 3 }) ∧
      (s.stage = 15 → s.OpensAlone .chip → Completes (.restart a) s fun t => t.resp.err = false ∧ t.boot.next = .restart ∧ t.bootCount = 0 ∧
        t.boot.sector.count = 0 ∧ t.bit .GLB_BOOT_CTRL 29 = false ∧ Opened s t .chip { cls := 0x12, part := 0xFF, source := a.code, detail := 3 }) ∧
      (Completes (.doldrums a) s fun t => t.resp.err = false ∧ t.bit .GLB_BOOT_CTRL 29 = true ∧ t.boot.sector.doldrums = true ∧
        Within [.GLB_BOOT_CTRL] [.resp, .boot] s t))) ∧
  (∀ s : State,
    (s.watchdogDue = false → Completes .bootWatchdogExpiry s fun t => t = s) ∧
    (s.watchdogDue = true → s.OpensAlone .chip → Completes .bootWatchdogExpiry s fun t => t.fld .GLB_BOOT_STATUS 15 12 = 2 ∧
      t.boot.watchdog = false ∧ t.boot.noted = true ∧ Opened s t .chip (bootFault 2)) ∧
    (s.pins.porstN = false → ∀ c ∈ [Instr.refclk1Loss, .crystalLoss], Completes c s fun t => t = s) ∧
    (s.pins.porstN = true → s.OpensAlone .package →
      (Completes .refclk1Loss s fun t => Opened s t .package { cls := 0x11, part := 0xFF, source := 0xF001 } ∧ t.wbState = s.wbState) ∧
      (Completes .crystalLoss s fun t => Opened s t .package { cls := 0x11, part := 0xFF, source := 0xF001 } ∧ t.boot.crystal = false ∧
        t.wbState = 3 ∧ t.pins.safeStopN = false ∧ t.rd .WL_STO_LO = 0xFFFFFFFF ∧ t.rd .WL_STO_HI = 0xFFFFFFFF))) ∧
  (∀ (aon : Bool) (s : State), Completes (.porstAssert aon) s fun t =>
    t.pins = { s.pins with porstN := false, pwrcycReqN := true, safeStopN := false } ∧ t.stage = 0 ∧ t.sch = {} ∧ t.spl.parts = [] ∧
    (s.spl.commit = false → t.spl.fuses = s.spl.fuses) ∧ t.boot.sector = s.boot.sector ∧ t.boot.recoveryImage = s.boot.recoveryImage ∧
    t.boot.firmware = s.boot.firmware ∧ t.flt.log = s.flt.log ∧
    (∀ x, x < 0x4000000000 → t.getByte x = 0) ∧ (∀ x, 0x4000000000 ≤ x → t.getByte x = s.getByte x) ∧
    (let kept : Bool := aon && !s.boot.aonLost
     t.boot.aonLost = !kept ∧
     (kept = true → t.bootCount = s.bootCount ∧ t.flt.ring = s.flt.ring ∧ t.flt.nextSeq = s.flt.nextSeq ∧ t.boot.tileRecord = s.boot.tileRecord) ∧
     (kept = false → t.flt.ring = [] ∧ t.flt.recoveries = []))) ∧
  (∀ s : State,
    (s.pins.porstN = true → Completes .porstRelease s fun t => t = s) ∧
    (s.pins.porstN = false → Completes .porstRelease s fun t => t.pins = { s.pins with porstN := true } ∧ t.now = 0 ∧ t.time = {} ∧
      t.boot.kind = .powerUp ∧ t.boot.crystal = true ∧ t.bit .MEM_DEEP_STATUS 22 = (!s.pins.pfailN) ∧ SameMemory s t)) ∧
  (∀ (m : MaintReq) (s : State), s.stage ≠ 15 → Completes (.maintRequest m) s fun t => t = s) ∧
  (∀ s : State, s.stage = 15 →
    (Completes (.maintRequest .bootStatus) s fun t => t.resp = { data := bytesLE 4 (s.rd .GLB_BOOT_STATUS) } ∧ Within [] [.resp] s t) ∧
    (∀ n r, s.flt.ring.find? (fun r => r.seq == n) = some r → Completes (.maintRequest (.record n)) s fun t => t.resp = { data := r.bytes } ∧
      Within [] [.resp] s t) ∧
    (∀ k l, alGet s.flt.log k = some l → Completes (.maintRequest (.logPage k)) s fun t => t.resp = { data := logPageBytes l } ∧ Within [] [.resp] s t) ∧
    (∀ second d, d.length ≤ 0x400000 → s.boot.firmware.length = 2 → Completes (.maintRequest (.firmware second d true)) s fun t => t.resp.err = false ∧
      t.boot.firmware.getD (if second then 1 else 0) [] = d ∧ Within [] [.resp, .boot] s t) ∧
    (∀ second d, Completes (.maintRequest (.firmware second d false)) s fun t => t.resp.err = true ∧ Within [] [.resp] s t) ∧
    (∀ src d, signatureCode d s.spl.fuses ≠ .ok → Completes (.maintRequest (.image src d)) s fun t => t.resp.err = true ∧ Within [] [.resp] s t) ∧
    (∀ d, signatureCode d s.spl.fuses = .ok → d.length ≤ 0x100000 →
      (Completes (.maintRequest (.image .recovery d)) s fun t => t.resp.err = false ∧ t.boot = { s.boot with recoveryImage := d } ∧
        Within [] [.resp, .boot] s t) ∧
      (Completes (.maintRequest (.image .copyA d)) s fun t => t.resp.err = false ∧ t.getBytes deepBase d.length = d) ∧
      (Completes (.maintRequest (.image .copyB d)) s fun t => t.resp.err = false ∧ t.getBytes (deepBase + 0x20000000) d.length = d)) ∧
    (∀ w : Word, bitOf w.toNat 30 = false → bitOf w.toNat 29 = true → Completes (.maintRequest (.bootCtrl w)) s fun t => t.resp.err = false ∧
      t.bit .GLB_BOOT_CTRL 29 = true ∧ t.boot.sector.doldrums = true) ∧
    (∀ w : Word, bitOf w.toNat 30 = true → s.OpensAlone .chip → Completes (.maintRequest (.bootCtrl w)) s fun t => t.resp.err = false ∧
      t.bootCount = 0 ∧ t.bit .GLB_BOOT_CTRL 29 = false ∧ Opened s t .chip { cls := 0x12, part := 0xFF, source := Agent.maint.code, detail := 3 }))

/-- R348. -/
def Obligations.WboWriteReject : Prop :=
  ∀ (a : Agent) (r : Reg) (s : State), r.name.info.wbo = true → a ≠ .windbreak →
    Completes (.wboWriteReject a r) s fun t =>
      t.resp.err = false ∧ t.rd .WB_REJECTS = (s.rd .WB_REJECTS + 1) % 2 ^ 32 ∧ t.bit .WB_EVENT 2 = true ∧
      Within (andRecord [.WB_EVENT, .WB_REJECTS]) [.resp, .flt, .deep] s t ∧ SameMemory s t ∧
      (let k : RateKey := { cls := 0x14, code := 1, unit := 0, agent := some a }
       let f : FaultDesc := { cls := 0x14, part := s.agentPart a, source := a.code, detail := 1 }
       match alGet s.flt.rates k with
       | some t0 => if s.now < t0 + 100000000 then t.flt = s.flt else Recorded s t f ∧ alGet t.flt.rates k = some s.now
       | none => Recorded s t f ∧ alGet t.flt.rates k = some s.now)

/-- R346, R351 to R354. -/
def Obligations.WindbreakActs : Prop :=
  (∀ s : State,
    (s.wb.estopLow < 2 → Completes (.estopSample true) s fun t => t.pins.estopInN = false ∧ t.bit .WB_STATUS 28 = true ∧
      t.wb = { s.wb with estopLow := s.wb.estopLow + 1 } ∧ Within [.WB_STATUS] [.pins, .wb] s t ∧ t.wbState = s.wbState) ∧
    (2 ≤ s.wb.estopLow → s.safety.estopCat = 0 → Completes (.estopSample true) s fun t => t.wbState = 3 ∧ t.pins.safeStopN = false ∧
      t.rd .WL_STO_LO = 0xFFFFFFFF ∧ t.rd .WL_STO_HI = 0xFFFFFFFF ∧ t.bit .WB_CAUSE 1 = true) ∧
    (2 ≤ s.wb.estopLow → s.safety.estopCat ≠ 0 → s.wbState = 0 ∨ s.wbState = 1 → Completes (.estopSample true) s fun t =>
      t.wbState = 2 ∧ t.bit .WB_CAUSE 1 = true ∧ t.wb.v0 = s.wb.speed ∧ t.wb.stopAt = s.now ∧ t.pins.safeStopN = s.pins.safeStopN) ∧
    (Completes (.estopSample false) s fun t => t.pins.estopInN = true ∧ t.wb = { s.wb with estopLow := 0 } ∧ t.wbState = s.wbState) ∧
    (s.wbState = 2 → s.stopTimeUp = true → Completes .stopTimeExpiry s fun t => t.wbState = 3 ∧ t.pins.safeStopN = false ∧ t.rd .WL_STO_LO = 0xFFFFFFFF ∧
      t.rd .WL_STO_HI = 0xFFFFFFFF ∧ t.rd .WB_CAUSE = s.rd .WB_CAUSE) ∧
    (s.wbState ≠ 2 ∨ s.stopTimeUp = false → Completes .stopTimeExpiry s fun t => t = s)) ∧
  (∀ (a : Agent) (s : State), s.accessFenced a none = false → s.agentPart a = s.ctrl → s.ctrl ≠ 0xFF →
    (s.wbState = 0 ∨ s.wbState = 1 → Completes (.wbStop a) s fun t => t.resp.err = false ∧ t.wbState = 2 ∧ t.bit .WB_CAUSE 8 = true ∧
      t.wb.v0 = s.wb.speed ∧ t.wb.stopAt = s.now) ∧
    (s.wbState = 2 ∨ s.wbState = 3 → Completes (.wbStop a) s fun t => t.wbState = s.wbState ∧ t.bit .WB_CAUSE 8 = true ∧ t.wb.v0 = s.wb.v0) ∧
    (3 ≤ s.wbState → s.releaseRefused = false → Completes (.wbRelease a) s fun t => t.resp.err = false ∧ t.bit .WB_EVENT 1 = true ∧
      t.rd .WB_CAUSE = 0 ∧ t.pins.safeStopN = true ∧ t.wbState = (if 2 ≤ s.fusionLevel then 1 else 0) ∧
      t.fld .WB_LIMIT 31 16 = s.speedLimit % 2 ^ 16 ∧ t.rd .WL_STO_LO ≤ s.rd .WL_STO_LO ∧
      (∀ k, k < s.nodeCount → k < 32 → t.bit .WL_STO_LO k = false) ∧ (∀ k, 32 ≤ k → k < s.nodeCount → k < 64 → t.bit .WL_STO_HI (k - 32) = false)) ∧
    (s.wbState < 2 → Completes (.wbRelease a) s fun t => Within [] [.resp] s t) ∧
    (s.wbState = 2 ∨ (3 ≤ s.wbState ∧ s.releaseRefused = true) → Completes (.wbRelease a) s fun t => t.bit .WB_EVENT 2 = true ∧ Within [.WB_EVENT] [.resp] s t)) ∧
  (∀ (a : Agent) (s : State), s.agentPart a ≠ s.ctrl → ∀ c ∈ [Instr.wbStop a, .wbRelease a], Completes c s fun t => t.resp.err = true ∧ t.wb = s.wb) ∧
  (∀ s : State, s.bit .WB_STATUS 25 = false →
    (Completes (.lockstepMismatch true false) s fun t => t.bit .WB_STATUS 25 = true ∧ t.fld .WB_STATUS 26 26 = 1 - s.fld .WB_STATUS 26 26 ∧
      t.bit .WB_PAIR (s.fld .WB_STATUS 26 26) = false ∧ t.wbState = s.wbState ∧ t.wb = s.wb ∧
      Recorded s t { cls := 0x14, part := 8, source := 0x8000 }) ∧
    (Completes (.lockstepMismatch false true) s fun t => t.bit .WB_STATUS 25 = true ∧ t.fld .WB_STATUS 26 26 = s.fld .WB_STATUS 26 26 ∧
      t.bit .WB_PAIR (1 - s.fld .WB_STATUS 26 26) = false ∧ t.wb = s.wb ∧ Recorded s t { cls := 0x14, part := 8, source := 0x8000 })) ∧
  (∀ s : State, s.bit .WB_STATUS 25 = true → Completes (.lockstepMismatch true false) s fun t => t.wbState = 3 ∧ t.wb.held = true ∧
      t.pins.safeStopN = false ∧ t.rd .WL_STO_LO = 0xFFFFFFFF ∧ t.rd .WL_STO_HI = 0xFFFFFFFF ∧
      Recorded s t { cls := 0x14, part := 8, source := 0x8000 })
end

