-- ==== Sys2Proof/Laws/Maps.lean ====
section
/-!
SUPPORT. The laws of the finite maps: a read after a write, and the canonical form.
-/

namespace Sys2Proof.Machine

variable {κ ν : Type}

/-- A key erased reads as the default. -/
@[simp] theorem mapGet_mapErase_self [DecidableEq κ] (d : ν) (m : List (κ × ν)) (k : κ) : mapGet d (mapErase k m) k = d := by
  induction m with
  | nil => rfl
  | cons p r ih =>
    by_cases h : p.1 = k
    · simp [mapErase, h, ih]
    · simp [mapErase, mapGet, h, ih]

/-- Erasing a key leaves the others. -/
theorem mapGet_mapErase_ne [DecidableEq κ] (d : ν) (m : List (κ × ν)) {k x : κ} (h : x ≠ k) :
    mapGet d (mapErase k m) x = mapGet d m x := by
  induction m with
  | nil => rfl
  | cons p r ih =>
    by_cases hp : p.1 = k
    · have hx : p.1 ≠ x := fun e => h (e.symm.trans hp)
      simp [mapErase, mapGet, hp, ih]
      intro e
      exact absurd e.symm h
    · simp [mapErase, mapGet, hp, ih]

/-- An erased key is not inserted twice: what an insertion reads as. -/
theorem mapGet_mapInsert [DecidableEq κ] (lt : κ → κ → Bool) (d v : ν) (m : List (κ × ν)) (k x : κ) (h : ∀ p ∈ m, p.1 ≠ k) :
    mapGet d (mapInsert lt k v m) x = if x = k then v else mapGet d m x := by
  induction m with
  | nil =>
    by_cases hx : k = x
    · simp [mapInsert, mapGet, hx]
    · simp [mapInsert, mapGet, hx, Ne.symm hx]
  | cons p r ih =>
    have hp : p.1 ≠ k := h p (by simp)
    have hr := ih (fun q hq => h q (by simp [hq]))
    by_cases hl : lt k p.1
    · rw [mapInsert, if_pos hl]
      by_cases hx : k = x
      · simp [mapGet, hx]
      · simp [mapGet, hx, Ne.symm hx]
    · rw [mapInsert, if_neg hl]
      by_cases hx : p.1 = x
      · have : x ≠ k := fun e => hp (hx.trans e)
        simp [mapGet, hx, this]
      · simp [mapGet, hx, hr]

/-- No entry of an erased key is left. -/
theorem mapErase_ne [DecidableEq κ] (k : κ) (m : List (κ × ν)) : ∀ p ∈ mapErase k m, p.1 ≠ k := by
  induction m with
  | nil => simp [mapErase]
  | cons q r ih =>
    by_cases hq : q.1 = k
    · simpa [mapErase, hq] using ih
    · intro p hp
      simp [mapErase, hq] at hp
      rcases hp with rfl | hp
      · exact hq
      · exact ih p hp

/-- A read after a write to the same key gives the value written. -/
@[simp] theorem mapGet_mapSet_self [DecidableEq κ] [DecidableEq ν] (lt : κ → κ → Bool) (d v : ν) (m : List (κ × ν)) (k : κ) :
    mapGet d (mapSet lt d k v m) k = v := by
  unfold mapSet
  split
  · simp [*]
  · rw [mapGet_mapInsert lt d v _ k k (mapErase_ne k m)]; simp

/-- A write leaves every other key alone, whatever its own default. -/
theorem mapGet_mapSet_ne [DecidableEq κ] [DecidableEq ν] (lt : κ → κ → Bool) (d d' v : ν) (m : List (κ × ν)) {k x : κ} (h : x ≠ k) :
    mapGet d' (mapSet lt d k v m) x = mapGet d' m x := by
  unfold mapSet
  split
  · exact mapGet_mapErase_ne d' m h
  · rw [mapGet_mapInsert lt d' v _ k x (mapErase_ne k m), if_neg h, mapGet_mapErase_ne d' m h]

/-- A filter by keys leaves the reads of the keys it keeps. -/
theorem mapGet_filter [DecidableEq κ] (d : ν) (m : List (κ × ν)) (f : κ → Bool) (x : κ) :
    mapGet d (m.filter (fun p => f p.1)) x = if f x then mapGet d m x else d := by
  induction m with
  | nil => simp [mapGet]
  | cons p r ih =>
    by_cases hf : f p.1
    · by_cases hx : p.1 = x
      · subst hx; simp [hf, mapGet]
      · simp [hf, mapGet, hx, ih]
    · by_cases hx : p.1 = x
      · subst hx; simp [hf, ih]
      · simp [hf, mapGet, hx, ih]

/-! ## The canonical form -/

/-- The canonical form, said of every entry and every pair of entries. -/
def MapWf (lt : κ → κ → Bool) (d : κ → ν) (m : List (κ × ν)) : Prop :=
  (∀ p ∈ m, p.2 ≠ d p.1) ∧ m.Pairwise (fun p q => lt p.1 q.1 = true)

/-- What a strict order gives: the canonical form seen entry by entry is the one the check computes. -/
theorem mapWf_iff [DecidableEq ν] (lt : κ → κ → Bool) (trans : ∀ a b c, lt a b → lt b c → lt a c) (d : κ → ν) (m : List (κ × ν)) :
    mapWf lt d m = true ↔ MapWf lt d m := by
  induction m with
  | nil => simp [mapWf, MapWf]
  | cons p r ih =>
    cases r with
    | nil => simp [mapWf, MapWf]
    | cons q r =>
      simp only [mapWf, Bool.and_eq_true, decide_eq_true_eq, ih, MapWf, List.mem_cons, forall_eq_or_imp, List.pairwise_cons]
      constructor
      · rintro ⟨⟨hp, hl⟩, ⟨hq, hr⟩, hall, hw⟩
        exact ⟨⟨hp, hq, hr⟩, ⟨hl, fun x hx => trans _ _ _ hl (hall x hx)⟩, hall, hw⟩
      · rintro ⟨⟨hp, hq, hr⟩, ⟨hl, _⟩, hall, hw⟩
        exact ⟨⟨hp, hl⟩, ⟨hq, hr⟩, hall, hw⟩

/-- A filtered map keeps its canonical form. -/
theorem MapWf.filter {lt : κ → κ → Bool} {d : κ → ν} {m : List (κ × ν)} (h : MapWf lt d m) (f : κ × ν → Bool) :
    MapWf lt d (m.filter f) :=
  ⟨fun p hp => h.1 p (List.mem_filter.1 hp).1, h.2.filter f⟩

/-- Erasing a key is a filter. -/
theorem mapErase_eq_filter [DecidableEq κ] (k : κ) (m : List (κ × ν)) : mapErase k m = m.filter (fun p => decide (p.1 ≠ k)) := by
  induction m with
  | nil => rfl
  | cons p r ih => by_cases h : p.1 = k <;> simp [mapErase, h, ih]

/-- What an insertion holds. -/
theorem mem_mapInsert (lt : κ → κ → Bool) (k : κ) (v : ν) (m : List (κ × ν)) (p : κ × ν) :
    p ∈ mapInsert lt k v m ↔ p = (k, v) ∨ p ∈ m := by
  induction m with
  | nil => simp [mapInsert]
  | cons q r ih =>
    unfold mapInsert
    split
    · simp
    · simp only [List.mem_cons, ih]
      constructor
      · rintro (h | h | h) <;> simp [h]
      · rintro (h | h | h) <;> simp [h]

/-- An insertion of a new key into a canonical map. -/
theorem MapWf.insert {lt : κ → κ → Bool} (trans : ∀ a b c, lt a b → lt b c → lt a c) (tri : ∀ a b, a ≠ b → lt a b = false → lt b a)
    {d : κ → ν} {m : List (κ × ν)} (h : MapWf lt d m) {k : κ} {v : ν} (hv : v ≠ d k) (hk : ∀ p ∈ m, p.1 ≠ k) :
    MapWf lt d (mapInsert lt k v m) := by
  refine ⟨fun p hp => ?_, ?_⟩
  · rcases (mem_mapInsert lt k v m p).1 hp with rfl | hp
    · exact hv
    · exact h.1 p hp
  · have hs := h.2
    clear h hv
    induction m with
    | nil => simp [mapInsert]
    | cons q r ih =>
      rw [List.pairwise_cons] at hs
      unfold mapInsert
      split
      next hl =>
        rw [List.pairwise_cons]
        refine ⟨fun x hx => ?_, List.pairwise_cons.2 hs⟩
        rcases List.mem_cons.1 hx with rfl | hx
        · exact hl
        · exact trans _ _ _ hl (hs.1 x hx)
      next hl =>
        rw [List.pairwise_cons]
        refine ⟨fun x hx => ?_, ih (fun p hp => hk p (by simp [hp])) hs.2⟩
        rcases (mem_mapInsert lt k v r x).1 hx with rfl | hx
        · exact tri _ _ (Ne.symm (hk q (by simp))) (by simpa using hl)
        · exact hs.1 x hx

/-- A write keeps the canonical form. -/
theorem MapWf.set [DecidableEq κ] [DecidableEq ν] {lt : κ → κ → Bool} (trans : ∀ a b c, lt a b → lt b c → lt a c)
    (tri : ∀ a b, a ≠ b → lt a b = false → lt b a) {d : κ → ν} {m : List (κ × ν)} (h : MapWf lt d m) (k : κ) (v : ν) :
    MapWf lt d (mapSet lt (d k) k v m) := by
  unfold mapSet
  split
  · rw [mapErase_eq_filter]; exact h.filter _
  next hv =>
    refine MapWf.insert trans tri ?_ hv (mapErase_ne k m)
    rw [mapErase_eq_filter]; exact h.filter _

/-! ## The two orders of keys -/

/-- The order of addresses is transitive. -/
theorem natLt_trans (a b c : Nat) : natLt a b → natLt b c → natLt a c := by
  simp only [natLt, decide_eq_true_eq]; omega

/-- The order of addresses is total. -/
theorem natLt_tri (a b : Nat) : a ≠ b → natLt a b = false → natLt b a := by
  simp only [natLt, decide_eq_true_eq, decide_eq_false_iff_not]; omega

/-- The order of registers is transitive. -/
theorem Reg.lt_trans (a b c : Reg) : Reg.lt a b → Reg.lt b c → Reg.lt a c := by
  simp only [Reg.lt, Bool.or_eq_true, Bool.and_eq_true, decide_eq_true_eq, beq_iff_eq]; omega

/-- Two register names with one number are one name. -/
theorem RegName.ctorIdx_inj {a b : RegName} (h : a.ctorIdx = b.ctorIdx) : a = b := by
  have e := congrArg RegName.ofNat h
  rwa [RegName.ofNat_ctorIdx, RegName.ofNat_ctorIdx] at e

/-- The order of registers as a proposition. -/
theorem Reg.lt_iff (a b : Reg) : Reg.lt a b = true ↔ a.name.ctorIdx < b.name.ctorIdx ∨
    a.name.ctorIdx = b.name.ctorIdx ∧ (a.i < b.i ∨ a.i = b.i ∧ a.j < b.j) := by
  simp [Reg.lt]

/-- The order of registers is total. -/
theorem Reg.lt_tri (a b : Reg) : a ≠ b → Reg.lt a b = false → Reg.lt b a := by
  intro h hl
  rw [← Bool.not_eq_true, Reg.lt_iff] at hl
  rw [Reg.lt_iff]
  by_cases hn : a.name.ctorIdx = b.name.ctorIdx
  · have : a.i ≠ b.i ∨ a.j ≠ b.j := by
      by_cases hi : a.i = b.i
      · right; intro hj
        exact h (by cases a; cases b; obtain rfl : _ = _ := RegName.ctorIdx_inj hn; simp_all)
      · exact .inl hi
    omega
  · omega

/-! ### Association lists -/

@[simp] theorem alGet_mapErase_self [DecidableEq κ] (m : List (κ × ν)) (k : κ) : alGet (mapErase k m) k = none := by
  induction m with
  | nil => rfl
  | cons p r ih => unfold mapErase; split <;> simp_all [alGet]

theorem alGet_mapErase_ne [DecidableEq κ] (m : List (κ × ν)) {k x : κ} (h : x ≠ k) : alGet (mapErase k m) x = alGet m x := by
  induction m with
  | nil => rfl
  | cons p r ih =>
    unfold mapErase
    split
    · rename_i e
      rw [ih]
      simp only [alGet]
      rw [if_neg (by rw [e]; exact Ne.symm h)]
    · simp only [alGet, ih]

@[simp] theorem alGet_alSet_self [DecidableEq κ] (m : List (κ × ν)) (k : κ) (v : ν) : alGet (alSet m k v) k = some v := by
  simp [alSet, alGet]

theorem alGet_alSet_ne [DecidableEq κ] (m : List (κ × ν)) {k x : κ} (v : ν) (h : x ≠ k) : alGet (alSet m k v) x = alGet m x := by
  simp only [alSet, alGet]
  rw [if_neg (Ne.symm h), alGet_mapErase_ne m h]

theorem alGet_alSet [DecidableEq κ] (m : List (κ × ν)) (k x : κ) (v : ν) : alGet (alSet m k v) x = if x = k then some v else alGet m x := by
  split
  · rename_i e; rw [e]; exact alGet_alSet_self m k v
  · rename_i e; exact alGet_alSet_ne m v e

end Sys2Proof.Machine
end

