-- ==== Sys2Proof/Laws/State.lean ====
section
/-!
SUPPORT. What each update of the state leaves alone: one lemma for each field and update.
-/

namespace Sys2Proof.Machine

/-! ### wrReg -/

@[simp] theorem State.wrReg_pending (s : State) (r : Reg) (w : Word) : (s.wrReg r w).pending = s.pending := by rfl
@[simp] theorem State.wrReg_now (s : State) (r : Reg) (w : Word) : (s.wrReg r w).now = s.now := by rfl
@[simp] theorem State.wrReg_free (s : State) (r : Reg) (w : Word) : (s.wrReg r w).free = s.free := by rfl
@[simp] theorem State.wrReg_mem (s : State) (r : Reg) (w : Word) : (s.wrReg r w).mem = s.mem := by rfl
@[simp] theorem State.wrReg_badCheck (s : State) (r : Reg) (w : Word) : (s.wrReg r w).badCheck = s.badCheck := by rfl
@[simp] theorem State.wrReg_badWord (s : State) (r : Reg) (w : Word) : (s.wrReg r w).badWord = s.badWord := by rfl
@[simp] theorem State.wrReg_resp (s : State) (r : Reg) (w : Word) : (s.wrReg r w).resp = s.resp := by rfl
@[simp] theorem State.wrReg_heldRead (s : State) (r : Reg) (w : Word) : (s.wrReg r w).heldRead = s.heldRead := by rfl
@[simp] theorem State.wrReg_heldWrite (s : State) (r : Reg) (w : Word) : (s.wrReg r w).heldWrite = s.heldWrite := by rfl
@[simp] theorem State.wrReg_recSel (s : State) (r : Reg) (w : Word) : (s.wrReg r w).recSel = s.recSel := by rfl
@[simp] theorem State.wrReg_isS (s : State) (r : Reg) (w : Word) : (s.wrReg r w).isS = s.isS := by rfl
@[simp] theorem State.wrReg_pulses (s : State) (r : Reg) (w : Word) : (s.wrReg r w).pulses = s.pulses := by rfl
@[simp] theorem State.wrReg_pins (s : State) (r : Reg) (w : Word) : (s.wrReg r w).pins = s.pins := by rfl
@[simp] theorem State.wrReg_boot (s : State) (r : Reg) (w : Word) : (s.wrReg r w).boot = s.boot := by rfl
@[simp] theorem State.wrReg_spl (s : State) (r : Reg) (w : Word) : (s.wrReg r w).spl = s.spl := by rfl
@[simp] theorem State.wrReg_flt (s : State) (r : Reg) (w : Word) : (s.wrReg r w).flt = s.flt := by rfl
@[simp] theorem State.wrReg_time (s : State) (r : Reg) (w : Word) : (s.wrReg r w).time = s.time := by rfl
@[simp] theorem State.wrReg_wb (s : State) (r : Reg) (w : Word) : (s.wrReg r w).wb = s.wb := by rfl
@[simp] theorem State.wrReg_bank (s : State) (r : Reg) (w : Word) : (s.wrReg r w).bank = s.bank := by rfl
@[simp] theorem State.wrReg_hdw (s : State) (r : Reg) (w : Word) : (s.wrReg r w).hdw = s.hdw := by rfl
@[simp] theorem State.wrReg_curves (s : State) (r : Reg) (w : Word) : (s.wrReg r w).curves = s.curves := by rfl
@[simp] theorem State.wrReg_pwr (s : State) (r : Reg) (w : Word) : (s.wrReg r w).pwr = s.pwr := by rfl
@[simp] theorem State.wrReg_sch (s : State) (r : Reg) (w : Word) : (s.wrReg r w).sch = s.sch := by rfl
@[simp] theorem State.wrReg_upool (s : State) (r : Reg) (w : Word) : (s.wrReg r w).upool = s.upool := by rfl
@[simp] theorem State.wrReg_deep (s : State) (r : Reg) (w : Word) : (s.wrReg r w).deep = s.deep := by rfl
@[simp] theorem State.wrReg_upd (s : State) (r : Reg) (w : Word) : (s.wrReg r w).upd = s.upd := by rfl
@[simp] theorem State.wrReg_sqe (s : State) (r : Reg) (w : Word) : (s.wrReg r w).sqe = s.sqe := by rfl
@[simp] theorem State.wrReg_sns (s : State) (r : Reg) (w : Word) : (s.wrReg r w).sns = s.sns := by rfl
@[simp] theorem State.wrReg_xw (s : State) (r : Reg) (w : Word) : (s.wrReg r w).xw = s.xw := by rfl
@[simp] theorem State.wrReg_veer (s : State) (r : Reg) (w : Word) : (s.wrReg r w).veer = s.veer := by rfl
@[simp] theorem State.wrReg_brz (s : State) (r : Reg) (w : Word) : (s.wrReg r w).brz = s.brz := by rfl
@[simp] theorem State.wrReg_wl (s : State) (r : Reg) (w : Word) : (s.wrReg r w).wl = s.wl := by rfl
@[simp] theorem State.wrReg_net (s : State) (r : Reg) (w : Word) : (s.wrReg r w).net = s.net := by rfl
@[simp] theorem State.wrReg_hp (s : State) (r : Reg) (w : Word) : (s.wrReg r w).hp = s.hp := by rfl

/-! ### wr -/

@[simp] theorem State.wr_pending (s : State) (n : RegName) (v i j : Nat) : (s.wr n v i j).pending = s.pending := by rfl
@[simp] theorem State.wr_now (s : State) (n : RegName) (v i j : Nat) : (s.wr n v i j).now = s.now := by rfl
@[simp] theorem State.wr_free (s : State) (n : RegName) (v i j : Nat) : (s.wr n v i j).free = s.free := by rfl
@[simp] theorem State.wr_mem (s : State) (n : RegName) (v i j : Nat) : (s.wr n v i j).mem = s.mem := by rfl
@[simp] theorem State.wr_badCheck (s : State) (n : RegName) (v i j : Nat) : (s.wr n v i j).badCheck = s.badCheck := by rfl
@[simp] theorem State.wr_badWord (s : State) (n : RegName) (v i j : Nat) : (s.wr n v i j).badWord = s.badWord := by rfl
@[simp] theorem State.wr_resp (s : State) (n : RegName) (v i j : Nat) : (s.wr n v i j).resp = s.resp := by rfl
@[simp] theorem State.wr_heldRead (s : State) (n : RegName) (v i j : Nat) : (s.wr n v i j).heldRead = s.heldRead := by rfl
@[simp] theorem State.wr_heldWrite (s : State) (n : RegName) (v i j : Nat) : (s.wr n v i j).heldWrite = s.heldWrite := by rfl
@[simp] theorem State.wr_recSel (s : State) (n : RegName) (v i j : Nat) : (s.wr n v i j).recSel = s.recSel := by rfl
@[simp] theorem State.wr_isS (s : State) (n : RegName) (v i j : Nat) : (s.wr n v i j).isS = s.isS := by rfl
@[simp] theorem State.wr_pulses (s : State) (n : RegName) (v i j : Nat) : (s.wr n v i j).pulses = s.pulses := by rfl
@[simp] theorem State.wr_pins (s : State) (n : RegName) (v i j : Nat) : (s.wr n v i j).pins = s.pins := by rfl
@[simp] theorem State.wr_boot (s : State) (n : RegName) (v i j : Nat) : (s.wr n v i j).boot = s.boot := by rfl
@[simp] theorem State.wr_spl (s : State) (n : RegName) (v i j : Nat) : (s.wr n v i j).spl = s.spl := by rfl
@[simp] theorem State.wr_flt (s : State) (n : RegName) (v i j : Nat) : (s.wr n v i j).flt = s.flt := by rfl
@[simp] theorem State.wr_time (s : State) (n : RegName) (v i j : Nat) : (s.wr n v i j).time = s.time := by rfl
@[simp] theorem State.wr_wb (s : State) (n : RegName) (v i j : Nat) : (s.wr n v i j).wb = s.wb := by rfl
@[simp] theorem State.wr_bank (s : State) (n : RegName) (v i j : Nat) : (s.wr n v i j).bank = s.bank := by rfl
@[simp] theorem State.wr_hdw (s : State) (n : RegName) (v i j : Nat) : (s.wr n v i j).hdw = s.hdw := by rfl
@[simp] theorem State.wr_curves (s : State) (n : RegName) (v i j : Nat) : (s.wr n v i j).curves = s.curves := by rfl
@[simp] theorem State.wr_pwr (s : State) (n : RegName) (v i j : Nat) : (s.wr n v i j).pwr = s.pwr := by rfl
@[simp] theorem State.wr_sch (s : State) (n : RegName) (v i j : Nat) : (s.wr n v i j).sch = s.sch := by rfl
@[simp] theorem State.wr_upool (s : State) (n : RegName) (v i j : Nat) : (s.wr n v i j).upool = s.upool := by rfl
@[simp] theorem State.wr_deep (s : State) (n : RegName) (v i j : Nat) : (s.wr n v i j).deep = s.deep := by rfl
@[simp] theorem State.wr_upd (s : State) (n : RegName) (v i j : Nat) : (s.wr n v i j).upd = s.upd := by rfl
@[simp] theorem State.wr_sqe (s : State) (n : RegName) (v i j : Nat) : (s.wr n v i j).sqe = s.sqe := by rfl
@[simp] theorem State.wr_sns (s : State) (n : RegName) (v i j : Nat) : (s.wr n v i j).sns = s.sns := by rfl
@[simp] theorem State.wr_xw (s : State) (n : RegName) (v i j : Nat) : (s.wr n v i j).xw = s.xw := by rfl
@[simp] theorem State.wr_veer (s : State) (n : RegName) (v i j : Nat) : (s.wr n v i j).veer = s.veer := by rfl
@[simp] theorem State.wr_brz (s : State) (n : RegName) (v i j : Nat) : (s.wr n v i j).brz = s.brz := by rfl
@[simp] theorem State.wr_wl (s : State) (n : RegName) (v i j : Nat) : (s.wr n v i j).wl = s.wl := by rfl
@[simp] theorem State.wr_net (s : State) (n : RegName) (v i j : Nat) : (s.wr n v i j).net = s.net := by rfl
@[simp] theorem State.wr_hp (s : State) (n : RegName) (v i j : Nat) : (s.wr n v i j).hp = s.hp := by rfl

/-! ### wrF -/

@[simp] theorem State.wrF_pending (s : State) (n : RegName) (hi lo v i j : Nat) : (s.wrF n hi lo v i j).pending = s.pending := by rfl
@[simp] theorem State.wrF_now (s : State) (n : RegName) (hi lo v i j : Nat) : (s.wrF n hi lo v i j).now = s.now := by rfl
@[simp] theorem State.wrF_free (s : State) (n : RegName) (hi lo v i j : Nat) : (s.wrF n hi lo v i j).free = s.free := by rfl
@[simp] theorem State.wrF_mem (s : State) (n : RegName) (hi lo v i j : Nat) : (s.wrF n hi lo v i j).mem = s.mem := by rfl
@[simp] theorem State.wrF_badCheck (s : State) (n : RegName) (hi lo v i j : Nat) : (s.wrF n hi lo v i j).badCheck = s.badCheck := by rfl
@[simp] theorem State.wrF_badWord (s : State) (n : RegName) (hi lo v i j : Nat) : (s.wrF n hi lo v i j).badWord = s.badWord := by rfl
@[simp] theorem State.wrF_resp (s : State) (n : RegName) (hi lo v i j : Nat) : (s.wrF n hi lo v i j).resp = s.resp := by rfl
@[simp] theorem State.wrF_heldRead (s : State) (n : RegName) (hi lo v i j : Nat) : (s.wrF n hi lo v i j).heldRead = s.heldRead := by rfl
@[simp] theorem State.wrF_heldWrite (s : State) (n : RegName) (hi lo v i j : Nat) : (s.wrF n hi lo v i j).heldWrite = s.heldWrite := by rfl
@[simp] theorem State.wrF_recSel (s : State) (n : RegName) (hi lo v i j : Nat) : (s.wrF n hi lo v i j).recSel = s.recSel := by rfl
@[simp] theorem State.wrF_isS (s : State) (n : RegName) (hi lo v i j : Nat) : (s.wrF n hi lo v i j).isS = s.isS := by rfl
@[simp] theorem State.wrF_pulses (s : State) (n : RegName) (hi lo v i j : Nat) : (s.wrF n hi lo v i j).pulses = s.pulses := by rfl
@[simp] theorem State.wrF_pins (s : State) (n : RegName) (hi lo v i j : Nat) : (s.wrF n hi lo v i j).pins = s.pins := by rfl
@[simp] theorem State.wrF_boot (s : State) (n : RegName) (hi lo v i j : Nat) : (s.wrF n hi lo v i j).boot = s.boot := by rfl
@[simp] theorem State.wrF_spl (s : State) (n : RegName) (hi lo v i j : Nat) : (s.wrF n hi lo v i j).spl = s.spl := by rfl
@[simp] theorem State.wrF_flt (s : State) (n : RegName) (hi lo v i j : Nat) : (s.wrF n hi lo v i j).flt = s.flt := by rfl
@[simp] theorem State.wrF_time (s : State) (n : RegName) (hi lo v i j : Nat) : (s.wrF n hi lo v i j).time = s.time := by rfl
@[simp] theorem State.wrF_wb (s : State) (n : RegName) (hi lo v i j : Nat) : (s.wrF n hi lo v i j).wb = s.wb := by rfl
@[simp] theorem State.wrF_bank (s : State) (n : RegName) (hi lo v i j : Nat) : (s.wrF n hi lo v i j).bank = s.bank := by rfl
@[simp] theorem State.wrF_hdw (s : State) (n : RegName) (hi lo v i j : Nat) : (s.wrF n hi lo v i j).hdw = s.hdw := by rfl
@[simp] theorem State.wrF_curves (s : State) (n : RegName) (hi lo v i j : Nat) : (s.wrF n hi lo v i j).curves = s.curves := by rfl
@[simp] theorem State.wrF_pwr (s : State) (n : RegName) (hi lo v i j : Nat) : (s.wrF n hi lo v i j).pwr = s.pwr := by rfl
@[simp] theorem State.wrF_sch (s : State) (n : RegName) (hi lo v i j : Nat) : (s.wrF n hi lo v i j).sch = s.sch := by rfl
@[simp] theorem State.wrF_upool (s : State) (n : RegName) (hi lo v i j : Nat) : (s.wrF n hi lo v i j).upool = s.upool := by rfl
@[simp] theorem State.wrF_deep (s : State) (n : RegName) (hi lo v i j : Nat) : (s.wrF n hi lo v i j).deep = s.deep := by rfl
@[simp] theorem State.wrF_upd (s : State) (n : RegName) (hi lo v i j : Nat) : (s.wrF n hi lo v i j).upd = s.upd := by rfl
@[simp] theorem State.wrF_sqe (s : State) (n : RegName) (hi lo v i j : Nat) : (s.wrF n hi lo v i j).sqe = s.sqe := by rfl
@[simp] theorem State.wrF_sns (s : State) (n : RegName) (hi lo v i j : Nat) : (s.wrF n hi lo v i j).sns = s.sns := by rfl
@[simp] theorem State.wrF_xw (s : State) (n : RegName) (hi lo v i j : Nat) : (s.wrF n hi lo v i j).xw = s.xw := by rfl
@[simp] theorem State.wrF_veer (s : State) (n : RegName) (hi lo v i j : Nat) : (s.wrF n hi lo v i j).veer = s.veer := by rfl
@[simp] theorem State.wrF_brz (s : State) (n : RegName) (hi lo v i j : Nat) : (s.wrF n hi lo v i j).brz = s.brz := by rfl
@[simp] theorem State.wrF_wl (s : State) (n : RegName) (hi lo v i j : Nat) : (s.wrF n hi lo v i j).wl = s.wl := by rfl
@[simp] theorem State.wrF_net (s : State) (n : RegName) (hi lo v i j : Nat) : (s.wrF n hi lo v i j).net = s.net := by rfl
@[simp] theorem State.wrF_hp (s : State) (n : RegName) (hi lo v i j : Nat) : (s.wrF n hi lo v i j).hp = s.hp := by rfl

/-! ### wrB -/

@[simp] theorem State.wrB_pending (s : State) (n : RegName) (k : Nat) (b : Bool) (i j : Nat) : (s.wrB n k b i j).pending = s.pending := by rfl
@[simp] theorem State.wrB_now (s : State) (n : RegName) (k : Nat) (b : Bool) (i j : Nat) : (s.wrB n k b i j).now = s.now := by rfl
@[simp] theorem State.wrB_free (s : State) (n : RegName) (k : Nat) (b : Bool) (i j : Nat) : (s.wrB n k b i j).free = s.free := by rfl
@[simp] theorem State.wrB_mem (s : State) (n : RegName) (k : Nat) (b : Bool) (i j : Nat) : (s.wrB n k b i j).mem = s.mem := by rfl
@[simp] theorem State.wrB_badCheck (s : State) (n : RegName) (k : Nat) (b : Bool) (i j : Nat) : (s.wrB n k b i j).badCheck = s.badCheck := by rfl
@[simp] theorem State.wrB_badWord (s : State) (n : RegName) (k : Nat) (b : Bool) (i j : Nat) : (s.wrB n k b i j).badWord = s.badWord := by rfl
@[simp] theorem State.wrB_resp (s : State) (n : RegName) (k : Nat) (b : Bool) (i j : Nat) : (s.wrB n k b i j).resp = s.resp := by rfl
@[simp] theorem State.wrB_heldRead (s : State) (n : RegName) (k : Nat) (b : Bool) (i j : Nat) : (s.wrB n k b i j).heldRead = s.heldRead := by rfl
@[simp] theorem State.wrB_heldWrite (s : State) (n : RegName) (k : Nat) (b : Bool) (i j : Nat) : (s.wrB n k b i j).heldWrite = s.heldWrite := by rfl
@[simp] theorem State.wrB_recSel (s : State) (n : RegName) (k : Nat) (b : Bool) (i j : Nat) : (s.wrB n k b i j).recSel = s.recSel := by rfl
@[simp] theorem State.wrB_isS (s : State) (n : RegName) (k : Nat) (b : Bool) (i j : Nat) : (s.wrB n k b i j).isS = s.isS := by rfl
@[simp] theorem State.wrB_pulses (s : State) (n : RegName) (k : Nat) (b : Bool) (i j : Nat) : (s.wrB n k b i j).pulses = s.pulses := by rfl
@[simp] theorem State.wrB_pins (s : State) (n : RegName) (k : Nat) (b : Bool) (i j : Nat) : (s.wrB n k b i j).pins = s.pins := by rfl
@[simp] theorem State.wrB_boot (s : State) (n : RegName) (k : Nat) (b : Bool) (i j : Nat) : (s.wrB n k b i j).boot = s.boot := by rfl
@[simp] theorem State.wrB_spl (s : State) (n : RegName) (k : Nat) (b : Bool) (i j : Nat) : (s.wrB n k b i j).spl = s.spl := by rfl
@[simp] theorem State.wrB_flt (s : State) (n : RegName) (k : Nat) (b : Bool) (i j : Nat) : (s.wrB n k b i j).flt = s.flt := by rfl
@[simp] theorem State.wrB_time (s : State) (n : RegName) (k : Nat) (b : Bool) (i j : Nat) : (s.wrB n k b i j).time = s.time := by rfl
@[simp] theorem State.wrB_wb (s : State) (n : RegName) (k : Nat) (b : Bool) (i j : Nat) : (s.wrB n k b i j).wb = s.wb := by rfl
@[simp] theorem State.wrB_bank (s : State) (n : RegName) (k : Nat) (b : Bool) (i j : Nat) : (s.wrB n k b i j).bank = s.bank := by rfl
@[simp] theorem State.wrB_hdw (s : State) (n : RegName) (k : Nat) (b : Bool) (i j : Nat) : (s.wrB n k b i j).hdw = s.hdw := by rfl
@[simp] theorem State.wrB_curves (s : State) (n : RegName) (k : Nat) (b : Bool) (i j : Nat) : (s.wrB n k b i j).curves = s.curves := by rfl
@[simp] theorem State.wrB_pwr (s : State) (n : RegName) (k : Nat) (b : Bool) (i j : Nat) : (s.wrB n k b i j).pwr = s.pwr := by rfl
@[simp] theorem State.wrB_sch (s : State) (n : RegName) (k : Nat) (b : Bool) (i j : Nat) : (s.wrB n k b i j).sch = s.sch := by rfl
@[simp] theorem State.wrB_upool (s : State) (n : RegName) (k : Nat) (b : Bool) (i j : Nat) : (s.wrB n k b i j).upool = s.upool := by rfl
@[simp] theorem State.wrB_deep (s : State) (n : RegName) (k : Nat) (b : Bool) (i j : Nat) : (s.wrB n k b i j).deep = s.deep := by rfl
@[simp] theorem State.wrB_upd (s : State) (n : RegName) (k : Nat) (b : Bool) (i j : Nat) : (s.wrB n k b i j).upd = s.upd := by rfl
@[simp] theorem State.wrB_sqe (s : State) (n : RegName) (k : Nat) (b : Bool) (i j : Nat) : (s.wrB n k b i j).sqe = s.sqe := by rfl
@[simp] theorem State.wrB_sns (s : State) (n : RegName) (k : Nat) (b : Bool) (i j : Nat) : (s.wrB n k b i j).sns = s.sns := by rfl
@[simp] theorem State.wrB_xw (s : State) (n : RegName) (k : Nat) (b : Bool) (i j : Nat) : (s.wrB n k b i j).xw = s.xw := by rfl
@[simp] theorem State.wrB_veer (s : State) (n : RegName) (k : Nat) (b : Bool) (i j : Nat) : (s.wrB n k b i j).veer = s.veer := by rfl
@[simp] theorem State.wrB_brz (s : State) (n : RegName) (k : Nat) (b : Bool) (i j : Nat) : (s.wrB n k b i j).brz = s.brz := by rfl
@[simp] theorem State.wrB_wl (s : State) (n : RegName) (k : Nat) (b : Bool) (i j : Nat) : (s.wrB n k b i j).wl = s.wl := by rfl
@[simp] theorem State.wrB_net (s : State) (n : RegName) (k : Nat) (b : Bool) (i j : Nat) : (s.wrB n k b i j).net = s.net := by rfl
@[simp] theorem State.wrB_hp (s : State) (n : RegName) (k : Nat) (b : Bool) (i j : Nat) : (s.wrB n k b i j).hp = s.hp := by rfl

/-! ### setB -/

@[simp] theorem State.setB_pending (s : State) (n : RegName) (k i j : Nat) : (s.setB n k i j).pending = s.pending := by rfl
@[simp] theorem State.setB_now (s : State) (n : RegName) (k i j : Nat) : (s.setB n k i j).now = s.now := by rfl
@[simp] theorem State.setB_free (s : State) (n : RegName) (k i j : Nat) : (s.setB n k i j).free = s.free := by rfl
@[simp] theorem State.setB_mem (s : State) (n : RegName) (k i j : Nat) : (s.setB n k i j).mem = s.mem := by rfl
@[simp] theorem State.setB_badCheck (s : State) (n : RegName) (k i j : Nat) : (s.setB n k i j).badCheck = s.badCheck := by rfl
@[simp] theorem State.setB_badWord (s : State) (n : RegName) (k i j : Nat) : (s.setB n k i j).badWord = s.badWord := by rfl
@[simp] theorem State.setB_resp (s : State) (n : RegName) (k i j : Nat) : (s.setB n k i j).resp = s.resp := by rfl
@[simp] theorem State.setB_heldRead (s : State) (n : RegName) (k i j : Nat) : (s.setB n k i j).heldRead = s.heldRead := by rfl
@[simp] theorem State.setB_heldWrite (s : State) (n : RegName) (k i j : Nat) : (s.setB n k i j).heldWrite = s.heldWrite := by rfl
@[simp] theorem State.setB_recSel (s : State) (n : RegName) (k i j : Nat) : (s.setB n k i j).recSel = s.recSel := by rfl
@[simp] theorem State.setB_isS (s : State) (n : RegName) (k i j : Nat) : (s.setB n k i j).isS = s.isS := by rfl
@[simp] theorem State.setB_pulses (s : State) (n : RegName) (k i j : Nat) : (s.setB n k i j).pulses = s.pulses := by rfl
@[simp] theorem State.setB_pins (s : State) (n : RegName) (k i j : Nat) : (s.setB n k i j).pins = s.pins := by rfl
@[simp] theorem State.setB_boot (s : State) (n : RegName) (k i j : Nat) : (s.setB n k i j).boot = s.boot := by rfl
@[simp] theorem State.setB_spl (s : State) (n : RegName) (k i j : Nat) : (s.setB n k i j).spl = s.spl := by rfl
@[simp] theorem State.setB_flt (s : State) (n : RegName) (k i j : Nat) : (s.setB n k i j).flt = s.flt := by rfl
@[simp] theorem State.setB_time (s : State) (n : RegName) (k i j : Nat) : (s.setB n k i j).time = s.time := by rfl
@[simp] theorem State.setB_wb (s : State) (n : RegName) (k i j : Nat) : (s.setB n k i j).wb = s.wb := by rfl
@[simp] theorem State.setB_bank (s : State) (n : RegName) (k i j : Nat) : (s.setB n k i j).bank = s.bank := by rfl
@[simp] theorem State.setB_hdw (s : State) (n : RegName) (k i j : Nat) : (s.setB n k i j).hdw = s.hdw := by rfl
@[simp] theorem State.setB_curves (s : State) (n : RegName) (k i j : Nat) : (s.setB n k i j).curves = s.curves := by rfl
@[simp] theorem State.setB_pwr (s : State) (n : RegName) (k i j : Nat) : (s.setB n k i j).pwr = s.pwr := by rfl
@[simp] theorem State.setB_sch (s : State) (n : RegName) (k i j : Nat) : (s.setB n k i j).sch = s.sch := by rfl
@[simp] theorem State.setB_upool (s : State) (n : RegName) (k i j : Nat) : (s.setB n k i j).upool = s.upool := by rfl
@[simp] theorem State.setB_deep (s : State) (n : RegName) (k i j : Nat) : (s.setB n k i j).deep = s.deep := by rfl
@[simp] theorem State.setB_upd (s : State) (n : RegName) (k i j : Nat) : (s.setB n k i j).upd = s.upd := by rfl
@[simp] theorem State.setB_sqe (s : State) (n : RegName) (k i j : Nat) : (s.setB n k i j).sqe = s.sqe := by rfl
@[simp] theorem State.setB_sns (s : State) (n : RegName) (k i j : Nat) : (s.setB n k i j).sns = s.sns := by rfl
@[simp] theorem State.setB_xw (s : State) (n : RegName) (k i j : Nat) : (s.setB n k i j).xw = s.xw := by rfl
@[simp] theorem State.setB_veer (s : State) (n : RegName) (k i j : Nat) : (s.setB n k i j).veer = s.veer := by rfl
@[simp] theorem State.setB_brz (s : State) (n : RegName) (k i j : Nat) : (s.setB n k i j).brz = s.brz := by rfl
@[simp] theorem State.setB_wl (s : State) (n : RegName) (k i j : Nat) : (s.setB n k i j).wl = s.wl := by rfl
@[simp] theorem State.setB_net (s : State) (n : RegName) (k i j : Nat) : (s.setB n k i j).net = s.net := by rfl
@[simp] theorem State.setB_hp (s : State) (n : RegName) (k i j : Nat) : (s.setB n k i j).hp = s.hp := by rfl

/-! ### clrB -/

@[simp] theorem State.clrB_pending (s : State) (n : RegName) (k i j : Nat) : (s.clrB n k i j).pending = s.pending := by rfl
@[simp] theorem State.clrB_now (s : State) (n : RegName) (k i j : Nat) : (s.clrB n k i j).now = s.now := by rfl
@[simp] theorem State.clrB_free (s : State) (n : RegName) (k i j : Nat) : (s.clrB n k i j).free = s.free := by rfl
@[simp] theorem State.clrB_mem (s : State) (n : RegName) (k i j : Nat) : (s.clrB n k i j).mem = s.mem := by rfl
@[simp] theorem State.clrB_badCheck (s : State) (n : RegName) (k i j : Nat) : (s.clrB n k i j).badCheck = s.badCheck := by rfl
@[simp] theorem State.clrB_badWord (s : State) (n : RegName) (k i j : Nat) : (s.clrB n k i j).badWord = s.badWord := by rfl
@[simp] theorem State.clrB_resp (s : State) (n : RegName) (k i j : Nat) : (s.clrB n k i j).resp = s.resp := by rfl
@[simp] theorem State.clrB_heldRead (s : State) (n : RegName) (k i j : Nat) : (s.clrB n k i j).heldRead = s.heldRead := by rfl
@[simp] theorem State.clrB_heldWrite (s : State) (n : RegName) (k i j : Nat) : (s.clrB n k i j).heldWrite = s.heldWrite := by rfl
@[simp] theorem State.clrB_recSel (s : State) (n : RegName) (k i j : Nat) : (s.clrB n k i j).recSel = s.recSel := by rfl
@[simp] theorem State.clrB_isS (s : State) (n : RegName) (k i j : Nat) : (s.clrB n k i j).isS = s.isS := by rfl
@[simp] theorem State.clrB_pulses (s : State) (n : RegName) (k i j : Nat) : (s.clrB n k i j).pulses = s.pulses := by rfl
@[simp] theorem State.clrB_pins (s : State) (n : RegName) (k i j : Nat) : (s.clrB n k i j).pins = s.pins := by rfl
@[simp] theorem State.clrB_boot (s : State) (n : RegName) (k i j : Nat) : (s.clrB n k i j).boot = s.boot := by rfl
@[simp] theorem State.clrB_spl (s : State) (n : RegName) (k i j : Nat) : (s.clrB n k i j).spl = s.spl := by rfl
@[simp] theorem State.clrB_flt (s : State) (n : RegName) (k i j : Nat) : (s.clrB n k i j).flt = s.flt := by rfl
@[simp] theorem State.clrB_time (s : State) (n : RegName) (k i j : Nat) : (s.clrB n k i j).time = s.time := by rfl
@[simp] theorem State.clrB_wb (s : State) (n : RegName) (k i j : Nat) : (s.clrB n k i j).wb = s.wb := by rfl
@[simp] theorem State.clrB_bank (s : State) (n : RegName) (k i j : Nat) : (s.clrB n k i j).bank = s.bank := by rfl
@[simp] theorem State.clrB_hdw (s : State) (n : RegName) (k i j : Nat) : (s.clrB n k i j).hdw = s.hdw := by rfl
@[simp] theorem State.clrB_curves (s : State) (n : RegName) (k i j : Nat) : (s.clrB n k i j).curves = s.curves := by rfl
@[simp] theorem State.clrB_pwr (s : State) (n : RegName) (k i j : Nat) : (s.clrB n k i j).pwr = s.pwr := by rfl
@[simp] theorem State.clrB_sch (s : State) (n : RegName) (k i j : Nat) : (s.clrB n k i j).sch = s.sch := by rfl
@[simp] theorem State.clrB_upool (s : State) (n : RegName) (k i j : Nat) : (s.clrB n k i j).upool = s.upool := by rfl
@[simp] theorem State.clrB_deep (s : State) (n : RegName) (k i j : Nat) : (s.clrB n k i j).deep = s.deep := by rfl
@[simp] theorem State.clrB_upd (s : State) (n : RegName) (k i j : Nat) : (s.clrB n k i j).upd = s.upd := by rfl
@[simp] theorem State.clrB_sqe (s : State) (n : RegName) (k i j : Nat) : (s.clrB n k i j).sqe = s.sqe := by rfl
@[simp] theorem State.clrB_sns (s : State) (n : RegName) (k i j : Nat) : (s.clrB n k i j).sns = s.sns := by rfl
@[simp] theorem State.clrB_xw (s : State) (n : RegName) (k i j : Nat) : (s.clrB n k i j).xw = s.xw := by rfl
@[simp] theorem State.clrB_veer (s : State) (n : RegName) (k i j : Nat) : (s.clrB n k i j).veer = s.veer := by rfl
@[simp] theorem State.clrB_brz (s : State) (n : RegName) (k i j : Nat) : (s.clrB n k i j).brz = s.brz := by rfl
@[simp] theorem State.clrB_wl (s : State) (n : RegName) (k i j : Nat) : (s.clrB n k i j).wl = s.wl := by rfl
@[simp] theorem State.clrB_net (s : State) (n : RegName) (k i j : Nat) : (s.clrB n k i j).net = s.net := by rfl
@[simp] theorem State.clrB_hp (s : State) (n : RegName) (k i j : Nat) : (s.clrB n k i j).hp = s.hp := by rfl

/-! ### bump -/

@[simp] theorem State.bump_pending (s : State) (n : RegName) (i j : Nat) : (s.bump n i j).pending = s.pending := by rfl
@[simp] theorem State.bump_now (s : State) (n : RegName) (i j : Nat) : (s.bump n i j).now = s.now := by rfl
@[simp] theorem State.bump_free (s : State) (n : RegName) (i j : Nat) : (s.bump n i j).free = s.free := by rfl
@[simp] theorem State.bump_mem (s : State) (n : RegName) (i j : Nat) : (s.bump n i j).mem = s.mem := by rfl
@[simp] theorem State.bump_badCheck (s : State) (n : RegName) (i j : Nat) : (s.bump n i j).badCheck = s.badCheck := by rfl
@[simp] theorem State.bump_badWord (s : State) (n : RegName) (i j : Nat) : (s.bump n i j).badWord = s.badWord := by rfl
@[simp] theorem State.bump_resp (s : State) (n : RegName) (i j : Nat) : (s.bump n i j).resp = s.resp := by rfl
@[simp] theorem State.bump_heldRead (s : State) (n : RegName) (i j : Nat) : (s.bump n i j).heldRead = s.heldRead := by rfl
@[simp] theorem State.bump_heldWrite (s : State) (n : RegName) (i j : Nat) : (s.bump n i j).heldWrite = s.heldWrite := by rfl
@[simp] theorem State.bump_recSel (s : State) (n : RegName) (i j : Nat) : (s.bump n i j).recSel = s.recSel := by rfl
@[simp] theorem State.bump_isS (s : State) (n : RegName) (i j : Nat) : (s.bump n i j).isS = s.isS := by rfl
@[simp] theorem State.bump_pulses (s : State) (n : RegName) (i j : Nat) : (s.bump n i j).pulses = s.pulses := by rfl
@[simp] theorem State.bump_pins (s : State) (n : RegName) (i j : Nat) : (s.bump n i j).pins = s.pins := by rfl
@[simp] theorem State.bump_boot (s : State) (n : RegName) (i j : Nat) : (s.bump n i j).boot = s.boot := by rfl
@[simp] theorem State.bump_spl (s : State) (n : RegName) (i j : Nat) : (s.bump n i j).spl = s.spl := by rfl
@[simp] theorem State.bump_flt (s : State) (n : RegName) (i j : Nat) : (s.bump n i j).flt = s.flt := by rfl
@[simp] theorem State.bump_time (s : State) (n : RegName) (i j : Nat) : (s.bump n i j).time = s.time := by rfl
@[simp] theorem State.bump_wb (s : State) (n : RegName) (i j : Nat) : (s.bump n i j).wb = s.wb := by rfl
@[simp] theorem State.bump_bank (s : State) (n : RegName) (i j : Nat) : (s.bump n i j).bank = s.bank := by rfl
@[simp] theorem State.bump_hdw (s : State) (n : RegName) (i j : Nat) : (s.bump n i j).hdw = s.hdw := by rfl
@[simp] theorem State.bump_curves (s : State) (n : RegName) (i j : Nat) : (s.bump n i j).curves = s.curves := by rfl
@[simp] theorem State.bump_pwr (s : State) (n : RegName) (i j : Nat) : (s.bump n i j).pwr = s.pwr := by rfl
@[simp] theorem State.bump_sch (s : State) (n : RegName) (i j : Nat) : (s.bump n i j).sch = s.sch := by rfl
@[simp] theorem State.bump_upool (s : State) (n : RegName) (i j : Nat) : (s.bump n i j).upool = s.upool := by rfl
@[simp] theorem State.bump_deep (s : State) (n : RegName) (i j : Nat) : (s.bump n i j).deep = s.deep := by rfl
@[simp] theorem State.bump_upd (s : State) (n : RegName) (i j : Nat) : (s.bump n i j).upd = s.upd := by rfl
@[simp] theorem State.bump_sqe (s : State) (n : RegName) (i j : Nat) : (s.bump n i j).sqe = s.sqe := by rfl
@[simp] theorem State.bump_sns (s : State) (n : RegName) (i j : Nat) : (s.bump n i j).sns = s.sns := by rfl
@[simp] theorem State.bump_xw (s : State) (n : RegName) (i j : Nat) : (s.bump n i j).xw = s.xw := by rfl
@[simp] theorem State.bump_veer (s : State) (n : RegName) (i j : Nat) : (s.bump n i j).veer = s.veer := by rfl
@[simp] theorem State.bump_brz (s : State) (n : RegName) (i j : Nat) : (s.bump n i j).brz = s.brz := by rfl
@[simp] theorem State.bump_wl (s : State) (n : RegName) (i j : Nat) : (s.bump n i j).wl = s.wl := by rfl
@[simp] theorem State.bump_net (s : State) (n : RegName) (i j : Nat) : (s.bump n i j).net = s.net := by rfl
@[simp] theorem State.bump_hp (s : State) (n : RegName) (i j : Nat) : (s.bump n i j).hp = s.hp := by rfl

/-! ### bumpF -/

@[simp] theorem State.bumpF_pending (s : State) (n : RegName) (hi lo i j : Nat) : (s.bumpF n hi lo i j).pending = s.pending := by rfl
@[simp] theorem State.bumpF_now (s : State) (n : RegName) (hi lo i j : Nat) : (s.bumpF n hi lo i j).now = s.now := by rfl
@[simp] theorem State.bumpF_free (s : State) (n : RegName) (hi lo i j : Nat) : (s.bumpF n hi lo i j).free = s.free := by rfl
@[simp] theorem State.bumpF_mem (s : State) (n : RegName) (hi lo i j : Nat) : (s.bumpF n hi lo i j).mem = s.mem := by rfl
@[simp] theorem State.bumpF_badCheck (s : State) (n : RegName) (hi lo i j : Nat) : (s.bumpF n hi lo i j).badCheck = s.badCheck := by rfl
@[simp] theorem State.bumpF_badWord (s : State) (n : RegName) (hi lo i j : Nat) : (s.bumpF n hi lo i j).badWord = s.badWord := by rfl
@[simp] theorem State.bumpF_resp (s : State) (n : RegName) (hi lo i j : Nat) : (s.bumpF n hi lo i j).resp = s.resp := by rfl
@[simp] theorem State.bumpF_heldRead (s : State) (n : RegName) (hi lo i j : Nat) : (s.bumpF n hi lo i j).heldRead = s.heldRead := by rfl
@[simp] theorem State.bumpF_heldWrite (s : State) (n : RegName) (hi lo i j : Nat) : (s.bumpF n hi lo i j).heldWrite = s.heldWrite := by rfl
@[simp] theorem State.bumpF_recSel (s : State) (n : RegName) (hi lo i j : Nat) : (s.bumpF n hi lo i j).recSel = s.recSel := by rfl
@[simp] theorem State.bumpF_isS (s : State) (n : RegName) (hi lo i j : Nat) : (s.bumpF n hi lo i j).isS = s.isS := by rfl
@[simp] theorem State.bumpF_pulses (s : State) (n : RegName) (hi lo i j : Nat) : (s.bumpF n hi lo i j).pulses = s.pulses := by rfl
@[simp] theorem State.bumpF_pins (s : State) (n : RegName) (hi lo i j : Nat) : (s.bumpF n hi lo i j).pins = s.pins := by rfl
@[simp] theorem State.bumpF_boot (s : State) (n : RegName) (hi lo i j : Nat) : (s.bumpF n hi lo i j).boot = s.boot := by rfl
@[simp] theorem State.bumpF_spl (s : State) (n : RegName) (hi lo i j : Nat) : (s.bumpF n hi lo i j).spl = s.spl := by rfl
@[simp] theorem State.bumpF_flt (s : State) (n : RegName) (hi lo i j : Nat) : (s.bumpF n hi lo i j).flt = s.flt := by rfl
@[simp] theorem State.bumpF_time (s : State) (n : RegName) (hi lo i j : Nat) : (s.bumpF n hi lo i j).time = s.time := by rfl
@[simp] theorem State.bumpF_wb (s : State) (n : RegName) (hi lo i j : Nat) : (s.bumpF n hi lo i j).wb = s.wb := by rfl
@[simp] theorem State.bumpF_bank (s : State) (n : RegName) (hi lo i j : Nat) : (s.bumpF n hi lo i j).bank = s.bank := by rfl
@[simp] theorem State.bumpF_hdw (s : State) (n : RegName) (hi lo i j : Nat) : (s.bumpF n hi lo i j).hdw = s.hdw := by rfl
@[simp] theorem State.bumpF_curves (s : State) (n : RegName) (hi lo i j : Nat) : (s.bumpF n hi lo i j).curves = s.curves := by rfl
@[simp] theorem State.bumpF_pwr (s : State) (n : RegName) (hi lo i j : Nat) : (s.bumpF n hi lo i j).pwr = s.pwr := by rfl
@[simp] theorem State.bumpF_sch (s : State) (n : RegName) (hi lo i j : Nat) : (s.bumpF n hi lo i j).sch = s.sch := by rfl
@[simp] theorem State.bumpF_upool (s : State) (n : RegName) (hi lo i j : Nat) : (s.bumpF n hi lo i j).upool = s.upool := by rfl
@[simp] theorem State.bumpF_deep (s : State) (n : RegName) (hi lo i j : Nat) : (s.bumpF n hi lo i j).deep = s.deep := by rfl
@[simp] theorem State.bumpF_upd (s : State) (n : RegName) (hi lo i j : Nat) : (s.bumpF n hi lo i j).upd = s.upd := by rfl
@[simp] theorem State.bumpF_sqe (s : State) (n : RegName) (hi lo i j : Nat) : (s.bumpF n hi lo i j).sqe = s.sqe := by rfl
@[simp] theorem State.bumpF_sns (s : State) (n : RegName) (hi lo i j : Nat) : (s.bumpF n hi lo i j).sns = s.sns := by rfl
@[simp] theorem State.bumpF_xw (s : State) (n : RegName) (hi lo i j : Nat) : (s.bumpF n hi lo i j).xw = s.xw := by rfl
@[simp] theorem State.bumpF_veer (s : State) (n : RegName) (hi lo i j : Nat) : (s.bumpF n hi lo i j).veer = s.veer := by rfl
@[simp] theorem State.bumpF_brz (s : State) (n : RegName) (hi lo i j : Nat) : (s.bumpF n hi lo i j).brz = s.brz := by rfl
@[simp] theorem State.bumpF_wl (s : State) (n : RegName) (hi lo i j : Nat) : (s.bumpF n hi lo i j).wl = s.wl := by rfl
@[simp] theorem State.bumpF_net (s : State) (n : RegName) (hi lo i j : Nat) : (s.bumpF n hi lo i j).net = s.net := by rfl
@[simp] theorem State.bumpF_hp (s : State) (n : RegName) (hi lo i j : Nat) : (s.bumpF n hi lo i j).hp = s.hp := by rfl

/-! ### bumpSatF -/

@[simp] theorem State.bumpSatF_pending (s : State) (n : RegName) (hi lo i j : Nat) : (s.bumpSatF n hi lo i j).pending = s.pending := by unfold State.bumpSatF; split <;> rfl
@[simp] theorem State.bumpSatF_now (s : State) (n : RegName) (hi lo i j : Nat) : (s.bumpSatF n hi lo i j).now = s.now := by unfold State.bumpSatF; split <;> rfl
@[simp] theorem State.bumpSatF_free (s : State) (n : RegName) (hi lo i j : Nat) : (s.bumpSatF n hi lo i j).free = s.free := by unfold State.bumpSatF; split <;> rfl
@[simp] theorem State.bumpSatF_mem (s : State) (n : RegName) (hi lo i j : Nat) : (s.bumpSatF n hi lo i j).mem = s.mem := by unfold State.bumpSatF; split <;> rfl
@[simp] theorem State.bumpSatF_badCheck (s : State) (n : RegName) (hi lo i j : Nat) : (s.bumpSatF n hi lo i j).badCheck = s.badCheck := by unfold State.bumpSatF; split <;> rfl
@[simp] theorem State.bumpSatF_badWord (s : State) (n : RegName) (hi lo i j : Nat) : (s.bumpSatF n hi lo i j).badWord = s.badWord := by unfold State.bumpSatF; split <;> rfl
@[simp] theorem State.bumpSatF_resp (s : State) (n : RegName) (hi lo i j : Nat) : (s.bumpSatF n hi lo i j).resp = s.resp := by unfold State.bumpSatF; split <;> rfl
@[simp] theorem State.bumpSatF_heldRead (s : State) (n : RegName) (hi lo i j : Nat) : (s.bumpSatF n hi lo i j).heldRead = s.heldRead := by unfold State.bumpSatF; split <;> rfl
@[simp] theorem State.bumpSatF_heldWrite (s : State) (n : RegName) (hi lo i j : Nat) : (s.bumpSatF n hi lo i j).heldWrite = s.heldWrite := by unfold State.bumpSatF; split <;> rfl
@[simp] theorem State.bumpSatF_recSel (s : State) (n : RegName) (hi lo i j : Nat) : (s.bumpSatF n hi lo i j).recSel = s.recSel := by unfold State.bumpSatF; split <;> rfl
@[simp] theorem State.bumpSatF_isS (s : State) (n : RegName) (hi lo i j : Nat) : (s.bumpSatF n hi lo i j).isS = s.isS := by unfold State.bumpSatF; split <;> rfl
@[simp] theorem State.bumpSatF_pulses (s : State) (n : RegName) (hi lo i j : Nat) : (s.bumpSatF n hi lo i j).pulses = s.pulses := by unfold State.bumpSatF; split <;> rfl
@[simp] theorem State.bumpSatF_pins (s : State) (n : RegName) (hi lo i j : Nat) : (s.bumpSatF n hi lo i j).pins = s.pins := by unfold State.bumpSatF; split <;> rfl
@[simp] theorem State.bumpSatF_boot (s : State) (n : RegName) (hi lo i j : Nat) : (s.bumpSatF n hi lo i j).boot = s.boot := by unfold State.bumpSatF; split <;> rfl
@[simp] theorem State.bumpSatF_spl (s : State) (n : RegName) (hi lo i j : Nat) : (s.bumpSatF n hi lo i j).spl = s.spl := by unfold State.bumpSatF; split <;> rfl
@[simp] theorem State.bumpSatF_flt (s : State) (n : RegName) (hi lo i j : Nat) : (s.bumpSatF n hi lo i j).flt = s.flt := by unfold State.bumpSatF; split <;> rfl
@[simp] theorem State.bumpSatF_time (s : State) (n : RegName) (hi lo i j : Nat) : (s.bumpSatF n hi lo i j).time = s.time := by unfold State.bumpSatF; split <;> rfl
@[simp] theorem State.bumpSatF_wb (s : State) (n : RegName) (hi lo i j : Nat) : (s.bumpSatF n hi lo i j).wb = s.wb := by unfold State.bumpSatF; split <;> rfl
@[simp] theorem State.bumpSatF_bank (s : State) (n : RegName) (hi lo i j : Nat) : (s.bumpSatF n hi lo i j).bank = s.bank := by unfold State.bumpSatF; split <;> rfl
@[simp] theorem State.bumpSatF_hdw (s : State) (n : RegName) (hi lo i j : Nat) : (s.bumpSatF n hi lo i j).hdw = s.hdw := by unfold State.bumpSatF; split <;> rfl
@[simp] theorem State.bumpSatF_curves (s : State) (n : RegName) (hi lo i j : Nat) : (s.bumpSatF n hi lo i j).curves = s.curves := by unfold State.bumpSatF; split <;> rfl
@[simp] theorem State.bumpSatF_pwr (s : State) (n : RegName) (hi lo i j : Nat) : (s.bumpSatF n hi lo i j).pwr = s.pwr := by unfold State.bumpSatF; split <;> rfl
@[simp] theorem State.bumpSatF_sch (s : State) (n : RegName) (hi lo i j : Nat) : (s.bumpSatF n hi lo i j).sch = s.sch := by unfold State.bumpSatF; split <;> rfl
@[simp] theorem State.bumpSatF_upool (s : State) (n : RegName) (hi lo i j : Nat) : (s.bumpSatF n hi lo i j).upool = s.upool := by unfold State.bumpSatF; split <;> rfl
@[simp] theorem State.bumpSatF_deep (s : State) (n : RegName) (hi lo i j : Nat) : (s.bumpSatF n hi lo i j).deep = s.deep := by unfold State.bumpSatF; split <;> rfl
@[simp] theorem State.bumpSatF_upd (s : State) (n : RegName) (hi lo i j : Nat) : (s.bumpSatF n hi lo i j).upd = s.upd := by unfold State.bumpSatF; split <;> rfl
@[simp] theorem State.bumpSatF_sqe (s : State) (n : RegName) (hi lo i j : Nat) : (s.bumpSatF n hi lo i j).sqe = s.sqe := by unfold State.bumpSatF; split <;> rfl
@[simp] theorem State.bumpSatF_sns (s : State) (n : RegName) (hi lo i j : Nat) : (s.bumpSatF n hi lo i j).sns = s.sns := by unfold State.bumpSatF; split <;> rfl
@[simp] theorem State.bumpSatF_xw (s : State) (n : RegName) (hi lo i j : Nat) : (s.bumpSatF n hi lo i j).xw = s.xw := by unfold State.bumpSatF; split <;> rfl
@[simp] theorem State.bumpSatF_veer (s : State) (n : RegName) (hi lo i j : Nat) : (s.bumpSatF n hi lo i j).veer = s.veer := by unfold State.bumpSatF; split <;> rfl
@[simp] theorem State.bumpSatF_brz (s : State) (n : RegName) (hi lo i j : Nat) : (s.bumpSatF n hi lo i j).brz = s.brz := by unfold State.bumpSatF; split <;> rfl
@[simp] theorem State.bumpSatF_wl (s : State) (n : RegName) (hi lo i j : Nat) : (s.bumpSatF n hi lo i j).wl = s.wl := by unfold State.bumpSatF; split <;> rfl
@[simp] theorem State.bumpSatF_net (s : State) (n : RegName) (hi lo i j : Nat) : (s.bumpSatF n hi lo i j).net = s.net := by unfold State.bumpSatF; split <;> rfl
@[simp] theorem State.bumpSatF_hp (s : State) (n : RegName) (hi lo i j : Nat) : (s.bumpSatF n hi lo i j).hp = s.hp := by unfold State.bumpSatF; split <;> rfl

/-! ### wr64 -/

@[simp] theorem State.wr64_pending (s : State) (n : RegName) (v i j : Nat) : (s.wr64 n v i j).pending = s.pending := by unfold State.wr64; split <;> rfl
@[simp] theorem State.wr64_now (s : State) (n : RegName) (v i j : Nat) : (s.wr64 n v i j).now = s.now := by unfold State.wr64; split <;> rfl
@[simp] theorem State.wr64_free (s : State) (n : RegName) (v i j : Nat) : (s.wr64 n v i j).free = s.free := by unfold State.wr64; split <;> rfl
@[simp] theorem State.wr64_mem (s : State) (n : RegName) (v i j : Nat) : (s.wr64 n v i j).mem = s.mem := by unfold State.wr64; split <;> rfl
@[simp] theorem State.wr64_badCheck (s : State) (n : RegName) (v i j : Nat) : (s.wr64 n v i j).badCheck = s.badCheck := by unfold State.wr64; split <;> rfl
@[simp] theorem State.wr64_badWord (s : State) (n : RegName) (v i j : Nat) : (s.wr64 n v i j).badWord = s.badWord := by unfold State.wr64; split <;> rfl
@[simp] theorem State.wr64_resp (s : State) (n : RegName) (v i j : Nat) : (s.wr64 n v i j).resp = s.resp := by unfold State.wr64; split <;> rfl
@[simp] theorem State.wr64_heldRead (s : State) (n : RegName) (v i j : Nat) : (s.wr64 n v i j).heldRead = s.heldRead := by unfold State.wr64; split <;> rfl
@[simp] theorem State.wr64_heldWrite (s : State) (n : RegName) (v i j : Nat) : (s.wr64 n v i j).heldWrite = s.heldWrite := by unfold State.wr64; split <;> rfl
@[simp] theorem State.wr64_recSel (s : State) (n : RegName) (v i j : Nat) : (s.wr64 n v i j).recSel = s.recSel := by unfold State.wr64; split <;> rfl
@[simp] theorem State.wr64_isS (s : State) (n : RegName) (v i j : Nat) : (s.wr64 n v i j).isS = s.isS := by unfold State.wr64; split <;> rfl
@[simp] theorem State.wr64_pulses (s : State) (n : RegName) (v i j : Nat) : (s.wr64 n v i j).pulses = s.pulses := by unfold State.wr64; split <;> rfl
@[simp] theorem State.wr64_pins (s : State) (n : RegName) (v i j : Nat) : (s.wr64 n v i j).pins = s.pins := by unfold State.wr64; split <;> rfl
@[simp] theorem State.wr64_boot (s : State) (n : RegName) (v i j : Nat) : (s.wr64 n v i j).boot = s.boot := by unfold State.wr64; split <;> rfl
@[simp] theorem State.wr64_spl (s : State) (n : RegName) (v i j : Nat) : (s.wr64 n v i j).spl = s.spl := by unfold State.wr64; split <;> rfl
@[simp] theorem State.wr64_flt (s : State) (n : RegName) (v i j : Nat) : (s.wr64 n v i j).flt = s.flt := by unfold State.wr64; split <;> rfl
@[simp] theorem State.wr64_time (s : State) (n : RegName) (v i j : Nat) : (s.wr64 n v i j).time = s.time := by unfold State.wr64; split <;> rfl
@[simp] theorem State.wr64_wb (s : State) (n : RegName) (v i j : Nat) : (s.wr64 n v i j).wb = s.wb := by unfold State.wr64; split <;> rfl
@[simp] theorem State.wr64_bank (s : State) (n : RegName) (v i j : Nat) : (s.wr64 n v i j).bank = s.bank := by unfold State.wr64; split <;> rfl
@[simp] theorem State.wr64_hdw (s : State) (n : RegName) (v i j : Nat) : (s.wr64 n v i j).hdw = s.hdw := by unfold State.wr64; split <;> rfl
@[simp] theorem State.wr64_curves (s : State) (n : RegName) (v i j : Nat) : (s.wr64 n v i j).curves = s.curves := by unfold State.wr64; split <;> rfl
@[simp] theorem State.wr64_pwr (s : State) (n : RegName) (v i j : Nat) : (s.wr64 n v i j).pwr = s.pwr := by unfold State.wr64; split <;> rfl
@[simp] theorem State.wr64_sch (s : State) (n : RegName) (v i j : Nat) : (s.wr64 n v i j).sch = s.sch := by unfold State.wr64; split <;> rfl
@[simp] theorem State.wr64_upool (s : State) (n : RegName) (v i j : Nat) : (s.wr64 n v i j).upool = s.upool := by unfold State.wr64; split <;> rfl
@[simp] theorem State.wr64_deep (s : State) (n : RegName) (v i j : Nat) : (s.wr64 n v i j).deep = s.deep := by unfold State.wr64; split <;> rfl
@[simp] theorem State.wr64_upd (s : State) (n : RegName) (v i j : Nat) : (s.wr64 n v i j).upd = s.upd := by unfold State.wr64; split <;> rfl
@[simp] theorem State.wr64_sqe (s : State) (n : RegName) (v i j : Nat) : (s.wr64 n v i j).sqe = s.sqe := by unfold State.wr64; split <;> rfl
@[simp] theorem State.wr64_sns (s : State) (n : RegName) (v i j : Nat) : (s.wr64 n v i j).sns = s.sns := by unfold State.wr64; split <;> rfl
@[simp] theorem State.wr64_xw (s : State) (n : RegName) (v i j : Nat) : (s.wr64 n v i j).xw = s.xw := by unfold State.wr64; split <;> rfl
@[simp] theorem State.wr64_veer (s : State) (n : RegName) (v i j : Nat) : (s.wr64 n v i j).veer = s.veer := by unfold State.wr64; split <;> rfl
@[simp] theorem State.wr64_brz (s : State) (n : RegName) (v i j : Nat) : (s.wr64 n v i j).brz = s.brz := by unfold State.wr64; split <;> rfl
@[simp] theorem State.wr64_wl (s : State) (n : RegName) (v i j : Nat) : (s.wr64 n v i j).wl = s.wl := by unfold State.wr64; split <;> rfl
@[simp] theorem State.wr64_net (s : State) (n : RegName) (v i j : Nat) : (s.wr64 n v i j).net = s.net := by unfold State.wr64; split <;> rfl
@[simp] theorem State.wr64_hp (s : State) (n : RegName) (v i j : Nat) : (s.wr64 n v i j).hp = s.hp := by unfold State.wr64; split <;> rfl

/-! ### respErr -/

@[simp] theorem State.respErr_pending (s : State) (n : Nat) : (s.respErr n).pending = s.pending := by rfl
@[simp] theorem State.respErr_now (s : State) (n : Nat) : (s.respErr n).now = s.now := by rfl
@[simp] theorem State.respErr_free (s : State) (n : Nat) : (s.respErr n).free = s.free := by rfl
@[simp] theorem State.respErr_csr (s : State) (n : Nat) : (s.respErr n).csr = s.csr := by rfl
@[simp] theorem State.respErr_mem (s : State) (n : Nat) : (s.respErr n).mem = s.mem := by rfl
@[simp] theorem State.respErr_badCheck (s : State) (n : Nat) : (s.respErr n).badCheck = s.badCheck := by rfl
@[simp] theorem State.respErr_badWord (s : State) (n : Nat) : (s.respErr n).badWord = s.badWord := by rfl
@[simp] theorem State.respErr_heldRead (s : State) (n : Nat) : (s.respErr n).heldRead = s.heldRead := by rfl
@[simp] theorem State.respErr_heldWrite (s : State) (n : Nat) : (s.respErr n).heldWrite = s.heldWrite := by rfl
@[simp] theorem State.respErr_recSel (s : State) (n : Nat) : (s.respErr n).recSel = s.recSel := by rfl
@[simp] theorem State.respErr_isS (s : State) (n : Nat) : (s.respErr n).isS = s.isS := by rfl
@[simp] theorem State.respErr_pulses (s : State) (n : Nat) : (s.respErr n).pulses = s.pulses := by rfl
@[simp] theorem State.respErr_pins (s : State) (n : Nat) : (s.respErr n).pins = s.pins := by rfl
@[simp] theorem State.respErr_boot (s : State) (n : Nat) : (s.respErr n).boot = s.boot := by rfl
@[simp] theorem State.respErr_spl (s : State) (n : Nat) : (s.respErr n).spl = s.spl := by rfl
@[simp] theorem State.respErr_flt (s : State) (n : Nat) : (s.respErr n).flt = s.flt := by rfl
@[simp] theorem State.respErr_time (s : State) (n : Nat) : (s.respErr n).time = s.time := by rfl
@[simp] theorem State.respErr_wb (s : State) (n : Nat) : (s.respErr n).wb = s.wb := by rfl
@[simp] theorem State.respErr_bank (s : State) (n : Nat) : (s.respErr n).bank = s.bank := by rfl
@[simp] theorem State.respErr_hdw (s : State) (n : Nat) : (s.respErr n).hdw = s.hdw := by rfl
@[simp] theorem State.respErr_curves (s : State) (n : Nat) : (s.respErr n).curves = s.curves := by rfl
@[simp] theorem State.respErr_pwr (s : State) (n : Nat) : (s.respErr n).pwr = s.pwr := by rfl
@[simp] theorem State.respErr_sch (s : State) (n : Nat) : (s.respErr n).sch = s.sch := by rfl
@[simp] theorem State.respErr_upool (s : State) (n : Nat) : (s.respErr n).upool = s.upool := by rfl
@[simp] theorem State.respErr_deep (s : State) (n : Nat) : (s.respErr n).deep = s.deep := by rfl
@[simp] theorem State.respErr_upd (s : State) (n : Nat) : (s.respErr n).upd = s.upd := by rfl
@[simp] theorem State.respErr_sqe (s : State) (n : Nat) : (s.respErr n).sqe = s.sqe := by rfl
@[simp] theorem State.respErr_sns (s : State) (n : Nat) : (s.respErr n).sns = s.sns := by rfl
@[simp] theorem State.respErr_xw (s : State) (n : Nat) : (s.respErr n).xw = s.xw := by rfl
@[simp] theorem State.respErr_veer (s : State) (n : Nat) : (s.respErr n).veer = s.veer := by rfl
@[simp] theorem State.respErr_brz (s : State) (n : Nat) : (s.respErr n).brz = s.brz := by rfl
@[simp] theorem State.respErr_wl (s : State) (n : Nat) : (s.respErr n).wl = s.wl := by rfl
@[simp] theorem State.respErr_net (s : State) (n : Nat) : (s.respErr n).net = s.net := by rfl
@[simp] theorem State.respErr_hp (s : State) (n : Nat) : (s.respErr n).hp = s.hp := by rfl

/-! ### respOk -/

@[simp] theorem State.respOk_pending (s : State) (d : List Byte) : (s.respOk d).pending = s.pending := by rfl
@[simp] theorem State.respOk_now (s : State) (d : List Byte) : (s.respOk d).now = s.now := by rfl
@[simp] theorem State.respOk_free (s : State) (d : List Byte) : (s.respOk d).free = s.free := by rfl
@[simp] theorem State.respOk_csr (s : State) (d : List Byte) : (s.respOk d).csr = s.csr := by rfl
@[simp] theorem State.respOk_mem (s : State) (d : List Byte) : (s.respOk d).mem = s.mem := by rfl
@[simp] theorem State.respOk_badCheck (s : State) (d : List Byte) : (s.respOk d).badCheck = s.badCheck := by rfl
@[simp] theorem State.respOk_badWord (s : State) (d : List Byte) : (s.respOk d).badWord = s.badWord := by rfl
@[simp] theorem State.respOk_heldRead (s : State) (d : List Byte) : (s.respOk d).heldRead = s.heldRead := by rfl
@[simp] theorem State.respOk_heldWrite (s : State) (d : List Byte) : (s.respOk d).heldWrite = s.heldWrite := by rfl
@[simp] theorem State.respOk_recSel (s : State) (d : List Byte) : (s.respOk d).recSel = s.recSel := by rfl
@[simp] theorem State.respOk_isS (s : State) (d : List Byte) : (s.respOk d).isS = s.isS := by rfl
@[simp] theorem State.respOk_pulses (s : State) (d : List Byte) : (s.respOk d).pulses = s.pulses := by rfl
@[simp] theorem State.respOk_pins (s : State) (d : List Byte) : (s.respOk d).pins = s.pins := by rfl
@[simp] theorem State.respOk_boot (s : State) (d : List Byte) : (s.respOk d).boot = s.boot := by rfl
@[simp] theorem State.respOk_spl (s : State) (d : List Byte) : (s.respOk d).spl = s.spl := by rfl
@[simp] theorem State.respOk_flt (s : State) (d : List Byte) : (s.respOk d).flt = s.flt := by rfl
@[simp] theorem State.respOk_time (s : State) (d : List Byte) : (s.respOk d).time = s.time := by rfl
@[simp] theorem State.respOk_wb (s : State) (d : List Byte) : (s.respOk d).wb = s.wb := by rfl
@[simp] theorem State.respOk_bank (s : State) (d : List Byte) : (s.respOk d).bank = s.bank := by rfl
@[simp] theorem State.respOk_hdw (s : State) (d : List Byte) : (s.respOk d).hdw = s.hdw := by rfl
@[simp] theorem State.respOk_curves (s : State) (d : List Byte) : (s.respOk d).curves = s.curves := by rfl
@[simp] theorem State.respOk_pwr (s : State) (d : List Byte) : (s.respOk d).pwr = s.pwr := by rfl
@[simp] theorem State.respOk_sch (s : State) (d : List Byte) : (s.respOk d).sch = s.sch := by rfl
@[simp] theorem State.respOk_upool (s : State) (d : List Byte) : (s.respOk d).upool = s.upool := by rfl
@[simp] theorem State.respOk_deep (s : State) (d : List Byte) : (s.respOk d).deep = s.deep := by rfl
@[simp] theorem State.respOk_upd (s : State) (d : List Byte) : (s.respOk d).upd = s.upd := by rfl
@[simp] theorem State.respOk_sqe (s : State) (d : List Byte) : (s.respOk d).sqe = s.sqe := by rfl
@[simp] theorem State.respOk_sns (s : State) (d : List Byte) : (s.respOk d).sns = s.sns := by rfl
@[simp] theorem State.respOk_xw (s : State) (d : List Byte) : (s.respOk d).xw = s.xw := by rfl
@[simp] theorem State.respOk_veer (s : State) (d : List Byte) : (s.respOk d).veer = s.veer := by rfl
@[simp] theorem State.respOk_brz (s : State) (d : List Byte) : (s.respOk d).brz = s.brz := by rfl
@[simp] theorem State.respOk_wl (s : State) (d : List Byte) : (s.respOk d).wl = s.wl := by rfl
@[simp] theorem State.respOk_net (s : State) (d : List Byte) : (s.respOk d).net = s.net := by rfl
@[simp] theorem State.respOk_hp (s : State) (d : List Byte) : (s.respOk d).hp = s.hp := by rfl

/-! ### pulse -/

@[simp] theorem State.pulse_pending (s : State) (k : Pulse) : (s.pulse k).pending = s.pending := by rfl
@[simp] theorem State.pulse_now (s : State) (k : Pulse) : (s.pulse k).now = s.now := by rfl
@[simp] theorem State.pulse_free (s : State) (k : Pulse) : (s.pulse k).free = s.free := by rfl
@[simp] theorem State.pulse_csr (s : State) (k : Pulse) : (s.pulse k).csr = s.csr := by rfl
@[simp] theorem State.pulse_mem (s : State) (k : Pulse) : (s.pulse k).mem = s.mem := by rfl
@[simp] theorem State.pulse_badCheck (s : State) (k : Pulse) : (s.pulse k).badCheck = s.badCheck := by rfl
@[simp] theorem State.pulse_badWord (s : State) (k : Pulse) : (s.pulse k).badWord = s.badWord := by rfl
@[simp] theorem State.pulse_resp (s : State) (k : Pulse) : (s.pulse k).resp = s.resp := by rfl
@[simp] theorem State.pulse_heldRead (s : State) (k : Pulse) : (s.pulse k).heldRead = s.heldRead := by rfl
@[simp] theorem State.pulse_heldWrite (s : State) (k : Pulse) : (s.pulse k).heldWrite = s.heldWrite := by rfl
@[simp] theorem State.pulse_recSel (s : State) (k : Pulse) : (s.pulse k).recSel = s.recSel := by rfl
@[simp] theorem State.pulse_isS (s : State) (k : Pulse) : (s.pulse k).isS = s.isS := by rfl
@[simp] theorem State.pulse_pins (s : State) (k : Pulse) : (s.pulse k).pins = s.pins := by rfl
@[simp] theorem State.pulse_boot (s : State) (k : Pulse) : (s.pulse k).boot = s.boot := by rfl
@[simp] theorem State.pulse_spl (s : State) (k : Pulse) : (s.pulse k).spl = s.spl := by rfl
@[simp] theorem State.pulse_flt (s : State) (k : Pulse) : (s.pulse k).flt = s.flt := by rfl
@[simp] theorem State.pulse_time (s : State) (k : Pulse) : (s.pulse k).time = s.time := by rfl
@[simp] theorem State.pulse_wb (s : State) (k : Pulse) : (s.pulse k).wb = s.wb := by rfl
@[simp] theorem State.pulse_bank (s : State) (k : Pulse) : (s.pulse k).bank = s.bank := by rfl
@[simp] theorem State.pulse_hdw (s : State) (k : Pulse) : (s.pulse k).hdw = s.hdw := by rfl
@[simp] theorem State.pulse_curves (s : State) (k : Pulse) : (s.pulse k).curves = s.curves := by rfl
@[simp] theorem State.pulse_pwr (s : State) (k : Pulse) : (s.pulse k).pwr = s.pwr := by rfl
@[simp] theorem State.pulse_sch (s : State) (k : Pulse) : (s.pulse k).sch = s.sch := by rfl
@[simp] theorem State.pulse_upool (s : State) (k : Pulse) : (s.pulse k).upool = s.upool := by rfl
@[simp] theorem State.pulse_deep (s : State) (k : Pulse) : (s.pulse k).deep = s.deep := by rfl
@[simp] theorem State.pulse_upd (s : State) (k : Pulse) : (s.pulse k).upd = s.upd := by rfl
@[simp] theorem State.pulse_sqe (s : State) (k : Pulse) : (s.pulse k).sqe = s.sqe := by rfl
@[simp] theorem State.pulse_sns (s : State) (k : Pulse) : (s.pulse k).sns = s.sns := by rfl
@[simp] theorem State.pulse_xw (s : State) (k : Pulse) : (s.pulse k).xw = s.xw := by rfl
@[simp] theorem State.pulse_veer (s : State) (k : Pulse) : (s.pulse k).veer = s.veer := by rfl
@[simp] theorem State.pulse_brz (s : State) (k : Pulse) : (s.pulse k).brz = s.brz := by rfl
@[simp] theorem State.pulse_wl (s : State) (k : Pulse) : (s.pulse k).wl = s.wl := by rfl
@[simp] theorem State.pulse_net (s : State) (k : Pulse) : (s.pulse k).net = s.net := by rfl
@[simp] theorem State.pulse_hp (s : State) (k : Pulse) : (s.pulse k).hp = s.hp := by rfl

/-! ### setByte -/

@[simp] theorem State.setByte_pending (s : State) (a : Nat) (b : Byte) : (s.setByte a b).pending = s.pending := by rfl
@[simp] theorem State.setByte_now (s : State) (a : Nat) (b : Byte) : (s.setByte a b).now = s.now := by rfl
@[simp] theorem State.setByte_free (s : State) (a : Nat) (b : Byte) : (s.setByte a b).free = s.free := by rfl
@[simp] theorem State.setByte_csr (s : State) (a : Nat) (b : Byte) : (s.setByte a b).csr = s.csr := by rfl
@[simp] theorem State.setByte_badCheck (s : State) (a : Nat) (b : Byte) : (s.setByte a b).badCheck = s.badCheck := by rfl
@[simp] theorem State.setByte_badWord (s : State) (a : Nat) (b : Byte) : (s.setByte a b).badWord = s.badWord := by rfl
@[simp] theorem State.setByte_resp (s : State) (a : Nat) (b : Byte) : (s.setByte a b).resp = s.resp := by rfl
@[simp] theorem State.setByte_heldRead (s : State) (a : Nat) (b : Byte) : (s.setByte a b).heldRead = s.heldRead := by rfl
@[simp] theorem State.setByte_heldWrite (s : State) (a : Nat) (b : Byte) : (s.setByte a b).heldWrite = s.heldWrite := by rfl
@[simp] theorem State.setByte_recSel (s : State) (a : Nat) (b : Byte) : (s.setByte a b).recSel = s.recSel := by rfl
@[simp] theorem State.setByte_isS (s : State) (a : Nat) (b : Byte) : (s.setByte a b).isS = s.isS := by rfl
@[simp] theorem State.setByte_pulses (s : State) (a : Nat) (b : Byte) : (s.setByte a b).pulses = s.pulses := by rfl
@[simp] theorem State.setByte_pins (s : State) (a : Nat) (b : Byte) : (s.setByte a b).pins = s.pins := by rfl
@[simp] theorem State.setByte_boot (s : State) (a : Nat) (b : Byte) : (s.setByte a b).boot = s.boot := by rfl
@[simp] theorem State.setByte_spl (s : State) (a : Nat) (b : Byte) : (s.setByte a b).spl = s.spl := by rfl
@[simp] theorem State.setByte_flt (s : State) (a : Nat) (b : Byte) : (s.setByte a b).flt = s.flt := by rfl
@[simp] theorem State.setByte_time (s : State) (a : Nat) (b : Byte) : (s.setByte a b).time = s.time := by rfl
@[simp] theorem State.setByte_wb (s : State) (a : Nat) (b : Byte) : (s.setByte a b).wb = s.wb := by rfl
@[simp] theorem State.setByte_bank (s : State) (a : Nat) (b : Byte) : (s.setByte a b).bank = s.bank := by rfl
@[simp] theorem State.setByte_hdw (s : State) (a : Nat) (b : Byte) : (s.setByte a b).hdw = s.hdw := by rfl
@[simp] theorem State.setByte_curves (s : State) (a : Nat) (b : Byte) : (s.setByte a b).curves = s.curves := by rfl
@[simp] theorem State.setByte_pwr (s : State) (a : Nat) (b : Byte) : (s.setByte a b).pwr = s.pwr := by rfl
@[simp] theorem State.setByte_sch (s : State) (a : Nat) (b : Byte) : (s.setByte a b).sch = s.sch := by rfl
@[simp] theorem State.setByte_upool (s : State) (a : Nat) (b : Byte) : (s.setByte a b).upool = s.upool := by rfl
@[simp] theorem State.setByte_deep (s : State) (a : Nat) (b : Byte) : (s.setByte a b).deep = s.deep := by rfl
@[simp] theorem State.setByte_upd (s : State) (a : Nat) (b : Byte) : (s.setByte a b).upd = s.upd := by rfl
@[simp] theorem State.setByte_sqe (s : State) (a : Nat) (b : Byte) : (s.setByte a b).sqe = s.sqe := by rfl
@[simp] theorem State.setByte_sns (s : State) (a : Nat) (b : Byte) : (s.setByte a b).sns = s.sns := by rfl
@[simp] theorem State.setByte_xw (s : State) (a : Nat) (b : Byte) : (s.setByte a b).xw = s.xw := by rfl
@[simp] theorem State.setByte_veer (s : State) (a : Nat) (b : Byte) : (s.setByte a b).veer = s.veer := by rfl
@[simp] theorem State.setByte_brz (s : State) (a : Nat) (b : Byte) : (s.setByte a b).brz = s.brz := by rfl
@[simp] theorem State.setByte_wl (s : State) (a : Nat) (b : Byte) : (s.setByte a b).wl = s.wl := by rfl
@[simp] theorem State.setByte_net (s : State) (a : Nat) (b : Byte) : (s.setByte a b).net = s.net := by rfl
@[simp] theorem State.setByte_hp (s : State) (a : Nat) (b : Byte) : (s.setByte a b).hp = s.hp := by rfl

/-! ### mirror -/

@[simp] theorem State.mirror_pending (s : State) : (s.mirror).pending = s.pending := by rfl
@[simp] theorem State.mirror_now (s : State) : (s.mirror).now = s.now := by rfl
@[simp] theorem State.mirror_free (s : State) : (s.mirror).free = s.free := by rfl
@[simp] theorem State.mirror_csr (s : State) : (s.mirror).csr = s.csr := by rfl
@[simp] theorem State.mirror_mem (s : State) : (s.mirror).mem = s.mem := by rfl
@[simp] theorem State.mirror_badCheck (s : State) : (s.mirror).badCheck = s.badCheck := by rfl
@[simp] theorem State.mirror_badWord (s : State) : (s.mirror).badWord = s.badWord := by rfl
@[simp] theorem State.mirror_resp (s : State) : (s.mirror).resp = s.resp := by rfl
@[simp] theorem State.mirror_heldRead (s : State) : (s.mirror).heldRead = s.heldRead := by rfl
@[simp] theorem State.mirror_heldWrite (s : State) : (s.mirror).heldWrite = s.heldWrite := by rfl
@[simp] theorem State.mirror_recSel (s : State) : (s.mirror).recSel = s.recSel := by rfl
@[simp] theorem State.mirror_isS (s : State) : (s.mirror).isS = s.isS := by rfl
@[simp] theorem State.mirror_pulses (s : State) : (s.mirror).pulses = s.pulses := by rfl
@[simp] theorem State.mirror_pins (s : State) : (s.mirror).pins = s.pins := by rfl
@[simp] theorem State.mirror_spl (s : State) : (s.mirror).spl = s.spl := by rfl
@[simp] theorem State.mirror_flt (s : State) : (s.mirror).flt = s.flt := by rfl
@[simp] theorem State.mirror_time (s : State) : (s.mirror).time = s.time := by rfl
@[simp] theorem State.mirror_wb (s : State) : (s.mirror).wb = s.wb := by rfl
@[simp] theorem State.mirror_bank (s : State) : (s.mirror).bank = s.bank := by rfl
@[simp] theorem State.mirror_hdw (s : State) : (s.mirror).hdw = s.hdw := by rfl
@[simp] theorem State.mirror_curves (s : State) : (s.mirror).curves = s.curves := by rfl
@[simp] theorem State.mirror_pwr (s : State) : (s.mirror).pwr = s.pwr := by rfl
@[simp] theorem State.mirror_sch (s : State) : (s.mirror).sch = s.sch := by rfl
@[simp] theorem State.mirror_upool (s : State) : (s.mirror).upool = s.upool := by rfl
@[simp] theorem State.mirror_deep (s : State) : (s.mirror).deep = s.deep := by rfl
@[simp] theorem State.mirror_upd (s : State) : (s.mirror).upd = s.upd := by rfl
@[simp] theorem State.mirror_sqe (s : State) : (s.mirror).sqe = s.sqe := by rfl
@[simp] theorem State.mirror_sns (s : State) : (s.mirror).sns = s.sns := by rfl
@[simp] theorem State.mirror_xw (s : State) : (s.mirror).xw = s.xw := by rfl
@[simp] theorem State.mirror_veer (s : State) : (s.mirror).veer = s.veer := by rfl
@[simp] theorem State.mirror_brz (s : State) : (s.mirror).brz = s.brz := by rfl
@[simp] theorem State.mirror_wl (s : State) : (s.mirror).wl = s.wl := by rfl
@[simp] theorem State.mirror_net (s : State) : (s.mirror).net = s.net := by rfl
@[simp] theorem State.mirror_hp (s : State) : (s.mirror).hp = s.hp := by rfl

/-! ### fresh -/

@[simp] theorem State.fresh_pending (s : State) : s.fresh.2.pending = s.pending := by rfl
@[simp] theorem State.fresh_now (s : State) : s.fresh.2.now = s.now := by rfl
@[simp] theorem State.fresh_csr (s : State) : s.fresh.2.csr = s.csr := by rfl
@[simp] theorem State.fresh_mem (s : State) : s.fresh.2.mem = s.mem := by rfl
@[simp] theorem State.fresh_badCheck (s : State) : s.fresh.2.badCheck = s.badCheck := by rfl
@[simp] theorem State.fresh_badWord (s : State) : s.fresh.2.badWord = s.badWord := by rfl
@[simp] theorem State.fresh_resp (s : State) : s.fresh.2.resp = s.resp := by rfl
@[simp] theorem State.fresh_heldRead (s : State) : s.fresh.2.heldRead = s.heldRead := by rfl
@[simp] theorem State.fresh_heldWrite (s : State) : s.fresh.2.heldWrite = s.heldWrite := by rfl
@[simp] theorem State.fresh_recSel (s : State) : s.fresh.2.recSel = s.recSel := by rfl
@[simp] theorem State.fresh_isS (s : State) : s.fresh.2.isS = s.isS := by rfl
@[simp] theorem State.fresh_pulses (s : State) : s.fresh.2.pulses = s.pulses := by rfl
@[simp] theorem State.fresh_pins (s : State) : s.fresh.2.pins = s.pins := by rfl
@[simp] theorem State.fresh_boot (s : State) : s.fresh.2.boot = s.boot := by rfl
@[simp] theorem State.fresh_spl (s : State) : s.fresh.2.spl = s.spl := by rfl
@[simp] theorem State.fresh_flt (s : State) : s.fresh.2.flt = s.flt := by rfl
@[simp] theorem State.fresh_time (s : State) : s.fresh.2.time = s.time := by rfl
@[simp] theorem State.fresh_wb (s : State) : s.fresh.2.wb = s.wb := by rfl
@[simp] theorem State.fresh_bank (s : State) : s.fresh.2.bank = s.bank := by rfl
@[simp] theorem State.fresh_hdw (s : State) : s.fresh.2.hdw = s.hdw := by rfl
@[simp] theorem State.fresh_curves (s : State) : s.fresh.2.curves = s.curves := by rfl
@[simp] theorem State.fresh_pwr (s : State) : s.fresh.2.pwr = s.pwr := by rfl
@[simp] theorem State.fresh_sch (s : State) : s.fresh.2.sch = s.sch := by rfl
@[simp] theorem State.fresh_upool (s : State) : s.fresh.2.upool = s.upool := by rfl
@[simp] theorem State.fresh_deep (s : State) : s.fresh.2.deep = s.deep := by rfl
@[simp] theorem State.fresh_upd (s : State) : s.fresh.2.upd = s.upd := by rfl
@[simp] theorem State.fresh_sqe (s : State) : s.fresh.2.sqe = s.sqe := by rfl
@[simp] theorem State.fresh_sns (s : State) : s.fresh.2.sns = s.sns := by rfl
@[simp] theorem State.fresh_xw (s : State) : s.fresh.2.xw = s.xw := by rfl
@[simp] theorem State.fresh_veer (s : State) : s.fresh.2.veer = s.veer := by rfl
@[simp] theorem State.fresh_brz (s : State) : s.fresh.2.brz = s.brz := by rfl
@[simp] theorem State.fresh_wl (s : State) : s.fresh.2.wl = s.wl := by rfl
@[simp] theorem State.fresh_net (s : State) : s.fresh.2.net = s.net := by rfl
@[simp] theorem State.fresh_hp (s : State) : s.fresh.2.hp = s.hp := by rfl

end Sys2Proof.Machine
end

