-- ==== Sys2Proof/Laws/Regs.lean ====
section
/-!
SUPPORT. The laws of the register file: a register, a field or a bit read after a write.
-/

namespace Sys2Proof.Machine

/-! ## Words -/

/-- The bits of a number's field. -/
theorem testBit_bitsOf (v hi lo k : Nat) : (bitsOf v hi lo).testBit k = (decide (k < hi + 1 - lo) && v.testBit (lo + k)) := by
  simp [bitsOf, Nat.testBit_mod_two_pow, Nat.testBit_shiftRight]

/-- The bits of a word with a field replaced. -/
theorem testBit_fieldSet (w : Word) (hi lo v k : Nat) (hk : k < 32) :
    (fieldSet w hi lo v).toNat.testBit k =
      if lo ≤ k ∧ k < hi + 1 then v.testBit (k - lo) else w.toNat.testBit k := by
  simp only [fieldSet, BitVec.toNat_or, BitVec.toNat_and, BitVec.toNat_not, BitVec.toNat_ofNat, Nat.testBit_or, Nat.testBit_and]
  have hm : (((2 ^ (hi + 1 - lo) - 1) <<< lo) % 2 ^ 32).testBit k = decide (lo ≤ k ∧ k < hi + 1) := by
    rw [Nat.testBit_mod_two_pow, Nat.testBit_shiftLeft, Nat.testBit_two_pow_sub_one]
    by_cases h1 : lo ≤ k <;> by_cases h2 : k < hi + 1 <;> simp [hk, h1, h2] <;> omega
  have hn : (2 ^ 32 - 1 - ((2 ^ (hi + 1 - lo) - 1) <<< lo) % 2 ^ 32).testBit k = !decide (lo ≤ k ∧ k < hi + 1) := by
    rw [Nat.sub_sub, Nat.add_comm 1, Nat.testBit_two_pow_sub_succ (Nat.mod_lt _ (by decide)), hm]
    simp [hk]
  have hv : ((v <<< lo) % 2 ^ 32).testBit k = (decide (lo ≤ k) && v.testBit (k - lo)) := by
    rw [Nat.testBit_mod_two_pow, Nat.testBit_shiftLeft]; simp [hk]
  rw [hm, hn, hv]
  by_cases h1 : lo ≤ k <;> by_cases h2 : k < hi + 1 <;> simp [h1, h2]

/-- A field read after it was set. -/
theorem fieldOf_fieldSet_self (w : Word) (hi lo v : Nat) (h : hi < 32) : fieldOf (fieldSet w hi lo v) hi lo = v % 2 ^ (hi + 1 - lo) := by
  apply Nat.eq_of_testBit_eq
  intro k
  rw [fieldOf, testBit_bitsOf, Nat.testBit_mod_two_pow]
  by_cases hk : k < hi + 1 - lo
  · rw [testBit_fieldSet _ _ _ _ _ (by omega), if_pos (by omega)]
    simp [hk]
  · simp [hk]

/-- A field read after another was set. -/
theorem fieldOf_fieldSet_disjoint (w : Word) (hi lo v hi' lo' : Nat) (h : hi' < 32) (d : hi < lo' ∨ hi' < lo) :
    fieldOf (fieldSet w hi lo v) hi' lo' = fieldOf w hi' lo' := by
  apply Nat.eq_of_testBit_eq
  intro k
  rw [fieldOf, fieldOf, testBit_bitsOf, testBit_bitsOf]
  by_cases hk : k < hi' + 1 - lo'
  · rw [testBit_fieldSet _ _ _ _ _ (by omega), if_neg (by omega)]
  · simp [hk]

/-! ## Registers -/

/-- A register read after it was written. -/
@[simp] theorem State.rdReg_wrReg_self (s : State) (r : Reg) (w : Word) : (s.wrReg r w).rdReg r = w := by
  simp [State.rdReg, State.wrReg]

/-- A register read after another was written. -/
theorem State.rdReg_wrReg_ne (s : State) {r x : Reg} (w : Word) (h : x ≠ r) : (s.wrReg r w).rdReg x = s.rdReg x := by
  simp [State.rdReg, State.wrReg, mapGet_mapSet_ne _ _ _ _ _ h]

/-- Both at once. -/
theorem State.rdReg_wrReg (s : State) (r x : Reg) (w : Word) : (s.wrReg r w).rdReg x = if x = r then w else s.rdReg x := by
  split
  next h => rw [h, State.rdReg_wrReg_self]
  next h => exact s.rdReg_wrReg_ne w h

/-- A field of a register of another name is not touched. -/
@[simp] theorem State.fld_wr_name (s : State) (n m : RegName) (v i j hi lo k l : Nat) (h : m ≠ n) :
    (s.wr n v i j).fld m hi lo k l = s.fld m hi lo k l := by
  unfold State.fld State.wr
  rw [s.rdReg_wrReg_ne]
  intro e
  exact h (congrArg Reg.name e)

/-- A field of a register of another name is not touched. -/
@[simp] theorem State.fld_wrF_name (s : State) (n m : RegName) (h' l' v i j hi lo k l : Nat) (h : m ≠ n) :
    (s.wrF n h' l' v i j).fld m hi lo k l = s.fld m hi lo k l := by
  unfold State.fld State.wrF
  rw [s.rdReg_wrReg_ne]
  intro e
  exact h (congrArg Reg.name e)

/-- A register of another name is not touched. -/
@[simp] theorem State.rd_wr_name (s : State) (n m : RegName) (v i j k l : Nat) (h : m ≠ n) : (s.wr n v i j).rd m k l = s.rd m k l := by
  unfold State.rd State.wr
  rw [s.rdReg_wrReg_ne]
  intro e
  exact h (congrArg Reg.name e)

/-- A register of another name is not touched. -/
@[simp] theorem State.rd_wrF_name (s : State) (n m : RegName) (hi lo v i j k l : Nat) (h : m ≠ n) :
    (s.wrF n hi lo v i j).rd m k l = s.rd m k l := by
  unfold State.rd State.wrF
  rw [s.rdReg_wrReg_ne]
  intro e
  exact h (congrArg Reg.name e)

/-- A register read after it was written. -/
@[simp] theorem State.rd_wr_self (s : State) (n : RegName) (v i j : Nat) : (s.wr n v i j).rd n i j = v % 2 ^ 32 := by
  simp [State.rd, State.wr]

/-- A field read after it was written. -/
theorem State.fld_wrF_self (s : State) (n : RegName) (hi lo v i j : Nat) (h : hi < 32) :
    (s.wrF n hi lo v i j).fld n hi lo i j = v % 2 ^ (hi + 1 - lo) := by
  simp [State.fld, State.wrF, fieldOf_fieldSet_self _ _ _ _ h]

/-- A field read after another field of its register was written. -/
theorem State.fld_wrF_disjoint (s : State) (n : RegName) (hi lo v hi' lo' i j : Nat) (h : hi' < 32) (d : hi < lo' ∨ hi' < lo) :
    (s.wrF n hi lo v i j).fld n hi' lo' i j = s.fld n hi' lo' i j := by
  simp [State.fld, State.wrF, fieldOf_fieldSet_disjoint _ _ _ _ _ _ h d]

/-- A bit read after it was set. -/
theorem State.bit_setB_self (s : State) (n : RegName) (k i j : Nat) (h : k < 32) : (s.setB n k i j).bit n k i j = true := by
  simp [State.bit, State.setB, s.fld_wrF_self n k k 1 i j h]

/-- A bit read after it was cleared. -/
theorem State.bit_clrB_self (s : State) (n : RegName) (k i j : Nat) (h : k < 32) : (s.clrB n k i j).bit n k i j = false := by
  simp [State.bit, State.clrB, s.fld_wrF_self n k k 0 i j h]

/-- A bit read after it was written. -/
theorem State.bit_wrB_self (s : State) (n : RegName) (k : Nat) (b : Bool) (i j : Nat) (h : k < 32) :
    (s.wrB n k b i j).bit n k i j = b := by
  cases b <;> simp [State.bit, State.wrB, s.fld_wrF_self n k k _ i j h]

/-! ## The canonical form -/

/-- A register written keeps the register file canonical. -/
theorem State.wrReg_csr (s : State) (r : Reg) (w : Word) (h : MapWf Reg.lt Reg.resetWord s.csr) :
    MapWf Reg.lt Reg.resetWord (s.wrReg r w).csr :=
  h.set Reg.lt_trans Reg.lt_tri r w

/-- A byte written keeps memory canonical. -/
theorem State.setByte_mem (s : State) (a : Nat) (b : Byte) (h : MapWf natLt (fun _ => 0#8) s.mem) :
    MapWf natLt (fun _ => 0#8) (s.setByte a b).mem :=
  h.set natLt_trans natLt_tri a b

end Sys2Proof.Machine
end

