-- ==== Sys2Proof/Laws/Records.lean ====
section
/-!
SUPPORT. What writing a fault record does: the ring's newest entry, and the components it leaves alone.
-/

namespace Sys2Proof.Machine

set_option maxRecDepth 8000

theorem getLast_append_drop (l : List FaultRecord) (r : FaultRecord) (k : Nat) (h : k ≤ l.length) : ((l ++ [r]).drop k).getLast? = some r := by
  rw [List.getLast?_drop]
  simp
  omega

/-- An erase of a die-block of the log touches no record. -/
theorem State.eraseLogBlock_flt (s : State) (k : Nat) : (s.eraseLogBlock k).flt = s.flt := by rfl

/-- Programming the log keeps the newest record but for its mark. -/
theorem State.programLog_last (s : State) (r : FaultRecord) (h : s.flt.ring.getLast? = some r) :
    ∃ r', s.programLog.flt.ring.getLast? = some r' ∧ r'.seq = r.seq ∧ r'.fault = r.fault ∧ r'.kind = r.kind ∧ r'.rung = r.rung ∧
      r'.recovery = r.recovery := by
  unfold State.programLog
  split
  · exact ⟨r, h, rfl, rfl, rfl, rfl, rfl⟩
  · split
    · exact ⟨r, h, rfl, rfl, rfl, rfl, rfl⟩
    · refine ⟨{ r with logged := true }, ?_, rfl, rfl, rfl, rfl, rfl⟩
      extract_lets page s1 s2 s3
      have h3 : s3.flt = s.flt := by
        dsimp only [s3]
        split <;> rfl
      clear_value s3
      simp [List.getLast?_map, h3, h]

/-- Programming the log changes no number and no rate limit. -/
theorem State.programLog_nextSeq (s : State) : s.programLog.flt.nextSeq = s.flt.nextSeq ∧ s.programLog.flt.rates = s.flt.rates := by
  unfold State.programLog
  split
  · exact ⟨rfl, rfl⟩
  · split
    · exact ⟨rfl, rfl⟩
    · extract_lets page s1 s2 s3
      have h3 : s3.flt = s.flt := by
        dsimp only [s3]
        split <;> rfl
      clear_value s3
      exact ⟨by show s3.flt.nextSeq = _; rw [h3], by show s3.flt.rates = _; rw [h3]⟩

theorem State.logged_last (s : State) (r : FaultRecord) (h : s.flt.ring.getLast? = some r) :
    ∃ r', (if s.waiting.length ≥ 256 then s.programLog else s).flt.ring.getLast? = some r' ∧ r'.seq = r.seq ∧ r'.fault = r.fault ∧
      r'.kind = r.kind ∧ r'.rung = r.rung ∧ r'.recovery = r.recovery := by
  split
  · exact s.programLog_last r h
  · exact ⟨r, h, rfl, rfl, rfl, rfl, rfl⟩

theorem State.logged_nextSeq (s : State) :
    (if s.waiting.length ≥ 256 then s.programLog else s).flt.nextSeq = s.flt.nextSeq ∧
    (if s.waiting.length ≥ 256 then s.programLog else s).flt.rates = s.flt.rates := by
  split
  · exact s.programLog_nextSeq
  · exact ⟨rfl, rfl⟩

/-- The newest record after a record is written. -/
theorem State.addRecord_last (s : State) (f : FaultDesc) (rung kind recovery merged duration : Nat) :
    ∃ r, (s.addRecord f rung kind recovery merged duration).flt.ring.getLast? = some r ∧ r.seq = s.flt.nextSeq ∧ r.fault = f ∧
      r.kind = kind ∧ r.rung = rung ∧ r.recovery = recovery := by
  unfold State.addRecord
  extract_lets r full lost s1 s2 s3 kept src s4
  have h1 : s1.flt = s.flt := by dsimp only [s1]; split <;> rfl
  have h3 : s3.flt = s.flt := by
    have : s3.flt = s2.flt := by
      dsimp only [s3]
      split
      · split <;> rfl
      · rfl
    rw [this, ← h1]; rfl
  clear_value s3
  have h4 : s4.flt.ring.getLast? = some r := by
    dsimp only [s4]
    refine getLast_append_drop _ _ _ ?_
    have : full.length = s.flt.ring.length + 1 := by simp [full]
    omega
  exact s4.logged_last r h4

/-- The number after a record is written, and the rate limits, which a record leaves alone. -/
theorem State.addRecord_nextSeq (s : State) (f : FaultDesc) (rung kind recovery merged duration : Nat) :
    (s.addRecord f rung kind recovery merged duration).flt.nextSeq = Sys2Proof.Machine.nextSeq s.flt.nextSeq ∧
    (s.addRecord f rung kind recovery merged duration).flt.rates = s.flt.rates := by
  unfold State.addRecord
  extract_lets r full lost s1 s2 s3 kept src s4
  have h1 : s1.flt = s.flt := by dsimp only [s1]; split <;> rfl
  have h3 : s3.flt = s.flt := by
    have : s3.flt = s2.flt := by
      dsimp only [s3]
      split
      · split <;> rfl
      · rfl
    rw [this, ← h1]; rfl
  clear_value s3
  have h4 : s4.flt.nextSeq = Sys2Proof.Machine.nextSeq s.flt.nextSeq ∧ s4.flt.rates = s.flt.rates := by
    dsimp only [s4, src, r]
    exact ⟨rfl, congrArg FaultState.rates h3⟩
  have k := s4.logged_nextSeq
  exact ⟨k.1.trans h4.1, k.2.trans h4.2⟩

/-- A record is the newest of the ring. -/
theorem State.record_recorded (s : State) (f : FaultDesc) : Recorded s (s.record f) f := by
  obtain ⟨r, a, b, c, d, _⟩ := s.addRecord_last f 0 0 0 0 0
  exact ⟨r, a, b, c, d⟩

/-- What was recorded is a matter of the fault controller's state alone. -/
theorem Recorded.of_flt {s s' t t' : State} {f : FaultDesc} (h : Recorded s t f) (hs : s'.flt = s.flt) (ht : t'.flt = t.flt) : Recorded s' t' f := by
  unfold Recorded at *
  rw [hs, ht]
  exact h

/-- A rate-limited record: within 100 ms of the last one for its key nothing is written, else the record is. -/
theorem State.recordRated_cases (s : State) (k : RateKey) (f : FaultDesc) :
    match alGet s.flt.rates k with
    | some t0 =>
      if s.now < t0 + 100000000 then s.recordRated k f = s
      else Recorded s (s.recordRated k f) f ∧ alGet (s.recordRated k f).flt.rates k = some s.now
    | none => Recorded s (s.recordRated k f) f ∧ alGet (s.recordRated k f).flt.rates k = some s.now := by
  have key : Recorded s (({ s with flt := { s.flt with rates := alSet s.flt.rates k s.now } } : State).record f) f ∧
      alGet (({ s with flt := { s.flt with rates := alSet s.flt.rates k s.now } } : State).record f).flt.rates k = some s.now := by
    constructor
    · obtain ⟨r, a, b, c, d, _⟩ := State.addRecord_last { s with flt := { s.flt with rates := alSet s.flt.rates k s.now } } f 0 0 0 0 0
      exact ⟨r, a, b, c, d⟩
    · unfold State.record
      rw [(State.addRecord_nextSeq _ f 0 0 0 0 0).2]
      exact alGet_alSet_self _ _ _
  unfold State.recordRated
  cases h : alGet s.flt.rates k with
  | none => exact key
  | some t0 =>
    simp only [rateLimit]
    by_cases g : s.now < t0 + 100000000
    · simp only [g, if_true]
    · simp only [g, if_false]
      exact key

end Sys2Proof.Machine
end

