-- ==== Sys2Proof/Laws/Within.lean ====
section
/-!
SUPPORT. What the shared operations of the state leave alone, and how such facts compose.
-/

set_option Elab.async false

namespace Sys2Proof.Machine

/-- Every member of one list is a member of another. -/
def subList {α : Type} [BEq α] (a b : List α) : Bool := a.all b.contains

theorem subList_mem {α : Type} [BEq α] [LawfulBEq α] {a b : List α} (h : subList a b = true) {x : α} (hx : x ∈ a) : x ∈ b := by
  have := List.all_eq_true.mp h x hx
  simpa using this

theorem subList_trans {α : Type} [BEq α] [LawfulBEq α] {a b c : List α} (h : subList a b = true) (k : subList b c = true) :
    subList a c = true :=
  List.all_eq_true.mpr fun x hx => by simpa using subList_mem k (subList_mem h hx)

theorem subList_elem {α : Type} [BEq α] [LawfulBEq α] {b c : List α} {x : α} (h : b.contains x = true) (k : subList b c = true) : x ∈ c :=
  subList_mem k (by simpa using h)

theorem subList_of {α : Type} [BEq α] [LawfulBEq α] {a b : List α} {x : α} (hx : x ∈ a) (h : subList a b = true) : x ∈ b := subList_mem h hx

theorem subList_refl {α : Type} [BEq α] [LawfulBEq α] (a : List α) : subList a a = true :=
  List.all_eq_true.mpr fun x hx => by simpa using hx

/-- Every register has its name in the list of all. -/
theorem RegName.mem_all (n : RegName) : n ∈ RegName.all := by
  have h : (List.range 321).all (fun i => RegName.all.contains (RegName.ofNat i)) = true := by decide +kernel
  have k := List.all_eq_true.mp h n.ctorIdx (List.mem_range.mpr (by cases n <;> exact Nat.le_of_ble_eq_true rfl))
  rw [RegName.ofNat_ctorIdx] at k
  simpa using k

/-- The list of all registers holds every list of registers. -/
theorem subList_all (l : List RegName) : subList l RegName.all = true :=
  List.all_eq_true.mpr fun x _ => by simpa using RegName.mem_all x

/-- Every component that a command can change: the queue is the step's, and the variant is fixed. -/
def Comp.rest : List Comp :=
  [.now, .free, .mem, .badCheck, .badWord, .resp, .heldRead, .heldWrite, .recSel, .pulses, .pins, .boot, .spl, .flt, .time, .wb, .bank,
   .hdw, .curves, .pwr, .sch, .upool, .deep, .upd, .sqe, .sns, .xw, .veer, .brz, .wl, .net, .hp]

theorem Comp.of_not_rest {x : Comp} (h : x ∉ Comp.rest) : x = .pending ∨ x = .isS := by
  revert h; cases x <;> decide

namespace Within

variable {l : List RegName} {c : List Comp} {s t u : State}

theorem refl (l : List RegName) (c : List Comp) (s : State) : Within l c s s :=
  ⟨fun _ _ => rfl, fun x _ => by cases x <;> rfl, id⟩

theorem trans (h : Within l c s t) (k : Within l c t u) : Within l c s u :=
  ⟨fun r hr => (k.regs r hr).trans (h.regs r hr),
   fun x hx => by have a := h.comps x hx; have b := k.comps x hx; cases x <;> exact Eq.trans b a,
   fun hs => k.canon (h.canon hs)⟩

theorem mono {l' : List RegName} {c' : List Comp} (hl : subList l l' = true) (hc : subList c c' = true) (h : Within l c s t) :
    Within l' c' s t :=
  ⟨fun r hr => h.regs r fun m => hr (subList_mem hl m), fun x hx => h.comps x fun m => hx (subList_mem hc m), h.canon⟩

/-- An intermediate state is named. -/
theorem cut {p : Prop} (h : Within l c s t) (k : Within l c s t → p) : p := k h

/-- The state of a pair. -/
theorem ofPair {α : Type} {p : α × State} {a : α} (e : p = (a, t)) (h : Within l c s p.2) : Within l c s t := by
  rw [e] at h; exact h

/-- The state of a triple. -/
theorem ofTriple {α β : Type} {p : α × β × State} {a : α} {b : β} (e : p = (a, b, t)) (h : Within l c s p.2.2) : Within l c s t := by
  rw [e] at h; exact h

/-- The state of a quadruple. -/
theorem ofFour {α β γ : Type} {p : α × β × γ × State} {a : α} {b : β} {d : γ} (e : p = (a, b, d, t)) (h : Within l c s p.2.2.2) :
    Within l c s t := by
  rw [e] at h; exact h

/-- The state of a pair that it begins. -/
theorem ofFst {α : Type} {p : State × α} {a : α} (e : p = (t, a)) (h : Within l c s p.1) : Within l c s t := by
  rw [e] at h; exact h

/-- An optional state. -/
theorem ofSome {o : Option State} (e : o = some t) (h : ∀ u, o = some u → Within l c s u) : Within l c s t := h t e

/-- An optional state, or what it replaces. -/
theorem getD {o : Option State} (h : ∀ u, o = some u → Within l c s u) (k : Within l c s t) : Within l c s (o.getD t) := by
  cases o with
  | none => exact k
  | some u => exact h u rfl

theorem foldl {α : Type} {f : State → α → State} (hf : ∀ t a, Within l c s t → Within l c s (f t a)) (m : List α) (h : Within l c s t) :
    Within l c s (m.foldl f t) := by
  induction m generalizing t with
  | nil => exact h
  | cons a r ih => exact ih (hf t a h)

theorem foldlPair {α β : Type} {f : β × State → α → β × State} (hf : ∀ q a, Within l c s q.2 → Within l c s (f q a).2) (m : List α) {q : β × State}
    (h : Within l c s q.2) : Within l c s (m.foldl f q).2 := by
  induction m generalizing q with
  | nil => exact h
  | cons a r ih => exact ih (hf q a h)

theorem foldlFst {α β : Type} {f : State × β → α → State × β} (hf : ∀ q a, Within l c s q.1 → Within l c s (f q a).1) (m : List α) {q : State × β}
    (h : Within l c s q.1) : Within l c s (m.foldl f q).1 := by
  induction m generalizing q with
  | nil => exact h
  | cons a r ih => exact ih (hf q a h)

/-! ## One component changed -/

theorem pending {v} (hc : Comp.pending ∈ c) (h : Within l c s t) : Within l c s { t with pending := v } :=
  ⟨h.regs, fun x hx => by have k := h.comps x hx; cases x <;> first | exact k | exact absurd hc hx, h.canon⟩
theorem now {v} (hc : Comp.now ∈ c) (h : Within l c s t) : Within l c s { t with now := v } :=
  ⟨h.regs, fun x hx => by have k := h.comps x hx; cases x <;> first | exact k | exact absurd hc hx, h.canon⟩
theorem free {v} (hc : Comp.free ∈ c) (h : Within l c s t) : Within l c s { t with free := v } :=
  ⟨h.regs, fun x hx => by have k := h.comps x hx; cases x <;> first | exact k | exact absurd hc hx, h.canon⟩
theorem mem {v} (hc : Comp.mem ∈ c) (hm : Memory.wf t.mem = true → Memory.wf v = true) (h : Within l c s t) : Within l c s { t with mem := v } :=
  ⟨h.regs, fun x hx => by have k := h.comps x hx; cases x <;> first | exact k | exact absurd hc hx, fun k => ⟨(h.canon k).1, hm (h.canon k).2⟩⟩
theorem badCheck {v} (hc : Comp.badCheck ∈ c) (h : Within l c s t) : Within l c s { t with badCheck := v } :=
  ⟨h.regs, fun x hx => by have k := h.comps x hx; cases x <;> first | exact k | exact absurd hc hx, h.canon⟩
theorem badWord {v} (hc : Comp.badWord ∈ c) (h : Within l c s t) : Within l c s { t with badWord := v } :=
  ⟨h.regs, fun x hx => by have k := h.comps x hx; cases x <;> first | exact k | exact absurd hc hx, h.canon⟩
theorem resp {v} (hc : Comp.resp ∈ c) (h : Within l c s t) : Within l c s { t with resp := v } :=
  ⟨h.regs, fun x hx => by have k := h.comps x hx; cases x <;> first | exact k | exact absurd hc hx, h.canon⟩
theorem heldRead {v} (hc : Comp.heldRead ∈ c) (h : Within l c s t) : Within l c s { t with heldRead := v } :=
  ⟨h.regs, fun x hx => by have k := h.comps x hx; cases x <;> first | exact k | exact absurd hc hx, h.canon⟩
theorem heldWrite {v} (hc : Comp.heldWrite ∈ c) (h : Within l c s t) : Within l c s { t with heldWrite := v } :=
  ⟨h.regs, fun x hx => by have k := h.comps x hx; cases x <;> first | exact k | exact absurd hc hx, h.canon⟩
theorem recSel {v} (hc : Comp.recSel ∈ c) (h : Within l c s t) : Within l c s { t with recSel := v } :=
  ⟨h.regs, fun x hx => by have k := h.comps x hx; cases x <;> first | exact k | exact absurd hc hx, h.canon⟩
theorem isS {v} (hc : Comp.isS ∈ c) (h : Within l c s t) : Within l c s { t with isS := v } :=
  ⟨h.regs, fun x hx => by have k := h.comps x hx; cases x <;> first | exact k | exact absurd hc hx, h.canon⟩
theorem pulses {v} (hc : Comp.pulses ∈ c) (h : Within l c s t) : Within l c s { t with pulses := v } :=
  ⟨h.regs, fun x hx => by have k := h.comps x hx; cases x <;> first | exact k | exact absurd hc hx, h.canon⟩
theorem pins {v} (hc : Comp.pins ∈ c) (h : Within l c s t) : Within l c s { t with pins := v } :=
  ⟨h.regs, fun x hx => by have k := h.comps x hx; cases x <;> first | exact k | exact absurd hc hx, h.canon⟩
theorem boot {v} (hc : Comp.boot ∈ c) (h : Within l c s t) : Within l c s { t with boot := v } :=
  ⟨h.regs, fun x hx => by have k := h.comps x hx; cases x <;> first | exact k | exact absurd hc hx, h.canon⟩
theorem spl {v} (hc : Comp.spl ∈ c) (h : Within l c s t) : Within l c s { t with spl := v } :=
  ⟨h.regs, fun x hx => by have k := h.comps x hx; cases x <;> first | exact k | exact absurd hc hx, h.canon⟩
theorem flt {v} (hc : Comp.flt ∈ c) (h : Within l c s t) : Within l c s { t with flt := v } :=
  ⟨h.regs, fun x hx => by have k := h.comps x hx; cases x <;> first | exact k | exact absurd hc hx, h.canon⟩
theorem time {v} (hc : Comp.time ∈ c) (h : Within l c s t) : Within l c s { t with time := v } :=
  ⟨h.regs, fun x hx => by have k := h.comps x hx; cases x <;> first | exact k | exact absurd hc hx, h.canon⟩
theorem wb {v} (hc : Comp.wb ∈ c) (h : Within l c s t) : Within l c s { t with wb := v } :=
  ⟨h.regs, fun x hx => by have k := h.comps x hx; cases x <;> first | exact k | exact absurd hc hx, h.canon⟩
theorem bank {v} (hc : Comp.bank ∈ c) (h : Within l c s t) : Within l c s { t with bank := v } :=
  ⟨h.regs, fun x hx => by have k := h.comps x hx; cases x <;> first | exact k | exact absurd hc hx, h.canon⟩
theorem hdw {v} (hc : Comp.hdw ∈ c) (h : Within l c s t) : Within l c s { t with hdw := v } :=
  ⟨h.regs, fun x hx => by have k := h.comps x hx; cases x <;> first | exact k | exact absurd hc hx, h.canon⟩
theorem curves {v} (hc : Comp.curves ∈ c) (h : Within l c s t) : Within l c s { t with curves := v } :=
  ⟨h.regs, fun x hx => by have k := h.comps x hx; cases x <;> first | exact k | exact absurd hc hx, h.canon⟩
theorem pwr {v} (hc : Comp.pwr ∈ c) (h : Within l c s t) : Within l c s { t with pwr := v } :=
  ⟨h.regs, fun x hx => by have k := h.comps x hx; cases x <;> first | exact k | exact absurd hc hx, h.canon⟩
theorem sch {v} (hc : Comp.sch ∈ c) (h : Within l c s t) : Within l c s { t with sch := v } :=
  ⟨h.regs, fun x hx => by have k := h.comps x hx; cases x <;> first | exact k | exact absurd hc hx, h.canon⟩
theorem upool {v} (hc : Comp.upool ∈ c) (h : Within l c s t) : Within l c s { t with upool := v } :=
  ⟨h.regs, fun x hx => by have k := h.comps x hx; cases x <;> first | exact k | exact absurd hc hx, h.canon⟩
theorem deep {v} (hc : Comp.deep ∈ c) (h : Within l c s t) : Within l c s { t with deep := v } :=
  ⟨h.regs, fun x hx => by have k := h.comps x hx; cases x <;> first | exact k | exact absurd hc hx, h.canon⟩
theorem upd {v} (hc : Comp.upd ∈ c) (h : Within l c s t) : Within l c s { t with upd := v } :=
  ⟨h.regs, fun x hx => by have k := h.comps x hx; cases x <;> first | exact k | exact absurd hc hx, h.canon⟩
theorem sqe {v} (hc : Comp.sqe ∈ c) (h : Within l c s t) : Within l c s { t with sqe := v } :=
  ⟨h.regs, fun x hx => by have k := h.comps x hx; cases x <;> first | exact k | exact absurd hc hx, h.canon⟩
theorem sns {v} (hc : Comp.sns ∈ c) (h : Within l c s t) : Within l c s { t with sns := v } :=
  ⟨h.regs, fun x hx => by have k := h.comps x hx; cases x <;> first | exact k | exact absurd hc hx, h.canon⟩
theorem xw {v} (hc : Comp.xw ∈ c) (h : Within l c s t) : Within l c s { t with xw := v } :=
  ⟨h.regs, fun x hx => by have k := h.comps x hx; cases x <;> first | exact k | exact absurd hc hx, h.canon⟩
theorem veer {v} (hc : Comp.veer ∈ c) (h : Within l c s t) : Within l c s { t with veer := v } :=
  ⟨h.regs, fun x hx => by have k := h.comps x hx; cases x <;> first | exact k | exact absurd hc hx, h.canon⟩
theorem brz {v} (hc : Comp.brz ∈ c) (h : Within l c s t) : Within l c s { t with brz := v } :=
  ⟨h.regs, fun x hx => by have k := h.comps x hx; cases x <;> first | exact k | exact absurd hc hx, h.canon⟩
theorem wl {v} (hc : Comp.wl ∈ c) (h : Within l c s t) : Within l c s { t with wl := v } :=
  ⟨h.regs, fun x hx => by have k := h.comps x hx; cases x <;> first | exact k | exact absurd hc hx, h.canon⟩
theorem net {v} (hc : Comp.net ∈ c) (h : Within l c s t) : Within l c s { t with net := v } :=
  ⟨h.regs, fun x hx => by have k := h.comps x hx; cases x <;> first | exact k | exact absurd hc hx, h.canon⟩
theorem hp {v} (hc : Comp.hp ∈ c) (h : Within l c s t) : Within l c s { t with hp := v } :=
  ⟨h.regs, fun x hx => by have k := h.comps x hx; cases x <;> first | exact k | exact absurd hc hx, h.canon⟩

theorem foldlMem {α : Type} {f : State → α → State} (m : List α) (hf : ∀ t, ∀ a ∈ m, Within l c s t → Within l c s (f t a)) (h : Within l c s t) :
    Within l c s (m.foldl f t) := by
  induction m generalizing t with
  | nil => exact h
  | cons a r ih => exact ih (fun u b hb => hf u b (List.mem_cons_of_mem _ hb)) (hf t a (List.mem_cons_self ..) h)

/-! ## Several components changed -/

theorem badCheck_badWord {v0 v1} (h0 : Comp.badCheck ∈ c) (h1 : Comp.badWord ∈ c) (h : Within l c s t) :
    Within l c s { t with badCheck := v0, badWord := v1 } :=
  badWord (v := v1) h1 (badCheck (v := v0) h0 h)

theorem bank_hdw {v0 v1} (h0 : Comp.bank ∈ c) (h1 : Comp.hdw ∈ c) (h : Within l c s t) :
    Within l c s { t with bank := v0, hdw := v1 } :=
  hdw (v := v1) h1 (bank (v := v0) h0 h)

theorem boot_pwr {v0 v1} (h0 : Comp.boot ∈ c) (h1 : Comp.pwr ∈ c) (h : Within l c s t) :
    Within l c s { t with boot := v0, pwr := v1 } :=
  pwr (v := v1) h1 (boot (v := v0) h0 h)

theorem boot_spl {v0 v1} (h0 : Comp.boot ∈ c) (h1 : Comp.spl ∈ c) (h : Within l c s t) :
    Within l c s { t with boot := v0, spl := v1 } :=
  spl (v := v1) h1 (boot (v := v0) h0 h)

theorem boot_spl_wb_pwr {v0 v1 v2 v3} (h0 : Comp.boot ∈ c) (h1 : Comp.spl ∈ c) (h2 : Comp.wb ∈ c) (h3 : Comp.pwr ∈ c) (h : Within l c s t) :
    Within l c s { t with boot := v0, spl := v1, wb := v2, pwr := v3 } :=
  pwr (v := v3) h3 (wb (v := v2) h2 (spl (v := v1) h1 (boot (v := v0) h0 h)))

theorem brz_wl {v0 v1} (h0 : Comp.brz ∈ c) (h1 : Comp.wl ∈ c) (h : Within l c s t) :
    Within l c s { t with brz := v0, wl := v1 } :=
  wl (v := v1) h1 (brz (v := v0) h0 h)

theorem mem_badCheck_badWord {v0 v1 v2} (h0 : Comp.mem ∈ c) (h1 : Comp.badCheck ∈ c) (h2 : Comp.badWord ∈ c) (hm : Memory.wf t.mem = true → Memory.wf v0 = true) (h : Within l c s t) :
    Within l c s { t with mem := v0, badCheck := v1, badWord := v2 } :=
  badWord (v := v2) h2 (badCheck (v := v1) h1 (mem (v := v0) h0 hm h))

theorem now_pins_boot_flt_time {v0 v1 v2 v3 v4} (h0 : Comp.now ∈ c) (h1 : Comp.pins ∈ c) (h2 : Comp.boot ∈ c) (h3 : Comp.flt ∈ c) (h4 : Comp.time ∈ c) (h : Within l c s t) :
    Within l c s { t with now := v0, pins := v1, boot := v2, flt := v3, time := v4 } :=
  time (v := v4) h4 (flt (v := v3) h3 (boot (v := v2) h2 (pins (v := v1) h1 (now (v := v0) h0 h))))

theorem pins_pwr {v0 v1} (h0 : Comp.pins ∈ c) (h1 : Comp.pwr ∈ c) (h : Within l c s t) :
    Within l c s { t with pins := v0, pwr := v1 } :=
  pwr (v := v1) h1 (pins (v := v0) h0 h)

theorem pins_wb {v0 v1} (h0 : Comp.pins ∈ c) (h1 : Comp.wb ∈ c) (h : Within l c s t) :
    Within l c s { t with pins := v0, wb := v1 } :=
  wb (v := v1) h1 (pins (v := v0) h0 h)

theorem pulses_hp {v0 v1} (h0 : Comp.pulses ∈ c) (h1 : Comp.hp ∈ c) (h : Within l c s t) :
    Within l c s { t with pulses := v0, hp := v1 } :=
  hp (v := v1) h1 (pulses (v := v0) h0 h)

theorem spl_wb {v0 v1} (h0 : Comp.spl ∈ c) (h1 : Comp.wb ∈ c) (h : Within l c s t) :
    Within l c s { t with spl := v0, wb := v1 } :=
  wb (v := v1) h1 (spl (v := v0) h0 h)

theorem upool_upd {v0 v1} (h0 : Comp.upool ∈ c) (h1 : Comp.upd ∈ c) (h : Within l c s t) :
    Within l c s { t with upool := v0, upd := v1 } :=
  upd (v := v1) h1 (upool (v := v0) h0 h)

/-! ## Registers -/

theorem wrReg {r : Reg} {w : Word} (hl : r.name ∈ l) (h : Within l c s t) : Within l c s (t.wrReg r w) :=
  ⟨fun x hx => by
      rw [t.rdReg_wrReg_ne w fun e => hx (by rw [e]; exact hl)]
      exact h.regs x hx,
   fun x hx => by have k := h.comps x hx; cases x <;> exact k,
   fun k => ⟨(mapWf_iff (trans := Reg.lt_trans) ..).mpr (t.wrReg_csr r w ((mapWf_iff (trans := Reg.lt_trans) ..).mp (h.canon k).1)), (h.canon k).2⟩⟩

section
variable {n : RegName} {hi lo v i j k : Nat} {b : Bool} (hl : n ∈ l)
include hl
theorem wr (h : Within l c s t) : Within l c s (t.wr n v i j) := wrReg hl h
theorem wrF (h : Within l c s t) : Within l c s (t.wrF n hi lo v i j) := wrReg hl h
theorem wrB (h : Within l c s t) : Within l c s (t.wrB n k b i j) := wrReg hl h
theorem setB (h : Within l c s t) : Within l c s (t.setB n k i j) := wrReg hl h
theorem clrB (h : Within l c s t) : Within l c s (t.clrB n k i j) := wrReg hl h
theorem bump (h : Within l c s t) : Within l c s (t.bump n i j) := wrReg hl h
theorem bumpF (h : Within l c s t) : Within l c s (t.bumpF n hi lo i j) := wrReg hl h
theorem bumpSatF (h : Within l c s t) : Within l c s (t.bumpSatF n hi lo i j) := by
  unfold State.bumpSatF; split
  · exact h
  · exact wrReg hl h
theorem wr64 (hp : ∀ m, n.pairHi = some m → m ∈ l) (h : Within l c s t) : Within l c s (t.wr64 n v i j) := by
  unfold State.wr64; split
  · exact wrReg (hp _ ‹_›) (wrReg hl h)
  · exact wrReg hl h
end

/-! ## Memory -/

theorem setByte {a : Nat} {b : Byte} (hc : Comp.mem ∈ c) (h : Within l c s t) : Within l c s (t.setByte a b) :=
  mem hc (fun k => (mapWf_iff (trans := natLt_trans) ..).mpr (t.setByte_mem a b ((mapWf_iff (trans := natLt_trans) ..).mp k))) h

theorem putBytes {a : Nat} {d : List Byte} (hc : Comp.mem ∈ c) (h : Within l c s t) : Within l c s (t.putBytes a d) := by
  induction d generalizing a t with
  | nil => exact h
  | cons b r ih => exact ih (setByte hc h)

theorem memFilter {p : Host.Cell → Bool} (k : Memory.wf t.mem = true) : Memory.wf (t.mem.filter p) = true :=
  (mapWf_iff (trans := natLt_trans) ..).mpr (((mapWf_iff (trans := natLt_trans) ..).mp k).filter p)

/-- A state put together anew. -/
theorem whole {u : State} (hl : subList RegName.all l = true) (hc : subList Comp.rest c = true) (hp : u.pending = t.pending)
    (hi : u.isS = t.isS) (hk : t.Canonical → u.Canonical) (h : Within l c s t) : Within l c s u :=
  ⟨fun r hr => absurd (subList_mem hl (RegName.mem_all r.name)) hr,
   fun x hx => by
     have e := Comp.of_not_rest fun m => hx (subList_mem hc m)
     have k := h.comps x hx
     rcases e with rfl | rfl
     · exact hp.trans k
     · exact hi.trans k,
   fun k => hk (h.canon k)⟩

theorem csrFilter {p : Reg × Word → Bool} (k : t.csrWf = true) : mapWf Reg.lt Reg.resetWord (t.csr.filter p) = true :=
  (mapWf_iff (trans := Reg.lt_trans) ..).mpr (((mapWf_iff (trans := Reg.lt_trans) ..).mp k).filter p)

/-- Both maps filtered. -/
theorem canonFilter {p : Reg × Word → Bool} {q : Host.Cell → Bool} (hc : u.csr = t.csr.filter p) (hm : u.mem = t.mem.filter q)
    (k : t.Canonical) : u.Canonical := by
  unfold State.Canonical State.csrWf
  rw [hc, hm]
  exact ⟨csrFilter k.1, memFilter k.2⟩

end Within

/-- The same of the outcome of a command. -/
def WithinOut (l : List RegName) (c : List Comp) (s : State) (o : Host.Outcome State Fault Refusal) : Prop :=
  ∀ t, o = .next t → Within l c s t

theorem WithinOut.next {l : List RegName} {c : List Comp} {s t : State} (h : Within l c s t) : WithinOut l c s (.next t) := by
  rintro _ ⟨⟩
  exact h

end Sys2Proof.Machine
end

