-- ==== Sys2Proof/Laws/WithinOps.lean ====
section
/-!
SUPPORT. What each operation of Machine/Ops.lean leaves alone.
-/

set_option Elab.async false

namespace Sys2Proof.Machine

theorem State.fresh_within {L0 : List RegName} {C0 : List Comp} {s0 : State} {s : State} (hL : subList ([] : List RegName) L0 = true) (hC : subList [.free] C0 = true) (hS : Within L0 C0 s0 s) :
    Within L0 C0 s0 (State.fresh s).2 := by
  unfold State.fresh
  repeat' (first
    | with_reducible exact hS
    | with_reducible assumption
    | exact subList_trans (by decide +kernel) hL
    | exact subList_trans (by decide +kernel) hC
    | exact subList_elem (by decide +kernel) hL
    | exact subList_elem (by decide +kernel) hC
    | exact Within.memFilter
    | (intro x1; refine Within.cut (l := L0) (c := C0) (s := s0) (t := x1) ?_ ?_; subst x1; rotate_left; intro _; rotate_right)
    | (intro _)
    | lift_lets
    | (with_reducible refine Within.ofPair (by assumption) ?_)
    | (with_reducible refine Within.ofTriple (by assumption) ?_)
    | (with_reducible refine Within.ofFour (by assumption) ?_)
    | (with_reducible refine Within.ofFst (by assumption) ?_)
    | (with_reducible refine Within.ofSome (by assumption) ?_)
    | split
    | dsimp only
    | with_reducible apply Within.free)

theorem State.respErr_within {L0 : List RegName} {C0 : List Comp} {s0 : State} {s : State} {n : Nat} (hL : subList ([] : List RegName) L0 = true) (hC : subList [.resp] C0 = true) (hS : Within L0 C0 s0 s) :
    Within L0 C0 s0 (State.respErr s n) := by
  unfold State.respErr
  repeat' (first
    | with_reducible exact hS
    | with_reducible assumption
    | exact subList_trans (by decide +kernel) hL
    | exact subList_trans (by decide +kernel) hC
    | exact subList_elem (by decide +kernel) hL
    | exact subList_elem (by decide +kernel) hC
    | exact Within.memFilter
    | (intro x1; refine Within.cut (l := L0) (c := C0) (s := s0) (t := x1) ?_ ?_; subst x1; rotate_left; intro _; rotate_right)
    | (intro _)
    | lift_lets
    | (with_reducible refine Within.ofPair (by assumption) ?_)
    | (with_reducible refine Within.ofTriple (by assumption) ?_)
    | (with_reducible refine Within.ofFour (by assumption) ?_)
    | (with_reducible refine Within.ofFst (by assumption) ?_)
    | (with_reducible refine Within.ofSome (by assumption) ?_)
    | split
    | dsimp only
    | with_reducible apply Within.resp)

theorem State.pulse_within {L0 : List RegName} {C0 : List Comp} {s0 : State} {s : State} {k : Pulse} (hL : subList ([] : List RegName) L0 = true) (hC : subList [.pulses] C0 = true) (hS : Within L0 C0 s0 s) :
    Within L0 C0 s0 (State.pulse s k) := by
  unfold State.pulse
  repeat' (first
    | with_reducible exact hS
    | with_reducible assumption
    | exact subList_trans (by decide +kernel) hL
    | exact subList_trans (by decide +kernel) hC
    | exact subList_elem (by decide +kernel) hL
    | exact subList_elem (by decide +kernel) hC
    | exact Within.memFilter
    | (intro x1; refine Within.cut (l := L0) (c := C0) (s := s0) (t := x1) ?_ ?_; subst x1; rotate_left; intro _; rotate_right)
    | (intro _)
    | lift_lets
    | (with_reducible refine Within.ofPair (by assumption) ?_)
    | (with_reducible refine Within.ofTriple (by assumption) ?_)
    | (with_reducible refine Within.ofFour (by assumption) ?_)
    | (with_reducible refine Within.ofFst (by assumption) ?_)
    | (with_reducible refine Within.ofSome (by assumption) ?_)
    | split
    | dsimp only
    | with_reducible apply Within.pulses)

theorem State.hpAnswer_within {L0 : List RegName} {C0 : List Comp} {s0 : State} {s : State} {r : HpReply} (hL : subList ([] : List RegName) L0 = true) (hC : subList [.hp] C0 = true) (hS : Within L0 C0 s0 s) :
    Within L0 C0 s0 (State.hpAnswer s r) := by
  unfold State.hpAnswer
  repeat' (first
    | with_reducible exact hS
    | with_reducible assumption
    | exact subList_trans (by decide +kernel) hL
    | exact subList_trans (by decide +kernel) hC
    | exact subList_elem (by decide +kernel) hL
    | exact subList_elem (by decide +kernel) hC
    | exact Within.memFilter
    | (intro x1; refine Within.cut (l := L0) (c := C0) (s := s0) (t := x1) ?_ ?_; subst x1; rotate_left; intro _; rotate_right)
    | (intro _)
    | lift_lets
    | (with_reducible refine Within.ofPair (by assumption) ?_)
    | (with_reducible refine Within.ofTriple (by assumption) ?_)
    | (with_reducible refine Within.ofFour (by assumption) ?_)
    | (with_reducible refine Within.ofFst (by assumption) ?_)
    | (with_reducible refine Within.ofSome (by assumption) ?_)
    | split
    | dsimp only
    | with_reducible apply Within.hp)

theorem State.loadErr_within {L0 : List RegName} {C0 : List Comp} {s0 : State} {s : State} {a : Agent} {n : Nat} (hL : subList ([] : List RegName) L0 = true) (hC : subList [.resp, .pulses, .hp] C0 = true) (hS : Within L0 C0 s0 s) :
    Within L0 C0 s0 (State.loadErr s a n) := by
  unfold State.loadErr
  repeat' (first
    | with_reducible exact hS
    | with_reducible assumption
    | exact subList_trans (by decide +kernel) hL
    | exact subList_trans (by decide +kernel) hC
    | exact subList_elem (by decide +kernel) hL
    | exact subList_elem (by decide +kernel) hC
    | with_reducible apply State.respErr_within
    | with_reducible apply State.pulse_within
    | with_reducible apply State.hpAnswer_within
    | exact Within.memFilter
    | (intro x1; refine Within.cut (l := L0) (c := C0) (s := s0) (t := x1) ?_ ?_; subst x1; rotate_left; intro _; rotate_right)
    | (intro _)
    | lift_lets
    | (with_reducible refine Within.ofPair (by assumption) ?_)
    | (with_reducible refine Within.ofTriple (by assumption) ?_)
    | (with_reducible refine Within.ofFour (by assumption) ?_)
    | (with_reducible refine Within.ofFst (by assumption) ?_)
    | (with_reducible refine Within.ofSome (by assumption) ?_)
    | split
    | dsimp only)

theorem State.opErr_within {L0 : List RegName} {C0 : List Comp} {s0 : State} {s : State} {a : Agent} {op : MemOp} (hL : subList ([] : List RegName) L0 = true) (hC : subList [.resp, .pulses, .hp] C0 = true) (hS : Within L0 C0 s0 s) :
    Within L0 C0 s0 (State.opErr s a op) := by
  unfold State.opErr
  repeat' (first
    | with_reducible exact hS
    | with_reducible assumption
    | exact subList_trans (by decide +kernel) hL
    | exact subList_trans (by decide +kernel) hC
    | exact subList_elem (by decide +kernel) hL
    | exact subList_elem (by decide +kernel) hC
    | with_reducible apply State.loadErr_within
    | with_reducible apply State.respErr_within
    | exact Within.memFilter
    | (intro x1; refine Within.cut (l := L0) (c := C0) (s := s0) (t := x1) ?_ ?_; subst x1; rotate_left; intro _; rotate_right)
    | (intro _)
    | lift_lets
    | (with_reducible refine Within.ofPair (by assumption) ?_)
    | (with_reducible refine Within.ofTriple (by assumption) ?_)
    | (with_reducible refine Within.ofFour (by assumption) ?_)
    | (with_reducible refine Within.ofFst (by assumption) ?_)
    | (with_reducible refine Within.ofSome (by assumption) ?_)
    | split
    | dsimp only)

theorem State.respOk_within {L0 : List RegName} {C0 : List Comp} {s0 : State} {s : State} {d : List Byte} (hL : subList ([] : List RegName) L0 = true) (hC : subList [.resp] C0 = true) (hS : Within L0 C0 s0 s) :
    Within L0 C0 s0 (State.respOk s d) := by
  unfold State.respOk
  repeat' (first
    | with_reducible exact hS
    | with_reducible assumption
    | exact subList_trans (by decide +kernel) hL
    | exact subList_trans (by decide +kernel) hC
    | exact subList_elem (by decide +kernel) hL
    | exact subList_elem (by decide +kernel) hC
    | exact Within.memFilter
    | (intro x1; refine Within.cut (l := L0) (c := C0) (s := s0) (t := x1) ?_ ?_; subst x1; rotate_left; intro _; rotate_right)
    | (intro _)
    | lift_lets
    | (with_reducible refine Within.ofPair (by assumption) ?_)
    | (with_reducible refine Within.ofTriple (by assumption) ?_)
    | (with_reducible refine Within.ofFour (by assumption) ?_)
    | (with_reducible refine Within.ofFst (by assumption) ?_)
    | (with_reducible refine Within.ofSome (by assumption) ?_)
    | split
    | dsimp only
    | with_reducible apply Within.resp)

theorem State.store_within {L0 : List RegName} {C0 : List Comp} {s0 : State} {s : State} {a : Nat} {d : List Byte} (hL : subList ([] : List RegName) L0 = true) (hC : subList [.mem, .badCheck, .badWord] C0 = true) (hS : Within L0 C0 s0 s) :
    Within L0 C0 s0 (State.store s a d) := by
  unfold State.store
  repeat' (first
    | with_reducible exact hS
    | with_reducible assumption
    | exact subList_trans (by decide +kernel) hL
    | exact subList_trans (by decide +kernel) hC
    | exact subList_elem (by decide +kernel) hL
    | exact subList_elem (by decide +kernel) hC
    | with_reducible apply Within.putBytes
    | exact Within.memFilter
    | (intro x1; refine Within.cut (l := L0) (c := C0) (s := s0) (t := x1) ?_ ?_; subst x1; rotate_left; intro _; rotate_right)
    | (intro _)
    | lift_lets
    | (with_reducible refine Within.ofPair (by assumption) ?_)
    | (with_reducible refine Within.ofTriple (by assumption) ?_)
    | (with_reducible refine Within.ofFour (by assumption) ?_)
    | (with_reducible refine Within.ofFst (by assumption) ?_)
    | (with_reducible refine Within.ofSome (by assumption) ?_)
    | split
    | dsimp only
    | with_reducible apply Within.badCheck_badWord)

theorem State.storeKeep_within {L0 : List RegName} {C0 : List Comp} {s0 : State} {s : State} {a : Nat} {d : List Byte} (hL : subList ([] : List RegName) L0 = true) (hC : subList [.mem, .badWord] C0 = true) (hS : Within L0 C0 s0 s) :
    Within L0 C0 s0 (State.storeKeep s a d) := by
  unfold State.storeKeep
  repeat' (first
    | with_reducible exact hS
    | with_reducible assumption
    | exact subList_trans (by decide +kernel) hL
    | exact subList_trans (by decide +kernel) hC
    | exact subList_elem (by decide +kernel) hL
    | exact subList_elem (by decide +kernel) hC
    | with_reducible apply Within.putBytes
    | exact Within.memFilter
    | (intro x1; refine Within.cut (l := L0) (c := C0) (s := s0) (t := x1) ?_ ?_; subst x1; rotate_left; intro _; rotate_right)
    | (intro _)
    | lift_lets
    | (with_reducible refine Within.ofPair (by assumption) ?_)
    | (with_reducible refine Within.ofTriple (by assumption) ?_)
    | (with_reducible refine Within.ofFour (by assumption) ?_)
    | (with_reducible refine Within.ofFst (by assumption) ?_)
    | (with_reducible refine Within.ofSome (by assumption) ?_)
    | split
    | dsimp only
    | with_reducible apply Within.badWord)

theorem State.storeNum_within {L0 : List RegName} {C0 : List Comp} {s0 : State} {s : State} {a n v : Nat} (hL : subList ([] : List RegName) L0 = true) (hC : subList [.mem, .badCheck, .badWord] C0 = true) (hS : Within L0 C0 s0 s) :
    Within L0 C0 s0 (State.storeNum s a n v) := by
  unfold State.storeNum
  repeat' (first
    | with_reducible exact hS
    | with_reducible assumption
    | exact subList_trans (by decide +kernel) hL
    | exact subList_trans (by decide +kernel) hC
    | exact subList_elem (by decide +kernel) hL
    | exact subList_elem (by decide +kernel) hC
    | with_reducible apply State.store_within
    | exact Within.memFilter
    | (intro x1; refine Within.cut (l := L0) (c := C0) (s := s0) (t := x1) ?_ ?_; subst x1; rotate_left; intro _; rotate_right)
    | (intro _)
    | lift_lets
    | (with_reducible refine Within.ofPair (by assumption) ?_)
    | (with_reducible refine Within.ofTriple (by assumption) ?_)
    | (with_reducible refine Within.ofFour (by assumption) ?_)
    | (with_reducible refine Within.ofFst (by assumption) ?_)
    | (with_reducible refine Within.ofSome (by assumption) ?_)
    | split
    | dsimp only)

theorem State.zero_within {L0 : List RegName} {C0 : List Comp} {s0 : State} {s : State} {a n : Nat} (hL : subList ([] : List RegName) L0 = true) (hC : subList [.mem, .badCheck, .badWord] C0 = true) (hS : Within L0 C0 s0 s) :
    Within L0 C0 s0 (State.zero s a n) := by
  unfold State.zero
  repeat' (first
    | with_reducible exact hS
    | with_reducible assumption
    | exact subList_trans (by decide +kernel) hL
    | exact subList_trans (by decide +kernel) hC
    | exact subList_elem (by decide +kernel) hL
    | exact subList_elem (by decide +kernel) hC
    | exact Within.memFilter
    | (intro x1; refine Within.cut (l := L0) (c := C0) (s := s0) (t := x1) ?_ ?_; subst x1; rotate_left; intro _; rotate_right)
    | (intro _)
    | lift_lets
    | (with_reducible refine Within.ofPair (by assumption) ?_)
    | (with_reducible refine Within.ofTriple (by assumption) ?_)
    | (with_reducible refine Within.ofFour (by assumption) ?_)
    | (with_reducible refine Within.ofFst (by assumption) ?_)
    | (with_reducible refine Within.ofSome (by assumption) ?_)
    | split
    | dsimp only
    | with_reducible apply Within.mem_badCheck_badWord)

theorem State.mirror_within {L0 : List RegName} {C0 : List Comp} {s0 : State} {s : State} (hL : subList ([] : List RegName) L0 = true) (hC : subList [.boot] C0 = true) (hS : Within L0 C0 s0 s) :
    Within L0 C0 s0 (State.mirror s) := by
  unfold State.mirror
  repeat' (first
    | with_reducible exact hS
    | with_reducible assumption
    | exact subList_trans (by decide +kernel) hL
    | exact subList_trans (by decide +kernel) hC
    | exact subList_elem (by decide +kernel) hL
    | exact subList_elem (by decide +kernel) hC
    | exact Within.memFilter
    | (intro x1; refine Within.cut (l := L0) (c := C0) (s := s0) (t := x1) ?_ ?_; subst x1; rotate_left; intro _; rotate_right)
    | (intro _)
    | lift_lets
    | (with_reducible refine Within.ofPair (by assumption) ?_)
    | (with_reducible refine Within.ofTriple (by assumption) ?_)
    | (with_reducible refine Within.ofFour (by assumption) ?_)
    | (with_reducible refine Within.ofFst (by assumption) ?_)
    | (with_reducible refine Within.ofSome (by assumption) ?_)
    | split
    | dsimp only
    | with_reducible apply Within.boot)

theorem State.eraseLogBlock_within {L0 : List RegName} {C0 : List Comp} {s0 : State} {s : State} {k : Nat} (hL : subList [.MEM_DEEP_WEAR] L0 = true) (hC : subList [.deep] C0 = true) (hS : Within L0 C0 s0 s) :
    Within L0 C0 s0 (State.eraseLogBlock s k) := by
  unfold State.eraseLogBlock
  repeat' (first
    | with_reducible exact hS
    | with_reducible assumption
    | exact subList_trans (by decide +kernel) hL
    | exact subList_trans (by decide +kernel) hC
    | exact subList_elem (by decide +kernel) hL
    | exact subList_elem (by decide +kernel) hC
    | with_reducible apply Within.wrF
    | exact Within.memFilter
    | (intro x1; refine Within.cut (l := L0) (c := C0) (s := s0) (t := x1) ?_ ?_; subst x1; rotate_left; intro _; rotate_right)
    | (intro _)
    | lift_lets
    | (with_reducible refine Within.ofPair (by assumption) ?_)
    | (with_reducible refine Within.ofTriple (by assumption) ?_)
    | (with_reducible refine Within.ofFour (by assumption) ?_)
    | (with_reducible refine Within.ofFst (by assumption) ?_)
    | (with_reducible refine Within.ofSome (by assumption) ?_)
    | split
    | dsimp only
    | with_reducible apply Within.deep)

theorem State.programLog_within {L0 : List RegName} {C0 : List Comp} {s0 : State} {s : State} (hL : subList [.MEM_DEEP_WEAR, .FLT_STATUS, .FLT_LOG_STATUS] L0 = true) (hC : subList [.flt, .deep] C0 = true) (hS : Within L0 C0 s0 s) :
    Within L0 C0 s0 (State.programLog s) := by
  unfold State.programLog
  repeat' (first
    | with_reducible exact hS
    | with_reducible assumption
    | exact subList_trans (by decide +kernel) hL
    | exact subList_trans (by decide +kernel) hC
    | exact subList_elem (by decide +kernel) hL
    | exact subList_elem (by decide +kernel) hC
    | with_reducible apply Within.wrF
    | with_reducible apply Within.setB
    | with_reducible apply Within.clrB
    | with_reducible apply State.eraseLogBlock_within
    | exact Within.memFilter
    | (intro x1; refine Within.cut (l := L0) (c := C0) (s := s0) (t := x1) ?_ ?_; subst x1; rotate_left; intro _; rotate_right)
    | (intro _)
    | lift_lets
    | (with_reducible refine Within.ofPair (by assumption) ?_)
    | (with_reducible refine Within.ofTriple (by assumption) ?_)
    | (with_reducible refine Within.ofFour (by assumption) ?_)
    | (with_reducible refine Within.ofFst (by assumption) ?_)
    | (with_reducible refine Within.ofSome (by assumption) ?_)
    | split
    | dsimp only
    | with_reducible apply Within.flt)

theorem State.addRecord_within {L0 : List RegName} {C0 : List Comp} {s0 : State} {s : State} {f : FaultDesc} {rung kind recovery merged duration : Nat} (hL : subList [.MEM_DEEP_WEAR, .FLT_STATUS, .FLT_REC_NEWEST, .FLT_REC_LOST, .FLT_LOG_STATUS, .FLT_P_EVENT] L0 = true) (hC : subList [.flt, .deep] C0 = true) (hS : Within L0 C0 s0 s) :
    Within L0 C0 s0 (State.addRecord s f rung kind recovery merged duration) := by
  unfold State.addRecord
  repeat' (first
    | with_reducible exact hS
    | with_reducible assumption
    | exact subList_trans (by decide +kernel) hL
    | exact subList_trans (by decide +kernel) hC
    | exact subList_elem (by decide +kernel) hL
    | exact subList_elem (by decide +kernel) hC
    | with_reducible apply Within.wr
    | with_reducible apply Within.setB
    | with_reducible apply Within.bump
    | with_reducible apply State.programLog_within
    | exact Within.memFilter
    | with_reducible apply Within.getD
    | (intro x1; refine Within.cut (l := L0) (c := C0) (s := s0) (t := x1) ?_ ?_; subst x1; rotate_left; intro _; rotate_right)
    | (intro _)
    | lift_lets
    | (with_reducible refine Within.ofPair (by assumption) ?_)
    | (with_reducible refine Within.ofTriple (by assumption) ?_)
    | (with_reducible refine Within.ofFour (by assumption) ?_)
    | (with_reducible refine Within.ofFst (by assumption) ?_)
    | (with_reducible refine Within.ofSome (by assumption) ?_)
    | split
    | dsimp only
    | with_reducible apply Within.flt)

theorem State.record_within {L0 : List RegName} {C0 : List Comp} {s0 : State} {s : State} {f : FaultDesc} (hL : subList [.MEM_DEEP_WEAR, .FLT_STATUS, .FLT_REC_NEWEST, .FLT_REC_LOST, .FLT_LOG_STATUS, .FLT_P_EVENT] L0 = true) (hC : subList [.flt, .deep] C0 = true) (hS : Within L0 C0 s0 s) :
    Within L0 C0 s0 (State.record s f) := by
  unfold State.record
  repeat' (first
    | with_reducible exact hS
    | with_reducible assumption
    | exact subList_trans (by decide +kernel) hL
    | exact subList_trans (by decide +kernel) hC
    | exact subList_elem (by decide +kernel) hL
    | exact subList_elem (by decide +kernel) hC
    | with_reducible apply State.addRecord_within
    | exact Within.memFilter
    | (intro x1; refine Within.cut (l := L0) (c := C0) (s := s0) (t := x1) ?_ ?_; subst x1; rotate_left; intro _; rotate_right)
    | (intro _)
    | lift_lets
    | (with_reducible refine Within.ofPair (by assumption) ?_)
    | (with_reducible refine Within.ofTriple (by assumption) ?_)
    | (with_reducible refine Within.ofFour (by assumption) ?_)
    | (with_reducible refine Within.ofFst (by assumption) ?_)
    | (with_reducible refine Within.ofSome (by assumption) ?_)
    | split
    | dsimp only)

theorem State.recordRated_within {L0 : List RegName} {C0 : List Comp} {s0 : State} {s : State} {k : RateKey} {f : FaultDesc} (hL : subList [.MEM_DEEP_WEAR, .FLT_STATUS, .FLT_REC_NEWEST, .FLT_REC_LOST, .FLT_LOG_STATUS, .FLT_P_EVENT] L0 = true) (hC : subList [.flt, .deep] C0 = true) (hS : Within L0 C0 s0 s) :
    Within L0 C0 s0 (State.recordRated s k f) := by
  unfold State.recordRated
  repeat' (first
    | with_reducible exact hS
    | with_reducible assumption
    | exact subList_trans (by decide +kernel) hL
    | exact subList_trans (by decide +kernel) hC
    | exact subList_elem (by decide +kernel) hL
    | exact subList_elem (by decide +kernel) hC
    | with_reducible apply State.record_within
    | exact Within.memFilter
    | (intro x1; refine Within.cut (l := L0) (c := C0) (s := s0) (t := x1) ?_ ?_; subst x1; rotate_left; intro _; rotate_right)
    | (intro _)
    | lift_lets
    | (with_reducible refine Within.ofPair (by assumption) ?_)
    | (with_reducible refine Within.ofTriple (by assumption) ?_)
    | (with_reducible refine Within.ofFour (by assumption) ?_)
    | (with_reducible refine Within.ofFst (by assumption) ?_)
    | (with_reducible refine Within.ofSome (by assumption) ?_)
    | split
    | dsimp only
    | with_reducible apply Within.flt)

theorem State.violation_within {L0 : List RegName} {C0 : List Comp} {s0 : State} {s : State} {a : Agent} {addr : Nat} {context : Nat} (hL : subList [.MEM_DEEP_WEAR, .FLT_STATUS, .FLT_REC_NEWEST, .FLT_REC_LOST, .FLT_LOG_STATUS, .FLT_P_EVENT] L0 = true) (hC : subList [.flt, .deep] C0 = true) (hS : Within L0 C0 s0 s) :
    Within L0 C0 s0 (State.violation s a addr context) := by
  unfold State.violation
  repeat' (first
    | with_reducible exact hS
    | with_reducible assumption
    | exact subList_trans (by decide +kernel) hL
    | exact subList_trans (by decide +kernel) hC
    | exact subList_elem (by decide +kernel) hL
    | exact subList_elem (by decide +kernel) hC
    | with_reducible apply State.record_within
    | exact Within.memFilter
    | (intro x1; refine Within.cut (l := L0) (c := C0) (s := s0) (t := x1) ?_ ?_; subst x1; rotate_left; intro _; rotate_right)
    | (intro _)
    | lift_lets
    | (with_reducible refine Within.ofPair (by assumption) ?_)
    | (with_reducible refine Within.ofTriple (by assumption) ?_)
    | (with_reducible refine Within.ofFour (by assumption) ?_)
    | (with_reducible refine Within.ofFst (by assumption) ?_)
    | (with_reducible refine Within.ofSome (by assumption) ?_)
    | split
    | dsimp only)

theorem State.denied_within {L0 : List RegName} {C0 : List Comp} {s0 : State} {s : State} {a : Agent} {addr : Nat} (hL : subList [.MEM_DEEP_WEAR, .FLT_STATUS, .FLT_REC_NEWEST, .FLT_REC_LOST, .FLT_LOG_STATUS, .FLT_P_EVENT] L0 = true) (hC : subList [.resp, .flt, .deep] C0 = true) (hS : Within L0 C0 s0 s) :
    Within L0 C0 s0 (State.denied s a addr) := by
  unfold State.denied
  repeat' (first
    | with_reducible exact hS
    | with_reducible assumption
    | exact subList_trans (by decide +kernel) hL
    | exact subList_trans (by decide +kernel) hC
    | exact subList_elem (by decide +kernel) hL
    | exact subList_elem (by decide +kernel) hC
    | with_reducible apply State.respErr_within
    | with_reducible apply State.violation_within
    | exact Within.memFilter
    | (intro x1; refine Within.cut (l := L0) (c := C0) (s := s0) (t := x1) ?_ ?_; subst x1; rotate_left; intro _; rotate_right)
    | (intro _)
    | lift_lets
    | (with_reducible refine Within.ofPair (by assumption) ?_)
    | (with_reducible refine Within.ofTriple (by assumption) ?_)
    | (with_reducible refine Within.ofFour (by assumption) ?_)
    | (with_reducible refine Within.ofFst (by assumption) ?_)
    | (with_reducible refine Within.ofSome (by assumption) ?_)
    | split
    | dsimp only)

end Sys2Proof.Machine
end

