-- ==== Sys2Proof/Laws/WithinAccess.lean ====
section
/-!
SUPPORT. What each operation of Machine/Access.lean leaves alone.
-/

set_option Elab.async false

namespace Sys2Proof.Machine

theorem State.refusalRecord_within {L0 : List RegName} {C0 : List Comp} {s0 : State} {s : State} {ag : Agent} {v : Verdict} {a : Nat} (hL : subList [.MEM_DEEP_WEAR, .FLT_STATUS, .FLT_REC_NEWEST, .FLT_REC_LOST, .FLT_LOG_STATUS, .FLT_P_EVENT] L0 = true) (hC : subList [.flt, .deep] C0 = true) (hS : Within L0 C0 s0 s) :
    Within L0 C0 s0 (State.refusalRecord s ag v a) := by
  unfold State.refusalRecord
  repeat' (first
    | with_reducible exact hS
    | with_reducible assumption
    | exact subList_trans (by decide +kernel) hL
    | exact subList_trans (by decide +kernel) hC
    | exact subList_elem (by decide +kernel) hL
    | exact subList_elem (by decide +kernel) hC
    | with_reducible apply State.recordRated_within
    | with_reducible apply State.record_within
    | with_reducible apply State.violation_within
    | exact Within.memFilter
    | (intro x1; refine Within.cut (l := L0) (c := C0) (s := s0) (t := x1) ?_ ?_; subst x1; rotate_left; intro _; rotate_right)
    | (intro _)
    | lift_lets
    | (with_reducible refine Within.ofPair (by assumption) ?_)
    | (with_reducible refine Within.ofTriple (by assumption) ?_)
    | (with_reducible refine Within.ofFour (by assumption) ?_)
    | (with_reducible refine Within.ofFst (by assumption) ?_)
    | (with_reducible refine Within.ofSome (by assumption) ?_)
    | split
    | dsimp only)

theorem State.uncorrectable_within {L0 : List RegName} {C0 : List Comp} {s0 : State} {s : State} {ag : Agent} {a : Nat} (hL : subList [.MEM_DEEP_WEAR, .FLT_STATUS, .FLT_REC_NEWEST, .FLT_REC_LOST, .FLT_LOG_STATUS, .FLT_P_EVENT] L0 = true) (hC : subList [.flt, .deep] C0 = true) (hS : Within L0 C0 s0 s) :
    Within L0 C0 s0 (State.uncorrectable s ag a) := by
  unfold State.uncorrectable
  repeat' (first
    | with_reducible exact hS
    | with_reducible assumption
    | exact subList_trans (by decide +kernel) hL
    | exact subList_trans (by decide +kernel) hC
    | exact subList_elem (by decide +kernel) hL
    | exact subList_elem (by decide +kernel) hC
    | with_reducible apply State.record_within
    | exact Within.memFilter
    | (intro x1; refine Within.cut (l := L0) (c := C0) (s := s0) (t := x1) ?_ ?_; subst x1; rotate_left; intro _; rotate_right)
    | (intro _)
    | lift_lets
    | (with_reducible refine Within.ofPair (by assumption) ?_)
    | (with_reducible refine Within.ofTriple (by assumption) ?_)
    | (with_reducible refine Within.ofFour (by assumption) ?_)
    | (with_reducible refine Within.ofFst (by assumption) ?_)
    | (with_reducible refine Within.ofSome (by assumption) ?_)
    | split
    | dsimp only)

theorem State.checkFailed_within {L0 : List RegName} {C0 : List Comp} {s0 : State} {s : State} {ag : Agent} {a : Nat} (hL : subList [.MEM_DEEP_WEAR, .FLT_STATUS, .FLT_REC_NEWEST, .FLT_REC_LOST, .FLT_LOG_STATUS, .FLT_P_EVENT] L0 = true) (hC : subList [.flt, .deep] C0 = true) (hS : Within L0 C0 s0 s) :
    Within L0 C0 s0 (State.checkFailed s ag a) := by
  unfold State.checkFailed
  repeat' (first
    | with_reducible exact hS
    | with_reducible assumption
    | exact subList_trans (by decide +kernel) hL
    | exact subList_trans (by decide +kernel) hC
    | exact subList_elem (by decide +kernel) hL
    | exact subList_elem (by decide +kernel) hC
    | with_reducible apply State.record_within
    | exact Within.memFilter
    | (intro x1; refine Within.cut (l := L0) (c := C0) (s := s0) (t := x1) ?_ ?_; subst x1; rotate_left; intro _; rotate_right)
    | (intro _)
    | lift_lets
    | (with_reducible refine Within.ofPair (by assumption) ?_)
    | (with_reducible refine Within.ofTriple (by assumption) ?_)
    | (with_reducible refine Within.ofFour (by assumption) ?_)
    | (with_reducible refine Within.ofFst (by assumption) ?_)
    | (with_reducible refine Within.ofSome (by assumption) ?_)
    | split
    | dsimp only)

theorem State.rekey_within {L0 : List RegName} {C0 : List Comp} {s0 : State} {s : State} {p : Nat} (hL : subList ([] : List RegName) L0 = true) (hC : subList [.free, .deep] C0 = true) (hS : Within L0 C0 s0 s) :
    Within L0 C0 s0 (State.rekey s p) := by
  unfold State.rekey
  repeat' (first
    | with_reducible exact hS
    | with_reducible assumption
    | exact subList_trans (by decide +kernel) hL
    | exact subList_trans (by decide +kernel) hC
    | exact subList_elem (by decide +kernel) hL
    | exact subList_elem (by decide +kernel) hC
    | with_reducible apply State.fresh_within
    | exact Within.memFilter
    | (intro x1; refine Within.cut (l := L0) (c := C0) (s := s0) (t := x1) ?_ ?_; subst x1; rotate_left; intro _; rotate_right)
    | (intro _)
    | lift_lets
    | (with_reducible refine Within.ofPair (by assumption) ?_)
    | (with_reducible refine Within.ofTriple (by assumption) ?_)
    | (with_reducible refine Within.ofFour (by assumption) ?_)
    | (with_reducible refine Within.ofFst (by assumption) ?_)
    | (with_reducible refine Within.ofSome (by assumption) ?_)
    | split
    | dsimp only
    | with_reducible apply Within.deep)

theorem State.drawKeys_within {L0 : List RegName} {C0 : List Comp} {s0 : State} {s : State} (hL : subList ([] : List RegName) L0 = true) (hC : subList [.free, .deep] C0 = true) (hS : Within L0 C0 s0 s) :
    Within L0 C0 s0 (State.drawKeys s) := by
  unfold State.drawKeys
  repeat' (first
    | with_reducible exact hS
    | with_reducible assumption
    | exact subList_trans (by decide +kernel) hL
    | exact subList_trans (by decide +kernel) hC
    | exact subList_elem (by decide +kernel) hL
    | exact subList_elem (by decide +kernel) hC
    | with_reducible apply State.rekey_within
    | exact Within.memFilter
    | (with_reducible refine Within.foldl (fun _ _ _ => ?_) _ ?_)
    | (with_reducible refine Within.foldlPair (fun _ _ _ => ?_) _ ?_)
    | (with_reducible refine Within.foldlFst (fun _ _ _ => ?_) _ ?_)
    | (intro x1; refine Within.cut (l := L0) (c := C0) (s := s0) (t := x1) ?_ ?_; subst x1; rotate_left; intro _; rotate_right)
    | (intro _)
    | lift_lets
    | (with_reducible refine Within.ofPair (by assumption) ?_)
    | (with_reducible refine Within.ofTriple (by assumption) ?_)
    | (with_reducible refine Within.ofFour (by assumption) ?_)
    | (with_reducible refine Within.ofFst (by assumption) ?_)
    | (with_reducible refine Within.ofSome (by assumption) ?_)
    | split
    | dsimp only)

theorem State.rewritten_within {L0 : List RegName} {C0 : List Comp} {s0 : State} {s : State} {a n : Nat} {check : Bool} (hL : subList ([] : List RegName) L0 = true) (hC : subList [.badCheck, .badWord] C0 = true) (hS : Within L0 C0 s0 s) :
    Within L0 C0 s0 (State.rewritten s a n check) := by
  unfold State.rewritten
  repeat' (first
    | with_reducible exact hS
    | with_reducible assumption
    | exact subList_trans (by decide +kernel) hL
    | exact subList_trans (by decide +kernel) hC
    | exact subList_elem (by decide +kernel) hL
    | exact subList_elem (by decide +kernel) hC
    | exact Within.memFilter
    | (intro x1; refine Within.cut (l := L0) (c := C0) (s := s0) (t := x1) ?_ ?_; subst x1; rotate_left; intro _; rotate_right)
    | (intro _)
    | lift_lets
    | (with_reducible refine Within.ofPair (by assumption) ?_)
    | (with_reducible refine Within.ofTriple (by assumption) ?_)
    | (with_reducible refine Within.ofFour (by assumption) ?_)
    | (with_reducible refine Within.ofFst (by assumption) ?_)
    | (with_reducible refine Within.ofSome (by assumption) ?_)
    | split
    | dsimp only
    | with_reducible apply Within.badCheck_badWord)

theorem State.storeFor_within {L0 : List RegName} {C0 : List Comp} {s0 : State} {s : State} {p a : Nat} {d : List Byte} {check : Bool} (hL : subList ([] : List RegName) L0 = true) (hC : subList [.mem, .badCheck, .badWord] C0 = true) (hS : Within L0 C0 s0 s) :
    Within L0 C0 s0 (State.storeFor s p a d check) := by
  unfold State.storeFor
  repeat' (first
    | with_reducible exact hS
    | with_reducible assumption
    | exact subList_trans (by decide +kernel) hL
    | exact subList_trans (by decide +kernel) hC
    | exact subList_elem (by decide +kernel) hL
    | exact subList_elem (by decide +kernel) hC
    | with_reducible apply Within.putBytes
    | with_reducible apply State.rewritten_within
    | with_reducible apply State.store_within
    | with_reducible apply State.storeKeep_within
    | exact Within.memFilter
    | (intro x1; refine Within.cut (l := L0) (c := C0) (s := s0) (t := x1) ?_ ?_; subst x1; rotate_left; intro _; rotate_right)
    | (intro _)
    | lift_lets
    | (with_reducible refine Within.ofPair (by assumption) ?_)
    | (with_reducible refine Within.ofTriple (by assumption) ?_)
    | (with_reducible refine Within.ofFour (by assumption) ?_)
    | (with_reducible refine Within.ofFst (by assumption) ?_)
    | (with_reducible refine Within.ofSome (by assumption) ?_)
    | split
    | dsimp only)

theorem State.readPassed_within {L0 : List RegName} {C0 : List Comp} {s0 : State} {s : State} {ag : Agent} {a n : Nat} (hL : subList [.MEM_DEEP_WEAR, .FLT_STATUS, .FLT_REC_NEWEST, .FLT_REC_LOST, .FLT_LOG_STATUS, .FLT_P_EVENT] L0 = true) (hC : subList [.flt, .deep] C0 = true) (hS : Within L0 C0 s0 s) :
    Within L0 C0 s0 (State.readPassed s ag a n).2 := by
  unfold State.readPassed
  repeat' (first
    | with_reducible exact hS
    | with_reducible assumption
    | exact subList_trans (by decide +kernel) hL
    | exact subList_trans (by decide +kernel) hC
    | exact subList_elem (by decide +kernel) hL
    | exact subList_elem (by decide +kernel) hC
    | with_reducible apply State.uncorrectable_within
    | with_reducible apply State.checkFailed_within
    | exact Within.memFilter
    | (intro x1; refine Within.cut (l := L0) (c := C0) (s := s0) (t := x1) ?_ ?_; subst x1; rotate_left; intro _; rotate_right)
    | (intro _)
    | lift_lets
    | (with_reducible refine Within.ofPair (by assumption) ?_)
    | (with_reducible refine Within.ofTriple (by assumption) ?_)
    | (with_reducible refine Within.ofFour (by assumption) ?_)
    | (with_reducible refine Within.ofFst (by assumption) ?_)
    | (with_reducible refine Within.ofSome (by assumption) ?_)
    | split
    | dsimp only)

theorem State.writePassed_within {L0 : List RegName} {C0 : List Comp} {s0 : State} {s : State} {ag : Agent} {a : Nat} {d : List Byte} (hL : subList ([] : List RegName) L0 = true) (hC : subList [.mem, .badCheck, .badWord] C0 = true) (hS : Within L0 C0 s0 s) :
    Within L0 C0 s0 (State.writePassed s ag a d) := by
  unfold State.writePassed
  repeat' (first
    | with_reducible exact hS
    | with_reducible assumption
    | exact subList_trans (by decide +kernel) hL
    | exact subList_trans (by decide +kernel) hC
    | exact subList_elem (by decide +kernel) hL
    | exact subList_elem (by decide +kernel) hC
    | with_reducible apply State.storeFor_within
    | exact Within.memFilter
    | (intro x1; refine Within.cut (l := L0) (c := C0) (s := s0) (t := x1) ?_ ?_; subst x1; rotate_left; intro _; rotate_right)
    | (intro _)
    | lift_lets
    | (with_reducible refine Within.ofPair (by assumption) ?_)
    | (with_reducible refine Within.ofTriple (by assumption) ?_)
    | (with_reducible refine Within.ofFour (by assumption) ?_)
    | (with_reducible refine Within.ofFst (by assumption) ?_)
    | (with_reducible refine Within.ofSome (by assumption) ?_)
    | split
    | dsimp only)

theorem State.readAs_within {L0 : List RegName} {C0 : List Comp} {s0 : State} {s : State} {ag : Agent} {a n : Nat} (hL : subList [.MEM_DEEP_WEAR, .FLT_STATUS, .FLT_REC_NEWEST, .FLT_REC_LOST, .FLT_LOG_STATUS, .FLT_P_EVENT] L0 = true) (hC : subList [.flt, .deep] C0 = true) (hS : Within L0 C0 s0 s) :
    Within L0 C0 s0 (State.readAs s ag a n).2 := by
  unfold State.readAs
  repeat' (first
    | with_reducible exact hS
    | with_reducible assumption
    | exact subList_trans (by decide +kernel) hL
    | exact subList_trans (by decide +kernel) hC
    | exact subList_elem (by decide +kernel) hL
    | exact subList_elem (by decide +kernel) hC
    | with_reducible apply State.readPassed_within
    | with_reducible apply State.refusalRecord_within
    | exact Within.memFilter
    | (intro x1; refine Within.cut (l := L0) (c := C0) (s := s0) (t := x1) ?_ ?_; subst x1; rotate_left; intro _; rotate_right)
    | (intro _)
    | lift_lets
    | (with_reducible refine Within.ofPair (by assumption) ?_)
    | (with_reducible refine Within.ofTriple (by assumption) ?_)
    | (with_reducible refine Within.ofFour (by assumption) ?_)
    | (with_reducible refine Within.ofFst (by assumption) ?_)
    | (with_reducible refine Within.ofSome (by assumption) ?_)
    | split
    | dsimp only)

theorem State.writeAs_within {L0 : List RegName} {C0 : List Comp} {s0 : State} {s : State} {ag : Agent} {a : Nat} {d : List Byte} (hL : subList [.MEM_DEEP_WEAR, .FLT_STATUS, .FLT_REC_NEWEST, .FLT_REC_LOST, .FLT_LOG_STATUS, .FLT_P_EVENT] L0 = true) (hC : subList [.mem, .badCheck, .badWord, .flt, .deep] C0 = true) (hS : Within L0 C0 s0 s) :
    Within L0 C0 s0 (State.writeAs s ag a d).2 := by
  unfold State.writeAs
  repeat' (first
    | with_reducible exact hS
    | with_reducible assumption
    | exact subList_trans (by decide +kernel) hL
    | exact subList_trans (by decide +kernel) hC
    | exact subList_elem (by decide +kernel) hL
    | exact subList_elem (by decide +kernel) hC
    | with_reducible apply State.writePassed_within
    | with_reducible apply State.refusalRecord_within
    | exact Within.memFilter
    | (intro x1; refine Within.cut (l := L0) (c := C0) (s := s0) (t := x1) ?_ ?_; subst x1; rotate_left; intro _; rotate_right)
    | (intro _)
    | lift_lets
    | (with_reducible refine Within.ofPair (by assumption) ?_)
    | (with_reducible refine Within.ofTriple (by assumption) ?_)
    | (with_reducible refine Within.ofFour (by assumption) ?_)
    | (with_reducible refine Within.ofFst (by assumption) ?_)
    | (with_reducible refine Within.ofSome (by assumption) ?_)
    | split
    | dsimp only)

end Sys2Proof.Machine
end

