-- ==== Sys2Proof/Laws/WithinQuads.lean ====
section
/-!
SUPPORT. What each operation of Machine/Quads.lean leaves alone.
-/

set_option Elab.async false

namespace Sys2Proof.Machine

theorem State.setLull_within {L0 : List RegName} {C0 : List Comp} {s0 : State} {s : State} {x : QuadRef} {b : Bool} (hL : subList [.BANK_CQ_STATUS, .BANK_TQ_STATUS] L0 = true) (hC : subList ([] : List Comp) C0 = true) (hS : Within L0 C0 s0 s) :
    Within L0 C0 s0 (State.setLull s x b) := by
  unfold State.setLull
  repeat' (first
    | with_reducible exact hS
    | with_reducible assumption
    | exact subList_trans (by decide +kernel) hL
    | exact subList_trans (by decide +kernel) hC
    | exact subList_elem (by decide +kernel) hL
    | exact subList_elem (by decide +kernel) hC
    | with_reducible apply Within.wrB
    | exact Within.memFilter
    | (intro x1; refine Within.cut (l := L0) (c := C0) (s := s0) (t := x1) ?_ ?_; subst x1; rotate_left; intro _; rotate_right)
    | (intro _)
    | lift_lets
    | (with_reducible refine Within.ofPair (by assumption) ?_)
    | (with_reducible refine Within.ofTriple (by assumption) ?_)
    | (with_reducible refine Within.ofFour (by assumption) ?_)
    | (with_reducible refine Within.ofFst (by assumption) ?_)
    | (with_reducible refine Within.ofSome (by assumption) ?_)
    | split
    | dsimp only)

theorem State.setWaking_within {L0 : List RegName} {C0 : List Comp} {s0 : State} {s : State} {x : QuadRef} {b : Bool} (hL : subList [.BANK_CQ_STATUS, .BANK_TQ_STATUS] L0 = true) (hC : subList ([] : List Comp) C0 = true) (hS : Within L0 C0 s0 s) :
    Within L0 C0 s0 (State.setWaking s x b) := by
  unfold State.setWaking
  repeat' (first
    | with_reducible exact hS
    | with_reducible assumption
    | exact subList_trans (by decide +kernel) hL
    | exact subList_trans (by decide +kernel) hC
    | exact subList_elem (by decide +kernel) hL
    | exact subList_elem (by decide +kernel) hC
    | with_reducible apply Within.wrB
    | exact Within.memFilter
    | (intro x1; refine Within.cut (l := L0) (c := C0) (s := s0) (t := x1) ?_ ?_; subst x1; rotate_left; intro _; rotate_right)
    | (intro _)
    | lift_lets
    | (with_reducible refine Within.ofPair (by assumption) ?_)
    | (with_reducible refine Within.ofTriple (by assumption) ?_)
    | (with_reducible refine Within.ofFour (by assumption) ?_)
    | (with_reducible refine Within.ofFst (by assumption) ?_)
    | (with_reducible refine Within.ofSome (by assumption) ?_)
    | split
    | dsimp only)

theorem State.setHstate_within {L0 : List RegName} {C0 : List Comp} {s0 : State} {s : State} {q h : Nat} (hL : subList [.BANK_CQ_STATUS] L0 = true) (hC : subList ([] : List Comp) C0 = true) (hS : Within L0 C0 s0 s) :
    Within L0 C0 s0 (State.setHstate s q h) := by
  unfold State.setHstate
  repeat' (first
    | with_reducible exact hS
    | with_reducible assumption
    | exact subList_trans (by decide +kernel) hL
    | exact subList_trans (by decide +kernel) hC
    | exact subList_elem (by decide +kernel) hL
    | exact subList_elem (by decide +kernel) hC
    | with_reducible apply Within.wrF
    | exact Within.memFilter
    | (intro x1; refine Within.cut (l := L0) (c := C0) (s := s0) (t := x1) ?_ ?_; subst x1; rotate_left; intro _; rotate_right)
    | (intro _)
    | lift_lets
    | (with_reducible refine Within.ofPair (by assumption) ?_)
    | (with_reducible refine Within.ofTriple (by assumption) ?_)
    | (with_reducible refine Within.ofFour (by assumption) ?_)
    | (with_reducible refine Within.ofFst (by assumption) ?_)
    | (with_reducible refine Within.ofSome (by assumption) ?_)
    | split
    | dsimp only)

theorem State.startWake_within {L0 : List RegName} {C0 : List Comp} {s0 : State} {s : State} {x : QuadRef} (hL : subList [.BANK_CQ_STATUS, .BANK_TQ_STATUS] L0 = true) (hC : subList ([] : List Comp) C0 = true) (hS : Within L0 C0 s0 s) :
    Within L0 C0 s0 (State.startWake s x) := by
  unfold State.startWake
  repeat' (first
    | with_reducible exact hS
    | with_reducible assumption
    | exact subList_trans (by decide +kernel) hL
    | exact subList_trans (by decide +kernel) hC
    | exact subList_elem (by decide +kernel) hL
    | exact subList_elem (by decide +kernel) hC
    | with_reducible apply State.setLull_within
    | with_reducible apply State.setWaking_within
    | exact Within.memFilter
    | (intro x1; refine Within.cut (l := L0) (c := C0) (s := s0) (t := x1) ?_ ?_; subst x1; rotate_left; intro _; rotate_right)
    | (intro _)
    | lift_lets
    | (with_reducible refine Within.ofPair (by assumption) ?_)
    | (with_reducible refine Within.ofTriple (by assumption) ?_)
    | (with_reducible refine Within.ofFour (by assumption) ?_)
    | (with_reducible refine Within.ofFst (by assumption) ?_)
    | (with_reducible refine Within.ofSome (by assumption) ?_)
    | split
    | dsimp only)

theorem State.wakeAll_within {L0 : List RegName} {C0 : List Comp} {s0 : State} {s : State} {l : List QuadRef} (hL : subList [.BANK_CQ_STATUS, .BANK_TQ_STATUS] L0 = true) (hC : subList ([] : List Comp) C0 = true) (hS : Within L0 C0 s0 s) :
    Within L0 C0 s0 (State.wakeAll s l) := by
  unfold State.wakeAll
  repeat' (first
    | with_reducible exact hS
    | with_reducible assumption
    | exact subList_trans (by decide +kernel) hL
    | exact subList_trans (by decide +kernel) hC
    | exact subList_elem (by decide +kernel) hL
    | exact subList_elem (by decide +kernel) hC
    | with_reducible apply State.startWake_within
    | exact Within.memFilter
    | (with_reducible refine Within.foldl (fun _ _ _ => ?_) _ ?_)
    | (with_reducible refine Within.foldlPair (fun _ _ _ => ?_) _ ?_)
    | (with_reducible refine Within.foldlFst (fun _ _ _ => ?_) _ ?_)
    | (intro x1; refine Within.cut (l := L0) (c := C0) (s := s0) (t := x1) ?_ ?_; subst x1; rotate_left; intro _; rotate_right)
    | (intro _)
    | lift_lets
    | (with_reducible refine Within.ofPair (by assumption) ?_)
    | (with_reducible refine Within.ofTriple (by assumption) ?_)
    | (with_reducible refine Within.ofFour (by assumption) ?_)
    | (with_reducible refine Within.ofFst (by assumption) ?_)
    | (with_reducible refine Within.ofSome (by assumption) ?_)
    | split
    | dsimp only)

theorem State.hold_within {L0 : List RegName} {C0 : List Comp} {s0 : State} {s : State} {q : QuadRef} {a : Agent} {op : MemOp} (hL : subList [.BANK_CQ_STATUS, .BANK_TQ_STATUS] L0 = true) (hC : subList [.bank] C0 = true) (hS : Within L0 C0 s0 s) :
    Within L0 C0 s0 (State.hold s q a op) := by
  unfold State.hold
  repeat' (first
    | with_reducible exact hS
    | with_reducible assumption
    | exact subList_trans (by decide +kernel) hL
    | exact subList_trans (by decide +kernel) hC
    | exact subList_elem (by decide +kernel) hL
    | exact subList_elem (by decide +kernel) hC
    | with_reducible apply State.wakeAll_within
    | exact Within.memFilter
    | (intro x1; refine Within.cut (l := L0) (c := C0) (s := s0) (t := x1) ?_ ?_; subst x1; rotate_left; intro _; rotate_right)
    | (intro _)
    | lift_lets
    | (with_reducible refine Within.ofPair (by assumption) ?_)
    | (with_reducible refine Within.ofTriple (by assumption) ?_)
    | (with_reducible refine Within.ofFour (by assumption) ?_)
    | (with_reducible refine Within.ofFst (by assumption) ?_)
    | (with_reducible refine Within.ofSome (by assumption) ?_)
    | split
    | dsimp only
    | with_reducible apply Within.bank)

end Sys2Proof.Machine
end

