-- ==== Sys2Proof/Laws/WithinTraffic.lean ====
section
/-!
SUPPORT. What each operation of Machine/Traffic.lean leaves alone.
-/

set_option Elab.async false

namespace Sys2Proof.Machine

theorem State.hdwDebit_within {L0 : List RegName} {C0 : List Comp} {s0 : State} {s : State} {a : Agent} {path n : Nat} (hL : subList ([] : List RegName) L0 = true) (hC : subList [.hdw] C0 = true) (hS : Within L0 C0 s0 s) :
    Within L0 C0 s0 (State.hdwDebit s a path n) := by
  unfold State.hdwDebit
  repeat' (first
    | with_reducible exact hS
    | with_reducible assumption
    | exact subList_trans (by decide +kernel) hL
    | exact subList_trans (by decide +kernel) hC
    | exact subList_elem (by decide +kernel) hL
    | exact subList_elem (by decide +kernel) hC
    | exact Within.memFilter
    | (intro x1; refine Within.cut (l := L0) (c := C0) (s := s0) (t := x1) ?_ ?_; subst x1; rotate_left; intro _; rotate_right)
    | (intro _)
    | lift_lets
    | (with_reducible refine Within.ofPair (by assumption) ?_)
    | (with_reducible refine Within.ofTriple (by assumption) ?_)
    | (with_reducible refine Within.ofFour (by assumption) ?_)
    | (with_reducible refine Within.ofFst (by assumption) ?_)
    | (with_reducible refine Within.ofSome (by assumption) ?_)
    | split
    | dsimp only
    | with_reducible apply Within.hdw)

theorem State.traffic_within {L0 : List RegName} {C0 : List Comp} {s0 : State} {s : State} {a : Agent} {x n : Nat} (hL : subList ([] : List RegName) L0 = true) (hC : subList [.hdw] C0 = true) (hS : Within L0 C0 s0 s) :
    Within L0 C0 s0 (State.traffic s a x n) := by
  unfold State.traffic
  repeat' (first
    | with_reducible exact hS
    | with_reducible assumption
    | exact subList_trans (by decide +kernel) hL
    | exact subList_trans (by decide +kernel) hC
    | exact subList_elem (by decide +kernel) hL
    | exact subList_elem (by decide +kernel) hC
    | with_reducible apply State.hdwDebit_within
    | exact Within.memFilter
    | (intro x1; refine Within.cut (l := L0) (c := C0) (s := s0) (t := x1) ?_ ?_; subst x1; rotate_left; intro _; rotate_right)
    | (intro _)
    | lift_lets
    | (with_reducible refine Within.ofPair (by assumption) ?_)
    | (with_reducible refine Within.ofTriple (by assumption) ?_)
    | (with_reducible refine Within.ofFour (by assumption) ?_)
    | (with_reducible refine Within.ofFst (by assumption) ?_)
    | (with_reducible refine Within.ofSome (by assumption) ?_)
    | split
    | dsimp only)

theorem State.engineRead_within {L0 : List RegName} {C0 : List Comp} {s0 : State} {s : State} {a : Agent} {x n : Nat} (hL : subList [.MEM_DEEP_WEAR, .FLT_STATUS, .FLT_REC_NEWEST, .FLT_REC_LOST, .FLT_LOG_STATUS, .FLT_P_EVENT] L0 = true) (hC : subList [.flt, .hdw, .deep] C0 = true) (hS : Within L0 C0 s0 s) :
    Within L0 C0 s0 (State.engineRead s a x n).2 := by
  unfold State.engineRead
  repeat' (first
    | with_reducible exact hS
    | with_reducible assumption
    | exact subList_trans (by decide +kernel) hL
    | exact subList_trans (by decide +kernel) hC
    | exact subList_elem (by decide +kernel) hL
    | exact subList_elem (by decide +kernel) hC
    | with_reducible apply State.traffic_within
    | with_reducible apply State.readAs_within
    | exact Within.memFilter
    | (intro x1; refine Within.cut (l := L0) (c := C0) (s := s0) (t := x1) ?_ ?_; subst x1; rotate_left; intro _; rotate_right)
    | (intro _)
    | lift_lets
    | (with_reducible refine Within.ofPair (by assumption) ?_)
    | (with_reducible refine Within.ofTriple (by assumption) ?_)
    | (with_reducible refine Within.ofFour (by assumption) ?_)
    | (with_reducible refine Within.ofFst (by assumption) ?_)
    | (with_reducible refine Within.ofSome (by assumption) ?_)
    | split
    | dsimp only)

theorem State.fetch_within {L0 : List RegName} {C0 : List Comp} {s0 : State} {s : State} {a : Agent} {x n : Nat} (hL : subList [.BANK_CQ_STATUS, .BANK_TQ_STATUS, .MEM_DEEP_WEAR, .FLT_STATUS, .FLT_REC_NEWEST, .FLT_REC_LOST, .FLT_LOG_STATUS, .FLT_P_EVENT] L0 = true) (hC : subList [.flt, .hdw, .deep] C0 = true) (hS : Within L0 C0 s0 s) :
    Within L0 C0 s0 (State.fetch s a x n).2 := by
  unfold State.fetch
  repeat' (first
    | with_reducible exact hS
    | with_reducible assumption
    | exact subList_trans (by decide +kernel) hL
    | exact subList_trans (by decide +kernel) hC
    | exact subList_elem (by decide +kernel) hL
    | exact subList_elem (by decide +kernel) hC
    | with_reducible apply State.wakeAll_within
    | with_reducible apply State.engineRead_within
    | exact Within.memFilter
    | (intro x1; refine Within.cut (l := L0) (c := C0) (s := s0) (t := x1) ?_ ?_; subst x1; rotate_left; intro _; rotate_right)
    | (intro _)
    | lift_lets
    | (with_reducible refine Within.ofPair (by assumption) ?_)
    | (with_reducible refine Within.ofTriple (by assumption) ?_)
    | (with_reducible refine Within.ofFour (by assumption) ?_)
    | (with_reducible refine Within.ofFst (by assumption) ?_)
    | (with_reducible refine Within.ofSome (by assumption) ?_)
    | split
    | dsimp only)

theorem State.engineWrite_within {L0 : List RegName} {C0 : List Comp} {s0 : State} {s : State} {a : Agent} {x : Nat} {d : List Byte} (hL : subList [.MEM_DEEP_WEAR, .FLT_STATUS, .FLT_REC_NEWEST, .FLT_REC_LOST, .FLT_LOG_STATUS, .FLT_P_EVENT] L0 = true) (hC : subList [.mem, .badCheck, .badWord, .flt, .hdw, .deep] C0 = true) (hS : Within L0 C0 s0 s) :
    Within L0 C0 s0 (State.engineWrite s a x d).2 := by
  unfold State.engineWrite
  repeat' (first
    | with_reducible exact hS
    | with_reducible assumption
    | exact subList_trans (by decide +kernel) hL
    | exact subList_trans (by decide +kernel) hC
    | exact subList_elem (by decide +kernel) hL
    | exact subList_elem (by decide +kernel) hC
    | with_reducible apply State.traffic_within
    | with_reducible apply State.writeAs_within
    | exact Within.memFilter
    | (intro x1; refine Within.cut (l := L0) (c := C0) (s := s0) (t := x1) ?_ ?_; subst x1; rotate_left; intro _; rotate_right)
    | (intro _)
    | lift_lets
    | (with_reducible refine Within.ofPair (by assumption) ?_)
    | (with_reducible refine Within.ofTriple (by assumption) ?_)
    | (with_reducible refine Within.ofFour (by assumption) ?_)
    | (with_reducible refine Within.ofFst (by assumption) ?_)
    | (with_reducible refine Within.ofSome (by assumption) ?_)
    | split
    | dsimp only)

theorem State.put_within {L0 : List RegName} {C0 : List Comp} {s0 : State} {s : State} {a : Agent} {x : Nat} {d : List Byte} (hL : subList [.BANK_CQ_STATUS, .BANK_TQ_STATUS, .MEM_DEEP_WEAR, .FLT_STATUS, .FLT_REC_NEWEST, .FLT_REC_LOST, .FLT_LOG_STATUS, .FLT_P_EVENT] L0 = true) (hC : subList [.mem, .badCheck, .badWord, .flt, .hdw, .deep] C0 = true) (hS : Within L0 C0 s0 s) :
    Within L0 C0 s0 (State.put s a x d).2 := by
  unfold State.put
  repeat' (first
    | with_reducible exact hS
    | with_reducible assumption
    | exact subList_trans (by decide +kernel) hL
    | exact subList_trans (by decide +kernel) hC
    | exact subList_elem (by decide +kernel) hL
    | exact subList_elem (by decide +kernel) hC
    | with_reducible apply State.wakeAll_within
    | with_reducible apply State.engineWrite_within
    | exact Within.memFilter
    | (intro x1; refine Within.cut (l := L0) (c := C0) (s := s0) (t := x1) ?_ ?_; subst x1; rotate_left; intro _; rotate_right)
    | (intro _)
    | lift_lets
    | (with_reducible refine Within.ofPair (by assumption) ?_)
    | (with_reducible refine Within.ofTriple (by assumption) ?_)
    | (with_reducible refine Within.ofFour (by assumption) ?_)
    | (with_reducible refine Within.ofFst (by assumption) ?_)
    | (with_reducible refine Within.ofSome (by assumption) ?_)
    | split
    | dsimp only)

theorem State.engineNum_within {L0 : List RegName} {C0 : List Comp} {s0 : State} {s : State} {a : Agent} {x n : Nat} (hL : subList [.MEM_DEEP_WEAR, .FLT_STATUS, .FLT_REC_NEWEST, .FLT_REC_LOST, .FLT_LOG_STATUS, .FLT_P_EVENT] L0 = true) (hC : subList [.flt, .hdw, .deep] C0 = true) (hS : Within L0 C0 s0 s) :
    Within L0 C0 s0 (State.engineNum s a x n).2 := by
  unfold State.engineNum
  repeat' (first
    | with_reducible exact hS
    | with_reducible assumption
    | exact subList_trans (by decide +kernel) hL
    | exact subList_trans (by decide +kernel) hC
    | exact subList_elem (by decide +kernel) hL
    | exact subList_elem (by decide +kernel) hC
    | with_reducible apply State.engineRead_within
    | exact Within.memFilter
    | (intro x1; refine Within.cut (l := L0) (c := C0) (s := s0) (t := x1) ?_ ?_; subst x1; rotate_left; intro _; rotate_right)
    | (intro _)
    | lift_lets
    | (with_reducible refine Within.ofPair (by assumption) ?_)
    | (with_reducible refine Within.ofTriple (by assumption) ?_)
    | (with_reducible refine Within.ofFour (by assumption) ?_)
    | (with_reducible refine Within.ofFst (by assumption) ?_)
    | (with_reducible refine Within.ofSome (by assumption) ?_)
    | split
    | dsimp only)

theorem State.postAs_within {L0 : List RegName} {C0 : List Comp} {s0 : State} {s : State} {a : Agent} {x : Nat} {d : List Byte} (hL : subList [.BANK_CQ_STATUS, .BANK_TQ_STATUS, .MEM_DEEP_WEAR, .FLT_STATUS, .FLT_REC_NEWEST, .FLT_REC_LOST, .FLT_LOG_STATUS, .FLT_P_EVENT] L0 = true) (hC : subList [.mem, .badCheck, .badWord, .flt, .bank, .deep] C0 = true) (hS : Within L0 C0 s0 s) :
    Within L0 C0 s0 (State.postAs s a x d).2 := by
  unfold State.postAs
  repeat' (first
    | with_reducible exact hS
    | with_reducible assumption
    | exact subList_trans (by decide +kernel) hL
    | exact subList_trans (by decide +kernel) hC
    | exact subList_elem (by decide +kernel) hL
    | exact subList_elem (by decide +kernel) hC
    | with_reducible apply State.hold_within
    | with_reducible apply State.writePassed_within
    | with_reducible apply State.refusalRecord_within
    | exact Within.memFilter
    | (intro x1; refine Within.cut (l := L0) (c := C0) (s := s0) (t := x1) ?_ ?_; subst x1; rotate_left; intro _; rotate_right)
    | (intro _)
    | lift_lets
    | (with_reducible refine Within.ofPair (by assumption) ?_)
    | (with_reducible refine Within.ofTriple (by assumption) ?_)
    | (with_reducible refine Within.ofFour (by assumption) ?_)
    | (with_reducible refine Within.ofFst (by assumption) ?_)
    | (with_reducible refine Within.ofSome (by assumption) ?_)
    | split
    | dsimp only)

theorem State.postWrite_within {L0 : List RegName} {C0 : List Comp} {s0 : State} {s : State} {a : Agent} {x : Nat} {d : List Byte} (hL : subList [.BANK_CQ_STATUS, .BANK_TQ_STATUS, .MEM_DEEP_WEAR, .FLT_STATUS, .FLT_REC_NEWEST, .FLT_REC_LOST, .FLT_LOG_STATUS, .FLT_P_EVENT] L0 = true) (hC : subList [.mem, .badCheck, .badWord, .flt, .bank, .hdw, .deep] C0 = true) (hS : Within L0 C0 s0 s) :
    Within L0 C0 s0 (State.postWrite s a x d) := by
  unfold State.postWrite
  repeat' (first
    | with_reducible exact hS
    | with_reducible assumption
    | exact subList_trans (by decide +kernel) hL
    | exact subList_trans (by decide +kernel) hC
    | exact subList_elem (by decide +kernel) hL
    | exact subList_elem (by decide +kernel) hC
    | with_reducible apply State.traffic_within
    | with_reducible apply State.postAs_within
    | exact Within.memFilter
    | (intro x1; refine Within.cut (l := L0) (c := C0) (s := s0) (t := x1) ?_ ?_; subst x1; rotate_left; intro _; rotate_right)
    | (intro _)
    | lift_lets
    | (with_reducible refine Within.ofPair (by assumption) ?_)
    | (with_reducible refine Within.ofTriple (by assumption) ?_)
    | (with_reducible refine Within.ofFour (by assumption) ?_)
    | (with_reducible refine Within.ofFst (by assumption) ?_)
    | (with_reducible refine Within.ofSome (by assumption) ?_)
    | split
    | dsimp only)

end Sys2Proof.Machine
end

