-- ==== Sys2Proof/Laws/WithinJobs.lean ====
section
/-!
SUPPORT. What each operation of Machine/Jobs.lean leaves alone.
-/

set_option Elab.async false

namespace Sys2Proof.Machine

theorem State.setJobState_within {L0 : List RegName} {C0 : List Comp} {s0 : State} {s : State} {j st : Nat} (hL : subList [.SCH_CTX] L0 = true) (hC : subList ([] : List Comp) C0 = true) (hS : Within L0 C0 s0 s) :
    Within L0 C0 s0 (State.setJobState s j st) := by
  unfold State.setJobState
  repeat' (first
    | with_reducible exact hS
    | with_reducible assumption
    | exact subList_trans (by decide +kernel) hL
    | exact subList_trans (by decide +kernel) hC
    | exact subList_elem (by decide +kernel) hL
    | exact subList_elem (by decide +kernel) hC
    | with_reducible apply Within.wrF
    | exact Within.memFilter
    | (intro x1; refine Within.cut (l := L0) (c := C0) (s := s0) (t := x1) ?_ ?_; subst x1; rotate_left; intro _; rotate_right)
    | (intro _)
    | lift_lets
    | (with_reducible refine Within.ofPair (by assumption) ?_)
    | (with_reducible refine Within.ofTriple (by assumption) ?_)
    | (with_reducible refine Within.ofFour (by assumption) ?_)
    | (with_reducible refine Within.ofFst (by assumption) ?_)
    | (with_reducible refine Within.ofSome (by assumption) ?_)
    | split
    | dsimp only)

theorem State.setJob_within {L0 : List RegName} {C0 : List Comp} {s0 : State} {s : State} {j : Nat} {c : Ctx} (hL : subList ([] : List RegName) L0 = true) (hC : subList [.sch] C0 = true) (hS : Within L0 C0 s0 s) :
    Within L0 C0 s0 (State.setJob s j c) := by
  unfold State.setJob
  repeat' (first
    | with_reducible exact hS
    | with_reducible assumption
    | exact subList_trans (by decide +kernel) hL
    | exact subList_trans (by decide +kernel) hC
    | exact subList_elem (by decide +kernel) hL
    | exact subList_elem (by decide +kernel) hC
    | exact Within.memFilter
    | (intro x1; refine Within.cut (l := L0) (c := C0) (s := s0) (t := x1) ?_ ?_; subst x1; rotate_left; intro _; rotate_right)
    | (intro _)
    | lift_lets
    | (with_reducible refine Within.ofPair (by assumption) ?_)
    | (with_reducible refine Within.ofTriple (by assumption) ?_)
    | (with_reducible refine Within.ofFour (by assumption) ?_)
    | (with_reducible refine Within.ofFst (by assumption) ?_)
    | (with_reducible refine Within.ofSome (by assumption) ?_)
    | split
    | dsimp only
    | with_reducible apply Within.sch)

theorem State.setRun_within {L0 : List RegName} {C0 : List Comp} {s0 : State} {s : State} {t : Nat} {r : TileRun} (hL : subList ([] : List RegName) L0 = true) (hC : subList [.sch] C0 = true) (hS : Within L0 C0 s0 s) :
    Within L0 C0 s0 (State.setRun s t r) := by
  unfold State.setRun
  repeat' (first
    | with_reducible exact hS
    | with_reducible assumption
    | exact subList_trans (by decide +kernel) hL
    | exact subList_trans (by decide +kernel) hC
    | exact subList_elem (by decide +kernel) hL
    | exact subList_elem (by decide +kernel) hC
    | exact Within.memFilter
    | (intro x1; refine Within.cut (l := L0) (c := C0) (s := s0) (t := x1) ?_ ?_; subst x1; rotate_left; intro _; rotate_right)
    | (intro _)
    | lift_lets
    | (with_reducible refine Within.ofPair (by assumption) ?_)
    | (with_reducible refine Within.ofTriple (by assumption) ?_)
    | (with_reducible refine Within.ofFour (by assumption) ?_)
    | (with_reducible refine Within.ofFst (by assumption) ?_)
    | (with_reducible refine Within.ofSome (by assumption) ?_)
    | split
    | dsimp only
    | with_reducible apply Within.sch)

theorem State.setGangPos_within {L0 : List RegName} {C0 : List Comp} {s0 : State} {s : State} {j i : Nat} {f : GangPos → GangPos} (hL : subList ([] : List RegName) L0 = true) (hC : subList [.sch] C0 = true) (hS : Within L0 C0 s0 s) :
    Within L0 C0 s0 (State.setGangPos s j i f) := by
  unfold State.setGangPos
  repeat' (first
    | with_reducible exact hS
    | with_reducible assumption
    | exact subList_trans (by decide +kernel) hL
    | exact subList_trans (by decide +kernel) hC
    | exact subList_elem (by decide +kernel) hL
    | exact subList_elem (by decide +kernel) hC
    | with_reducible apply State.setJob_within
    | exact Within.memFilter
    | (intro x1; refine Within.cut (l := L0) (c := C0) (s := s0) (t := x1) ?_ ?_; subst x1; rotate_left; intro _; rotate_right)
    | (intro _)
    | lift_lets
    | (with_reducible refine Within.ofPair (by assumption) ?_)
    | (with_reducible refine Within.ofTriple (by assumption) ?_)
    | (with_reducible refine Within.ofFour (by assumption) ?_)
    | (with_reducible refine Within.ofFst (by assumption) ?_)
    | (with_reducible refine Within.ofSome (by assumption) ?_)
    | split
    | dsimp only)

theorem State.schEvent_within {L0 : List RegName} {C0 : List Comp} {s0 : State} {s : State} {p k j : Nat} (hL : subList [.SCH_P_EVENT] L0 = true) (hC : subList ([] : List Comp) C0 = true) (hS : Within L0 C0 s0 s) :
    Within L0 C0 s0 (State.schEvent s p k j) := by
  unfold State.schEvent
  repeat' (first
    | with_reducible exact hS
    | with_reducible assumption
    | exact subList_trans (by decide +kernel) hL
    | exact subList_trans (by decide +kernel) hC
    | exact subList_elem (by decide +kernel) hL
    | exact subList_elem (by decide +kernel) hC
    | with_reducible apply Within.wrF
    | with_reducible apply Within.setB
    | exact Within.memFilter
    | (intro x1; refine Within.cut (l := L0) (c := C0) (s := s0) (t := x1) ?_ ?_; subst x1; rotate_left; intro _; rotate_right)
    | (intro _)
    | lift_lets
    | (with_reducible refine Within.ofPair (by assumption) ?_)
    | (with_reducible refine Within.ofTriple (by assumption) ?_)
    | (with_reducible refine Within.ofFour (by assumption) ?_)
    | (with_reducible refine Within.ofFst (by assumption) ?_)
    | (with_reducible refine Within.ofSome (by assumption) ?_)
    | split
    | dsimp only)

theorem State.jobTail_within {L0 : List RegName} {C0 : List Comp} {s0 : State} {s : State} {j i : Nat} (hL : subList [.MEM_DEEP_WEAR, .FLT_STATUS, .FLT_REC_NEWEST, .FLT_REC_LOST, .FLT_LOG_STATUS, .FLT_P_EVENT] L0 = true) (hC : subList [.flt, .deep] C0 = true) (hS : Within L0 C0 s0 s) :
    Within L0 C0 s0 (State.jobTail s j i).2 := by
  unfold State.jobTail
  repeat' (first
    | with_reducible exact hS
    | with_reducible assumption
    | exact subList_trans (by decide +kernel) hL
    | exact subList_trans (by decide +kernel) hC
    | exact subList_elem (by decide +kernel) hL
    | exact subList_elem (by decide +kernel) hC
    | with_reducible apply State.readAs_within
    | exact Within.memFilter
    | (intro x1; refine Within.cut (l := L0) (c := C0) (s := s0) (t := x1) ?_ ?_; subst x1; rotate_left; intro _; rotate_right)
    | (intro _)
    | lift_lets
    | (with_reducible refine Within.ofPair (by assumption) ?_)
    | (with_reducible refine Within.ofTriple (by assumption) ?_)
    | (with_reducible refine Within.ofFour (by assumption) ?_)
    | (with_reducible refine Within.ofFst (by assumption) ?_)
    | (with_reducible refine Within.ofSome (by assumption) ?_)
    | split
    | dsimp only)

theorem State.jobHead_within {L0 : List RegName} {C0 : List Comp} {s0 : State} {s : State} {j i : Nat} (hL : subList [.MEM_DEEP_WEAR, .FLT_STATUS, .FLT_REC_NEWEST, .FLT_REC_LOST, .FLT_LOG_STATUS, .FLT_P_EVENT] L0 = true) (hC : subList [.flt, .deep] C0 = true) (hS : Within L0 C0 s0 s) :
    Within L0 C0 s0 (State.jobHead s j i).2 := by
  unfold State.jobHead
  repeat' (first
    | with_reducible exact hS
    | with_reducible assumption
    | exact subList_trans (by decide +kernel) hL
    | exact subList_trans (by decide +kernel) hC
    | exact subList_elem (by decide +kernel) hL
    | exact subList_elem (by decide +kernel) hC
    | with_reducible apply State.readAs_within
    | exact Within.memFilter
    | (intro x1; refine Within.cut (l := L0) (c := C0) (s := s0) (t := x1) ?_ ?_; subst x1; rotate_left; intro _; rotate_right)
    | (intro _)
    | lift_lets
    | (with_reducible refine Within.ofPair (by assumption) ?_)
    | (with_reducible refine Within.ofTriple (by assumption) ?_)
    | (with_reducible refine Within.ofFour (by assumption) ?_)
    | (with_reducible refine Within.ofFst (by assumption) ?_)
    | (with_reducible refine Within.ofSome (by assumption) ?_)
    | split
    | dsimp only)

theorem State.showTile_within {L0 : List RegName} {C0 : List Comp} {s0 : State} {s : State} {t : Nat} (hL : subList [.TILE_STATUS] L0 = true) (hC : subList ([] : List Comp) C0 = true) (hS : Within L0 C0 s0 s) :
    Within L0 C0 s0 (State.showTile s t) := by
  unfold State.showTile
  repeat' (first
    | with_reducible exact hS
    | with_reducible assumption
    | exact subList_trans (by decide +kernel) hL
    | exact subList_trans (by decide +kernel) hC
    | exact subList_elem (by decide +kernel) hL
    | exact subList_elem (by decide +kernel) hC
    | with_reducible apply Within.wr
    | exact Within.memFilter
    | (intro x1; refine Within.cut (l := L0) (c := C0) (s := s0) (t := x1) ?_ ?_; subst x1; rotate_left; intro _; rotate_right)
    | (intro _)
    | lift_lets
    | (with_reducible refine Within.ofPair (by assumption) ?_)
    | (with_reducible refine Within.ofTriple (by assumption) ?_)
    | (with_reducible refine Within.ofFour (by assumption) ?_)
    | (with_reducible refine Within.ofFst (by assumption) ?_)
    | (with_reducible refine Within.ofSome (by assumption) ?_)
    | split
    | dsimp only)

theorem State.updRun_within {L0 : List RegName} {C0 : List Comp} {s0 : State} {s : State} {t : Nat} {f : TileRun → TileRun} (hL : subList [.TILE_STATUS] L0 = true) (hC : subList [.sch] C0 = true) (hS : Within L0 C0 s0 s) :
    Within L0 C0 s0 (State.updRun s t f) := by
  unfold State.updRun
  repeat' (first
    | with_reducible exact hS
    | with_reducible assumption
    | exact subList_trans (by decide +kernel) hL
    | exact subList_trans (by decide +kernel) hC
    | exact subList_elem (by decide +kernel) hL
    | exact subList_elem (by decide +kernel) hC
    | with_reducible apply State.setRun_within
    | with_reducible apply State.showTile_within
    | exact Within.memFilter
    | (intro x1; refine Within.cut (l := L0) (c := C0) (s := s0) (t := x1) ?_ ?_; subst x1; rotate_left; intro _; rotate_right)
    | (intro _)
    | lift_lets
    | (with_reducible refine Within.ofPair (by assumption) ?_)
    | (with_reducible refine Within.ofTriple (by assumption) ?_)
    | (with_reducible refine Within.ofFour (by assumption) ?_)
    | (with_reducible refine Within.ofFst (by assumption) ?_)
    | (with_reducible refine Within.ofSome (by assumption) ?_)
    | split
    | dsimp only)

theorem State.retire_within {L0 : List RegName} {C0 : List Comp} {s0 : State} {s : State} {t : Nat} (hL : subList [.TILE_STATUS, .BANK_CQ_STATUS, .BANK_TQ_STATUS, .MEM_DEEP_WEAR, .FLT_STATUS, .FLT_REC_NEWEST, .FLT_REC_LOST, .FLT_LOG_STATUS, .FLT_P_EVENT] L0 = true) (hC : subList [.mem, .badCheck, .badWord, .flt, .bank, .hdw, .sch, .deep] C0 = true) (hS : Within L0 C0 s0 s) :
    Within L0 C0 s0 (State.retire s t) := by
  unfold State.retire
  repeat' (first
    | with_reducible exact hS
    | with_reducible assumption
    | exact subList_trans (by decide +kernel) hL
    | exact subList_trans (by decide +kernel) hC
    | exact subList_elem (by decide +kernel) hL
    | exact subList_elem (by decide +kernel) hC
    | with_reducible apply State.updRun_within
    | with_reducible apply State.postWrite_within
    | exact Within.memFilter
    | (intro x1; refine Within.cut (l := L0) (c := C0) (s := s0) (t := x1) ?_ ?_; subst x1; rotate_left; intro _; rotate_right)
    | (intro _)
    | lift_lets
    | (with_reducible refine Within.ofPair (by assumption) ?_)
    | (with_reducible refine Within.ofTriple (by assumption) ?_)
    | (with_reducible refine Within.ofFour (by assumption) ?_)
    | (with_reducible refine Within.ofFst (by assumption) ?_)
    | (with_reducible refine Within.ofSome (by assumption) ?_)
    | split
    | dsimp only)

theorem State.raiseFlags_within {L0 : List RegName} {C0 : List Comp} {s0 : State} {s : State} {t : Nat} {j : Option Nat} {f : Nat} (hL : subList [.TILE_FLAGS, .SCH_CTX] L0 = true) (hC : subList [.pulses] C0 = true) (hS : Within L0 C0 s0 s) :
    Within L0 C0 s0 (State.raiseFlags s t j f) := by
  unfold State.raiseFlags
  repeat' (first
    | with_reducible exact hS
    | with_reducible assumption
    | exact subList_trans (by decide +kernel) hL
    | exact subList_trans (by decide +kernel) hC
    | exact subList_elem (by decide +kernel) hL
    | exact subList_elem (by decide +kernel) hC
    | with_reducible apply Within.wr
    | with_reducible apply State.pulse_within
    | exact Within.memFilter
    | (intro x1; refine Within.cut (l := L0) (c := C0) (s := s0) (t := x1) ?_ ?_; subst x1; rotate_left; intro _; rotate_right)
    | (intro _)
    | lift_lets
    | (with_reducible refine Within.ofPair (by assumption) ?_)
    | (with_reducible refine Within.ofTriple (by assumption) ?_)
    | (with_reducible refine Within.ofFour (by assumption) ?_)
    | (with_reducible refine Within.ofFst (by assumption) ?_)
    | (with_reducible refine Within.ofSome (by assumption) ?_)
    | split
    | dsimp only)

theorem State.finish_within {L0 : List RegName} {C0 : List Comp} {s0 : State} {s : State} {t n flags : Nat} (hL : subList [.TILE_STATUS, .TILE_FLAGS, .TILE_DONE_TAG, .TILE_CMD_COUNT, .BANK_CQ_STATUS, .BANK_TQ_STATUS, .MEM_DEEP_WEAR, .SCH_CTX, .FLT_STATUS, .FLT_REC_NEWEST, .FLT_REC_LOST, .FLT_LOG_STATUS, .FLT_P_EVENT] L0 = true) (hC : subList [.mem, .badCheck, .badWord, .pulses, .flt, .bank, .hdw, .sch, .deep] C0 = true) (hS : Within L0 C0 s0 s) :
    Within L0 C0 s0 (State.finish s t n flags) := by
  unfold State.finish
  repeat' (first
    | with_reducible exact hS
    | with_reducible assumption
    | exact subList_trans (by decide +kernel) hL
    | exact subList_trans (by decide +kernel) hC
    | exact subList_elem (by decide +kernel) hL
    | exact subList_elem (by decide +kernel) hC
    | with_reducible apply Within.wr
    | with_reducible apply Within.bump
    | with_reducible apply State.raiseFlags_within
    | with_reducible apply State.pulse_within
    | with_reducible apply State.updRun_within
    | with_reducible apply State.setGangPos_within
    | with_reducible apply State.retire_within
    | exact Within.memFilter
    | (intro x1; refine Within.cut (l := L0) (c := C0) (s := s0) (t := x1) ?_ ?_; subst x1; rotate_left; intro _; rotate_right)
    | (intro _)
    | lift_lets
    | (with_reducible refine Within.ofPair (by assumption) ?_)
    | (with_reducible refine Within.ofTriple (by assumption) ?_)
    | (with_reducible refine Within.ofFour (by assumption) ?_)
    | (with_reducible refine Within.ofFst (by assumption) ?_)
    | (with_reducible refine Within.ofSome (by assumption) ?_)
    | split
    | dsimp only)

theorem State.endStall_within {L0 : List RegName} {C0 : List Comp} {s0 : State} {s : State} {n i : Nat} (hL : subList [.UPD_PLAN_STATUS, .UPD_PLAN_STALL_US, .UPD_PLAN_STALL_MAX] L0 = true) (hC : subList [.upd] C0 = true) (hS : Within L0 C0 s0 s) :
    Within L0 C0 s0 (State.endStall s n i) := by
  unfold State.endStall
  repeat' (first
    | with_reducible exact hS
    | with_reducible assumption
    | exact subList_trans (by decide +kernel) hL
    | exact subList_trans (by decide +kernel) hC
    | exact subList_elem (by decide +kernel) hL
    | exact subList_elem (by decide +kernel) hC
    | with_reducible apply Within.wr
    | with_reducible apply Within.wrB
    | exact Within.memFilter
    | (intro x1; refine Within.cut (l := L0) (c := C0) (s := s0) (t := x1) ?_ ?_; subst x1; rotate_left; intro _; rotate_right)
    | (intro _)
    | lift_lets
    | (with_reducible refine Within.ofPair (by assumption) ?_)
    | (with_reducible refine Within.ofTriple (by assumption) ?_)
    | (with_reducible refine Within.ofFour (by assumption) ?_)
    | (with_reducible refine Within.ofFst (by assumption) ?_)
    | (with_reducible refine Within.ofSome (by assumption) ?_)
    | split
    | dsimp only
    | with_reducible apply Within.upd)

theorem State.dropGate_within {L0 : List RegName} {C0 : List Comp} {s0 : State} {s : State} {j i : Nat} (hL : subList [.UPD_PLAN_STATUS, .UPD_PLAN_STALL_US, .UPD_PLAN_STALL_MAX] L0 = true) (hC : subList [.upd] C0 = true) (hS : Within L0 C0 s0 s) :
    Within L0 C0 s0 (State.dropGate s j i) := by
  unfold State.dropGate
  repeat' (first
    | with_reducible exact hS
    | with_reducible assumption
    | exact subList_trans (by decide +kernel) hL
    | exact subList_trans (by decide +kernel) hC
    | exact subList_elem (by decide +kernel) hL
    | exact subList_elem (by decide +kernel) hC
    | with_reducible apply State.endStall_within
    | exact Within.memFilter
    | (intro x1; refine Within.cut (l := L0) (c := C0) (s := s0) (t := x1) ?_ ?_; subst x1; rotate_left; intro _; rotate_right)
    | (intro _)
    | lift_lets
    | (with_reducible refine Within.ofPair (by assumption) ?_)
    | (with_reducible refine Within.ofTriple (by assumption) ?_)
    | (with_reducible refine Within.ofFour (by assumption) ?_)
    | (with_reducible refine Within.ofFst (by assumption) ?_)
    | (with_reducible refine Within.ofSome (by assumption) ?_)
    | split
    | dsimp only
    | with_reducible apply Within.upd)

theorem State.loadTileErr_within {L0 : List RegName} {C0 : List Comp} {s0 : State} {s : State} {t status tag : Nat} (hL : subList [.TILE_ERR] L0 = true) (hC : subList ([] : List Comp) C0 = true) (hS : Within L0 C0 s0 s) :
    Within L0 C0 s0 (State.loadTileErr s t status tag) := by
  unfold State.loadTileErr
  repeat' (first
    | with_reducible exact hS
    | with_reducible assumption
    | exact subList_trans (by decide +kernel) hL
    | exact subList_trans (by decide +kernel) hC
    | exact subList_elem (by decide +kernel) hL
    | exact subList_elem (by decide +kernel) hC
    | with_reducible apply Within.wr
    | exact Within.memFilter
    | (intro x1; refine Within.cut (l := L0) (c := C0) (s := s0) (t := x1) ?_ ?_; subst x1; rotate_left; intro _; rotate_right)
    | (intro _)
    | lift_lets
    | (with_reducible refine Within.ofPair (by assumption) ?_)
    | (with_reducible refine Within.ofTriple (by assumption) ?_)
    | (with_reducible refine Within.ofFour (by assumption) ?_)
    | (with_reducible refine Within.ofFst (by assumption) ?_)
    | (with_reducible refine Within.ofSome (by assumption) ?_)
    | split
    | dsimp only)

theorem State.reportStatus_within {L0 : List RegName} {C0 : List Comp} {s0 : State} {s : State} {t : Nat} {j : Option Nat} {w : List Nat} {status : Nat} (hL : subList [.TILE_ERR, .MEM_DEEP_WEAR, .FLT_STATUS, .FLT_REC_NEWEST, .FLT_REC_LOST, .FLT_LOG_STATUS, .FLT_P_EVENT] L0 = true) (hC : subList [.pulses, .flt, .deep] C0 = true) (hS : Within L0 C0 s0 s) :
    Within L0 C0 s0 (State.reportStatus s t j w status) := by
  unfold State.reportStatus
  repeat' (first
    | with_reducible exact hS
    | with_reducible assumption
    | exact subList_trans (by decide +kernel) hL
    | exact subList_trans (by decide +kernel) hC
    | exact subList_elem (by decide +kernel) hL
    | exact subList_elem (by decide +kernel) hC
    | with_reducible apply State.loadTileErr_within
    | with_reducible apply State.record_within
    | with_reducible apply State.pulse_within
    | exact Within.memFilter
    | (intro x1; refine Within.cut (l := L0) (c := C0) (s := s0) (t := x1) ?_ ?_; subst x1; rotate_left; intro _; rotate_right)
    | (intro _)
    | lift_lets
    | (with_reducible refine Within.ofPair (by assumption) ?_)
    | (with_reducible refine Within.ofTriple (by assumption) ?_)
    | (with_reducible refine Within.ofFour (by assumption) ?_)
    | (with_reducible refine Within.ofFst (by assumption) ?_)
    | (with_reducible refine Within.ofSome (by assumption) ?_)
    | split
    | dsimp only)

theorem State.rewind_within {L0 : List RegName} {C0 : List Comp} {s0 : State} {s : State} {j pos : Nat} {l : List RunCmd} (hL : subList ([] : List RegName) L0 = true) (hC : subList [.sch] C0 = true) (hS : Within L0 C0 s0 s) :
    Within L0 C0 s0 (State.rewind s j pos l) := by
  unfold State.rewind
  repeat' (first
    | with_reducible exact hS
    | with_reducible assumption
    | exact subList_trans (by decide +kernel) hL
    | exact subList_trans (by decide +kernel) hC
    | exact subList_elem (by decide +kernel) hL
    | exact subList_elem (by decide +kernel) hC
    | with_reducible apply State.setGangPos_within
    | exact Within.memFilter
    | (intro x1; refine Within.cut (l := L0) (c := C0) (s := s0) (t := x1) ?_ ?_; subst x1; rotate_left; intro _; rotate_right)
    | (intro _)
    | lift_lets
    | (with_reducible refine Within.ofPair (by assumption) ?_)
    | (with_reducible refine Within.ofTriple (by assumption) ?_)
    | (with_reducible refine Within.ofFour (by assumption) ?_)
    | (with_reducible refine Within.ofFst (by assumption) ?_)
    | (with_reducible refine Within.ofSome (by assumption) ?_)
    | split
    | dsimp only)

theorem State.stopTile_within {L0 : List RegName} {C0 : List Comp} {s0 : State} {s : State} {j since t : Nat} (hL : subList [.TILE_STATUS, .TILE_ERR, .MEM_DEEP_WEAR, .FLT_STATUS, .FLT_REC_NEWEST, .FLT_REC_LOST, .FLT_LOG_STATUS, .FLT_P_EVENT] L0 = true) (hC : subList [.pulses, .flt, .sch, .deep] C0 = true) (hS : Within L0 C0 s0 s) :
    Within L0 C0 s0 (State.stopTile s j since t) := by
  unfold State.stopTile
  repeat' (first
    | with_reducible exact hS
    | with_reducible assumption
    | exact subList_trans (by decide +kernel) hL
    | exact subList_trans (by decide +kernel) hC
    | exact subList_elem (by decide +kernel) hL
    | exact subList_elem (by decide +kernel) hC
    | with_reducible apply State.reportStatus_within
    | with_reducible apply State.rewind_within
    | with_reducible apply State.updRun_within
    | exact Within.memFilter
    | (with_reducible refine Within.foldl (fun _ _ _ => ?_) _ ?_)
    | (with_reducible refine Within.foldlPair (fun _ _ _ => ?_) _ ?_)
    | (with_reducible refine Within.foldlFst (fun _ _ _ => ?_) _ ?_)
    | (intro x1; refine Within.cut (l := L0) (c := C0) (s := s0) (t := x1) ?_ ?_; subst x1; rotate_left; intro _; rotate_right)
    | (intro _)
    | lift_lets
    | (with_reducible refine Within.ofPair (by assumption) ?_)
    | (with_reducible refine Within.ofTriple (by assumption) ?_)
    | (with_reducible refine Within.ofFour (by assumption) ?_)
    | (with_reducible refine Within.ofFst (by assumption) ?_)
    | (with_reducible refine Within.ofSome (by assumption) ?_)
    | split
    | dsimp only)

theorem State.abandonSlots_within {L0 : List RegName} {C0 : List Comp} {s0 : State} {s : State} {j : Nat} (hL : subList ([] : List RegName) L0 = true) (hC : subList [.upd] C0 = true) (hS : Within L0 C0 s0 s) :
    Within L0 C0 s0 (State.abandonSlots s j) := by
  unfold State.abandonSlots
  repeat' (first
    | with_reducible exact hS
    | with_reducible assumption
    | exact subList_trans (by decide +kernel) hL
    | exact subList_trans (by decide +kernel) hC
    | exact subList_elem (by decide +kernel) hL
    | exact subList_elem (by decide +kernel) hC
    | exact Within.memFilter
    | (intro x1; refine Within.cut (l := L0) (c := C0) (s := s0) (t := x1) ?_ ?_; subst x1; rotate_left; intro _; rotate_right)
    | (intro _)
    | lift_lets
    | (with_reducible refine Within.ofPair (by assumption) ?_)
    | (with_reducible refine Within.ofTriple (by assumption) ?_)
    | (with_reducible refine Within.ofFour (by assumption) ?_)
    | (with_reducible refine Within.ofFst (by assumption) ?_)
    | (with_reducible refine Within.ofSome (by assumption) ?_)
    | split
    | dsimp only
    | with_reducible apply Within.upd)

theorem State.dropGates_within {L0 : List RegName} {C0 : List Comp} {s0 : State} {s : State} {j : Nat} (hL : subList [.UPD_PLAN_STATUS, .UPD_PLAN_STALL_US, .UPD_PLAN_STALL_MAX] L0 = true) (hC : subList [.upd] C0 = true) (hS : Within L0 C0 s0 s) :
    Within L0 C0 s0 (State.dropGates s j) := by
  unfold State.dropGates
  repeat' (first
    | with_reducible exact hS
    | with_reducible assumption
    | exact subList_trans (by decide +kernel) hL
    | exact subList_trans (by decide +kernel) hC
    | exact subList_elem (by decide +kernel) hL
    | exact subList_elem (by decide +kernel) hC
    | with_reducible apply State.dropGate_within
    | exact Within.memFilter
    | (with_reducible refine Within.foldl (fun _ _ _ => ?_) _ ?_)
    | (with_reducible refine Within.foldlPair (fun _ _ _ => ?_) _ ?_)
    | (with_reducible refine Within.foldlFst (fun _ _ _ => ?_) _ ?_)
    | (intro x1; refine Within.cut (l := L0) (c := C0) (s := s0) (t := x1) ?_ ?_; subst x1; rotate_left; intro _; rotate_right)
    | (intro _)
    | lift_lets
    | (with_reducible refine Within.ofPair (by assumption) ?_)
    | (with_reducible refine Within.ofTriple (by assumption) ?_)
    | (with_reducible refine Within.ofFour (by assumption) ?_)
    | (with_reducible refine Within.ofFst (by assumption) ?_)
    | (with_reducible refine Within.ofSome (by assumption) ?_)
    | split
    | dsimp only)

theorem State.stopJob_within {L0 : List RegName} {C0 : List Comp} {s0 : State} {s : State} {j status tag since : Nat} (hL : subList [.TILE_STATUS, .TILE_ERR, .MEM_DEEP_WEAR, .UPD_PLAN_STATUS, .UPD_PLAN_STALL_US, .UPD_PLAN_STALL_MAX, .SCH_P_EVENT, .SCH_CTX, .FLT_STATUS, .FLT_REC_NEWEST, .FLT_REC_LOST, .FLT_LOG_STATUS, .FLT_P_EVENT] L0 = true) (hC : subList [.pulses, .flt, .sch, .deep, .upd] C0 = true) (hS : Within L0 C0 s0 s) :
    Within L0 C0 s0 (State.stopJob s j status tag since) := by
  unfold State.stopJob
  repeat' (first
    | with_reducible exact hS
    | with_reducible assumption
    | exact subList_trans (by decide +kernel) hL
    | exact subList_trans (by decide +kernel) hC
    | exact subList_elem (by decide +kernel) hL
    | exact subList_elem (by decide +kernel) hC
    | with_reducible apply Within.wrF
    | with_reducible apply State.stopTile_within
    | with_reducible apply State.dropGates_within
    | with_reducible apply State.abandonSlots_within
    | with_reducible apply State.setJobState_within
    | with_reducible apply State.setJob_within
    | with_reducible apply State.schEvent_within
    | exact Within.memFilter
    | (with_reducible refine Within.foldl (fun _ _ _ => ?_) _ ?_)
    | (with_reducible refine Within.foldlPair (fun _ _ _ => ?_) _ ?_)
    | (with_reducible refine Within.foldlFst (fun _ _ _ => ?_) _ ?_)
    | (intro x1; refine Within.cut (l := L0) (c := C0) (s := s0) (t := x1) ?_ ?_; subst x1; rotate_left; intro _; rotate_right)
    | (intro _)
    | lift_lets
    | (with_reducible refine Within.ofPair (by assumption) ?_)
    | (with_reducible refine Within.ofTriple (by assumption) ?_)
    | (with_reducible refine Within.ofFour (by assumption) ?_)
    | (with_reducible refine Within.ofFst (by assumption) ?_)
    | (with_reducible refine Within.ofSome (by assumption) ?_)
    | split
    | dsimp only)

theorem State.endCommand_within {L0 : List RegName} {C0 : List Comp} {s0 : State} {s : State} {t : Nat} {w : List Nat} {slot status : Nat} (hL : subList [.TILE_STATUS, .TILE_ERR, .MEM_DEEP_WEAR, .FLT_STATUS, .FLT_REC_NEWEST, .FLT_REC_LOST, .FLT_LOG_STATUS, .FLT_P_EVENT] L0 = true) (hC : subList [.pulses, .flt, .sch, .deep] C0 = true) (hS : Within L0 C0 s0 s) :
    Within L0 C0 s0 (State.endCommand s t w slot status) := by
  unfold State.endCommand
  repeat' (first
    | with_reducible exact hS
    | with_reducible assumption
    | exact subList_trans (by decide +kernel) hL
    | exact subList_trans (by decide +kernel) hC
    | exact subList_elem (by decide +kernel) hL
    | exact subList_elem (by decide +kernel) hC
    | with_reducible apply State.reportStatus_within
    | with_reducible apply State.updRun_within
    | with_reducible apply State.setGangPos_within
    | exact Within.memFilter
    | (intro x1; refine Within.cut (l := L0) (c := C0) (s := s0) (t := x1) ?_ ?_; subst x1; rotate_left; intro _; rotate_right)
    | (intro _)
    | lift_lets
    | (with_reducible refine Within.ofPair (by assumption) ?_)
    | (with_reducible refine Within.ofTriple (by assumption) ?_)
    | (with_reducible refine Within.ofFour (by assumption) ?_)
    | (with_reducible refine Within.ofFst (by assumption) ?_)
    | (with_reducible refine Within.ofSome (by assumption) ?_)
    | split
    | dsimp only)

theorem State.failCommand_within {L0 : List RegName} {C0 : List Comp} {s0 : State} {s : State} {t : Nat} {w : List Nat} {slot status : Nat} (hL : subList [.TILE_STATUS, .TILE_ERR, .MEM_DEEP_WEAR, .UPD_PLAN_STATUS, .UPD_PLAN_STALL_US, .UPD_PLAN_STALL_MAX, .SCH_P_EVENT, .SCH_CTX, .FLT_STATUS, .FLT_REC_NEWEST, .FLT_REC_LOST, .FLT_LOG_STATUS, .FLT_P_EVENT] L0 = true) (hC : subList [.pulses, .flt, .sch, .deep, .upd] C0 = true) (hS : Within L0 C0 s0 s) :
    Within L0 C0 s0 (State.failCommand s t w slot status) := by
  unfold State.failCommand
  repeat' (first
    | with_reducible exact hS
    | with_reducible assumption
    | exact subList_trans (by decide +kernel) hL
    | exact subList_trans (by decide +kernel) hC
    | exact subList_elem (by decide +kernel) hL
    | exact subList_elem (by decide +kernel) hC
    | with_reducible apply State.endCommand_within
    | with_reducible apply State.stopJob_within
    | exact Within.memFilter
    | (intro x1; refine Within.cut (l := L0) (c := C0) (s := s0) (t := x1) ?_ ?_; subst x1; rotate_left; intro _; rotate_right)
    | (intro _)
    | lift_lets
    | (with_reducible refine Within.ofPair (by assumption) ?_)
    | (with_reducible refine Within.ofTriple (by assumption) ?_)
    | (with_reducible refine Within.ofFour (by assumption) ?_)
    | (with_reducible refine Within.ofFst (by assumption) ?_)
    | (with_reducible refine Within.ofSome (by assumption) ?_)
    | split
    | dsimp only)

theorem State.wakeQueue_within {L0 : List RegName} {C0 : List Comp} {s0 : State} {s : State} {t : Nat} (hL : subList [.BANK_CQ_STATUS, .BANK_TQ_STATUS] L0 = true) (hC : subList ([] : List Comp) C0 = true) (hS : Within L0 C0 s0 s) :
    Within L0 C0 s0 (State.wakeQueue s t) := by
  unfold State.wakeQueue
  repeat' (first
    | with_reducible exact hS
    | with_reducible assumption
    | exact subList_trans (by decide +kernel) hL
    | exact subList_trans (by decide +kernel) hC
    | exact subList_elem (by decide +kernel) hL
    | exact subList_elem (by decide +kernel) hC
    | with_reducible apply State.wakeAll_within
    | exact Within.memFilter
    | (intro x1; refine Within.cut (l := L0) (c := C0) (s := s0) (t := x1) ?_ ?_; subst x1; rotate_left; intro _; rotate_right)
    | (intro _)
    | lift_lets
    | (with_reducible refine Within.ofPair (by assumption) ?_)
    | (with_reducible refine Within.ofTriple (by assumption) ?_)
    | (with_reducible refine Within.ofFour (by assumption) ?_)
    | (with_reducible refine Within.ofFst (by assumption) ?_)
    | (with_reducible refine Within.ofSome (by assumption) ?_)
    | split
    | dsimp only)

theorem State.takeSlot_within {L0 : List RegName} {C0 : List Comp} {s0 : State} {s : State} {t : Nat} {c : NextCmd} (hL : subList [.TILE_STATUS] L0 = true) (hC : subList [.sch] C0 = true) (hS : Within L0 C0 s0 s) :
    Within L0 C0 s0 (State.takeSlot s t c) := by
  unfold State.takeSlot
  repeat' (first
    | with_reducible exact hS
    | with_reducible assumption
    | exact subList_trans (by decide +kernel) hL
    | exact subList_trans (by decide +kernel) hC
    | exact subList_elem (by decide +kernel) hL
    | exact subList_elem (by decide +kernel) hC
    | with_reducible apply State.setGangPos_within
    | with_reducible apply State.updRun_within
    | exact Within.memFilter
    | (intro x1; refine Within.cut (l := L0) (c := C0) (s := s0) (t := x1) ?_ ?_; subst x1; rotate_left; intro _; rotate_right)
    | (intro _)
    | lift_lets
    | (with_reducible refine Within.ofPair (by assumption) ?_)
    | (with_reducible refine Within.ofTriple (by assumption) ?_)
    | (with_reducible refine Within.ofFour (by assumption) ?_)
    | (with_reducible refine Within.ofFst (by assumption) ?_)
    | (with_reducible refine Within.ofSome (by assumption) ?_)
    | split
    | dsimp only)

theorem State.issueCmd_within {L0 : List RegName} {C0 : List Comp} {s0 : State} {s : State} {t : Nat} {c : NextCmd} (hL : subList [.TILE_STATUS] L0 = true) (hC : subList [.sch] C0 = true) (hS : Within L0 C0 s0 s) :
    Within L0 C0 s0 (State.issueCmd s t c) := by
  unfold State.issueCmd
  repeat' (first
    | with_reducible exact hS
    | with_reducible assumption
    | exact subList_trans (by decide +kernel) hL
    | exact subList_trans (by decide +kernel) hC
    | exact subList_elem (by decide +kernel) hL
    | exact subList_elem (by decide +kernel) hC
    | with_reducible apply State.takeSlot_within
    | with_reducible apply State.updRun_within
    | exact Within.memFilter
    | (intro x1; refine Within.cut (l := L0) (c := C0) (s := s0) (t := x1) ?_ ?_; subst x1; rotate_left; intro _; rotate_right)
    | (intro _)
    | lift_lets
    | (with_reducible refine Within.ofPair (by assumption) ?_)
    | (with_reducible refine Within.ofTriple (by assumption) ?_)
    | (with_reducible refine Within.ofFour (by assumption) ?_)
    | (with_reducible refine Within.ofFst (by assumption) ?_)
    | (with_reducible refine Within.ofSome (by assumption) ?_)
    | split
    | dsimp only)

theorem State.startCmd_within {L0 : List RegName} {C0 : List Comp} {s0 : State} {s : State} {t op : Nat} {drain : Bool} {check : NextCmd → Nat} {ranges : List Nat → Ranges} (hL : subList [.TILE_STATUS, .TILE_ERR, .MEM_DEEP_WEAR, .UPD_PLAN_STATUS, .UPD_PLAN_STALL_US, .UPD_PLAN_STALL_MAX, .SCH_P_EVENT, .SCH_CTX, .FLT_STATUS, .FLT_REC_NEWEST, .FLT_REC_LOST, .FLT_LOG_STATUS, .FLT_P_EVENT] L0 = true) (hC : subList [.pulses, .flt, .sch, .deep, .upd] C0 = true) (hS : Within L0 C0 s0 s) :
    ∀ u0, State.startCmd s t op drain check ranges = some u0 → Within L0 C0 s0 u0.2 := by
  intro u0 h0
  unfold State.startCmd at h0
  have h1 : ∀ x, Within L0 C0 s0 (s.issueCmd t x) := fun _ => State.issueCmd_within (subList_trans (by decide +kernel) hL) (subList_trans (by decide +kernel) hC) hS
  have h2 : ∀ a b u, s.readAs a b 64 = (none, u) → Within L0 C0 s0 u := fun _ _ _ e =>
    Within.ofPair e (State.readAs_within (subList_trans (by decide +kernel) hL) (subList_trans (by decide +kernel) hC) hS)
  dsimp only at h0
  repeat' (split at h0)
  all_goals first
    | (cases h0; done)
    | (cases h0; exact State.failCommand_within (subList_trans (by decide +kernel) hL) (subList_trans (by decide +kernel) hC) (State.issueCmd_within (subList_trans (by decide +kernel) hL) (subList_trans (by decide +kernel) hC) (h2 _ _ _ (by assumption))))
    | (cases h0; exact h1 _)
    | (cases h0; exact State.failCommand_within (subList_trans (by decide +kernel) hL) (subList_trans (by decide +kernel) hC) (h1 _))

theorem State.unpark_within {L0 : List RegName} {C0 : List Comp} {s0 : State} {s : State} {k : Nat} (hL : subList [.SCH_CTX] L0 = true) (hC : subList [.sch] C0 = true) (hS : Within L0 C0 s0 s) :
    Within L0 C0 s0 (State.unpark s k) := by
  unfold State.unpark
  repeat' (first
    | with_reducible exact hS
    | with_reducible assumption
    | exact subList_trans (by decide +kernel) hL
    | exact subList_trans (by decide +kernel) hC
    | exact subList_elem (by decide +kernel) hL
    | exact subList_elem (by decide +kernel) hC
    | with_reducible apply State.setJobState_within
    | with_reducible apply State.setJob_within
    | exact Within.memFilter
    | (intro x1; refine Within.cut (l := L0) (c := C0) (s := s0) (t := x1) ?_ ?_; subst x1; rotate_left; intro _; rotate_right)
    | (intro _)
    | lift_lets
    | (with_reducible refine Within.ofPair (by assumption) ?_)
    | (with_reducible refine Within.ofTriple (by assumption) ?_)
    | (with_reducible refine Within.ofFour (by assumption) ?_)
    | (with_reducible refine Within.ofFst (by assumption) ?_)
    | (with_reducible refine Within.ofSome (by assumption) ?_)
    | split
    | dsimp only)

theorem State.unbindTile_within {L0 : List RegName} {C0 : List Comp} {s0 : State} {s : State} {t : Nat} (hL : subList [.TILE_STATUS, .SCH_CTX] L0 = true) (hC : subList [.sch] C0 = true) (hS : Within L0 C0 s0 s) :
    Within L0 C0 s0 (State.unbindTile s t) := by
  unfold State.unbindTile
  repeat' (first
    | with_reducible exact hS
    | with_reducible assumption
    | exact subList_trans (by decide +kernel) hL
    | exact subList_trans (by decide +kernel) hC
    | exact subList_elem (by decide +kernel) hL
    | exact subList_elem (by decide +kernel) hC
    | with_reducible apply State.updRun_within
    | with_reducible apply State.unpark_within
    | exact Within.memFilter
    | (intro x1; refine Within.cut (l := L0) (c := C0) (s := s0) (t := x1) ?_ ?_; subst x1; rotate_left; intro _; rotate_right)
    | (intro _)
    | lift_lets
    | (with_reducible refine Within.ofPair (by assumption) ?_)
    | (with_reducible refine Within.ofTriple (by assumption) ?_)
    | (with_reducible refine Within.ofFour (by assumption) ?_)
    | (with_reducible refine Within.ofFst (by assumption) ?_)
    | (with_reducible refine Within.ofSome (by assumption) ?_)
    | split
    | dsimp only)

theorem State.unbindJob_within {L0 : List RegName} {C0 : List Comp} {s0 : State} {s : State} {j : Nat} (hL : subList [.TILE_STATUS, .SCH_CTX] L0 = true) (hC : subList [.sch] C0 = true) (hS : Within L0 C0 s0 s) :
    Within L0 C0 s0 (State.unbindJob s j) := by
  unfold State.unbindJob
  repeat' (first
    | with_reducible exact hS
    | with_reducible assumption
    | exact subList_trans (by decide +kernel) hL
    | exact subList_trans (by decide +kernel) hC
    | exact subList_elem (by decide +kernel) hL
    | exact subList_elem (by decide +kernel) hC
    | with_reducible apply State.unbindTile_within
    | with_reducible apply State.updRun_within
    | exact Within.memFilter
    | (with_reducible refine Within.foldl (fun _ _ _ => ?_) _ ?_)
    | (with_reducible refine Within.foldlPair (fun _ _ _ => ?_) _ ?_)
    | (with_reducible refine Within.foldlFst (fun _ _ _ => ?_) _ ?_)
    | (intro x1; refine Within.cut (l := L0) (c := C0) (s := s0) (t := x1) ?_ ?_; subst x1; rotate_left; intro _; rotate_right)
    | (intro _)
    | lift_lets
    | (with_reducible refine Within.ofPair (by assumption) ?_)
    | (with_reducible refine Within.ofTriple (by assumption) ?_)
    | (with_reducible refine Within.ofFour (by assumption) ?_)
    | (with_reducible refine Within.ofFst (by assumption) ?_)
    | (with_reducible refine Within.ofSome (by assumption) ?_)
    | split
    | dsimp only)

theorem State.unbindPlan_within {L0 : List RegName} {C0 : List Comp} {s0 : State} {s : State} {j : Nat} (hL : subList [.UPD_PLAN_STATUS, .UPD_PLAN_STALL_US, .UPD_PLAN_STALL_MAX] L0 = true) (hC : subList [.upd] C0 = true) (hS : Within L0 C0 s0 s) :
    Within L0 C0 s0 (State.unbindPlan s j) := by
  unfold State.unbindPlan
  repeat' (first
    | with_reducible exact hS
    | with_reducible assumption
    | exact subList_trans (by decide +kernel) hL
    | exact subList_trans (by decide +kernel) hC
    | exact subList_elem (by decide +kernel) hL
    | exact subList_elem (by decide +kernel) hC
    | with_reducible apply Within.clrB
    | with_reducible apply State.dropGates_within
    | exact Within.memFilter
    | (intro x1; refine Within.cut (l := L0) (c := C0) (s := s0) (t := x1) ?_ ?_; subst x1; rotate_left; intro _; rotate_right)
    | (intro _)
    | lift_lets
    | (with_reducible refine Within.ofPair (by assumption) ?_)
    | (with_reducible refine Within.ofTriple (by assumption) ?_)
    | (with_reducible refine Within.ofFour (by assumption) ?_)
    | (with_reducible refine Within.ofFst (by assumption) ?_)
    | (with_reducible refine Within.ofSome (by assumption) ?_)
    | split
    | dsimp only
    | with_reducible apply Within.upd)

theorem State.freeJob_within {L0 : List RegName} {C0 : List Comp} {s0 : State} {s : State} {j : Nat} (hL : subList [.TILE_STATUS, .UPD_PLAN_STATUS, .UPD_PLAN_STALL_US, .UPD_PLAN_STALL_MAX, .SCH_FREE_CTX, .SCH_CTX] L0 = true) (hC : subList [.sch, .upd] C0 = true) (hS : Within L0 C0 s0 s) :
    Within L0 C0 s0 (State.freeJob s j) := by
  unfold State.freeJob
  repeat' (first
    | with_reducible exact hS
    | with_reducible assumption
    | exact subList_trans (by decide +kernel) hL
    | exact subList_trans (by decide +kernel) hC
    | exact subList_elem (by decide +kernel) hL
    | exact subList_elem (by decide +kernel) hC
    | with_reducible apply Within.wr
    | with_reducible apply State.unbindPlan_within
    | with_reducible apply State.unbindJob_within
    | exact Within.memFilter
    | (with_reducible refine Within.foldl (fun _ _ _ => ?_) _ ?_)
    | (with_reducible refine Within.foldlPair (fun _ _ _ => ?_) _ ?_)
    | (with_reducible refine Within.foldlFst (fun _ _ _ => ?_) _ ?_)
    | (intro x1; refine Within.cut (l := L0) (c := C0) (s := s0) (t := x1) ?_ ?_; subst x1; rotate_left; intro _; rotate_right)
    | (intro _)
    | lift_lets
    | (with_reducible refine Within.ofPair (by assumption) ?_)
    | (with_reducible refine Within.ofTriple (by assumption) ?_)
    | (with_reducible refine Within.ofFour (by assumption) ?_)
    | (with_reducible refine Within.ofFst (by assumption) ?_)
    | (with_reducible refine Within.ofSome (by assumption) ?_)
    | split
    | dsimp only
    | with_reducible apply Within.sch)

theorem State.abortTile_within {L0 : List RegName} {C0 : List Comp} {s0 : State} {s : State} {j t : Nat} (hL : subList [.TILE_STATUS, .TILE_ERR, .MEM_DEEP_WEAR, .FLT_STATUS, .FLT_REC_NEWEST, .FLT_REC_LOST, .FLT_LOG_STATUS, .FLT_P_EVENT] L0 = true) (hC : subList [.pulses, .flt, .sch, .deep] C0 = true) (hS : Within L0 C0 s0 s) :
    Within L0 C0 s0 (State.abortTile s j t) := by
  unfold State.abortTile
  repeat' (first
    | with_reducible exact hS
    | with_reducible assumption
    | exact subList_trans (by decide +kernel) hL
    | exact subList_trans (by decide +kernel) hC
    | exact subList_elem (by decide +kernel) hL
    | exact subList_elem (by decide +kernel) hC
    | with_reducible apply State.reportStatus_within
    | with_reducible apply State.rewind_within
    | with_reducible apply State.updRun_within
    | exact Within.memFilter
    | (with_reducible refine Within.foldl (fun _ _ _ => ?_) _ ?_)
    | (with_reducible refine Within.foldlPair (fun _ _ _ => ?_) _ ?_)
    | (with_reducible refine Within.foldlFst (fun _ _ _ => ?_) _ ?_)
    | (intro x1; refine Within.cut (l := L0) (c := C0) (s := s0) (t := x1) ?_ ?_; subst x1; rotate_left; intro _; rotate_right)
    | (intro _)
    | lift_lets
    | (with_reducible refine Within.ofPair (by assumption) ?_)
    | (with_reducible refine Within.ofTriple (by assumption) ?_)
    | (with_reducible refine Within.ofFour (by assumption) ?_)
    | (with_reducible refine Within.ofFst (by assumption) ?_)
    | (with_reducible refine Within.ofSome (by assumption) ?_)
    | split
    | dsimp only)

theorem State.abortJob_within {L0 : List RegName} {C0 : List Comp} {s0 : State} {s : State} {j : Nat} (hL : subList [.TILE_STATUS, .TILE_ERR, .MEM_DEEP_WEAR, .UPD_PLAN_STATUS, .UPD_PLAN_STALL_US, .UPD_PLAN_STALL_MAX, .SCH_P_EVENT, .SCH_CTX, .FLT_STATUS, .FLT_REC_NEWEST, .FLT_REC_LOST, .FLT_LOG_STATUS, .FLT_P_EVENT] L0 = true) (hC : subList [.pulses, .flt, .sch, .deep, .upd] C0 = true) (hS : Within L0 C0 s0 s) :
    Within L0 C0 s0 (State.abortJob s j) := by
  unfold State.abortJob
  repeat' (first
    | with_reducible exact hS
    | with_reducible assumption
    | exact subList_trans (by decide +kernel) hL
    | exact subList_trans (by decide +kernel) hC
    | exact subList_elem (by decide +kernel) hL
    | exact subList_elem (by decide +kernel) hC
    | with_reducible apply State.abortTile_within
    | with_reducible apply State.stopJob_within
    | exact Within.memFilter
    | (with_reducible refine Within.foldl (fun _ _ _ => ?_) _ ?_)
    | (with_reducible refine Within.foldlPair (fun _ _ _ => ?_) _ ?_)
    | (with_reducible refine Within.foldlFst (fun _ _ _ => ?_) _ ?_)
    | (intro x1; refine Within.cut (l := L0) (c := C0) (s := s0) (t := x1) ?_ ?_; subst x1; rotate_left; intro _; rotate_right)
    | (intro _)
    | lift_lets
    | (with_reducible refine Within.ofPair (by assumption) ?_)
    | (with_reducible refine Within.ofTriple (by assumption) ?_)
    | (with_reducible refine Within.ofFour (by assumption) ?_)
    | (with_reducible refine Within.ofFst (by assumption) ?_)
    | (with_reducible refine Within.ofSome (by assumption) ?_)
    | split
    | dsimp only)

end Sys2Proof.Machine
end

