-- ==== Sys2Proof/Laws/WithinFaults.lean ====
section
/-!
SUPPORT. What each operation of Machine/Faults.lean leaves alone.
-/

set_option Elab.async false

namespace Sys2Proof.Machine

theorem State.showRecoveries_within {L0 : List RegName} {C0 : List Comp} {s0 : State} {s : State} (hL : subList [.FLT_STATUS] L0 = true) (hC : subList ([] : List Comp) C0 = true) (hS : Within L0 C0 s0 s) :
    Within L0 C0 s0 (State.showRecoveries s) := by
  unfold State.showRecoveries
  repeat' (first
    | with_reducible exact hS
    | with_reducible assumption
    | exact subList_trans (by decide +kernel) hL
    | exact subList_trans (by decide +kernel) hC
    | exact subList_elem (by decide +kernel) hL
    | exact subList_elem (by decide +kernel) hC
    | with_reducible apply Within.wrF
    | exact Within.memFilter
    | (with_reducible refine Within.foldl (fun _ _ _ => ?_) _ ?_)
    | (with_reducible refine Within.foldlPair (fun _ _ _ => ?_) _ ?_)
    | (with_reducible refine Within.foldlFst (fun _ _ _ => ?_) _ ?_)
    | (intro x1; refine Within.cut (l := L0) (c := C0) (s := s0) (t := x1) ?_ ?_; subst x1; rotate_left; intro _; rotate_right)
    | (intro _)
    | lift_lets
    | (with_reducible refine Within.ofPair (by assumption) ?_)
    | (with_reducible refine Within.ofTriple (by assumption) ?_)
    | (with_reducible refine Within.ofFour (by assumption) ?_)
    | (with_reducible refine Within.ofFst (by assumption) ?_)
    | (with_reducible refine Within.ofSome (by assumption) ?_)
    | split
    | dsimp only)

theorem State.closeRecovery_within {L0 : List RegName} {C0 : List Comp} {s0 : State} {s : State} {r : Recovery} {detail : Nat} (hL : subList [.MEM_DEEP_WEAR, .FLT_STATUS, .FLT_REC_NEWEST, .FLT_REC_LOST, .FLT_LOG_STATUS, .FLT_P_EVENT] L0 = true) (hC : subList [.flt, .deep] C0 = true) (hS : Within L0 C0 s0 s) :
    Within L0 C0 s0 (State.closeRecovery s r detail) := by
  unfold State.closeRecovery
  repeat' (first
    | with_reducible exact hS
    | with_reducible assumption
    | exact subList_trans (by decide +kernel) hL
    | exact subList_trans (by decide +kernel) hC
    | exact subList_elem (by decide +kernel) hL
    | exact subList_elem (by decide +kernel) hC
    | with_reducible apply State.addRecord_within
    | with_reducible apply State.showRecoveries_within
    | exact Within.memFilter
    | (intro x1; refine Within.cut (l := L0) (c := C0) (s := s0) (t := x1) ?_ ?_; subst x1; rotate_left; intro _; rotate_right)
    | (intro _)
    | lift_lets
    | (with_reducible refine Within.ofPair (by assumption) ?_)
    | (with_reducible refine Within.ofTriple (by assumption) ?_)
    | (with_reducible refine Within.ofFour (by assumption) ?_)
    | (with_reducible refine Within.ofFst (by assumption) ?_)
    | (with_reducible refine Within.ofSome (by assumption) ?_)
    | split
    | dsimp only
    | with_reducible apply Within.flt)

theorem State.abortLoad_within {L0 : List RegName} {C0 : List Comp} {s0 : State} {s : State} (hL : subList [.SPL_BUSY, .SPL_CTRL, .SPL_STATUS, .MEM_DEEP_WEAR, .FLT_STATUS, .FLT_REC_NEWEST, .FLT_REC_LOST, .FLT_LOG_STATUS, .FLT_P_EVENT] L0 = true) (hC : subList [.pulses, .spl, .flt, .deep] C0 = true) (hS : Within L0 C0 s0 s) :
    Within L0 C0 s0 (State.abortLoad s) := by
  unfold State.abortLoad
  repeat' (first
    | with_reducible exact hS
    | with_reducible assumption
    | exact subList_trans (by decide +kernel) hL
    | exact subList_trans (by decide +kernel) hC
    | exact subList_elem (by decide +kernel) hL
    | exact subList_elem (by decide +kernel) hC
    | with_reducible apply Within.wrF
    | with_reducible apply Within.setB
    | with_reducible apply Within.clrB
    | with_reducible apply State.pulse_within
    | with_reducible apply State.record_within
    | exact Within.memFilter
    | (intro x1; refine Within.cut (l := L0) (c := C0) (s := s0) (t := x1) ?_ ?_; subst x1; rotate_left; intro _; rotate_right)
    | (intro _)
    | lift_lets
    | (with_reducible refine Within.ofPair (by assumption) ?_)
    | (with_reducible refine Within.ofTriple (by assumption) ?_)
    | (with_reducible refine Within.ofFour (by assumption) ?_)
    | (with_reducible refine Within.ofFst (by assumption) ?_)
    | (with_reducible refine Within.ofSome (by assumption) ?_)
    | split
    | dsimp only
    | with_reducible apply Within.spl)

theorem State.fenceStart_within {L0 : List RegName} {C0 : List Comp} {s0 : State} {s : State} {d : Domain} (hL : subList [.TILE_STATUS] L0 = true) (hC : subList [.sch] C0 = true) (hS : Within L0 C0 s0 s) :
    Within L0 C0 s0 (State.fenceStart s d) := by
  unfold State.fenceStart
  repeat' (first
    | with_reducible exact hS
    | with_reducible assumption
    | exact subList_trans (by decide +kernel) hL
    | exact subList_trans (by decide +kernel) hC
    | exact subList_elem (by decide +kernel) hL
    | exact subList_elem (by decide +kernel) hC
    | with_reducible apply State.updRun_within
    | exact Within.memFilter
    | (with_reducible refine Within.foldl (fun _ _ _ => ?_) _ ?_)
    | (with_reducible refine Within.foldlPair (fun _ _ _ => ?_) _ ?_)
    | (with_reducible refine Within.foldlFst (fun _ _ _ => ?_) _ ?_)
    | (intro x1; refine Within.cut (l := L0) (c := C0) (s := s0) (t := x1) ?_ ?_; subst x1; rotate_left; intro _; rotate_right)
    | (intro _)
    | lift_lets
    | (with_reducible refine Within.ofPair (by assumption) ?_)
    | (with_reducible refine Within.ofTriple (by assumption) ?_)
    | (with_reducible refine Within.ofFour (by assumption) ?_)
    | (with_reducible refine Within.ofFst (by assumption) ?_)
    | (with_reducible refine Within.ofSome (by assumption) ?_)
    | split
    | dsimp only)

theorem State.startRecovery_within {L0 : List RegName} {C0 : List Comp} {s0 : State} {s : State} {d : Domain} {f : FaultDesc} {since : Nat} (hL : subList [.SPL_BUSY, .SPL_CTRL, .SPL_STATUS, .TILE_STATUS, .MEM_DEEP_WEAR, .FLT_STATUS, .FLT_REC_NEWEST, .FLT_REC_LOST, .FLT_LOG_STATUS, .FLT_RUNG_COUNT, .FLT_P_EVENT] L0 = true) (hC : subList [.pulses, .spl, .flt, .sch, .deep] C0 = true) (hS : Within L0 C0 s0 s) :
    Within L0 C0 s0 (State.startRecovery s d f since) := by
  unfold State.startRecovery
  repeat' (first
    | with_reducible exact hS
    | with_reducible assumption
    | exact subList_trans (by decide +kernel) hL
    | exact subList_trans (by decide +kernel) hC
    | exact subList_elem (by decide +kernel) hL
    | exact subList_elem (by decide +kernel) hC
    | with_reducible apply Within.setB
    | with_reducible apply Within.bump
    | with_reducible apply State.addRecord_within
    | with_reducible apply State.abortLoad_within
    | with_reducible apply State.fenceStart_within
    | with_reducible apply State.showRecoveries_within
    | exact Within.memFilter
    | (intro x1; refine Within.cut (l := L0) (c := C0) (s := s0) (t := x1) ?_ ?_; subst x1; rotate_left; intro _; rotate_right)
    | (intro _)
    | lift_lets
    | (with_reducible refine Within.ofPair (by assumption) ?_)
    | (with_reducible refine Within.ofTriple (by assumption) ?_)
    | (with_reducible refine Within.ofFour (by assumption) ?_)
    | (with_reducible refine Within.ofFst (by assumption) ?_)
    | (with_reducible refine Within.ofSome (by assumption) ?_)
    | split
    | dsimp only
    | with_reducible apply Within.flt)

theorem State.openRecovery_within {L0 : List RegName} {C0 : List Comp} {s0 : State} {s : State} {d0 : Domain} {f : FaultDesc} (hL : subList [.SPL_BUSY, .SPL_CTRL, .SPL_STATUS, .TILE_STATUS, .MEM_DEEP_WEAR, .FLT_STATUS, .FLT_REC_NEWEST, .FLT_REC_LOST, .FLT_LOG_STATUS, .FLT_RUNG_COUNT, .FLT_P_EVENT] L0 = true) (hC : subList [.pulses, .spl, .flt, .sch, .deep] C0 = true) (hS : Within L0 C0 s0 s) :
    Within L0 C0 s0 (State.openRecovery s d0 f) := by
  unfold State.openRecovery
  repeat' (first
    | with_reducible exact hS
    | with_reducible assumption
    | exact subList_trans (by decide +kernel) hL
    | exact subList_trans (by decide +kernel) hC
    | exact subList_elem (by decide +kernel) hL
    | exact subList_elem (by decide +kernel) hC
    | with_reducible apply State.addRecord_within
    | with_reducible apply State.closeRecovery_within
    | with_reducible apply State.startRecovery_within
    | exact Within.memFilter
    | (with_reducible refine Within.foldl (fun _ _ _ => ?_) _ ?_)
    | (with_reducible refine Within.foldlPair (fun _ _ _ => ?_) _ ?_)
    | (with_reducible refine Within.foldlFst (fun _ _ _ => ?_) _ ?_)
    | (intro x1; refine Within.cut (l := L0) (c := C0) (s := s0) (t := x1) ?_ ?_; subst x1; rotate_left; intro _; rotate_right)
    | (intro _)
    | lift_lets
    | (with_reducible refine Within.ofPair (by assumption) ?_)
    | (with_reducible refine Within.ofTriple (by assumption) ?_)
    | (with_reducible refine Within.ofFour (by assumption) ?_)
    | (with_reducible refine Within.ofFst (by assumption) ?_)
    | (with_reducible refine Within.ofSome (by assumption) ?_)
    | split
    | dsimp only
    | with_reducible apply Within.flt)

theorem execSpanWatchdog_within {L0 : List RegName} {C0 : List Comp} {s0 : State} {t : Nat} {s : State} (hL : subList [.SPL_BUSY, .SPL_CTRL, .SPL_STATUS, .TILE_STATUS, .TILE_ERR, .MEM_DEEP_WEAR, .UPD_PLAN_STATUS, .UPD_PLAN_STALL_US, .UPD_PLAN_STALL_MAX, .SCH_P_EVENT, .SCH_CTX, .FLT_STATUS, .FLT_REC_NEWEST, .FLT_REC_LOST, .FLT_LOG_STATUS, .FLT_RUNG_COUNT, .FLT_P_EVENT] L0 = true) (hC : subList [.pulses, .spl, .flt, .sch, .deep, .upd] C0 = true) (hS : Within L0 C0 s0 s) :
    WithinOut L0 C0 s0 (execSpanWatchdog t s) := by
  unfold execSpanWatchdog
  repeat' (first
    | with_reducible exact hS
    | with_reducible assumption
    | exact subList_trans (by decide +kernel) hL
    | exact subList_trans (by decide +kernel) hC
    | exact subList_elem (by decide +kernel) hL
    | exact subList_elem (by decide +kernel) hC
    | with_reducible apply State.failCommand_within
    | with_reducible apply State.stopJob_within
    | with_reducible apply State.openRecovery_within
    | with_reducible apply WithinOut.next
    | exact Within.memFilter
    | (intro x1; refine Within.cut (l := L0) (c := C0) (s := s0) (t := x1) ?_ ?_; subst x1; rotate_left; intro _; rotate_right)
    | (intro _)
    | lift_lets
    | (with_reducible refine Within.ofPair (by assumption) ?_)
    | (with_reducible refine Within.ofTriple (by assumption) ?_)
    | (with_reducible refine Within.ofFour (by assumption) ?_)
    | (with_reducible refine Within.ofFst (by assumption) ?_)
    | (with_reducible refine Within.ofSome (by assumption) ?_)
    | split
    | dsimp only)

end Sys2Proof.Machine
end

