-- ==== Sys2Proof/Laws/WithinBanks.lean ====
section
/-!
SUPPORT. What each operation of Machine/Banks.lean leaves alone.
-/

set_option Elab.async false

namespace Sys2Proof.Machine

theorem State.deviceReply_within {L0 : List RegName} {C0 : List Comp} {s0 : State} {s : State} {a : Agent} {x n : Nat} {d : List Byte} (hL : subList [.MEM_DEEP_WEAR, .FLT_STATUS, .FLT_REC_NEWEST, .FLT_REC_LOST, .FLT_LOG_STATUS, .FLT_P_EVENT] L0 = true) (hC : subList [.flt, .deep, .hp] C0 = true) (hS : Within L0 C0 s0 s) :
    Within L0 C0 s0 (State.deviceReply s a x n d) := by
  unfold State.deviceReply
  repeat' (first
    | with_reducible exact hS
    | with_reducible assumption
    | exact subList_trans (by decide +kernel) hL
    | exact subList_trans (by decide +kernel) hC
    | exact subList_elem (by decide +kernel) hL
    | exact subList_elem (by decide +kernel) hC
    | with_reducible apply State.hpAnswer_within
    | with_reducible apply State.checkFailed_within
    | exact Within.memFilter
    | (intro x1; refine Within.cut (l := L0) (c := C0) (s := s0) (t := x1) ?_ ?_; subst x1; rotate_left; intro _; rotate_right)
    | (intro _)
    | lift_lets
    | (with_reducible refine Within.ofPair (by assumption) ?_)
    | (with_reducible refine Within.ofTriple (by assumption) ?_)
    | (with_reducible refine Within.ofFour (by assumption) ?_)
    | (with_reducible refine Within.ofFst (by assumption) ?_)
    | (with_reducible refine Within.ofSome (by assumption) ?_)
    | split
    | dsimp only)

theorem State.servePassed_within {L0 : List RegName} {C0 : List Comp} {s0 : State} {s : State} {a : Agent} {op : MemOp} (hL : subList [.MEM_DEEP_WEAR, .FLT_STATUS, .FLT_REC_NEWEST, .FLT_REC_LOST, .FLT_LOG_STATUS, .FLT_P_EVENT] L0 = true) (hC : subList [.mem, .badCheck, .badWord, .resp, .pulses, .flt, .deep, .hp] C0 = true) (hS : Within L0 C0 s0 s) :
    Within L0 C0 s0 (State.servePassed s a op) := by
  unfold State.servePassed
  repeat' (first
    | with_reducible exact hS
    | with_reducible assumption
    | exact subList_trans (by decide +kernel) hL
    | exact subList_trans (by decide +kernel) hC
    | exact subList_elem (by decide +kernel) hL
    | exact subList_elem (by decide +kernel) hC
    | with_reducible apply State.readPassed_within
    | with_reducible apply State.respOk_within
    | with_reducible apply State.deviceReply_within
    | with_reducible apply State.loadErr_within
    | with_reducible apply State.writePassed_within
    | exact Within.memFilter
    | (intro x1; refine Within.cut (l := L0) (c := C0) (s := s0) (t := x1) ?_ ?_; subst x1; rotate_left; intro _; rotate_right)
    | (intro _)
    | lift_lets
    | (with_reducible refine Within.ofPair (by assumption) ?_)
    | (with_reducible refine Within.ofTriple (by assumption) ?_)
    | (with_reducible refine Within.ofFour (by assumption) ?_)
    | (with_reducible refine Within.ofFst (by assumption) ?_)
    | (with_reducible refine Within.ofSome (by assumption) ?_)
    | split
    | dsimp only)

theorem State.refuseMem_within {L0 : List RegName} {C0 : List Comp} {s0 : State} {s : State} {a : Agent} {op : MemOp} {v : Verdict} (hL : subList [.MEM_DEEP_WEAR, .FLT_STATUS, .FLT_REC_NEWEST, .FLT_REC_LOST, .FLT_LOG_STATUS, .FLT_P_EVENT] L0 = true) (hC : subList [.resp, .pulses, .flt, .deep, .hp] C0 = true) (hS : Within L0 C0 s0 s) :
    Within L0 C0 s0 (State.refuseMem s a op v) := by
  unfold State.refuseMem
  repeat' (first
    | with_reducible exact hS
    | with_reducible assumption
    | exact subList_trans (by decide +kernel) hL
    | exact subList_trans (by decide +kernel) hC
    | exact subList_elem (by decide +kernel) hL
    | exact subList_elem (by decide +kernel) hC
    | with_reducible apply State.refusalRecord_within
    | with_reducible apply State.opErr_within
    | exact Within.memFilter
    | (intro x1; refine Within.cut (l := L0) (c := C0) (s := s0) (t := x1) ?_ ?_; subst x1; rotate_left; intro _; rotate_right)
    | (intro _)
    | lift_lets
    | (with_reducible refine Within.ofPair (by assumption) ?_)
    | (with_reducible refine Within.ofTriple (by assumption) ?_)
    | (with_reducible refine Within.ofFour (by assumption) ?_)
    | (with_reducible refine Within.ofFst (by assumption) ?_)
    | (with_reducible refine Within.ofSome (by assumption) ?_)
    | split
    | dsimp only)

theorem State.serveMem_within {L0 : List RegName} {C0 : List Comp} {s0 : State} {s : State} {a : Agent} {op : MemOp} (hL : subList [.MEM_DEEP_WEAR, .FLT_STATUS, .FLT_REC_NEWEST, .FLT_REC_LOST, .FLT_LOG_STATUS, .FLT_P_EVENT] L0 = true) (hC : subList [.mem, .badCheck, .badWord, .resp, .pulses, .flt, .deep, .hp] C0 = true) (hS : Within L0 C0 s0 s) :
    Within L0 C0 s0 (State.serveMem s a op) := by
  unfold State.serveMem
  repeat' (first
    | with_reducible exact hS
    | with_reducible assumption
    | exact subList_trans (by decide +kernel) hL
    | exact subList_trans (by decide +kernel) hC
    | exact subList_elem (by decide +kernel) hL
    | exact subList_elem (by decide +kernel) hC
    | with_reducible apply State.servePassed_within
    | with_reducible apply State.refuseMem_within
    | exact Within.memFilter
    | (intro x1; refine Within.cut (l := L0) (c := C0) (s := s0) (t := x1) ?_ ?_; subst x1; rotate_left; intro _; rotate_right)
    | (intro _)
    | lift_lets
    | (with_reducible refine Within.ofPair (by assumption) ?_)
    | (with_reducible refine Within.ofTriple (by assumption) ?_)
    | (with_reducible refine Within.ofFour (by assumption) ?_)
    | (with_reducible refine Within.ofFst (by assumption) ?_)
    | (with_reducible refine Within.ofSome (by assumption) ?_)
    | split
    | dsimp only)

theorem State.hdwMiss_within {L0 : List RegName} {C0 : List Comp} {s0 : State} {s : State} {w : WaitingReq} (hL : subList [.HDW_P_EVENT, .HDW_P_MISSES] L0 = true) (hC : subList ([] : List Comp) C0 = true) (hS : Within L0 C0 s0 s) :
    Within L0 C0 s0 (State.hdwMiss s w) := by
  unfold State.hdwMiss
  repeat' (first
    | with_reducible exact hS
    | with_reducible assumption
    | exact subList_trans (by decide +kernel) hL
    | exact subList_trans (by decide +kernel) hC
    | exact subList_elem (by decide +kernel) hL
    | exact subList_elem (by decide +kernel) hC
    | with_reducible apply Within.wrF
    | with_reducible apply Within.setB
    | with_reducible apply Within.bump
    | exact Within.memFilter
    | (intro x1; refine Within.cut (l := L0) (c := C0) (s := s0) (t := x1) ?_ ?_; subst x1; rotate_left; intro _; rotate_right)
    | (intro _)
    | lift_lets
    | (with_reducible refine Within.ofPair (by assumption) ?_)
    | (with_reducible refine Within.ofTriple (by assumption) ?_)
    | (with_reducible refine Within.ofFour (by assumption) ?_)
    | (with_reducible refine Within.ofFst (by assumption) ?_)
    | (with_reducible refine Within.ofSome (by assumption) ?_)
    | split
    | dsimp only)

theorem State.complete_within {L0 : List RegName} {C0 : List Comp} {s0 : State} {s : State} {w : WaitingReq} (hL : subList [.MEM_DEEP_WEAR, .HDW_P_EVENT, .HDW_P_MISSES, .FLT_STATUS, .FLT_REC_NEWEST, .FLT_REC_LOST, .FLT_LOG_STATUS, .FLT_P_EVENT] L0 = true) (hC : subList [.mem, .badCheck, .badWord, .resp, .pulses, .flt, .hdw, .deep, .hp] C0 = true) (hS : Within L0 C0 s0 s) :
    Within L0 C0 s0 (State.complete s w) := by
  unfold State.complete
  repeat' (first
    | with_reducible exact hS
    | with_reducible assumption
    | exact subList_trans (by decide +kernel) hL
    | exact subList_trans (by decide +kernel) hC
    | exact subList_elem (by decide +kernel) hL
    | exact subList_elem (by decide +kernel) hC
    | with_reducible apply State.hdwDebit_within
    | with_reducible apply State.serveMem_within
    | with_reducible apply State.hdwMiss_within
    | exact Within.memFilter
    | (intro x1; refine Within.cut (l := L0) (c := C0) (s := s0) (t := x1) ?_ ?_; subst x1; rotate_left; intro _; rotate_right)
    | (intro _)
    | lift_lets
    | (with_reducible refine Within.ofPair (by assumption) ?_)
    | (with_reducible refine Within.ofTriple (by assumption) ?_)
    | (with_reducible refine Within.ofFour (by assumption) ?_)
    | (with_reducible refine Within.ofFst (by assumption) ?_)
    | (with_reducible refine Within.ofSome (by assumption) ?_)
    | split
    | dsimp only)

theorem State.drainWaiting_within {L0 : List RegName} {C0 : List Comp} {s0 : State} {s : State} {mine : WaitingReq → Bool} (hL : subList [.MEM_DEEP_WEAR, .HDW_P_EVENT, .HDW_P_MISSES, .FLT_STATUS, .FLT_REC_NEWEST, .FLT_REC_LOST, .FLT_LOG_STATUS, .FLT_P_EVENT] L0 = true) (hC : subList [.mem, .badCheck, .badWord, .resp, .pulses, .flt, .hdw, .deep, .hp] C0 = true) (hS : Within L0 C0 s0 s) :
    Within L0 C0 s0 (State.drainWaiting s mine) := by
  unfold State.drainWaiting
  repeat' (first
    | with_reducible exact hS
    | with_reducible assumption
    | exact subList_trans (by decide +kernel) hL
    | exact subList_trans (by decide +kernel) hC
    | exact subList_elem (by decide +kernel) hL
    | exact subList_elem (by decide +kernel) hC
    | with_reducible apply State.complete_within
    | exact Within.memFilter
    | (with_reducible refine Within.foldl (fun _ _ _ => ?_) _ ?_)
    | (with_reducible refine Within.foldlPair (fun _ _ _ => ?_) _ ?_)
    | (with_reducible refine Within.foldlFst (fun _ _ _ => ?_) _ ?_)
    | (intro x1; refine Within.cut (l := L0) (c := C0) (s := s0) (t := x1) ?_ ?_; subst x1; rotate_left; intro _; rotate_right)
    | (intro _)
    | lift_lets
    | (with_reducible refine Within.ofPair (by assumption) ?_)
    | (with_reducible refine Within.ofTriple (by assumption) ?_)
    | (with_reducible refine Within.ofFour (by assumption) ?_)
    | (with_reducible refine Within.ofFst (by assumption) ?_)
    | (with_reducible refine Within.ofSome (by assumption) ?_)
    | split
    | dsimp only
    | with_reducible apply Within.hdw)

theorem State.enterLull_within {L0 : List RegName} {C0 : List Comp} {s0 : State} {s : State} {x : QuadRef} (hL : subList [.BANK_CQ_STATUS, .BANK_TQ_STATUS] L0 = true) (hC : subList [.bank] C0 = true) (hS : Within L0 C0 s0 s) :
    Within L0 C0 s0 (State.enterLull s x) := by
  unfold State.enterLull
  repeat' (first
    | with_reducible exact hS
    | with_reducible assumption
    | exact subList_trans (by decide +kernel) hL
    | exact subList_trans (by decide +kernel) hC
    | exact subList_elem (by decide +kernel) hL
    | exact subList_elem (by decide +kernel) hC
    | with_reducible apply State.setLull_within
    | exact Within.memFilter
    | (intro x1; refine Within.cut (l := L0) (c := C0) (s := s0) (t := x1) ?_ ?_; subst x1; rotate_left; intro _; rotate_right)
    | (intro _)
    | lift_lets
    | (with_reducible refine Within.ofPair (by assumption) ?_)
    | (with_reducible refine Within.ofTriple (by assumption) ?_)
    | (with_reducible refine Within.ofFour (by assumption) ?_)
    | (with_reducible refine Within.ofFst (by assumption) ?_)
    | (with_reducible refine Within.ofSome (by assumption) ?_)
    | split
    | dsimp only
    | with_reducible apply Within.bank)

theorem State.bankQueue_within {L0 : List RegName} {C0 : List Comp} {s0 : State} {s : State} {a : Agent} {op : MemOp} (hL : subList [.BANK_CQ_STATUS, .BANK_TQ_STATUS, .MEM_DEEP_WEAR, .FLT_STATUS, .FLT_REC_NEWEST, .FLT_REC_LOST, .FLT_LOG_STATUS, .FLT_P_EVENT] L0 = true) (hC : subList [.mem, .badCheck, .badWord, .resp, .pulses, .flt, .bank, .deep, .hp] C0 = true) (hS : Within L0 C0 s0 s) :
    Within L0 C0 s0 (State.bankQueue s a op) := by
  unfold State.bankQueue
  repeat' (first
    | with_reducible exact hS
    | with_reducible assumption
    | exact subList_trans (by decide +kernel) hL
    | exact subList_trans (by decide +kernel) hC
    | exact subList_elem (by decide +kernel) hL
    | exact subList_elem (by decide +kernel) hC
    | with_reducible apply State.hold_within
    | with_reducible apply State.servePassed_within
    | exact Within.memFilter
    | (intro x1; refine Within.cut (l := L0) (c := C0) (s := s0) (t := x1) ?_ ?_; subst x1; rotate_left; intro _; rotate_right)
    | (intro _)
    | lift_lets
    | (with_reducible refine Within.ofPair (by assumption) ?_)
    | (with_reducible refine Within.ofTriple (by assumption) ?_)
    | (with_reducible refine Within.ofFour (by assumption) ?_)
    | (with_reducible refine Within.ofFst (by assumption) ?_)
    | (with_reducible refine Within.ofSome (by assumption) ?_)
    | split
    | dsimp only)

theorem State.bankAccess_within {L0 : List RegName} {C0 : List Comp} {s0 : State} {s : State} {a : Agent} {op : MemOp} (hL : subList [.BANK_CQ_STATUS, .BANK_TQ_STATUS, .MEM_DEEP_WEAR, .FLT_STATUS, .FLT_REC_NEWEST, .FLT_REC_LOST, .FLT_LOG_STATUS, .FLT_P_EVENT] L0 = true) (hC : subList [.mem, .badCheck, .badWord, .resp, .pulses, .flt, .bank, .deep, .hp] C0 = true) (hS : Within L0 C0 s0 s) :
    Within L0 C0 s0 (State.bankAccess s a op) := by
  unfold State.bankAccess
  repeat' (first
    | with_reducible exact hS
    | with_reducible assumption
    | exact subList_trans (by decide +kernel) hL
    | exact subList_trans (by decide +kernel) hC
    | exact subList_elem (by decide +kernel) hL
    | exact subList_elem (by decide +kernel) hC
    | with_reducible apply State.bankQueue_within
    | with_reducible apply State.refuseMem_within
    | exact Within.memFilter
    | (intro x1; refine Within.cut (l := L0) (c := C0) (s := s0) (t := x1) ?_ ?_; subst x1; rotate_left; intro _; rotate_right)
    | (intro _)
    | lift_lets
    | (with_reducible refine Within.ofPair (by assumption) ?_)
    | (with_reducible refine Within.ofTriple (by assumption) ?_)
    | (with_reducible refine Within.ofFour (by assumption) ?_)
    | (with_reducible refine Within.ofFst (by assumption) ?_)
    | (with_reducible refine Within.ofSome (by assumption) ?_)
    | split
    | dsimp only)

theorem State.endWake_within {L0 : List RegName} {C0 : List Comp} {s0 : State} {s : State} {x : QuadRef} (hL : subList [.BANK_CQ_STATUS, .BANK_TQ_STATUS, .MEM_DEEP_WEAR, .FLT_STATUS, .FLT_REC_NEWEST, .FLT_REC_LOST, .FLT_LOG_STATUS, .FLT_P_EVENT] L0 = true) (hC : subList [.mem, .badCheck, .badWord, .resp, .pulses, .flt, .bank, .deep, .hp] C0 = true) (hS : Within L0 C0 s0 s) :
    Within L0 C0 s0 (State.endWake s x) := by
  unfold State.endWake
  repeat' (first
    | with_reducible exact hS
    | with_reducible assumption
    | exact subList_trans (by decide +kernel) hL
    | exact subList_trans (by decide +kernel) hC
    | exact subList_elem (by decide +kernel) hL
    | exact subList_elem (by decide +kernel) hC
    | with_reducible apply State.setWaking_within
    | with_reducible apply State.bankQueue_within
    | with_reducible apply State.setLull_within
    | exact Within.memFilter
    | (with_reducible refine Within.foldl (fun _ _ _ => ?_) _ ?_)
    | (with_reducible refine Within.foldlPair (fun _ _ _ => ?_) _ ?_)
    | (with_reducible refine Within.foldlFst (fun _ _ _ => ?_) _ ?_)
    | (intro x1; refine Within.cut (l := L0) (c := C0) (s := s0) (t := x1) ?_ ?_; subst x1; rotate_left; intro _; rotate_right)
    | (intro _)
    | lift_lets
    | (with_reducible refine Within.ofPair (by assumption) ?_)
    | (with_reducible refine Within.ofTriple (by assumption) ?_)
    | (with_reducible refine Within.ofFour (by assumption) ?_)
    | (with_reducible refine Within.ofFst (by assumption) ?_)
    | (with_reducible refine Within.ofSome (by assumption) ?_)
    | split
    | dsimp only
    | with_reducible apply Within.bank)

theorem State.recordClear_within {L0 : List RegName} {C0 : List Comp} {s0 : State} {s : State} {q : Nat} {clear : Bool} (hL : subList ([] : List RegName) L0 = true) (hC : subList [.bank] C0 = true) (hS : Within L0 C0 s0 s) :
    Within L0 C0 s0 (State.recordClear s q clear) := by
  unfold State.recordClear
  repeat' (first
    | with_reducible exact hS
    | with_reducible assumption
    | exact subList_trans (by decide +kernel) hL
    | exact subList_trans (by decide +kernel) hC
    | exact subList_elem (by decide +kernel) hL
    | exact subList_elem (by decide +kernel) hC
    | exact Within.memFilter
    | (intro x1; refine Within.cut (l := L0) (c := C0) (s := s0) (t := x1) ?_ ?_; subst x1; rotate_left; intro _; rotate_right)
    | (intro _)
    | lift_lets
    | (with_reducible refine Within.ofPair (by assumption) ?_)
    | (with_reducible refine Within.ofTriple (by assumption) ?_)
    | (with_reducible refine Within.ofFour (by assumption) ?_)
    | (with_reducible refine Within.ofFst (by assumption) ?_)
    | (with_reducible refine Within.ofSome (by assumption) ?_)
    | split
    | dsimp only
    | with_reducible apply Within.bank)

theorem execBankOffer_within {L0 : List RegName} {C0 : List Comp} {s0 : State} {a : Agent} {q target : Nat} {clear : Bool} {s : State} (hL : subList [.BANK_CQ_CTRL, .BANK_CQ_STATUS, .MEM_DEEP_WEAR, .FLT_STATUS, .FLT_REC_NEWEST, .FLT_REC_LOST, .FLT_LOG_STATUS, .FLT_P_EVENT] L0 = true) (hC : subList [.resp, .flt, .bank, .deep] C0 = true) (hS : Within L0 C0 s0 s) :
    WithinOut L0 C0 s0 (execBankOffer a q target clear s) := by
  unfold execBankOffer
  repeat' (first
    | with_reducible exact hS
    | with_reducible assumption
    | exact subList_trans (by decide +kernel) hL
    | exact subList_trans (by decide +kernel) hC
    | exact subList_elem (by decide +kernel) hL
    | exact subList_elem (by decide +kernel) hC
    | with_reducible apply Within.wrF
    | with_reducible apply Within.wrB
    | with_reducible apply State.respErr_within
    | with_reducible apply State.denied_within
    | with_reducible apply State.respOk_within
    | with_reducible apply State.recordClear_within
    | with_reducible apply State.setHstate_within
    | with_reducible apply WithinOut.next
    | exact Within.memFilter
    | (intro x1; refine Within.cut (l := L0) (c := C0) (s := s0) (t := x1) ?_ ?_; subst x1; rotate_left; intro _; rotate_right)
    | (intro _)
    | lift_lets
    | (with_reducible refine Within.ofPair (by assumption) ?_)
    | (with_reducible refine Within.ofTriple (by assumption) ?_)
    | (with_reducible refine Within.ofFour (by assumption) ?_)
    | (with_reducible refine Within.ofFst (by assumption) ?_)
    | (with_reducible refine Within.ofSome (by assumption) ?_)
    | split
    | dsimp only)

theorem execBankAccept_within {L0 : List RegName} {C0 : List Comp} {s0 : State} {a : Agent} {q : Nat} {s : State} (hL : subList [.BANK_CQ_STATUS, .MEM_DEEP_WEAR, .FLT_STATUS, .FLT_REC_NEWEST, .FLT_REC_LOST, .FLT_LOG_STATUS, .FLT_P_EVENT] L0 = true) (hC : subList [.resp, .flt, .deep] C0 = true) (hS : Within L0 C0 s0 s) :
    WithinOut L0 C0 s0 (execBankAccept a q s) := by
  unfold execBankAccept
  repeat' (first
    | with_reducible exact hS
    | with_reducible assumption
    | exact subList_trans (by decide +kernel) hL
    | exact subList_trans (by decide +kernel) hC
    | exact subList_elem (by decide +kernel) hL
    | exact subList_elem (by decide +kernel) hC
    | with_reducible apply State.respErr_within
    | with_reducible apply State.respOk_within
    | with_reducible apply State.setHstate_within
    | with_reducible apply State.denied_within
    | with_reducible apply WithinOut.next
    | exact Within.memFilter
    | (intro x1; refine Within.cut (l := L0) (c := C0) (s := s0) (t := x1) ?_ ?_; subst x1; rotate_left; intro _; rotate_right)
    | (intro _)
    | lift_lets
    | (with_reducible refine Within.ofPair (by assumption) ?_)
    | (with_reducible refine Within.ofTriple (by assumption) ?_)
    | (with_reducible refine Within.ofFour (by assumption) ?_)
    | (with_reducible refine Within.ofFst (by assumption) ?_)
    | (with_reducible refine Within.ofSome (by assumption) ?_)
    | split
    | dsimp only)

theorem execBankCancel_within {L0 : List RegName} {C0 : List Comp} {s0 : State} {a : Agent} {q : Nat} {s : State} (hL : subList [.BANK_CQ_STATUS, .MEM_DEEP_WEAR, .FLT_STATUS, .FLT_REC_NEWEST, .FLT_REC_LOST, .FLT_LOG_STATUS, .FLT_P_EVENT] L0 = true) (hC : subList [.resp, .flt, .deep] C0 = true) (hS : Within L0 C0 s0 s) :
    WithinOut L0 C0 s0 (execBankCancel a q s) := by
  unfold execBankCancel
  repeat' (first
    | with_reducible exact hS
    | with_reducible assumption
    | exact subList_trans (by decide +kernel) hL
    | exact subList_trans (by decide +kernel) hC
    | exact subList_elem (by decide +kernel) hL
    | exact subList_elem (by decide +kernel) hC
    | with_reducible apply State.respErr_within
    | with_reducible apply State.denied_within
    | with_reducible apply State.respOk_within
    | with_reducible apply State.setHstate_within
    | with_reducible apply WithinOut.next
    | exact Within.memFilter
    | (intro x1; refine Within.cut (l := L0) (c := C0) (s := s0) (t := x1) ?_ ?_; subst x1; rotate_left; intro _; rotate_right)
    | (intro _)
    | lift_lets
    | (with_reducible refine Within.ofPair (by assumption) ?_)
    | (with_reducible refine Within.ofTriple (by assumption) ?_)
    | (with_reducible refine Within.ofFour (by assumption) ?_)
    | (with_reducible refine Within.ofFst (by assumption) ?_)
    | (with_reducible refine Within.ofSome (by assumption) ?_)
    | split
    | dsimp only)

theorem State.drainEnded_within {L0 : List RegName} {C0 : List Comp} {s0 : State} {s : State} {q : Nat} (hL : subList ([] : List RegName) L0 = true) (hC : subList [.mem, .badCheck, .badWord, .bank] C0 = true) (hS : Within L0 C0 s0 s) :
    Within L0 C0 s0 (State.drainEnded s q) := by
  unfold State.drainEnded
  repeat' (first
    | with_reducible exact hS
    | with_reducible assumption
    | exact subList_trans (by decide +kernel) hL
    | exact subList_trans (by decide +kernel) hC
    | exact subList_elem (by decide +kernel) hL
    | exact subList_elem (by decide +kernel) hC
    | with_reducible apply State.zero_within
    | exact Within.memFilter
    | (intro x1; refine Within.cut (l := L0) (c := C0) (s := s0) (t := x1) ?_ ?_; subst x1; rotate_left; intro _; rotate_right)
    | (intro _)
    | lift_lets
    | (with_reducible refine Within.ofPair (by assumption) ?_)
    | (with_reducible refine Within.ofTriple (by assumption) ?_)
    | (with_reducible refine Within.ofFour (by assumption) ?_)
    | (with_reducible refine Within.ofFst (by assumption) ?_)
    | (with_reducible refine Within.ofSome (by assumption) ?_)
    | split
    | dsimp only
    | with_reducible apply Within.bank)

theorem execHandoverDrainDone_within {L0 : List RegName} {C0 : List Comp} {s0 : State} {q : Nat} {s : State} (hL : subList ([] : List RegName) L0 = true) (hC : subList [.mem, .badCheck, .badWord, .bank] C0 = true) (hS : Within L0 C0 s0 s) :
    WithinOut L0 C0 s0 (execHandoverDrainDone q s) := by
  unfold execHandoverDrainDone
  repeat' (first
    | with_reducible exact hS
    | with_reducible assumption
    | exact subList_trans (by decide +kernel) hL
    | exact subList_trans (by decide +kernel) hC
    | exact subList_elem (by decide +kernel) hL
    | exact subList_elem (by decide +kernel) hC
    | with_reducible apply State.drainEnded_within
    | with_reducible apply WithinOut.next
    | exact Within.memFilter
    | (intro x1; refine Within.cut (l := L0) (c := C0) (s := s0) (t := x1) ?_ ?_; subst x1; rotate_left; intro _; rotate_right)
    | (intro _)
    | lift_lets
    | (with_reducible refine Within.ofPair (by assumption) ?_)
    | (with_reducible refine Within.ofTriple (by assumption) ?_)
    | (with_reducible refine Within.ofFour (by assumption) ?_)
    | (with_reducible refine Within.ofFst (by assumption) ?_)
    | (with_reducible refine Within.ofSome (by assumption) ?_)
    | split
    | dsimp only)

theorem State.drainExpired_within {L0 : List RegName} {C0 : List Comp} {s0 : State} {s : State} {q : Nat} (hL : subList [.BANK_CQ_STATUS] L0 = true) (hC : subList [.mem, .badCheck, .badWord, .resp, .pulses, .bank, .hp] C0 = true) (hS : Within L0 C0 s0 s) :
    Within L0 C0 s0 (State.drainExpired s q) := by
  unfold State.drainExpired
  repeat' (first
    | with_reducible exact hS
    | with_reducible assumption
    | exact subList_trans (by decide +kernel) hL
    | exact subList_trans (by decide +kernel) hC
    | exact subList_elem (by decide +kernel) hL
    | exact subList_elem (by decide +kernel) hC
    | with_reducible apply Within.setB
    | with_reducible apply State.opErr_within
    | with_reducible apply State.drainEnded_within
    | exact Within.memFilter
    | (with_reducible refine Within.foldl (fun _ _ _ => ?_) _ ?_)
    | (with_reducible refine Within.foldlPair (fun _ _ _ => ?_) _ ?_)
    | (with_reducible refine Within.foldlFst (fun _ _ _ => ?_) _ ?_)
    | (intro x1; refine Within.cut (l := L0) (c := C0) (s := s0) (t := x1) ?_ ?_; subst x1; rotate_left; intro _; rotate_right)
    | (intro _)
    | lift_lets
    | (with_reducible refine Within.ofPair (by assumption) ?_)
    | (with_reducible refine Within.ofTriple (by assumption) ?_)
    | (with_reducible refine Within.ofFour (by assumption) ?_)
    | (with_reducible refine Within.ofFst (by assumption) ?_)
    | (with_reducible refine Within.ofSome (by assumption) ?_)
    | split
    | dsimp only
    | with_reducible apply Within.bank)

theorem execHandoverDrainTimeout_within {L0 : List RegName} {C0 : List Comp} {s0 : State} {q : Nat} {s : State} (hL : subList [.BANK_CQ_STATUS] L0 = true) (hC : subList [.mem, .badCheck, .badWord, .resp, .pulses, .bank, .hp] C0 = true) (hS : Within L0 C0 s0 s) :
    WithinOut L0 C0 s0 (execHandoverDrainTimeout q s) := by
  unfold execHandoverDrainTimeout
  repeat' (first
    | with_reducible exact hS
    | with_reducible assumption
    | exact subList_trans (by decide +kernel) hL
    | exact subList_trans (by decide +kernel) hC
    | exact subList_elem (by decide +kernel) hL
    | exact subList_elem (by decide +kernel) hC
    | with_reducible apply State.drainExpired_within
    | with_reducible apply WithinOut.next
    | exact Within.memFilter
    | (intro x1; refine Within.cut (l := L0) (c := C0) (s := s0) (t := x1) ?_ ?_; subst x1; rotate_left; intro _; rotate_right)
    | (intro _)
    | lift_lets
    | (with_reducible refine Within.ofPair (by assumption) ?_)
    | (with_reducible refine Within.ofTriple (by assumption) ?_)
    | (with_reducible refine Within.ofFour (by assumption) ?_)
    | (with_reducible refine Within.ofFst (by assumption) ?_)
    | (with_reducible refine Within.ofSome (by assumption) ?_)
    | split
    | dsimp only)

theorem State.handoverDone_within {L0 : List RegName} {C0 : List Comp} {s0 : State} {s : State} {q : Nat} (hL : subList [.BANK_CQ_STATUS] L0 = true) (hC : subList [.pulses, .bank] C0 = true) (hS : Within L0 C0 s0 s) :
    Within L0 C0 s0 (State.handoverDone s q) := by
  unfold State.handoverDone
  repeat' (first
    | with_reducible exact hS
    | with_reducible assumption
    | exact subList_trans (by decide +kernel) hL
    | exact subList_trans (by decide +kernel) hC
    | exact subList_elem (by decide +kernel) hL
    | exact subList_elem (by decide +kernel) hC
    | with_reducible apply Within.wrF
    | with_reducible apply Within.setB
    | with_reducible apply State.setHstate_within
    | with_reducible apply State.pulse_within
    | exact Within.memFilter
    | (intro x1; refine Within.cut (l := L0) (c := C0) (s := s0) (t := x1) ?_ ?_; subst x1; rotate_left; intro _; rotate_right)
    | (intro _)
    | lift_lets
    | (with_reducible refine Within.ofPair (by assumption) ?_)
    | (with_reducible refine Within.ofTriple (by assumption) ?_)
    | (with_reducible refine Within.ofFour (by assumption) ?_)
    | (with_reducible refine Within.ofFst (by assumption) ?_)
    | (with_reducible refine Within.ofSome (by assumption) ?_)
    | split
    | dsimp only
    | with_reducible apply Within.bank)

theorem execHandoverDone_within {L0 : List RegName} {C0 : List Comp} {s0 : State} {q : Nat} {s : State} (hL : subList [.BANK_CQ_STATUS] L0 = true) (hC : subList [.pulses, .bank] C0 = true) (hS : Within L0 C0 s0 s) :
    WithinOut L0 C0 s0 (execHandoverDone q s) := by
  unfold execHandoverDone
  repeat' (first
    | with_reducible exact hS
    | with_reducible assumption
    | exact subList_trans (by decide +kernel) hL
    | exact subList_trans (by decide +kernel) hC
    | exact subList_elem (by decide +kernel) hL
    | exact subList_elem (by decide +kernel) hC
    | with_reducible apply State.handoverDone_within
    | with_reducible apply WithinOut.next
    | exact Within.memFilter
    | (intro x1; refine Within.cut (l := L0) (c := C0) (s := s0) (t := x1) ?_ ?_; subst x1; rotate_left; intro _; rotate_right)
    | (intro _)
    | lift_lets
    | (with_reducible refine Within.ofPair (by assumption) ?_)
    | (with_reducible refine Within.ofTriple (by assumption) ?_)
    | (with_reducible refine Within.ofFour (by assumption) ?_)
    | (with_reducible refine Within.ofFst (by assumption) ?_)
    | (with_reducible refine Within.ofSome (by assumption) ?_)
    | split
    | dsimp only)

theorem State.settleHandovers_within {L0 : List RegName} {C0 : List Comp} {s0 : State} {s : State} {p : Nat} (hL : subList [.BANK_CQ_STATUS] L0 = true) (hC : subList [.mem, .badCheck, .badWord, .resp, .pulses, .bank, .hp] C0 = true) (hS : Within L0 C0 s0 s) :
    Within L0 C0 s0 (State.settleHandovers s p) := by
  unfold State.settleHandovers
  repeat' (first
    | with_reducible exact hS
    | with_reducible assumption
    | exact subList_trans (by decide +kernel) hL
    | exact subList_trans (by decide +kernel) hC
    | exact subList_elem (by decide +kernel) hL
    | exact subList_elem (by decide +kernel) hC
    | with_reducible apply State.setHstate_within
    | with_reducible apply State.drainExpired_within
    | with_reducible apply State.drainEnded_within
    | with_reducible apply State.handoverDone_within
    | exact Within.memFilter
    | (with_reducible refine Within.foldl (fun _ _ _ => ?_) _ ?_)
    | (with_reducible refine Within.foldlPair (fun _ _ _ => ?_) _ ?_)
    | (with_reducible refine Within.foldlFst (fun _ _ _ => ?_) _ ?_)
    | (intro x1; refine Within.cut (l := L0) (c := C0) (s := s0) (t := x1) ?_ ?_; subst x1; rotate_left; intro _; rotate_right)
    | (intro _)
    | lift_lets
    | (with_reducible refine Within.ofPair (by assumption) ?_)
    | (with_reducible refine Within.ofTriple (by assumption) ?_)
    | (with_reducible refine Within.ofFour (by assumption) ?_)
    | (with_reducible refine Within.ofFst (by assumption) ?_)
    | (with_reducible refine Within.ofSome (by assumption) ?_)
    | split
    | dsimp only)

theorem State.setTestRegion_within {L0 : List RegName} {C0 : List Comp} {s0 : State} {s : State} {u : BankUnit} {r : Nat} (hL : subList [.BANK_CQ_STATUS, .BANK_TQ_STATUS] L0 = true) (hC : subList ([] : List Comp) C0 = true) (hS : Within L0 C0 s0 s) :
    Within L0 C0 s0 (State.setTestRegion s u r) := by
  unfold State.setTestRegion
  repeat' (first
    | with_reducible exact hS
    | with_reducible assumption
    | exact subList_trans (by decide +kernel) hL
    | exact subList_trans (by decide +kernel) hC
    | exact subList_elem (by decide +kernel) hL
    | exact subList_elem (by decide +kernel) hC
    | with_reducible apply Within.wrF
    | exact Within.memFilter
    | (intro x1; refine Within.cut (l := L0) (c := C0) (s := s0) (t := x1) ?_ ?_; subst x1; rotate_left; intro _; rotate_right)
    | (intro _)
    | lift_lets
    | (with_reducible refine Within.ofPair (by assumption) ?_)
    | (with_reducible refine Within.ofTriple (by assumption) ?_)
    | (with_reducible refine Within.ofFour (by assumption) ?_)
    | (with_reducible refine Within.ofFst (by assumption) ?_)
    | (with_reducible refine Within.ofSome (by assumption) ?_)
    | split
    | dsimp only)

theorem State.setTestBit_within {L0 : List RegName} {C0 : List Comp} {s0 : State} {s : State} {u : BankUnit} {k : Nat} {b : Bool} (hL : subList [.BANK_CQ_STATUS, .BANK_TQ_STATUS] L0 = true) (hC : subList ([] : List Comp) C0 = true) (hS : Within L0 C0 s0 s) :
    Within L0 C0 s0 (State.setTestBit s u k b) := by
  unfold State.setTestBit
  repeat' (first
    | with_reducible exact hS
    | with_reducible assumption
    | exact subList_trans (by decide +kernel) hL
    | exact subList_trans (by decide +kernel) hC
    | exact subList_elem (by decide +kernel) hL
    | exact subList_elem (by decide +kernel) hC
    | with_reducible apply Within.wrB
    | exact Within.memFilter
    | (intro x1; refine Within.cut (l := L0) (c := C0) (s := s0) (t := x1) ?_ ?_; subst x1; rotate_left; intro _; rotate_right)
    | (intro _)
    | lift_lets
    | (with_reducible refine Within.ofPair (by assumption) ?_)
    | (with_reducible refine Within.ofTriple (by assumption) ?_)
    | (with_reducible refine Within.ofFour (by assumption) ?_)
    | (with_reducible refine Within.ofFst (by assumption) ?_)
    | (with_reducible refine Within.ofSome (by assumption) ?_)
    | split
    | dsimp only)

theorem execTestRegionStart_within {L0 : List RegName} {C0 : List Comp} {s0 : State} {u : BankUnit} {s : State} (hL : subList [.BANK_CQ_STATUS, .BANK_TQ_STATUS, .MEM_DEEP_WEAR, .FLT_STATUS, .FLT_REC_NEWEST, .FLT_REC_LOST, .FLT_LOG_STATUS, .FLT_P_EVENT] L0 = true) (hC : subList [.flt, .bank, .deep] C0 = true) (hS : Within L0 C0 s0 s) :
    WithinOut L0 C0 s0 (execTestRegionStart u s) := by
  unfold execTestRegionStart
  repeat' (first
    | with_reducible exact hS
    | with_reducible assumption
    | exact subList_trans (by decide +kernel) hL
    | exact subList_trans (by decide +kernel) hC
    | exact subList_elem (by decide +kernel) hL
    | exact subList_elem (by decide +kernel) hC
    | with_reducible apply State.setTestRegion_within
    | with_reducible apply State.record_within
    | with_reducible apply State.setTestBit_within
    | with_reducible apply WithinOut.next
    | exact Within.memFilter
    | (intro x1; refine Within.cut (l := L0) (c := C0) (s := s0) (t := x1) ?_ ?_; subst x1; rotate_left; intro _; rotate_right)
    | (intro _)
    | lift_lets
    | (with_reducible refine Within.ofPair (by assumption) ?_)
    | (with_reducible refine Within.ofTriple (by assumption) ?_)
    | (with_reducible refine Within.ofFour (by assumption) ?_)
    | (with_reducible refine Within.ofFst (by assumption) ?_)
    | (with_reducible refine Within.ofSome (by assumption) ?_)
    | split
    | dsimp only
    | with_reducible apply Within.bank)

theorem execTestStarved_within {L0 : List RegName} {C0 : List Comp} {s0 : State} {u : BankUnit} {s : State} (hL : subList ([] : List RegName) L0 = true) (hC : subList [.bank] C0 = true) (hS : Within L0 C0 s0 s) :
    WithinOut L0 C0 s0 (execTestStarved u s) := by
  unfold execTestStarved
  repeat' (first
    | with_reducible exact hS
    | with_reducible assumption
    | exact subList_trans (by decide +kernel) hL
    | exact subList_trans (by decide +kernel) hC
    | exact subList_elem (by decide +kernel) hL
    | exact subList_elem (by decide +kernel) hC
    | with_reducible apply WithinOut.next
    | exact Within.memFilter
    | (intro x1; refine Within.cut (l := L0) (c := C0) (s := s0) (t := x1) ?_ ?_; subst x1; rotate_left; intro _; rotate_right)
    | (intro _)
    | lift_lets
    | (with_reducible refine Within.ofPair (by assumption) ?_)
    | (with_reducible refine Within.ofTriple (by assumption) ?_)
    | (with_reducible refine Within.ofFour (by assumption) ?_)
    | (with_reducible refine Within.ofFst (by assumption) ?_)
    | (with_reducible refine Within.ofSome (by assumption) ?_)
    | split
    | dsimp only
    | with_reducible apply Within.bank)

theorem execTestRegionDone_within {L0 : List RegName} {C0 : List Comp} {s0 : State} {u : BankUnit} {passed : Bool} {s : State} (hL : subList [.BANK_CQ_STATUS, .BANK_TQ_STATUS, .MEM_DEEP_WEAR, .FLT_STATUS, .FLT_REC_NEWEST, .FLT_REC_LOST, .FLT_LOG_STATUS, .FLT_P_EVENT] L0 = true) (hC : subList [.flt, .bank, .deep] C0 = true) (hS : Within L0 C0 s0 s) :
    WithinOut L0 C0 s0 (execTestRegionDone u passed s) := by
  unfold execTestRegionDone
  repeat' (first
    | with_reducible exact hS
    | with_reducible assumption
    | exact subList_trans (by decide +kernel) hL
    | exact subList_trans (by decide +kernel) hC
    | exact subList_elem (by decide +kernel) hL
    | exact subList_elem (by decide +kernel) hC
    | with_reducible apply State.setTestBit_within
    | with_reducible apply State.setTestRegion_within
    | with_reducible apply State.record_within
    | with_reducible apply WithinOut.next
    | exact Within.memFilter
    | (intro x1; refine Within.cut (l := L0) (c := C0) (s := s0) (t := x1) ?_ ?_; subst x1; rotate_left; intro _; rotate_right)
    | (intro _)
    | lift_lets
    | (with_reducible refine Within.ofPair (by assumption) ?_)
    | (with_reducible refine Within.ofTriple (by assumption) ?_)
    | (with_reducible refine Within.ofFour (by assumption) ?_)
    | (with_reducible refine Within.ofFst (by assumption) ?_)
    | (with_reducible refine Within.ofSome (by assumption) ?_)
    | split
    | dsimp only
    | with_reducible apply Within.bank)

theorem execLullIdleExpiry_within {L0 : List RegName} {C0 : List Comp} {s0 : State} {x : QuadRef} {s : State} (hL : subList [.BANK_CQ_STATUS, .BANK_TQ_STATUS] L0 = true) (hC : subList [.bank] C0 = true) (hS : Within L0 C0 s0 s) :
    WithinOut L0 C0 s0 (execLullIdleExpiry x s) := by
  unfold execLullIdleExpiry
  repeat' (first
    | with_reducible exact hS
    | with_reducible assumption
    | exact subList_trans (by decide +kernel) hL
    | exact subList_trans (by decide +kernel) hC
    | exact subList_elem (by decide +kernel) hL
    | exact subList_elem (by decide +kernel) hC
    | with_reducible apply State.enterLull_within
    | with_reducible apply WithinOut.next
    | exact Within.memFilter
    | (intro x1; refine Within.cut (l := L0) (c := C0) (s := s0) (t := x1) ?_ ?_; subst x1; rotate_left; intro _; rotate_right)
    | (intro _)
    | lift_lets
    | (with_reducible refine Within.ofPair (by assumption) ?_)
    | (with_reducible refine Within.ofTriple (by assumption) ?_)
    | (with_reducible refine Within.ofFour (by assumption) ?_)
    | (with_reducible refine Within.ofFst (by assumption) ?_)
    | (with_reducible refine Within.ofSome (by assumption) ?_)
    | split
    | dsimp only)

theorem execLullRequest_within {L0 : List RegName} {C0 : List Comp} {s0 : State} {a : Agent} {x : QuadRef} {s : State} (hL : subList [.BANK_CQ_STATUS, .BANK_TQ_STATUS, .MEM_DEEP_WEAR, .FLT_STATUS, .FLT_REC_NEWEST, .FLT_REC_LOST, .FLT_LOG_STATUS, .FLT_P_EVENT] L0 = true) (hC : subList [.resp, .flt, .bank, .deep] C0 = true) (hS : Within L0 C0 s0 s) :
    WithinOut L0 C0 s0 (execLullRequest a x s) := by
  unfold execLullRequest
  repeat' (first
    | with_reducible exact hS
    | with_reducible assumption
    | exact subList_trans (by decide +kernel) hL
    | exact subList_trans (by decide +kernel) hC
    | exact subList_elem (by decide +kernel) hL
    | exact subList_elem (by decide +kernel) hC
    | with_reducible apply State.respErr_within
    | with_reducible apply State.denied_within
    | with_reducible apply State.respOk_within
    | with_reducible apply State.enterLull_within
    | with_reducible apply WithinOut.next
    | exact Within.memFilter
    | (intro x1; refine Within.cut (l := L0) (c := C0) (s := s0) (t := x1) ?_ ?_; subst x1; rotate_left; intro _; rotate_right)
    | (intro _)
    | lift_lets
    | (with_reducible refine Within.ofPair (by assumption) ?_)
    | (with_reducible refine Within.ofTriple (by assumption) ?_)
    | (with_reducible refine Within.ofFour (by assumption) ?_)
    | (with_reducible refine Within.ofFst (by assumption) ?_)
    | (with_reducible refine Within.ofSome (by assumption) ?_)
    | split
    | dsimp only)

theorem execLullWake_within {L0 : List RegName} {C0 : List Comp} {s0 : State} {x : QuadRef} {s : State} (hL : subList [.BANK_CQ_STATUS, .BANK_TQ_STATUS] L0 = true) (hC : subList ([] : List Comp) C0 = true) (hS : Within L0 C0 s0 s) :
    WithinOut L0 C0 s0 (execLullWake x s) := by
  unfold execLullWake
  repeat' (first
    | with_reducible exact hS
    | with_reducible assumption
    | exact subList_trans (by decide +kernel) hL
    | exact subList_trans (by decide +kernel) hC
    | exact subList_elem (by decide +kernel) hL
    | exact subList_elem (by decide +kernel) hC
    | with_reducible apply State.startWake_within
    | with_reducible apply WithinOut.next
    | exact Within.memFilter
    | (intro x1; refine Within.cut (l := L0) (c := C0) (s := s0) (t := x1) ?_ ?_; subst x1; rotate_left; intro _; rotate_right)
    | (intro _)
    | lift_lets
    | (with_reducible refine Within.ofPair (by assumption) ?_)
    | (with_reducible refine Within.ofTriple (by assumption) ?_)
    | (with_reducible refine Within.ofFour (by assumption) ?_)
    | (with_reducible refine Within.ofFst (by assumption) ?_)
    | (with_reducible refine Within.ofSome (by assumption) ?_)
    | split
    | dsimp only)

theorem execWakeDone_within {L0 : List RegName} {C0 : List Comp} {s0 : State} {x : QuadRef} {s : State} (hL : subList [.BANK_CQ_STATUS, .BANK_TQ_STATUS, .MEM_DEEP_WEAR, .FLT_STATUS, .FLT_REC_NEWEST, .FLT_REC_LOST, .FLT_LOG_STATUS, .FLT_P_EVENT] L0 = true) (hC : subList [.mem, .badCheck, .badWord, .resp, .pulses, .flt, .bank, .deep, .hp] C0 = true) (hS : Within L0 C0 s0 s) :
    WithinOut L0 C0 s0 (execWakeDone x s) := by
  unfold execWakeDone
  repeat' (first
    | with_reducible exact hS
    | with_reducible assumption
    | exact subList_trans (by decide +kernel) hL
    | exact subList_trans (by decide +kernel) hC
    | exact subList_elem (by decide +kernel) hL
    | exact subList_elem (by decide +kernel) hC
    | with_reducible apply State.endWake_within
    | with_reducible apply WithinOut.next
    | exact Within.memFilter
    | (intro x1; refine Within.cut (l := L0) (c := C0) (s := s0) (t := x1) ?_ ?_; subst x1; rotate_left; intro _; rotate_right)
    | (intro _)
    | lift_lets
    | (with_reducible refine Within.ofPair (by assumption) ?_)
    | (with_reducible refine Within.ofTriple (by assumption) ?_)
    | (with_reducible refine Within.ofFour (by assumption) ?_)
    | (with_reducible refine Within.ofFst (by assumption) ?_)
    | (with_reducible refine Within.ofSome (by assumption) ?_)
    | split
    | dsimp only)

end Sys2Proof.Machine
end

