-- ==== Sys2Proof/Laws/WithinFaultRows.lean ====
section
/-!
SUPPORT. What each operation of Machine/FaultRows.lean leaves alone.
-/

set_option Elab.async false

namespace Sys2Proof.Machine

theorem State.poisonedLine_within {L0 : List RegName} {C0 : List Comp} {s0 : State} {s : State} {f : FaultDesc} (hL : subList ([] : List RegName) L0 = true) (hC : subList [.pulses] C0 = true) (hS : Within L0 C0 s0 s) :
    Within L0 C0 s0 (State.poisonedLine s f) := by
  unfold State.poisonedLine
  repeat' (first
    | with_reducible exact hS
    | with_reducible assumption
    | exact subList_trans (by decide +kernel) hL
    | exact subList_trans (by decide +kernel) hC
    | exact subList_elem (by decide +kernel) hL
    | exact subList_elem (by decide +kernel) hC
    | with_reducible apply State.pulse_within
    | exact Within.memFilter
    | (intro x1; refine Within.cut (l := L0) (c := C0) (s := s0) (t := x1) ?_ ?_; subst x1; rotate_left; intro _; rotate_right)
    | (intro _)
    | lift_lets
    | (with_reducible refine Within.ofPair (by assumption) ?_)
    | (with_reducible refine Within.ofTriple (by assumption) ?_)
    | (with_reducible refine Within.ofFour (by assumption) ?_)
    | (with_reducible refine Within.ofFst (by assumption) ?_)
    | (with_reducible refine Within.ofSome (by assumption) ?_)
    | split
    | dsimp only)

theorem execFaultDetected_within {L0 : List RegName} {C0 : List Comp} {s0 : State} {f : FaultDesc} {words segs : List Nat} {corrected : Nat} {s : State} (hL : subList [.SPL_BUSY, .SPL_CTRL, .SPL_STATUS, .TILE_STATUS, .MEM_WARM_STATUS, .MEM_DEEP_WEAR, .FLT_STATUS, .FLT_REC_NEWEST, .FLT_REC_LOST, .FLT_LOG_STATUS, .FLT_RUNG_COUNT, .FLT_P_EVENT] L0 = true) (hC : subList [.badCheck, .badWord, .pulses, .spl, .flt, .sch, .deep] C0 = true) (hS : Within L0 C0 s0 s) :
    WithinOut L0 C0 s0 (execFaultDetected f words segs corrected s) := by
  unfold execFaultDetected
  repeat' (first
    | with_reducible exact hS
    | with_reducible assumption
    | exact subList_trans (by decide +kernel) hL
    | exact subList_trans (by decide +kernel) hC
    | exact subList_elem (by decide +kernel) hL
    | exact subList_elem (by decide +kernel) hC
    | with_reducible apply Within.wrF
    | with_reducible apply State.poisonedLine_within
    | with_reducible apply State.record_within
    | with_reducible apply State.openRecovery_within
    | with_reducible apply WithinOut.next
    | exact Within.memFilter
    | (intro x1; refine Within.cut (l := L0) (c := C0) (s := s0) (t := x1) ?_ ?_; subst x1; rotate_left; intro _; rotate_right)
    | (intro x1; refine Within.cut (l := L0) (c := C0) (s := s0) (t := x1.2) ?_ ?_; subst x1; rotate_left; intro _; clear_value x1; rotate_right)
    | (intro x1; refine Within.cut (l := L0) (c := C0) (s := s0) (t := x1.1) ?_ ?_; subst x1; rotate_left; intro _; clear_value x1; rotate_right)
    | (intro x1; have h1 : ∀ u, x1 = some u → Within L0 C0 s0 u := ?_; clear_value x1; rotate_left; subst x1; intro _ _; rotate_right)
    | (intro x1; clear_value x1)
    | (intro _)
    | lift_lets
    | (with_reducible refine Within.ofPair (by assumption) ?_)
    | (with_reducible refine Within.ofTriple (by assumption) ?_)
    | (with_reducible refine Within.ofFour (by assumption) ?_)
    | (with_reducible refine Within.ofFst (by assumption) ?_)
    | (with_reducible refine Within.ofSome (by assumption) ?_)
    | split
    | dsimp only
    | with_reducible apply Within.badCheck_badWord)

theorem State.resetResult_within {L0 : List RegName} {C0 : List Comp} {s0 : State} {s : State} {code : Nat} (hL : subList [.FLT_RESET_STATUS] L0 = true) (hC : subList ([] : List Comp) C0 = true) (hS : Within L0 C0 s0 s) :
    Within L0 C0 s0 (State.resetResult s code) := by
  unfold State.resetResult
  repeat' (first
    | with_reducible exact hS
    | with_reducible assumption
    | exact subList_trans (by decide +kernel) hL
    | exact subList_trans (by decide +kernel) hC
    | exact subList_elem (by decide +kernel) hL
    | exact subList_elem (by decide +kernel) hC
    | with_reducible apply Within.wrF
    | with_reducible apply Within.setB
    | exact Within.memFilter
    | (intro x1; refine Within.cut (l := L0) (c := C0) (s := s0) (t := x1) ?_ ?_; subst x1; rotate_left; intro _; rotate_right)
    | (intro _)
    | lift_lets
    | (with_reducible refine Within.ofPair (by assumption) ?_)
    | (with_reducible refine Within.ofTriple (by assumption) ?_)
    | (with_reducible refine Within.ofFour (by assumption) ?_)
    | (with_reducible refine Within.ofFst (by assumption) ?_)
    | (with_reducible refine Within.ofSome (by assumption) ?_)
    | split
    | dsimp only)

theorem execFltReset_within {L0 : List RegName} {C0 : List Comp} {s0 : State} {a : Agent} {rung part target : Nat} {s : State} (hL : subList [.SPL_BUSY, .SPL_CTRL, .SPL_STATUS, .TILE_STATUS, .MEM_DEEP_WEAR, .FLT_STATUS, .FLT_REC_NEWEST, .FLT_REC_LOST, .FLT_LOG_STATUS, .FLT_RESET, .FLT_RESET_STATUS, .FLT_RUNG_COUNT, .FLT_P_EVENT] L0 = true) (hC : subList [.resp, .pulses, .spl, .flt, .sch, .deep] C0 = true) (hS : Within L0 C0 s0 s) :
    WithinOut L0 C0 s0 (execFltReset a rung part target s) := by
  unfold execFltReset
  repeat' (first
    | with_reducible exact hS
    | with_reducible assumption
    | exact subList_trans (by decide +kernel) hL
    | exact subList_trans (by decide +kernel) hC
    | exact subList_elem (by decide +kernel) hL
    | exact subList_elem (by decide +kernel) hC
    | with_reducible apply Within.wr
    | with_reducible apply State.respErr_within
    | with_reducible apply State.respOk_within
    | with_reducible apply State.resetResult_within
    | with_reducible apply State.violation_within
    | with_reducible apply State.openRecovery_within
    | with_reducible apply WithinOut.next
    | exact Within.memFilter
    | (intro x1; refine Within.cut (l := L0) (c := C0) (s := s0) (t := x1) ?_ ?_; subst x1; rotate_left; intro _; rotate_right)
    | (intro _)
    | lift_lets
    | (with_reducible refine Within.ofPair (by assumption) ?_)
    | (with_reducible refine Within.ofTriple (by assumption) ?_)
    | (with_reducible refine Within.ofFour (by assumption) ?_)
    | (with_reducible refine Within.ofFst (by assumption) ?_)
    | (with_reducible refine Within.ofSome (by assumption) ?_)
    | split
    | dsimp only)

theorem execFenceConfirmTimeout_within {L0 : List RegName} {C0 : List Comp} {s0 : State} {n : Nat} {s : State} (hL : subList [.SPL_BUSY, .SPL_CTRL, .SPL_STATUS, .TILE_STATUS, .MEM_DEEP_WEAR, .FLT_STATUS, .FLT_REC_NEWEST, .FLT_REC_LOST, .FLT_LOG_STATUS, .FLT_RUNG_COUNT, .FLT_P_EVENT] L0 = true) (hC : subList [.pulses, .spl, .flt, .sch, .deep] C0 = true) (hS : Within L0 C0 s0 s) :
    WithinOut L0 C0 s0 (execFenceConfirmTimeout n s) := by
  unfold execFenceConfirmTimeout
  repeat' (first
    | with_reducible exact hS
    | with_reducible assumption
    | exact subList_trans (by decide +kernel) hL
    | exact subList_trans (by decide +kernel) hC
    | exact subList_elem (by decide +kernel) hL
    | exact subList_elem (by decide +kernel) hC
    | with_reducible apply State.closeRecovery_within
    | with_reducible apply State.startRecovery_within
    | with_reducible apply WithinOut.next
    | exact Within.memFilter
    | (with_reducible refine Within.foldl (fun _ _ _ => ?_) _ ?_)
    | (with_reducible refine Within.foldlPair (fun _ _ _ => ?_) _ ?_)
    | (with_reducible refine Within.foldlFst (fun _ _ _ => ?_) _ ?_)
    | (intro x1; refine Within.cut (l := L0) (c := C0) (s := s0) (t := x1) ?_ ?_; subst x1; rotate_left; intro _; rotate_right)
    | (intro _)
    | lift_lets
    | (with_reducible refine Within.ofPair (by assumption) ?_)
    | (with_reducible refine Within.ofTriple (by assumption) ?_)
    | (with_reducible refine Within.ofFour (by assumption) ?_)
    | (with_reducible refine Within.ofFst (by assumption) ?_)
    | (with_reducible refine Within.ofSome (by assumption) ?_)
    | split
    | dsimp only)

theorem execLogFlushTimer_within {L0 : List RegName} {C0 : List Comp} {s0 : State} {s : State} (hL : subList [.MEM_DEEP_WEAR, .FLT_STATUS, .FLT_LOG_STATUS] L0 = true) (hC : subList [.flt, .deep] C0 = true) (hS : Within L0 C0 s0 s) :
    WithinOut L0 C0 s0 (execLogFlushTimer s) := by
  unfold execLogFlushTimer
  repeat' (first
    | with_reducible exact hS
    | with_reducible assumption
    | exact subList_trans (by decide +kernel) hL
    | exact subList_trans (by decide +kernel) hC
    | exact subList_elem (by decide +kernel) hL
    | exact subList_elem (by decide +kernel) hC
    | with_reducible apply State.programLog_within
    | with_reducible apply WithinOut.next
    | exact Within.memFilter
    | (intro x1; refine Within.cut (l := L0) (c := C0) (s := s0) (t := x1) ?_ ?_; subst x1; rotate_left; intro _; rotate_right)
    | (intro _)
    | lift_lets
    | (with_reducible refine Within.ofPair (by assumption) ?_)
    | (with_reducible refine Within.ofTriple (by assumption) ?_)
    | (with_reducible refine Within.ofFour (by assumption) ?_)
    | (with_reducible refine Within.ofFst (by assumption) ?_)
    | (with_reducible refine Within.ofSome (by assumption) ?_)
    | split
    | dsimp only)

theorem execLogFlush_within {L0 : List RegName} {C0 : List Comp} {s0 : State} {a : Agent} {s : State} (hL : subList [.MEM_DEEP_WEAR, .FLT_STATUS, .FLT_REC_NEWEST, .FLT_REC_LOST, .FLT_LOG_STATUS, .FLT_P_EVENT] L0 = true) (hC : subList [.resp, .flt, .deep] C0 = true) (hS : Within L0 C0 s0 s) :
    WithinOut L0 C0 s0 (execLogFlush a s) := by
  unfold execLogFlush
  repeat' (first
    | with_reducible exact hS
    | with_reducible assumption
    | exact subList_trans (by decide +kernel) hL
    | exact subList_trans (by decide +kernel) hC
    | exact subList_elem (by decide +kernel) hL
    | exact subList_elem (by decide +kernel) hC
    | with_reducible apply State.respErr_within
    | with_reducible apply State.denied_within
    | with_reducible apply State.respOk_within
    | with_reducible apply State.programLog_within
    | with_reducible apply WithinOut.next
    | exact Within.memFilter
    | (intro x1; refine Within.cut (l := L0) (c := C0) (s := s0) (t := x1) ?_ ?_; subst x1; rotate_left; intro _; rotate_right)
    | (intro _)
    | lift_lets
    | (with_reducible refine Within.ofPair (by assumption) ?_)
    | (with_reducible refine Within.ofTriple (by assumption) ?_)
    | (with_reducible refine Within.ofFour (by assumption) ?_)
    | (with_reducible refine Within.ofFst (by assumption) ?_)
    | (with_reducible refine Within.ofSome (by assumption) ?_)
    | split
    | dsimp only)

theorem execLogRead_within {L0 : List RegName} {C0 : List Comp} {s0 : State} {a : Agent} {s : State} (hL : subList [.BANK_CQ_STATUS, .BANK_TQ_STATUS, .MEM_DEEP_WEAR, .FLT_STATUS, .FLT_REC_NEWEST, .FLT_REC_LOST, .FLT_LOG_STATUS, .FLT_P_EVENT] L0 = true) (hC : subList [.mem, .badCheck, .badWord, .resp, .flt, .bank, .deep] C0 = true) (hS : Within L0 C0 s0 s) :
    WithinOut L0 C0 s0 (execLogRead a s) := by
  unfold execLogRead
  repeat' (first
    | with_reducible exact hS
    | with_reducible assumption
    | exact subList_trans (by decide +kernel) hL
    | exact subList_trans (by decide +kernel) hC
    | exact subList_elem (by decide +kernel) hL
    | exact subList_elem (by decide +kernel) hC
    | with_reducible apply Within.setB
    | with_reducible apply State.respErr_within
    | with_reducible apply State.denied_within
    | with_reducible apply State.respOk_within
    | with_reducible apply State.postAs_within
    | with_reducible apply WithinOut.next
    | exact Within.memFilter
    | (intro x1; refine Within.cut (l := L0) (c := C0) (s := s0) (t := x1) ?_ ?_; subst x1; rotate_left; intro _; rotate_right)
    | (intro _)
    | lift_lets
    | (with_reducible refine Within.ofPair (by assumption) ?_)
    | (with_reducible refine Within.ofTriple (by assumption) ?_)
    | (with_reducible refine Within.ofFour (by assumption) ?_)
    | (with_reducible refine Within.ofFst (by assumption) ?_)
    | (with_reducible refine Within.ofSome (by assumption) ?_)
    | split
    | dsimp only)

theorem execRecSelWrite_within {L0 : List RegName} {C0 : List Comp} {s0 : State} {a : Agent} {v : Word} {s : State} (hL : subList ([] : List RegName) L0 = true) (hC : subList [.resp, .recSel] C0 = true) (hS : Within L0 C0 s0 s) :
    WithinOut L0 C0 s0 (execRecSelWrite a v s) := by
  unfold execRecSelWrite
  repeat' (first
    | with_reducible exact hS
    | with_reducible assumption
    | exact subList_trans (by decide +kernel) hL
    | exact subList_trans (by decide +kernel) hC
    | exact subList_elem (by decide +kernel) hL
    | exact subList_elem (by decide +kernel) hC
    | with_reducible apply State.respErr_within
    | with_reducible apply State.respOk_within
    | with_reducible apply WithinOut.next
    | exact Within.memFilter
    | (intro x1; refine Within.cut (l := L0) (c := C0) (s := s0) (t := x1) ?_ ?_; subst x1; rotate_left; intro _; rotate_right)
    | (intro _)
    | lift_lets
    | (with_reducible refine Within.ofPair (by assumption) ?_)
    | (with_reducible refine Within.ofTriple (by assumption) ?_)
    | (with_reducible refine Within.ofFour (by assumption) ?_)
    | (with_reducible refine Within.ofFst (by assumption) ?_)
    | (with_reducible refine Within.ofSome (by assumption) ?_)
    | split
    | dsimp only
    | with_reducible apply Within.recSel)

end Sys2Proof.Machine
end

