-- ==== Sys2Proof/Laws/WithinScheduler.lean ====
section
/-!
SUPPORT. What each operation of Machine/Scheduler.lean leaves alone.
-/

set_option Elab.async false

namespace Sys2Proof.Machine

theorem State.schResult_within {L0 : List RegName} {C0 : List Comp} {s0 : State} {s : State} {p code j : Nat} (hL : subList [.SCH_P_RESULT] L0 = true) (hC : subList ([] : List Comp) C0 = true) (hS : Within L0 C0 s0 s) :
    Within L0 C0 s0 (State.schResult s p code j) := by
  unfold State.schResult
  repeat' (first
    | with_reducible exact hS
    | with_reducible assumption
    | exact subList_trans (by decide +kernel) hL
    | exact subList_trans (by decide +kernel) hC
    | exact subList_elem (by decide +kernel) hL
    | exact subList_elem (by decide +kernel) hC
    | with_reducible apply Within.wrF
    | with_reducible apply Within.setB
    | exact Within.memFilter
    | (intro x1; refine Within.cut (l := L0) (c := C0) (s := s0) (t := x1) ?_ ?_; subst x1; rotate_left; intro _; rotate_right)
    | (intro _)
    | lift_lets
    | (with_reducible refine Within.ofPair (by assumption) ?_)
    | (with_reducible refine Within.ofTriple (by assumption) ?_)
    | (with_reducible refine Within.ofFour (by assumption) ?_)
    | (with_reducible refine Within.ofFst (by assumption) ?_)
    | (with_reducible refine Within.ofSome (by assumption) ?_)
    | split
    | dsimp only)

theorem State.schCommand_within {L0 : List RegName} {C0 : List Comp} {s0 : State} {s : State} {a : Agent} {p op rsv : Nat} {names : Bool} {run : State → Nat → Nat × State} (hL : subList [.MEM_DEEP_WEAR, .SCH_P_CMD, .SCH_P_RESULT, .FLT_STATUS, .FLT_REC_NEWEST, .FLT_REC_LOST, .FLT_LOG_STATUS, .FLT_P_EVENT] L0 = true) (hC : subList [.resp, .flt, .deep] C0 = true) (hrun : ∀ t j, Within L0 C0 s0 t → Within L0 C0 s0 (run t j).2) (hS : Within L0 C0 s0 s) :
    Within L0 C0 s0 (State.schCommand s a p op rsv names run) := by
  unfold State.schCommand
  repeat' (first
    | with_reducible exact hS
    | with_reducible assumption
    | with_reducible apply hrun
    | exact subList_trans (by decide +kernel) hL
    | exact subList_trans (by decide +kernel) hC
    | exact subList_elem (by decide +kernel) hL
    | exact subList_elem (by decide +kernel) hC
    | with_reducible apply Within.wr
    | with_reducible apply State.respErr_within
    | with_reducible apply State.denied_within
    | with_reducible apply State.respOk_within
    | with_reducible apply State.schResult_within
    | exact Within.memFilter
    | (intro x1; refine Within.cut (l := L0) (c := C0) (s := s0) (t := x1) ?_ ?_; subst x1; rotate_left; intro _; rotate_right)
    | (intro _)
    | lift_lets
    | (with_reducible refine Within.ofPair (by assumption) ?_)
    | (with_reducible refine Within.ofTriple (by assumption) ?_)
    | (with_reducible refine Within.ofFour (by assumption) ?_)
    | (with_reducible refine Within.ofFst (by assumption) ?_)
    | (with_reducible refine Within.ofSome (by assumption) ?_)
    | split
    | dsimp only)

theorem State.allocJob_within {L0 : List RegName} {C0 : List Comp} {s0 : State} {s : State} {p : Nat} (hL : subList [.SCH_FREE_CTX, .SCH_P_RESULT, .SCH_CTX] L0 = true) (hC : subList ([] : List Comp) C0 = true) (hS : Within L0 C0 s0 s) :
    Within L0 C0 s0 (State.allocJob s p).2 := by
  unfold State.allocJob
  repeat' (first
    | with_reducible exact hS
    | with_reducible assumption
    | exact subList_trans (by decide +kernel) hL
    | exact subList_trans (by decide +kernel) hC
    | exact subList_elem (by decide +kernel) hL
    | exact subList_elem (by decide +kernel) hC
    | with_reducible apply Within.wr
    | with_reducible apply Within.wrF
    | exact Within.memFilter
    | (intro x1; refine Within.cut (l := L0) (c := C0) (s := s0) (t := x1) ?_ ?_; subst x1; rotate_left; intro _; rotate_right)
    | (intro _)
    | lift_lets
    | (with_reducible refine Within.ofPair (by assumption) ?_)
    | (with_reducible refine Within.ofTriple (by assumption) ?_)
    | (with_reducible refine Within.ofFour (by assumption) ?_)
    | (with_reducible refine Within.ofFst (by assumption) ?_)
    | (with_reducible refine Within.ofSome (by assumption) ?_)
    | split
    | dsimp only)

theorem execAllocCtx_within {L0 : List RegName} {C0 : List Comp} {s0 : State} {a : Agent} {p rsv : Nat} {s : State} (hL : subList [.MEM_DEEP_WEAR, .SCH_FREE_CTX, .SCH_P_CMD, .SCH_P_RESULT, .SCH_CTX, .FLT_STATUS, .FLT_REC_NEWEST, .FLT_REC_LOST, .FLT_LOG_STATUS, .FLT_P_EVENT] L0 = true) (hC : subList [.resp, .flt, .deep] C0 = true) (hS : Within L0 C0 s0 s) :
    WithinOut L0 C0 s0 (execAllocCtx a p rsv s) := by
  unfold execAllocCtx
  repeat' (first
    | with_reducible exact hS
    | with_reducible assumption
    | exact subList_trans (by decide +kernel) hL
    | exact subList_trans (by decide +kernel) hC
    | exact subList_elem (by decide +kernel) hL
    | exact subList_elem (by decide +kernel) hC
    | with_reducible apply State.schCommand_within
    | with_reducible apply State.allocJob_within
    | with_reducible apply WithinOut.next
    | exact Within.memFilter
    | (intro x1; refine Within.cut (l := L0) (c := C0) (s := s0) (t := x1) ?_ ?_; subst x1; rotate_left; intro _; rotate_right)
    | (intro _)
    | lift_lets
    | (with_reducible refine Within.ofPair (by assumption) ?_)
    | (with_reducible refine Within.ofTriple (by assumption) ?_)
    | (with_reducible refine Within.ofFour (by assumption) ?_)
    | (with_reducible refine Within.ofFst (by assumption) ?_)
    | (with_reducible refine Within.ofSome (by assumption) ?_)
    | split
    | dsimp only)

theorem State.readQueues_within {L0 : List RegName} {C0 : List Comp} {s0 : State} {s : State} {j : Nat} {head : Bool} (hL : subList [.BANK_CQ_STATUS, .BANK_TQ_STATUS, .MEM_DEEP_WEAR, .FLT_STATUS, .FLT_REC_NEWEST, .FLT_REC_LOST, .FLT_LOG_STATUS, .FLT_P_EVENT] L0 = true) (hC : subList [.flt, .sch, .deep] C0 = true) (hS : Within L0 C0 s0 s) :
    Within L0 C0 s0 (State.readQueues s j head) := by
  unfold State.readQueues
  repeat' (first
    | with_reducible exact hS
    | with_reducible assumption
    | exact subList_trans (by decide +kernel) hL
    | exact subList_trans (by decide +kernel) hC
    | exact subList_elem (by decide +kernel) hL
    | exact subList_elem (by decide +kernel) hC
    | with_reducible apply State.wakeAll_within
    | with_reducible apply State.jobTail_within
    | with_reducible apply State.setGangPos_within
    | with_reducible apply State.jobHead_within
    | exact Within.memFilter
    | (with_reducible refine Within.foldl (fun _ _ _ => ?_) _ ?_)
    | (with_reducible refine Within.foldlPair (fun _ _ _ => ?_) _ ?_)
    | (with_reducible refine Within.foldlFst (fun _ _ _ => ?_) _ ?_)
    | (intro x1; refine Within.cut (l := L0) (c := C0) (s := s0) (t := x1) ?_ ?_; subst x1; rotate_left; intro _; rotate_right)
    | (intro _)
    | lift_lets
    | (with_reducible refine Within.ofPair (by assumption) ?_)
    | (with_reducible refine Within.ofTriple (by assumption) ?_)
    | (with_reducible refine Within.ofFour (by assumption) ?_)
    | (with_reducible refine Within.ofFst (by assumption) ?_)
    | (with_reducible refine Within.ofSome (by assumption) ?_)
    | split
    | dsimp only)

theorem State.admitJob_within {L0 : List RegName} {C0 : List Comp} {s0 : State} {s : State} {j : Nat} (hL : subList [.BANK_CQ_STATUS, .BANK_TQ_STATUS, .MEM_DEEP_WEAR, .UPD_PLAN_STATUS, .UPD_PLAN_JOB, .SCH_CTX, .FLT_STATUS, .FLT_REC_NEWEST, .FLT_REC_LOST, .FLT_LOG_STATUS, .FLT_P_EVENT] L0 = true) (hC : subList [.flt, .sch, .deep] C0 = true) (hS : Within L0 C0 s0 s) :
    Within L0 C0 s0 (State.admitJob s j).2 := by
  unfold State.admitJob
  repeat' (first
    | with_reducible exact hS
    | with_reducible assumption
    | exact subList_trans (by decide +kernel) hL
    | exact subList_trans (by decide +kernel) hC
    | exact subList_elem (by decide +kernel) hL
    | exact subList_elem (by decide +kernel) hC
    | with_reducible apply Within.wr
    | with_reducible apply Within.wrF
    | with_reducible apply Within.setB
    | with_reducible apply State.setJobState_within
    | with_reducible apply State.setJob_within
    | with_reducible apply State.readQueues_within
    | exact Within.memFilter
    | (intro x1; refine Within.cut (l := L0) (c := C0) (s := s0) (t := x1) ?_ ?_; subst x1; rotate_left; intro _; rotate_right)
    | (intro _)
    | lift_lets
    | (with_reducible refine Within.ofPair (by assumption) ?_)
    | (with_reducible refine Within.ofTriple (by assumption) ?_)
    | (with_reducible refine Within.ofFour (by assumption) ?_)
    | (with_reducible refine Within.ofFst (by assumption) ?_)
    | (with_reducible refine Within.ofSome (by assumption) ?_)
    | split
    | dsimp only)

theorem execAdmitCtx_within {L0 : List RegName} {C0 : List Comp} {s0 : State} {a : Agent} {p rsv : Nat} {s : State} (hL : subList [.BANK_CQ_STATUS, .BANK_TQ_STATUS, .MEM_DEEP_WEAR, .UPD_PLAN_STATUS, .UPD_PLAN_JOB, .SCH_P_CMD, .SCH_P_RESULT, .SCH_CTX, .FLT_STATUS, .FLT_REC_NEWEST, .FLT_REC_LOST, .FLT_LOG_STATUS, .FLT_P_EVENT] L0 = true) (hC : subList [.resp, .flt, .sch, .deep] C0 = true) (hS : Within L0 C0 s0 s) :
    WithinOut L0 C0 s0 (execAdmitCtx a p rsv s) := by
  unfold execAdmitCtx
  repeat' (first
    | with_reducible exact hS
    | with_reducible assumption
    | exact subList_trans (by decide +kernel) hL
    | exact subList_trans (by decide +kernel) hC
    | exact subList_elem (by decide +kernel) hL
    | exact subList_elem (by decide +kernel) hC
    | with_reducible apply State.schCommand_within
    | with_reducible apply State.admitJob_within
    | with_reducible apply WithinOut.next
    | exact Within.memFilter
    | (intro x1; refine Within.cut (l := L0) (c := C0) (s := s0) (t := x1) ?_ ?_; subst x1; rotate_left; intro _; rotate_right)
    | (intro _)
    | lift_lets
    | (with_reducible refine Within.ofPair (by assumption) ?_)
    | (with_reducible refine Within.ofTriple (by assumption) ?_)
    | (with_reducible refine Within.ofFour (by assumption) ?_)
    | (with_reducible refine Within.ofFst (by assumption) ?_)
    | (with_reducible refine Within.ofSome (by assumption) ?_)
    | split
    | dsimp only)

theorem State.holdJob_within {L0 : List RegName} {C0 : List Comp} {s0 : State} {s : State} {j : Nat} (hL : subList ([] : List RegName) L0 = true) (hC : subList [.sch] C0 = true) (hS : Within L0 C0 s0 s) :
    Within L0 C0 s0 (State.holdJob s j).2 := by
  unfold State.holdJob
  repeat' (first
    | with_reducible exact hS
    | with_reducible assumption
    | exact subList_trans (by decide +kernel) hL
    | exact subList_trans (by decide +kernel) hC
    | exact subList_elem (by decide +kernel) hL
    | exact subList_elem (by decide +kernel) hC
    | with_reducible apply State.setJob_within
    | exact Within.memFilter
    | (intro x1; refine Within.cut (l := L0) (c := C0) (s := s0) (t := x1) ?_ ?_; subst x1; rotate_left; intro _; rotate_right)
    | (intro _)
    | lift_lets
    | (with_reducible refine Within.ofPair (by assumption) ?_)
    | (with_reducible refine Within.ofTriple (by assumption) ?_)
    | (with_reducible refine Within.ofFour (by assumption) ?_)
    | (with_reducible refine Within.ofFst (by assumption) ?_)
    | (with_reducible refine Within.ofSome (by assumption) ?_)
    | split
    | dsimp only)

theorem execHold_within {L0 : List RegName} {C0 : List Comp} {s0 : State} {a : Agent} {p rsv : Nat} {s : State} (hL : subList [.MEM_DEEP_WEAR, .SCH_P_CMD, .SCH_P_RESULT, .FLT_STATUS, .FLT_REC_NEWEST, .FLT_REC_LOST, .FLT_LOG_STATUS, .FLT_P_EVENT] L0 = true) (hC : subList [.resp, .flt, .sch, .deep] C0 = true) (hS : Within L0 C0 s0 s) :
    WithinOut L0 C0 s0 (execHold a p rsv s) := by
  unfold execHold
  repeat' (first
    | with_reducible exact hS
    | with_reducible assumption
    | exact subList_trans (by decide +kernel) hL
    | exact subList_trans (by decide +kernel) hC
    | exact subList_elem (by decide +kernel) hL
    | exact subList_elem (by decide +kernel) hC
    | with_reducible apply State.schCommand_within
    | with_reducible apply State.holdJob_within
    | with_reducible apply WithinOut.next
    | exact Within.memFilter
    | (intro x1; refine Within.cut (l := L0) (c := C0) (s := s0) (t := x1) ?_ ?_; subst x1; rotate_left; intro _; rotate_right)
    | (intro _)
    | lift_lets
    | (with_reducible refine Within.ofPair (by assumption) ?_)
    | (with_reducible refine Within.ofTriple (by assumption) ?_)
    | (with_reducible refine Within.ofFour (by assumption) ?_)
    | (with_reducible refine Within.ofFst (by assumption) ?_)
    | (with_reducible refine Within.ofSome (by assumption) ?_)
    | split
    | dsimp only)

theorem State.resumeJob_within {L0 : List RegName} {C0 : List Comp} {s0 : State} {s : State} {j : Nat} (hL : subList [.TILE_STATUS, .BANK_CQ_STATUS, .BANK_TQ_STATUS, .MEM_DEEP_WEAR, .SCH_CTX, .FLT_STATUS, .FLT_REC_NEWEST, .FLT_REC_LOST, .FLT_LOG_STATUS, .FLT_P_EVENT] L0 = true) (hC : subList [.flt, .sch, .deep] C0 = true) (hS : Within L0 C0 s0 s) :
    Within L0 C0 s0 (State.resumeJob s j).2 := by
  unfold State.resumeJob
  repeat' (first
    | with_reducible exact hS
    | with_reducible assumption
    | exact subList_trans (by decide +kernel) hL
    | exact subList_trans (by decide +kernel) hC
    | exact subList_elem (by decide +kernel) hL
    | exact subList_elem (by decide +kernel) hC
    | with_reducible apply State.unbindJob_within
    | with_reducible apply State.setJobState_within
    | with_reducible apply State.setJob_within
    | with_reducible apply State.readQueues_within
    | exact Within.memFilter
    | (intro x1; refine Within.cut (l := L0) (c := C0) (s := s0) (t := x1) ?_ ?_; subst x1; rotate_left; intro _; rotate_right)
    | (intro _)
    | lift_lets
    | (with_reducible refine Within.ofPair (by assumption) ?_)
    | (with_reducible refine Within.ofTriple (by assumption) ?_)
    | (with_reducible refine Within.ofFour (by assumption) ?_)
    | (with_reducible refine Within.ofFst (by assumption) ?_)
    | (with_reducible refine Within.ofSome (by assumption) ?_)
    | split
    | dsimp only)

theorem execResume_within {L0 : List RegName} {C0 : List Comp} {s0 : State} {a : Agent} {p rsv : Nat} {s : State} (hL : subList [.TILE_STATUS, .BANK_CQ_STATUS, .BANK_TQ_STATUS, .MEM_DEEP_WEAR, .SCH_P_CMD, .SCH_P_RESULT, .SCH_CTX, .FLT_STATUS, .FLT_REC_NEWEST, .FLT_REC_LOST, .FLT_LOG_STATUS, .FLT_P_EVENT] L0 = true) (hC : subList [.resp, .flt, .sch, .deep] C0 = true) (hS : Within L0 C0 s0 s) :
    WithinOut L0 C0 s0 (execResume a p rsv s) := by
  unfold execResume
  repeat' (first
    | with_reducible exact hS
    | with_reducible assumption
    | exact subList_trans (by decide +kernel) hL
    | exact subList_trans (by decide +kernel) hC
    | exact subList_elem (by decide +kernel) hL
    | exact subList_elem (by decide +kernel) hC
    | with_reducible apply State.schCommand_within
    | with_reducible apply State.resumeJob_within
    | with_reducible apply WithinOut.next
    | exact Within.memFilter
    | (intro x1; refine Within.cut (l := L0) (c := C0) (s := s0) (t := x1) ?_ ?_; subst x1; rotate_left; intro _; rotate_right)
    | (intro _)
    | lift_lets
    | (with_reducible refine Within.ofPair (by assumption) ?_)
    | (with_reducible refine Within.ofTriple (by assumption) ?_)
    | (with_reducible refine Within.ofFour (by assumption) ?_)
    | (with_reducible refine Within.ofFst (by assumption) ?_)
    | (with_reducible refine Within.ofSome (by assumption) ?_)
    | split
    | dsimp only)

theorem execFreeCtx_within {L0 : List RegName} {C0 : List Comp} {s0 : State} {a : Agent} {p rsv : Nat} {s : State} (hL : subList [.TILE_STATUS, .MEM_DEEP_WEAR, .UPD_PLAN_STATUS, .UPD_PLAN_STALL_US, .UPD_PLAN_STALL_MAX, .SCH_FREE_CTX, .SCH_P_CMD, .SCH_P_RESULT, .SCH_CTX, .FLT_STATUS, .FLT_REC_NEWEST, .FLT_REC_LOST, .FLT_LOG_STATUS, .FLT_P_EVENT] L0 = true) (hC : subList [.resp, .flt, .sch, .deep, .upd] C0 = true) (hS : Within L0 C0 s0 s) :
    WithinOut L0 C0 s0 (execFreeCtx a p rsv s) := by
  unfold execFreeCtx
  repeat' (first
    | with_reducible exact hS
    | with_reducible assumption
    | exact subList_trans (by decide +kernel) hL
    | exact subList_trans (by decide +kernel) hC
    | exact subList_elem (by decide +kernel) hL
    | exact subList_elem (by decide +kernel) hC
    | with_reducible apply State.schCommand_within
    | with_reducible apply State.freeJob_within
    | with_reducible apply WithinOut.next
    | exact Within.memFilter
    | (intro x1; refine Within.cut (l := L0) (c := C0) (s := s0) (t := x1) ?_ ?_; subst x1; rotate_left; intro _; rotate_right)
    | (intro _)
    | lift_lets
    | (with_reducible refine Within.ofPair (by assumption) ?_)
    | (with_reducible refine Within.ofTriple (by assumption) ?_)
    | (with_reducible refine Within.ofFour (by assumption) ?_)
    | (with_reducible refine Within.ofFst (by assumption) ?_)
    | (with_reducible refine Within.ofSome (by assumption) ?_)
    | split
    | dsimp only)

theorem State.joinGang_within {L0 : List RegName} {C0 : List Comp} {s0 : State} {s : State} {ts : List Nat} (hL : subList [.TILE_FREQ] L0 = true) (hC : subList [.pwr] C0 = true) (hS : Within L0 C0 s0 s) :
    Within L0 C0 s0 (State.joinGang s ts) := by
  unfold State.joinGang
  repeat' (first
    | with_reducible exact hS
    | with_reducible assumption
    | exact subList_trans (by decide +kernel) hL
    | exact subList_trans (by decide +kernel) hC
    | exact subList_elem (by decide +kernel) hL
    | exact subList_elem (by decide +kernel) hC
    | with_reducible apply Within.wrF
    | exact Within.memFilter
    | (with_reducible refine Within.foldl (fun _ _ _ => ?_) _ ?_)
    | (with_reducible refine Within.foldlPair (fun _ _ _ => ?_) _ ?_)
    | (with_reducible refine Within.foldlFst (fun _ _ _ => ?_) _ ?_)
    | (intro x1; refine Within.cut (l := L0) (c := C0) (s := s0) (t := x1) ?_ ?_; subst x1; rotate_left; intro _; rotate_right)
    | (intro _)
    | lift_lets
    | (with_reducible refine Within.ofPair (by assumption) ?_)
    | (with_reducible refine Within.ofTriple (by assumption) ?_)
    | (with_reducible refine Within.ofFour (by assumption) ?_)
    | (with_reducible refine Within.ofFst (by assumption) ?_)
    | (with_reducible refine Within.ofSome (by assumption) ?_)
    | split
    | dsimp only
    | with_reducible apply Within.pwr)

theorem State.bindJob_within {L0 : List RegName} {C0 : List Comp} {s0 : State} {s : State} {j : Nat} {ls : List Nat} (hL : subList [.TILE_STATUS, .TILE_FREQ, .SCH_CTX] L0 = true) (hC : subList [.pwr, .sch] C0 = true) (hS : Within L0 C0 s0 s) :
    Within L0 C0 s0 (State.bindJob s j ls) := by
  unfold State.bindJob
  repeat' (first
    | with_reducible exact hS
    | with_reducible assumption
    | exact subList_trans (by decide +kernel) hL
    | exact subList_trans (by decide +kernel) hC
    | exact subList_elem (by decide +kernel) hL
    | exact subList_elem (by decide +kernel) hC
    | with_reducible apply Within.wr
    | with_reducible apply Within.wrF
    | with_reducible apply State.setJobState_within
    | with_reducible apply State.updRun_within
    | with_reducible apply State.joinGang_within
    | with_reducible apply State.setJob_within
    | exact Within.memFilter
    | (with_reducible refine Within.foldl (fun _ _ _ => ?_) _ ?_)
    | (with_reducible refine Within.foldlPair (fun _ _ _ => ?_) _ ?_)
    | (with_reducible refine Within.foldlFst (fun _ _ _ => ?_) _ ?_)
    | (intro x1; refine Within.cut (l := L0) (c := C0) (s := s0) (t := x1) ?_ ?_; subst x1; rotate_left; intro _; rotate_right)
    | (intro _)
    | lift_lets
    | (with_reducible refine Within.ofPair (by assumption) ?_)
    | (with_reducible refine Within.ofTriple (by assumption) ?_)
    | (with_reducible refine Within.ofFour (by assumption) ?_)
    | (with_reducible refine Within.ofFst (by assumption) ?_)
    | (with_reducible refine Within.ofSome (by assumption) ?_)
    | split
    | dsimp only
    | with_reducible apply Within.sch)

theorem State.askToLeave_within {L0 : List RegName} {C0 : List Comp} {s0 : State} {s : State} {j t k : Nat} (hL : subList ([] : List RegName) L0 = true) (hC : subList [.sch] C0 = true) (hS : Within L0 C0 s0 s) :
    Within L0 C0 s0 (State.askToLeave s j t k) := by
  unfold State.askToLeave
  repeat' (first
    | with_reducible exact hS
    | with_reducible assumption
    | exact subList_trans (by decide +kernel) hL
    | exact subList_trans (by decide +kernel) hC
    | exact subList_elem (by decide +kernel) hL
    | exact subList_elem (by decide +kernel) hC
    | with_reducible apply State.setJob_within
    | exact Within.memFilter
    | (intro x1; refine Within.cut (l := L0) (c := C0) (s := s0) (t := x1) ?_ ?_; subst x1; rotate_left; intro _; rotate_right)
    | (intro _)
    | lift_lets
    | (with_reducible refine Within.ofPair (by assumption) ?_)
    | (with_reducible refine Within.ofTriple (by assumption) ?_)
    | (with_reducible refine Within.ofFour (by assumption) ?_)
    | (with_reducible refine Within.ofFst (by assumption) ?_)
    | (with_reducible refine Within.ofSome (by assumption) ?_)
    | split
    | dsimp only)

theorem State.placeJob_within {L0 : List RegName} {C0 : List Comp} {s0 : State} {s : State} {j : Nat} (hL : subList [.TILE_STATUS, .TILE_FREQ, .SCH_CTX] L0 = true) (hC : subList [.pwr, .sch] C0 = true) (hS : Within L0 C0 s0 s) :
    Within L0 C0 s0 (State.placeJob s j) := by
  unfold State.placeJob
  repeat' (first
    | with_reducible exact hS
    | with_reducible assumption
    | exact subList_trans (by decide +kernel) hL
    | exact subList_trans (by decide +kernel) hC
    | exact subList_elem (by decide +kernel) hL
    | exact subList_elem (by decide +kernel) hC
    | with_reducible apply State.bindJob_within
    | with_reducible apply State.askToLeave_within
    | exact Within.memFilter
    | (with_reducible refine Within.foldl (fun _ _ _ => ?_) _ ?_)
    | (with_reducible refine Within.foldlPair (fun _ _ _ => ?_) _ ?_)
    | (with_reducible refine Within.foldlFst (fun _ _ _ => ?_) _ ?_)
    | (intro x1; refine Within.cut (l := L0) (c := C0) (s := s0) (t := x1) ?_ ?_; subst x1; rotate_left; intro _; rotate_right)
    | (intro _)
    | lift_lets
    | (with_reducible refine Within.ofPair (by assumption) ?_)
    | (with_reducible refine Within.ofTriple (by assumption) ?_)
    | (with_reducible refine Within.ofFour (by assumption) ?_)
    | (with_reducible refine Within.ofFst (by assumption) ?_)
    | (with_reducible refine Within.ofSome (by assumption) ?_)
    | split
    | dsimp only)

theorem execJobPlace_within {L0 : List RegName} {C0 : List Comp} {s0 : State} {j : Nat} {s : State} (hL : subList [.TILE_STATUS, .TILE_FREQ, .SCH_CTX] L0 = true) (hC : subList [.pwr, .sch] C0 = true) (hS : Within L0 C0 s0 s) :
    WithinOut L0 C0 s0 (execJobPlace j s) := by
  unfold execJobPlace
  repeat' (first
    | with_reducible exact hS
    | with_reducible assumption
    | exact subList_trans (by decide +kernel) hL
    | exact subList_trans (by decide +kernel) hC
    | exact subList_elem (by decide +kernel) hL
    | exact subList_elem (by decide +kernel) hC
    | with_reducible apply State.placeJob_within
    | with_reducible apply WithinOut.next
    | exact Within.memFilter
    | (intro x1; refine Within.cut (l := L0) (c := C0) (s := s0) (t := x1) ?_ ?_; subst x1; rotate_left; intro _; rotate_right)
    | (intro _)
    | lift_lets
    | (with_reducible refine Within.ofPair (by assumption) ?_)
    | (with_reducible refine Within.ofTriple (by assumption) ?_)
    | (with_reducible refine Within.ofFour (by assumption) ?_)
    | (with_reducible refine Within.ofFst (by assumption) ?_)
    | (with_reducible refine Within.ofSome (by assumption) ?_)
    | split
    | dsimp only)

theorem execSliceEnd_within {L0 : List RegName} {C0 : List Comp} {s0 : State} {j : Nat} {s : State} (hL : subList ([] : List RegName) L0 = true) (hC : subList [.sch] C0 = true) (hS : Within L0 C0 s0 s) :
    WithinOut L0 C0 s0 (execSliceEnd j s) := by
  unfold execSliceEnd
  repeat' (first
    | with_reducible exact hS
    | with_reducible assumption
    | exact subList_trans (by decide +kernel) hL
    | exact subList_trans (by decide +kernel) hC
    | exact subList_elem (by decide +kernel) hL
    | exact subList_elem (by decide +kernel) hC
    | with_reducible apply State.setJob_within
    | with_reducible apply WithinOut.next
    | exact Within.memFilter
    | (intro x1; refine Within.cut (l := L0) (c := C0) (s := s0) (t := x1) ?_ ?_; subst x1; rotate_left; intro _; rotate_right)
    | (intro _)
    | lift_lets
    | (with_reducible refine Within.ofPair (by assumption) ?_)
    | (with_reducible refine Within.ofTriple (by assumption) ?_)
    | (with_reducible refine Within.ofFour (by assumption) ?_)
    | (with_reducible refine Within.ofFst (by assumption) ?_)
    | (with_reducible refine Within.ofSome (by assumption) ?_)
    | split
    | dsimp only)

theorem State.yieldTile_within {L0 : List RegName} {C0 : List Comp} {s0 : State} {s : State} {t : Nat} (hL : subList [.TILE_STATUS, .SCH_CTX] L0 = true) (hC : subList [.sch] C0 = true) (hS : Within L0 C0 s0 s) :
    Within L0 C0 s0 (State.yieldTile s t) := by
  unfold State.yieldTile
  repeat' (first
    | with_reducible exact hS
    | with_reducible assumption
    | exact subList_trans (by decide +kernel) hL
    | exact subList_trans (by decide +kernel) hC
    | exact subList_elem (by decide +kernel) hL
    | exact subList_elem (by decide +kernel) hC
    | with_reducible apply State.updRun_within
    | with_reducible apply State.unpark_within
    | exact Within.memFilter
    | (intro x1; refine Within.cut (l := L0) (c := C0) (s := s0) (t := x1) ?_ ?_; subst x1; rotate_left; intro _; rotate_right)
    | (intro _)
    | lift_lets
    | (with_reducible refine Within.ofPair (by assumption) ?_)
    | (with_reducible refine Within.ofTriple (by assumption) ?_)
    | (with_reducible refine Within.ofFour (by assumption) ?_)
    | (with_reducible refine Within.ofFst (by assumption) ?_)
    | (with_reducible refine Within.ofSome (by assumption) ?_)
    | split
    | dsimp only)

theorem State.takeTile_within {L0 : List RegName} {C0 : List Comp} {s0 : State} {s : State} {j i t : Nat} (hL : subList [.TILE_STATUS] L0 = true) (hC : subList [.sch] C0 = true) (hS : Within L0 C0 s0 s) :
    Within L0 C0 s0 (State.takeTile s j i t) := by
  unfold State.takeTile
  repeat' (first
    | with_reducible exact hS
    | with_reducible assumption
    | exact subList_trans (by decide +kernel) hL
    | exact subList_trans (by decide +kernel) hC
    | exact subList_elem (by decide +kernel) hL
    | exact subList_elem (by decide +kernel) hC
    | with_reducible apply State.updRun_within
    | exact Within.memFilter
    | (intro x1; refine Within.cut (l := L0) (c := C0) (s := s0) (t := x1) ?_ ?_; subst x1; rotate_left; intro _; rotate_right)
    | (intro _)
    | lift_lets
    | (with_reducible refine Within.ofPair (by assumption) ?_)
    | (with_reducible refine Within.ofTriple (by assumption) ?_)
    | (with_reducible refine Within.ofFour (by assumption) ?_)
    | (with_reducible refine Within.ofFst (by assumption) ?_)
    | (with_reducible refine Within.ofSome (by assumption) ?_)
    | split
    | dsimp only)

theorem State.rtStart_within {L0 : List RegName} {C0 : List Comp} {s0 : State} {s : State} {j : Nat} (hL : subList [.TILE_STATUS] L0 = true) (hC : subList [.sch] C0 = true) (hS : Within L0 C0 s0 s) :
    Within L0 C0 s0 (State.rtStart s j) := by
  unfold State.rtStart
  repeat' (first
    | with_reducible exact hS
    | with_reducible assumption
    | exact subList_trans (by decide +kernel) hL
    | exact subList_trans (by decide +kernel) hC
    | exact subList_elem (by decide +kernel) hL
    | exact subList_elem (by decide +kernel) hC
    | with_reducible apply State.takeTile_within
    | with_reducible apply State.setJob_within
    | exact Within.memFilter
    | (with_reducible refine Within.foldl (fun _ _ _ => ?_) _ ?_)
    | (with_reducible refine Within.foldlPair (fun _ _ _ => ?_) _ ?_)
    | (with_reducible refine Within.foldlFst (fun _ _ _ => ?_) _ ?_)
    | (intro x1; refine Within.cut (l := L0) (c := C0) (s := s0) (t := x1) ?_ ?_; subst x1; rotate_left; intro _; rotate_right)
    | (intro _)
    | lift_lets
    | (with_reducible refine Within.ofPair (by assumption) ?_)
    | (with_reducible refine Within.ofTriple (by assumption) ?_)
    | (with_reducible refine Within.ofFour (by assumption) ?_)
    | (with_reducible refine Within.ofFst (by assumption) ?_)
    | (with_reducible refine Within.ofSome (by assumption) ?_)
    | split
    | dsimp only)

theorem State.startLate_within {L0 : List RegName} {C0 : List Comp} {s0 : State} {s : State} (hL : subList [.TILE_STATUS] L0 = true) (hC : subList [.sch] C0 = true) (hS : Within L0 C0 s0 s) :
    Within L0 C0 s0 (State.startLate s) := by
  unfold State.startLate
  repeat' (first
    | with_reducible exact hS
    | with_reducible assumption
    | exact subList_trans (by decide +kernel) hL
    | exact subList_trans (by decide +kernel) hC
    | exact subList_elem (by decide +kernel) hL
    | exact subList_elem (by decide +kernel) hC
    | with_reducible apply State.rtStart_within
    | exact Within.memFilter
    | (with_reducible refine Within.foldl (fun _ _ _ => ?_) _ ?_)
    | (with_reducible refine Within.foldlPair (fun _ _ _ => ?_) _ ?_)
    | (with_reducible refine Within.foldlFst (fun _ _ _ => ?_) _ ?_)
    | (intro x1; refine Within.cut (l := L0) (c := C0) (s := s0) (t := x1) ?_ ?_; subst x1; rotate_left; intro _; rotate_right)
    | (intro _)
    | lift_lets
    | (with_reducible refine Within.ofPair (by assumption) ?_)
    | (with_reducible refine Within.ofTriple (by assumption) ?_)
    | (with_reducible refine Within.ofFour (by assumption) ?_)
    | (with_reducible refine Within.ofFst (by assumption) ?_)
    | (with_reducible refine Within.ofSome (by assumption) ?_)
    | split
    | dsimp only)

theorem execCheap_within {L0 : List RegName} {C0 : List Comp} {s0 : State} {t : Nat} {s : State} (hL : subList [.TILE_STATUS, .TILE_FLAGS, .TILE_ERR, .TILE_DONE_TAG, .TILE_CMD_COUNT, .BANK_CQ_STATUS, .BANK_TQ_STATUS, .MEM_DEEP_WEAR, .UPD_PLAN_STATUS, .UPD_PLAN_STALL_US, .UPD_PLAN_STALL_MAX, .SCH_P_EVENT, .SCH_CTX, .FLT_STATUS, .FLT_REC_NEWEST, .FLT_REC_LOST, .FLT_LOG_STATUS, .FLT_P_EVENT] L0 = true) (hC : subList [.mem, .badCheck, .badWord, .pulses, .flt, .bank, .hdw, .sch, .deep, .upd] C0 = true) (hS : Within L0 C0 s0 s) :
    WithinOut L0 C0 s0 (execCheap t s) := by
  unfold execCheap
  repeat' (first
    | with_reducible exact hS
    | with_reducible assumption
    | exact subList_trans (by decide +kernel) hL
    | exact subList_trans (by decide +kernel) hC
    | exact subList_elem (by decide +kernel) hL
    | exact subList_elem (by decide +kernel) hC
    | with_reducible refine State.startCmd_within (subList_trans (by decide +kernel) hL) (subList_trans (by decide +kernel) hC) ?_ _ (by assumption)
    | with_reducible apply State.wakeQueue_within
    | with_reducible apply State.finish_within
    | with_reducible apply State.setGangPos_within
    | with_reducible apply State.updRun_within
    | with_reducible apply State.setJob_within
    | with_reducible apply State.yieldTile_within
    | with_reducible apply State.startLate_within
    | with_reducible apply WithinOut.next
    | exact Within.memFilter
    | (intro x1; refine Within.cut (l := L0) (c := C0) (s := s0) (t := x1) ?_ ?_; subst x1; rotate_left; intro _; rotate_right)
    | (intro _)
    | lift_lets
    | (with_reducible refine Within.ofPair (by assumption) ?_)
    | (with_reducible refine Within.ofTriple (by assumption) ?_)
    | (with_reducible refine Within.ofFour (by assumption) ?_)
    | (with_reducible refine Within.ofFst (by assumption) ?_)
    | (with_reducible refine Within.ofSome (by assumption) ?_)
    | split
    | dsimp only)

theorem State.abandonWaits_within {L0 : List RegName} {C0 : List Comp} {s0 : State} {s : State} {t : Nat} (hL : subList [.TILE_STATUS, .UPD_PLAN_STATUS, .UPD_PLAN_STALL_US, .UPD_PLAN_STALL_MAX] L0 = true) (hC : subList [.sch, .upd] C0 = true) (hS : Within L0 C0 s0 s) :
    Within L0 C0 s0 (State.abandonWaits s t) := by
  unfold State.abandonWaits
  repeat' (first
    | with_reducible exact hS
    | with_reducible assumption
    | exact subList_trans (by decide +kernel) hL
    | exact subList_trans (by decide +kernel) hC
    | exact subList_elem (by decide +kernel) hL
    | exact subList_elem (by decide +kernel) hC
    | with_reducible apply State.dropGate_within
    | with_reducible apply State.setGangPos_within
    | with_reducible apply State.updRun_within
    | exact Within.memFilter
    | (intro x1; refine Within.cut (l := L0) (c := C0) (s := s0) (t := x1) ?_ ?_; subst x1; rotate_left; intro _; rotate_right)
    | (intro _)
    | lift_lets
    | (with_reducible refine Within.ofPair (by assumption) ?_)
    | (with_reducible refine Within.ofTriple (by assumption) ?_)
    | (with_reducible refine Within.ofFour (by assumption) ?_)
    | (with_reducible refine Within.ofFst (by assumption) ?_)
    | (with_reducible refine Within.ofSome (by assumption) ?_)
    | split
    | dsimp only)

theorem State.countOverrun_within {L0 : List RegName} {C0 : List Comp} {s0 : State} {s : State} {j : Nat} (hL : subList [.SCH_OVERRUNS, .SCH_P_EVENT, .SCH_CTX] L0 = true) (hC : subList ([] : List Comp) C0 = true) (hS : Within L0 C0 s0 s) :
    Within L0 C0 s0 (State.countOverrun s j) := by
  unfold State.countOverrun
  repeat' (first
    | with_reducible exact hS
    | with_reducible assumption
    | exact subList_trans (by decide +kernel) hL
    | exact subList_trans (by decide +kernel) hC
    | exact subList_elem (by decide +kernel) hL
    | exact subList_elem (by decide +kernel) hC
    | with_reducible apply Within.wrF
    | with_reducible apply Within.bump
    | with_reducible apply Within.bumpF
    | with_reducible apply State.schEvent_within
    | exact Within.memFilter
    | (intro x1; refine Within.cut (l := L0) (c := C0) (s := s0) (t := x1) ?_ ?_; subst x1; rotate_left; intro _; rotate_right)
    | (intro _)
    | lift_lets
    | (with_reducible refine Within.ofPair (by assumption) ?_)
    | (with_reducible refine Within.ofTriple (by assumption) ?_)
    | (with_reducible refine Within.ofFour (by assumption) ?_)
    | (with_reducible refine Within.ofFst (by assumption) ?_)
    | (with_reducible refine Within.ofSome (by assumption) ?_)
    | split
    | dsimp only)

theorem State.parkJob_within {L0 : List RegName} {C0 : List Comp} {s0 : State} {s : State} {j : Nat} (hL : subList [.TILE_STATUS, .UPD_PLAN_STATUS, .UPD_PLAN_STALL_US, .UPD_PLAN_STALL_MAX, .SCH_CTX] L0 = true) (hC : subList [.sch, .upd] C0 = true) (hS : Within L0 C0 s0 s) :
    Within L0 C0 s0 (State.parkJob s j) := by
  unfold State.parkJob
  repeat' (first
    | with_reducible exact hS
    | with_reducible assumption
    | exact subList_trans (by decide +kernel) hL
    | exact subList_trans (by decide +kernel) hC
    | exact subList_elem (by decide +kernel) hL
    | exact subList_elem (by decide +kernel) hC
    | with_reducible apply State.abandonWaits_within
    | with_reducible apply State.updRun_within
    | with_reducible apply State.setJobState_within
    | with_reducible apply State.setJob_within
    | exact Within.memFilter
    | (with_reducible refine Within.foldl (fun _ _ _ => ?_) _ ?_)
    | (with_reducible refine Within.foldlPair (fun _ _ _ => ?_) _ ?_)
    | (with_reducible refine Within.foldlFst (fun _ _ _ => ?_) _ ?_)
    | (intro x1; refine Within.cut (l := L0) (c := C0) (s := s0) (t := x1) ?_ ?_; subst x1; rotate_left; intro _; rotate_right)
    | (intro _)
    | lift_lets
    | (with_reducible refine Within.ofPair (by assumption) ?_)
    | (with_reducible refine Within.ofTriple (by assumption) ?_)
    | (with_reducible refine Within.ofFour (by assumption) ?_)
    | (with_reducible refine Within.ofFst (by assumption) ?_)
    | (with_reducible refine Within.ofSome (by assumption) ?_)
    | split
    | dsimp only)

theorem State.startSave_within {L0 : List RegName} {C0 : List Comp} {s0 : State} {s : State} {j : Nat} (hL : subList [.TILE_STATUS, .UPD_PLAN_STATUS, .UPD_PLAN_STALL_US, .UPD_PLAN_STALL_MAX, .SCH_OVERRUNS, .SCH_P_EVENT, .SCH_CTX] L0 = true) (hC : subList [.sch, .upd] C0 = true) (hS : Within L0 C0 s0 s) :
    Within L0 C0 s0 (State.startSave s j) := by
  unfold State.startSave
  repeat' (first
    | with_reducible exact hS
    | with_reducible assumption
    | exact subList_trans (by decide +kernel) hL
    | exact subList_trans (by decide +kernel) hC
    | exact subList_elem (by decide +kernel) hL
    | exact subList_elem (by decide +kernel) hC
    | with_reducible apply State.abandonWaits_within
    | with_reducible apply State.countOverrun_within
    | with_reducible apply State.setJob_within
    | exact Within.memFilter
    | (with_reducible refine Within.foldl (fun _ _ _ => ?_) _ ?_)
    | (with_reducible refine Within.foldlPair (fun _ _ _ => ?_) _ ?_)
    | (with_reducible refine Within.foldlFst (fun _ _ _ => ?_) _ ?_)
    | (intro x1; refine Within.cut (l := L0) (c := C0) (s := s0) (t := x1) ?_ ?_; subst x1; rotate_left; intro _; rotate_right)
    | (intro _)
    | lift_lets
    | (with_reducible refine Within.ofPair (by assumption) ?_)
    | (with_reducible refine Within.ofTriple (by assumption) ?_)
    | (with_reducible refine Within.ofFour (by assumption) ?_)
    | (with_reducible refine Within.ofFst (by assumption) ?_)
    | (with_reducible refine Within.ofSome (by assumption) ?_)
    | split
    | dsimp only)

theorem execSwitchAtCheap_within {L0 : List RegName} {C0 : List Comp} {s0 : State} {j : Nat} {s : State} (hL : subList [.TILE_STATUS, .UPD_PLAN_STATUS, .UPD_PLAN_STALL_US, .UPD_PLAN_STALL_MAX, .SCH_OVERRUNS, .SCH_P_EVENT, .SCH_CTX] L0 = true) (hC : subList [.sch, .upd] C0 = true) (hS : Within L0 C0 s0 s) :
    WithinOut L0 C0 s0 (execSwitchAtCheap j s) := by
  unfold execSwitchAtCheap
  repeat' (first
    | with_reducible exact hS
    | with_reducible assumption
    | exact subList_trans (by decide +kernel) hL
    | exact subList_trans (by decide +kernel) hC
    | exact subList_elem (by decide +kernel) hL
    | exact subList_elem (by decide +kernel) hC
    | with_reducible apply State.startSave_within
    | with_reducible apply State.parkJob_within
    | with_reducible apply State.startLate_within
    | with_reducible apply WithinOut.next
    | exact Within.memFilter
    | (intro x1; refine Within.cut (l := L0) (c := C0) (s := s0) (t := x1) ?_ ?_; subst x1; rotate_left; intro _; rotate_right)
    | (intro _)
    | lift_lets
    | (with_reducible refine Within.ofPair (by assumption) ?_)
    | (with_reducible refine Within.ofTriple (by assumption) ?_)
    | (with_reducible refine Within.ofFour (by assumption) ?_)
    | (with_reducible refine Within.ofFst (by assumption) ?_)
    | (with_reducible refine Within.ofSome (by assumption) ?_)
    | split
    | dsimp only)

theorem State.moveRange_within {L0 : List RegName} {C0 : List Comp} {s0 : State} {s : State} {a : Agent} {src dst n : Nat} (hL : subList [.MEM_DEEP_WEAR, .FLT_STATUS, .FLT_REC_NEWEST, .FLT_REC_LOST, .FLT_LOG_STATUS, .FLT_P_EVENT] L0 = true) (hC : subList [.mem, .badCheck, .badWord, .flt, .hdw, .deep] C0 = true) (hS : Within L0 C0 s0 s) :
    Within L0 C0 s0 (State.moveRange s a src dst n).2 := by
  unfold State.moveRange
  repeat' (first
    | with_reducible exact hS
    | with_reducible assumption
    | exact subList_trans (by decide +kernel) hL
    | exact subList_trans (by decide +kernel) hC
    | exact subList_elem (by decide +kernel) hL
    | exact subList_elem (by decide +kernel) hC
    | with_reducible apply State.engineRead_within
    | with_reducible apply State.engineWrite_within
    | exact Within.memFilter
    | (intro x1; refine Within.cut (l := L0) (c := C0) (s := s0) (t := x1) ?_ ?_; subst x1; rotate_left; intro _; rotate_right)
    | (intro _)
    | lift_lets
    | (with_reducible refine Within.ofPair (by assumption) ?_)
    | (with_reducible refine Within.ofTriple (by assumption) ?_)
    | (with_reducible refine Within.ofFour (by assumption) ?_)
    | (with_reducible refine Within.ofFst (by assumption) ?_)
    | (with_reducible refine Within.ofSome (by assumption) ?_)
    | split
    | dsimp only)

theorem State.moveRanges_within {L0 : List RegName} {C0 : List Comp} {s0 : State} {s : State} {a : Agent} {k0 : List (Nat × Nat × Nat)} (hL : subList [.MEM_DEEP_WEAR, .FLT_STATUS, .FLT_REC_NEWEST, .FLT_REC_LOST, .FLT_LOG_STATUS, .FLT_P_EVENT] L0 = true) (hC : subList [.mem, .badCheck, .badWord, .flt, .hdw, .deep] C0 = true) (hS : Within L0 C0 s0 s) :
    Within L0 C0 s0 (State.moveRanges s a k0).2 := by
  induction k0 generalizing s a with
  | nil =>
    unfold State.moveRanges
    repeat' (first
      | with_reducible exact hS
      | with_reducible assumption
      | exact subList_trans (by decide +kernel) hL
      | exact subList_trans (by decide +kernel) hC
      | exact subList_elem (by decide +kernel) hL
      | exact subList_elem (by decide +kernel) hC
      | with_reducible apply State.moveRange_within
      | exact Within.memFilter
      | (intro x1; refine Within.cut (l := L0) (c := C0) (s := s0) (t := x1) ?_ ?_; subst x1; rotate_left; intro _; rotate_right)
      | (intro _)
      | lift_lets
      | (with_reducible refine Within.ofPair (by assumption) ?_)
      | (with_reducible refine Within.ofTriple (by assumption) ?_)
      | (with_reducible refine Within.ofFour (by assumption) ?_)
      | (with_reducible refine Within.ofFst (by assumption) ?_)
      | (with_reducible refine Within.ofSome (by assumption) ?_)
      | split
      | dsimp only)
  | cons a1 l1 ih =>
    unfold State.moveRanges
    repeat' (first
      | with_reducible exact hS
      | with_reducible assumption
      | with_reducible apply ih
      | exact subList_trans (by decide +kernel) hL
      | exact subList_trans (by decide +kernel) hC
      | exact subList_elem (by decide +kernel) hL
      | exact subList_elem (by decide +kernel) hC
      | with_reducible apply State.moveRange_within
      | exact Within.memFilter
      | (intro x1; refine Within.cut (l := L0) (c := C0) (s := s0) (t := x1) ?_ ?_; subst x1; rotate_left; intro _; rotate_right)
      | (intro _)
      | lift_lets
      | (with_reducible refine Within.ofPair (by assumption) ?_)
      | (with_reducible refine Within.ofTriple (by assumption) ?_)
      | (with_reducible refine Within.ofFour (by assumption) ?_)
      | (with_reducible refine Within.ofFst (by assumption) ?_)
      | (with_reducible refine Within.ofSome (by assumption) ?_)
      | split
      | dsimp only)

theorem State.leaveTiles_within {L0 : List RegName} {C0 : List Comp} {s0 : State} {s : State} {j : Nat} {dest : SwitchTo} (hL : subList [.TILE_STATUS, .SCH_P_EVENT, .SCH_CTX] L0 = true) (hC : subList [.sch, .upd] C0 = true) (hS : Within L0 C0 s0 s) :
    Within L0 C0 s0 (State.leaveTiles s j dest) := by
  unfold State.leaveTiles
  repeat' (first
    | with_reducible exact hS
    | with_reducible assumption
    | exact subList_trans (by decide +kernel) hL
    | exact subList_trans (by decide +kernel) hC
    | exact subList_elem (by decide +kernel) hL
    | exact subList_elem (by decide +kernel) hC
    | with_reducible apply State.unbindJob_within
    | with_reducible apply State.abandonSlots_within
    | with_reducible apply State.setJob_within
    | with_reducible apply State.setJobState_within
    | with_reducible apply State.schEvent_within
    | exact Within.memFilter
    | (intro x1; refine Within.cut (l := L0) (c := C0) (s := s0) (t := x1) ?_ ?_; subst x1; rotate_left; intro _; rotate_right)
    | (intro _)
    | lift_lets
    | (with_reducible refine Within.ofPair (by assumption) ?_)
    | (with_reducible refine Within.ofTriple (by assumption) ?_)
    | (with_reducible refine Within.ofFour (by assumption) ?_)
    | (with_reducible refine Within.ofFst (by assumption) ?_)
    | (with_reducible refine Within.ofSome (by assumption) ?_)
    | split
    | dsimp only)

theorem execLiveSaveDone_within {L0 : List RegName} {C0 : List Comp} {s0 : State} {j : Nat} {s : State} (hL : subList [.TILE_STATUS, .TILE_ERR, .BANK_CQ_STATUS, .BANK_TQ_STATUS, .MEM_DEEP_WEAR, .UPD_PLAN_STATUS, .UPD_PLAN_STALL_US, .UPD_PLAN_STALL_MAX, .SCH_P_EVENT, .SCH_CTX, .FLT_STATUS, .FLT_REC_NEWEST, .FLT_REC_LOST, .FLT_LOG_STATUS, .FLT_P_EVENT] L0 = true) (hC : subList [.mem, .badCheck, .badWord, .pulses, .flt, .hdw, .sch, .deep, .upd] C0 = true) (hS : Within L0 C0 s0 s) :
    WithinOut L0 C0 s0 (execLiveSaveDone j s) := by
  unfold execLiveSaveDone
  repeat' (first
    | with_reducible exact hS
    | with_reducible assumption
    | exact subList_trans (by decide +kernel) hL
    | exact subList_trans (by decide +kernel) hC
    | exact subList_elem (by decide +kernel) hL
    | exact subList_elem (by decide +kernel) hC
    | with_reducible apply State.unbindJob_within
    | with_reducible apply State.stopJob_within
    | with_reducible apply State.startLate_within
    | with_reducible apply State.wakeAll_within
    | with_reducible apply State.moveRanges_within
    | with_reducible apply State.leaveTiles_within
    | with_reducible apply WithinOut.next
    | exact Within.memFilter
    | (intro x1; refine Within.cut (l := L0) (c := C0) (s := s0) (t := x1) ?_ ?_; subst x1; rotate_left; intro _; rotate_right)
    | (intro _)
    | lift_lets
    | (with_reducible refine Within.ofPair (by assumption) ?_)
    | (with_reducible refine Within.ofTriple (by assumption) ?_)
    | (with_reducible refine Within.ofFour (by assumption) ?_)
    | (with_reducible refine Within.ofFst (by assumption) ?_)
    | (with_reducible refine Within.ofSome (by assumption) ?_)
    | split
    | dsimp only)

theorem execLiveRestoreDone_within {L0 : List RegName} {C0 : List Comp} {s0 : State} {j : Nat} {s : State} (hL : subList [.TILE_STATUS, .TILE_ERR, .BANK_CQ_STATUS, .BANK_TQ_STATUS, .MEM_DEEP_WEAR, .UPD_PLAN_STATUS, .UPD_PLAN_STALL_US, .UPD_PLAN_STALL_MAX, .SCH_P_EVENT, .SCH_CTX, .FLT_STATUS, .FLT_REC_NEWEST, .FLT_REC_LOST, .FLT_LOG_STATUS, .FLT_P_EVENT] L0 = true) (hC : subList [.mem, .badCheck, .badWord, .pulses, .flt, .hdw, .sch, .deep, .upd] C0 = true) (hS : Within L0 C0 s0 s) :
    WithinOut L0 C0 s0 (execLiveRestoreDone j s) := by
  unfold execLiveRestoreDone
  repeat' (first
    | with_reducible exact hS
    | with_reducible assumption
    | exact subList_trans (by decide +kernel) hL
    | exact subList_trans (by decide +kernel) hC
    | exact subList_elem (by decide +kernel) hL
    | exact subList_elem (by decide +kernel) hC
    | with_reducible apply State.wakeAll_within
    | with_reducible apply State.checkFailed_within
    | with_reducible apply State.stopJob_within
    | with_reducible apply State.moveRanges_within
    | with_reducible apply State.setJob_within
    | with_reducible apply WithinOut.next
    | exact Within.memFilter
    | (intro x1; refine Within.cut (l := L0) (c := C0) (s := s0) (t := x1) ?_ ?_; subst x1; rotate_left; intro _; rotate_right)
    | (intro _)
    | lift_lets
    | (with_reducible refine Within.ofPair (by assumption) ?_)
    | (with_reducible refine Within.ofTriple (by assumption) ?_)
    | (with_reducible refine Within.ofFour (by assumption) ?_)
    | (with_reducible refine Within.ofFst (by assumption) ?_)
    | (with_reducible refine Within.ofSome (by assumption) ?_)
    | split
    | dsimp only)

theorem State.askToPark_within {L0 : List RegName} {C0 : List Comp} {s0 : State} {s : State} {j : Nat} (hL : subList ([] : List RegName) L0 = true) (hC : subList [.sch] C0 = true) (hS : Within L0 C0 s0 s) :
    Within L0 C0 s0 (State.askToPark s j) := by
  unfold State.askToPark
  repeat' (first
    | with_reducible exact hS
    | with_reducible assumption
    | exact subList_trans (by decide +kernel) hL
    | exact subList_trans (by decide +kernel) hC
    | exact subList_elem (by decide +kernel) hL
    | exact subList_elem (by decide +kernel) hC
    | with_reducible apply State.askToLeave_within
    | exact Within.memFilter
    | (with_reducible refine Within.foldl (fun _ _ _ => ?_) _ ?_)
    | (with_reducible refine Within.foldlPair (fun _ _ _ => ?_) _ ?_)
    | (with_reducible refine Within.foldlFst (fun _ _ _ => ?_) _ ?_)
    | (intro x1; refine Within.cut (l := L0) (c := C0) (s := s0) (t := x1) ?_ ?_; subst x1; rotate_left; intro _; rotate_right)
    | (intro _)
    | lift_lets
    | (with_reducible refine Within.ofPair (by assumption) ?_)
    | (with_reducible refine Within.ofTriple (by assumption) ?_)
    | (with_reducible refine Within.ofFour (by assumption) ?_)
    | (with_reducible refine Within.ofFst (by assumption) ?_)
    | (with_reducible refine Within.ofSome (by assumption) ?_)
    | split
    | dsimp only)

theorem execRtParkRequest_within {L0 : List RegName} {C0 : List Comp} {s0 : State} {j : Nat} {s : State} (hL : subList ([] : List RegName) L0 = true) (hC : subList [.sch] C0 = true) (hS : Within L0 C0 s0 s) :
    WithinOut L0 C0 s0 (execRtParkRequest j s) := by
  unfold execRtParkRequest
  repeat' (first
    | with_reducible exact hS
    | with_reducible assumption
    | exact subList_trans (by decide +kernel) hL
    | exact subList_trans (by decide +kernel) hC
    | exact subList_elem (by decide +kernel) hL
    | exact subList_elem (by decide +kernel) hC
    | with_reducible apply State.askToPark_within
    | with_reducible apply WithinOut.next
    | exact Within.memFilter
    | (intro x1; refine Within.cut (l := L0) (c := C0) (s := s0) (t := x1) ?_ ?_; subst x1; rotate_left; intro _; rotate_right)
    | (intro _)
    | lift_lets
    | (with_reducible refine Within.ofPair (by assumption) ?_)
    | (with_reducible refine Within.ofTriple (by assumption) ?_)
    | (with_reducible refine Within.ofFour (by assumption) ?_)
    | (with_reducible refine Within.ofFst (by assumption) ?_)
    | (with_reducible refine Within.ofSome (by assumption) ?_)
    | split
    | dsimp only)

theorem State.countLate_within {L0 : List RegName} {C0 : List Comp} {s0 : State} {s : State} {j : Nat} (hL : subList [.SCH_P_EVENT, .SCH_CTX] L0 = true) (hC : subList ([] : List Comp) C0 = true) (hS : Within L0 C0 s0 s) :
    Within L0 C0 s0 (State.countLate s j) := by
  unfold State.countLate
  repeat' (first
    | with_reducible exact hS
    | with_reducible assumption
    | exact subList_trans (by decide +kernel) hL
    | exact subList_trans (by decide +kernel) hC
    | exact subList_elem (by decide +kernel) hL
    | exact subList_elem (by decide +kernel) hC
    | with_reducible apply Within.wrF
    | with_reducible apply State.schEvent_within
    | exact Within.memFilter
    | (intro x1; refine Within.cut (l := L0) (c := C0) (s := s0) (t := x1) ?_ ?_; subst x1; rotate_left; intro _; rotate_right)
    | (intro _)
    | lift_lets
    | (with_reducible refine Within.ofPair (by assumption) ?_)
    | (with_reducible refine Within.ofTriple (by assumption) ?_)
    | (with_reducible refine Within.ofFour (by assumption) ?_)
    | (with_reducible refine Within.ofFst (by assumption) ?_)
    | (with_reducible refine Within.ofSome (by assumption) ?_)
    | split
    | dsimp only)

theorem State.releaseJob_within {L0 : List RegName} {C0 : List Comp} {s0 : State} {s : State} {j : Nat} (hL : subList [.TILE_STATUS, .TILE_FREQ, .SCH_P_EVENT, .SCH_CTX] L0 = true) (hC : subList [.pwr, .sch] C0 = true) (hS : Within L0 C0 s0 s) :
    Within L0 C0 s0 (State.releaseJob s j) := by
  unfold State.releaseJob
  repeat' (first
    | with_reducible exact hS
    | with_reducible assumption
    | exact subList_trans (by decide +kernel) hL
    | exact subList_trans (by decide +kernel) hC
    | exact subList_elem (by decide +kernel) hL
    | exact subList_elem (by decide +kernel) hC
    | with_reducible apply State.setJob_within
    | with_reducible apply State.askToPark_within
    | with_reducible apply State.rtStart_within
    | with_reducible apply State.placeJob_within
    | with_reducible apply State.countLate_within
    | exact Within.memFilter
    | (intro x1; refine Within.cut (l := L0) (c := C0) (s := s0) (t := x1) ?_ ?_; subst x1; rotate_left; intro _; rotate_right)
    | (intro _)
    | lift_lets
    | (with_reducible refine Within.ofPair (by assumption) ?_)
    | (with_reducible refine Within.ofTriple (by assumption) ?_)
    | (with_reducible refine Within.ofFour (by assumption) ?_)
    | (with_reducible refine Within.ofFst (by assumption) ?_)
    | (with_reducible refine Within.ofSome (by assumption) ?_)
    | split
    | dsimp only)

theorem execRtRelease_within {L0 : List RegName} {C0 : List Comp} {s0 : State} {j : Nat} {s : State} (hL : subList [.TILE_STATUS, .TILE_FREQ, .SCH_P_EVENT, .SCH_CTX] L0 = true) (hC : subList [.pwr, .sch] C0 = true) (hS : Within L0 C0 s0 s) :
    WithinOut L0 C0 s0 (execRtRelease j s) := by
  unfold execRtRelease
  repeat' (first
    | with_reducible exact hS
    | with_reducible assumption
    | exact subList_trans (by decide +kernel) hL
    | exact subList_trans (by decide +kernel) hC
    | exact subList_elem (by decide +kernel) hL
    | exact subList_elem (by decide +kernel) hC
    | with_reducible apply State.releaseJob_within
    | with_reducible apply WithinOut.next
    | exact Within.memFilter
    | (intro x1; refine Within.cut (l := L0) (c := C0) (s := s0) (t := x1) ?_ ?_; subst x1; rotate_left; intro _; rotate_right)
    | (intro _)
    | lift_lets
    | (with_reducible refine Within.ofPair (by assumption) ?_)
    | (with_reducible refine Within.ofTriple (by assumption) ?_)
    | (with_reducible refine Within.ofFour (by assumption) ?_)
    | (with_reducible refine Within.ofFst (by assumption) ?_)
    | (with_reducible refine Within.ofSome (by assumption) ?_)
    | split
    | dsimp only)

theorem State.spanFrom_within {L0 : List RegName} {C0 : List Comp} {s0 : State} {s : State} {empty : List Nat} (hL : subList [.TILE_STATUS] L0 = true) (hC : subList [.sch] C0 = true) (hS : Within L0 C0 s0 s) :
    Within L0 C0 s0 (State.spanFrom s empty) := by
  unfold State.spanFrom
  repeat' (first
    | with_reducible exact hS
    | with_reducible assumption
    | exact subList_trans (by decide +kernel) hL
    | exact subList_trans (by decide +kernel) hC
    | exact subList_elem (by decide +kernel) hL
    | exact subList_elem (by decide +kernel) hC
    | with_reducible apply State.updRun_within
    | exact Within.memFilter
    | (with_reducible refine Within.foldl (fun _ _ _ => ?_) _ ?_)
    | (with_reducible refine Within.foldlPair (fun _ _ _ => ?_) _ ?_)
    | (with_reducible refine Within.foldlFst (fun _ _ _ => ?_) _ ?_)
    | (intro x1; refine Within.cut (l := L0) (c := C0) (s := s0) (t := x1) ?_ ?_; subst x1; rotate_left; intro _; rotate_right)
    | (intro _)
    | lift_lets
    | (with_reducible refine Within.ofPair (by assumption) ?_)
    | (with_reducible refine Within.ofTriple (by assumption) ?_)
    | (with_reducible refine Within.ofFour (by assumption) ?_)
    | (with_reducible refine Within.ofFst (by assumption) ?_)
    | (with_reducible refine Within.ofSome (by assumption) ?_)
    | split
    | dsimp only)

theorem execSchedulerDoorbell_within {L0 : List RegName} {C0 : List Comp} {s0 : State} {a : Agent} {p j : Nat} {s : State} (hL : subList [.TILE_STATUS, .TILE_FREQ, .BANK_CQ_STATUS, .BANK_TQ_STATUS, .MEM_DEEP_WEAR, .SCH_P_EVENT, .SCH_CTX, .FLT_STATUS, .FLT_REC_NEWEST, .FLT_REC_LOST, .FLT_LOG_STATUS, .FLT_P_EVENT] L0 = true) (hC : subList [.resp, .flt, .pwr, .sch, .deep] C0 = true) (hS : Within L0 C0 s0 s) :
    WithinOut L0 C0 s0 (execSchedulerDoorbell a p j s) := by
  unfold execSchedulerDoorbell
  repeat' (first
    | with_reducible exact hS
    | with_reducible assumption
    | exact subList_trans (by decide +kernel) hL
    | exact subList_trans (by decide +kernel) hC
    | exact subList_elem (by decide +kernel) hL
    | exact subList_elem (by decide +kernel) hC
    | with_reducible apply State.respErr_within
    | with_reducible apply State.denied_within
    | with_reducible apply State.respOk_within
    | with_reducible apply State.violation_within
    | with_reducible apply State.readQueues_within
    | with_reducible apply State.spanFrom_within
    | with_reducible apply State.releaseJob_within
    | with_reducible apply WithinOut.next
    | exact Within.memFilter
    | (intro x1; refine Within.cut (l := L0) (c := C0) (s := s0) (t := x1) ?_ ?_; subst x1; rotate_left; intro _; rotate_right)
    | (intro _)
    | lift_lets
    | (with_reducible refine Within.ofPair (by assumption) ?_)
    | (with_reducible refine Within.ofTriple (by assumption) ?_)
    | (with_reducible refine Within.ofFour (by assumption) ?_)
    | (with_reducible refine Within.ofFst (by assumption) ?_)
    | (with_reducible refine Within.ofSome (by assumption) ?_)
    | split
    | dsimp only)

end Sys2Proof.Machine
end

