-- ==== Sys2Proof/Laws/WithinLoader.lean ====
section
/-!
SUPPORT. What each operation of Machine/Loader.lean leaves alone.
-/

set_option Elab.async false

namespace Sys2Proof.Machine

theorem State.loadResult_within {L0 : List RegName} {C0 : List Comp} {s0 : State} {s : State} {bank : Nat} {target : Option Nat} {c : LoadCode} (hL : subList [.SPL_STATUS, .MEM_DEEP_WEAR, .FLT_STATUS, .FLT_REC_NEWEST, .FLT_REC_LOST, .FLT_LOG_STATUS, .FLT_P_EVENT] L0 = true) (hC : subList [.pulses, .flt, .deep] C0 = true) (hS : Within L0 C0 s0 s) :
    Within L0 C0 s0 (State.loadResult s bank target c) := by
  unfold State.loadResult
  repeat' (first
    | with_reducible exact hS
    | with_reducible assumption
    | exact subList_trans (by decide +kernel) hL
    | exact subList_trans (by decide +kernel) hC
    | exact subList_elem (by decide +kernel) hL
    | exact subList_elem (by decide +kernel) hC
    | with_reducible apply Within.wrF
    | with_reducible apply Within.setB
    | with_reducible apply State.pulse_within
    | with_reducible apply State.record_within
    | exact Within.memFilter
    | (intro x1; refine Within.cut (l := L0) (c := C0) (s := s0) (t := x1) ?_ ?_; subst x1; rotate_left; intro _; rotate_right)
    | (intro _)
    | lift_lets
    | (with_reducible refine Within.ofPair (by assumption) ?_)
    | (with_reducible refine Within.ofTriple (by assumption) ?_)
    | (with_reducible refine Within.ofFour (by assumption) ?_)
    | (with_reducible refine Within.ofFst (by assumption) ?_)
    | (with_reducible refine Within.ofSome (by assumption) ?_)
    | split
    | dsimp only)

theorem State.endLoad_within {L0 : List RegName} {C0 : List Comp} {s0 : State} {s : State} {c : LoadCode} (hL : subList [.SPL_BUSY, .SPL_CTRL, .SPL_STATUS, .MEM_DEEP_WEAR, .FLT_STATUS, .FLT_REC_NEWEST, .FLT_REC_LOST, .FLT_LOG_STATUS, .FLT_P_EVENT] L0 = true) (hC : subList [.pulses, .spl, .flt, .deep] C0 = true) (hS : Within L0 C0 s0 s) :
    Within L0 C0 s0 (State.endLoad s c) := by
  unfold State.endLoad
  repeat' (first
    | with_reducible exact hS
    | with_reducible assumption
    | exact subList_trans (by decide +kernel) hL
    | exact subList_trans (by decide +kernel) hC
    | exact subList_elem (by decide +kernel) hL
    | exact subList_elem (by decide +kernel) hC
    | with_reducible apply Within.wrF
    | with_reducible apply Within.clrB
    | with_reducible apply State.loadResult_within
    | exact Within.memFilter
    | (intro x1; refine Within.cut (l := L0) (c := C0) (s := s0) (t := x1) ?_ ?_; subst x1; rotate_left; intro _; rotate_right)
    | (intro _)
    | lift_lets
    | (with_reducible refine Within.ofPair (by assumption) ?_)
    | (with_reducible refine Within.ofTriple (by assumption) ?_)
    | (with_reducible refine Within.ofFour (by assumption) ?_)
    | (with_reducible refine Within.ofFst (by assumption) ?_)
    | (with_reducible refine Within.ofSome (by assumption) ?_)
    | split
    | dsimp only
    | with_reducible apply Within.spl)

theorem execLoadGo_within {L0 : List RegName} {C0 : List Comp} {s0 : State} {a : Agent} {bank : Nat} {w : Word} {s : State} (hL : subList [.SPL_BUSY, .SPL_CTRL, .SPL_STATUS, .MEM_DEEP_WEAR, .FLT_STATUS, .FLT_REC_NEWEST, .FLT_REC_LOST, .FLT_LOG_STATUS, .FLT_P_EVENT] L0 = true) (hC : subList [.resp, .pulses, .spl, .flt, .deep] C0 = true) (hS : Within L0 C0 s0 s) :
    WithinOut L0 C0 s0 (execLoadGo a bank w s) := by
  unfold execLoadGo
  repeat' (first
    | with_reducible exact hS
    | with_reducible assumption
    | exact subList_trans (by decide +kernel) hL
    | exact subList_trans (by decide +kernel) hC
    | exact subList_elem (by decide +kernel) hL
    | exact subList_elem (by decide +kernel) hC
    | with_reducible apply Within.wr
    | with_reducible apply Within.wrF
    | with_reducible apply Within.setB
    | with_reducible apply State.respErr_within
    | with_reducible apply State.denied_within
    | with_reducible apply State.respOk_within
    | with_reducible apply State.loadResult_within
    | with_reducible apply WithinOut.next
    | exact Within.memFilter
    | (intro x1; refine Within.cut (l := L0) (c := C0) (s := s0) (t := x1) ?_ ?_; subst x1; rotate_left; intro _; rotate_right)
    | (intro _)
    | lift_lets
    | (with_reducible refine Within.ofPair (by assumption) ?_)
    | (with_reducible refine Within.ofTriple (by assumption) ?_)
    | (with_reducible refine Within.ofFour (by assumption) ?_)
    | (with_reducible refine Within.ofFst (by assumption) ?_)
    | (with_reducible refine Within.ofSome (by assumption) ?_)
    | split
    | dsimp only
    | with_reducible apply Within.spl)

theorem State.loadPhase_within {L0 : List RegName} {C0 : List Comp} {s0 : State} {s : State} {l : Load} {ph : LoadPhase} (hL : subList ([] : List RegName) L0 = true) (hC : subList [.spl] C0 = true) (hS : Within L0 C0 s0 s) :
    Within L0 C0 s0 (State.loadPhase s l ph) := by
  unfold State.loadPhase
  repeat' (first
    | with_reducible exact hS
    | with_reducible assumption
    | exact subList_trans (by decide +kernel) hL
    | exact subList_trans (by decide +kernel) hC
    | exact subList_elem (by decide +kernel) hL
    | exact subList_elem (by decide +kernel) hC
    | exact Within.memFilter
    | (intro x1; refine Within.cut (l := L0) (c := C0) (s := s0) (t := x1) ?_ ?_; subst x1; rotate_left; intro _; rotate_right)
    | (intro _)
    | lift_lets
    | (with_reducible refine Within.ofPair (by assumption) ?_)
    | (with_reducible refine Within.ofTriple (by assumption) ?_)
    | (with_reducible refine Within.ofFour (by assumption) ?_)
    | (with_reducible refine Within.ofFst (by assumption) ?_)
    | (with_reducible refine Within.ofSome (by assumption) ?_)
    | split
    | dsimp only
    | with_reducible apply Within.spl)

theorem execLoadHeaderRead_within {L0 : List RegName} {C0 : List Comp} {s0 : State} {s : State} (hL : subList [.SPL_BUSY, .SPL_CTRL, .SPL_STATUS, .MEM_DEEP_WEAR, .FLT_STATUS, .FLT_REC_NEWEST, .FLT_REC_LOST, .FLT_LOG_STATUS, .FLT_P_EVENT] L0 = true) (hC : subList [.pulses, .spl, .flt, .deep] C0 = true) (hS : Within L0 C0 s0 s) :
    WithinOut L0 C0 s0 (execLoadHeaderRead s) := by
  unfold execLoadHeaderRead
  repeat' (first
    | with_reducible exact hS
    | with_reducible assumption
    | exact subList_trans (by decide +kernel) hL
    | exact subList_trans (by decide +kernel) hC
    | exact subList_elem (by decide +kernel) hL
    | exact subList_elem (by decide +kernel) hC
    | with_reducible apply State.loadPhase_within
    | with_reducible apply State.endLoad_within
    | with_reducible apply WithinOut.next
    | exact Within.memFilter
    | (intro x1; refine Within.cut (l := L0) (c := C0) (s := s0) (t := x1) ?_ ?_; subst x1; rotate_left; intro _; rotate_right)
    | (intro _)
    | lift_lets
    | (with_reducible refine Within.ofPair (by assumption) ?_)
    | (with_reducible refine Within.ofTriple (by assumption) ?_)
    | (with_reducible refine Within.ofFour (by assumption) ?_)
    | (with_reducible refine Within.ofFst (by assumption) ?_)
    | (with_reducible refine Within.ofSome (by assumption) ?_)
    | split
    | dsimp only)

theorem execLoadDigestDone_within {L0 : List RegName} {C0 : List Comp} {s0 : State} {s : State} (hL : subList [.SPL_BUSY, .SPL_CTRL, .SPL_STATUS, .MEM_DEEP_WEAR, .FLT_STATUS, .FLT_REC_NEWEST, .FLT_REC_LOST, .FLT_LOG_STATUS, .FLT_P_EVENT] L0 = true) (hC : subList [.pulses, .spl, .flt, .deep] C0 = true) (hS : Within L0 C0 s0 s) :
    WithinOut L0 C0 s0 (execLoadDigestDone s) := by
  unfold execLoadDigestDone
  repeat' (first
    | with_reducible exact hS
    | with_reducible assumption
    | exact subList_trans (by decide +kernel) hL
    | exact subList_trans (by decide +kernel) hC
    | exact subList_elem (by decide +kernel) hL
    | exact subList_elem (by decide +kernel) hC
    | with_reducible apply State.loadPhase_within
    | with_reducible apply State.endLoad_within
    | with_reducible apply WithinOut.next
    | exact Within.memFilter
    | (intro x1; refine Within.cut (l := L0) (c := C0) (s := s0) (t := x1) ?_ ?_; subst x1; rotate_left; intro _; rotate_right)
    | (intro _)
    | lift_lets
    | (with_reducible refine Within.ofPair (by assumption) ?_)
    | (with_reducible refine Within.ofTriple (by assumption) ?_)
    | (with_reducible refine Within.ofFour (by assumption) ?_)
    | (with_reducible refine Within.ofFst (by assumption) ?_)
    | (with_reducible refine Within.ofSome (by assumption) ?_)
    | split
    | dsimp only)

theorem State.callBackLoans_within {L0 : List RegName} {C0 : List Comp} {s0 : State} {s : State} {p : Nat} (hL : subList [.TILE_STATUS, .UPD_PLAN_STATUS, .UPD_PLAN_STALL_US, .UPD_PLAN_STALL_MAX, .SCH_OVERRUNS, .SCH_P_EVENT, .SCH_CTX] L0 = true) (hC : subList [.sch, .upd] C0 = true) (hS : Within L0 C0 s0 s) :
    Within L0 C0 s0 (State.callBackLoans s p) := by
  unfold State.callBackLoans
  repeat' (first
    | with_reducible exact hS
    | with_reducible assumption
    | exact subList_trans (by decide +kernel) hL
    | exact subList_trans (by decide +kernel) hC
    | exact subList_elem (by decide +kernel) hL
    | exact subList_elem (by decide +kernel) hC
    | with_reducible apply State.setJob_within
    | with_reducible apply State.startSave_within
    | exact Within.memFilter
    | (with_reducible refine Within.foldl (fun _ _ _ => ?_) _ ?_)
    | (with_reducible refine Within.foldlPair (fun _ _ _ => ?_) _ ?_)
    | (with_reducible refine Within.foldlFst (fun _ _ _ => ?_) _ ?_)
    | (intro x1; refine Within.cut (l := L0) (c := C0) (s := s0) (t := x1) ?_ ?_; subst x1; rotate_left; intro _; rotate_right)
    | (intro _)
    | lift_lets
    | (with_reducible refine Within.ofPair (by assumption) ?_)
    | (with_reducible refine Within.ofTriple (by assumption) ?_)
    | (with_reducible refine Within.ofFour (by assumption) ?_)
    | (with_reducible refine Within.ofFst (by assumption) ?_)
    | (with_reducible refine Within.ofSome (by assumption) ?_)
    | split
    | dsimp only)

theorem State.fenceJobs_within {L0 : List RegName} {C0 : List Comp} {s0 : State} {s : State} {p : Nat} (hL : subList [.TILE_STATUS] L0 = true) (hC : subList [.sch] C0 = true) (hS : Within L0 C0 s0 s) :
    Within L0 C0 s0 (State.fenceJobs s p) := by
  unfold State.fenceJobs
  repeat' (first
    | with_reducible exact hS
    | with_reducible assumption
    | exact subList_trans (by decide +kernel) hL
    | exact subList_trans (by decide +kernel) hC
    | exact subList_elem (by decide +kernel) hL
    | exact subList_elem (by decide +kernel) hC
    | with_reducible apply State.updRun_within
    | exact Within.memFilter
    | (with_reducible refine Within.foldl (fun _ _ _ => ?_) _ ?_)
    | (with_reducible refine Within.foldlPair (fun _ _ _ => ?_) _ ?_)
    | (with_reducible refine Within.foldlFst (fun _ _ _ => ?_) _ ?_)
    | (intro x1; refine Within.cut (l := L0) (c := C0) (s := s0) (t := x1) ?_ ?_; subst x1; rotate_left; intro _; rotate_right)
    | (intro _)
    | lift_lets
    | (with_reducible refine Within.ofPair (by assumption) ?_)
    | (with_reducible refine Within.ofTriple (by assumption) ?_)
    | (with_reducible refine Within.ofFour (by assumption) ?_)
    | (with_reducible refine Within.ofFst (by assumption) ?_)
    | (with_reducible refine Within.ofSome (by assumption) ?_)
    | split
    | dsimp only)

theorem execLoadSectionsChecked_within {L0 : List RegName} {C0 : List Comp} {s0 : State} {s : State} (hL : subList [.SPL_BUSY, .SPL_CTRL, .SPL_STATUS, .TILE_STATUS, .MEM_DEEP_WEAR, .UPD_PLAN_STATUS, .UPD_PLAN_STALL_US, .UPD_PLAN_STALL_MAX, .SCH_OVERRUNS, .SCH_P_EVENT, .SCH_CTX, .FLT_STATUS, .FLT_REC_NEWEST, .FLT_REC_LOST, .FLT_LOG_STATUS, .FLT_RUNG_COUNT, .FLT_P_EVENT] L0 = true) (hC : subList [.pulses, .boot, .spl, .flt, .sch, .deep, .upd] C0 = true) (hS : Within L0 C0 s0 s) :
    WithinOut L0 C0 s0 (execLoadSectionsChecked s) := by
  unfold execLoadSectionsChecked
  repeat' (first
    | with_reducible exact hS
    | with_reducible assumption
    | exact subList_trans (by decide +kernel) hL
    | exact subList_trans (by decide +kernel) hC
    | exact subList_elem (by decide +kernel) hL
    | exact subList_elem (by decide +kernel) hC
    | with_reducible apply State.endLoad_within
    | with_reducible apply State.callBackLoans_within
    | with_reducible apply State.fenceJobs_within
    | with_reducible apply State.openRecovery_within
    | with_reducible apply WithinOut.next
    | exact Within.memFilter
    | (intro x1; refine Within.cut (l := L0) (c := C0) (s := s0) (t := x1) ?_ ?_; subst x1; rotate_left; intro _; rotate_right)
    | (intro _)
    | lift_lets
    | (with_reducible refine Within.ofPair (by assumption) ?_)
    | (with_reducible refine Within.ofTriple (by assumption) ?_)
    | (with_reducible refine Within.ofFour (by assumption) ?_)
    | (with_reducible refine Within.ofFst (by assumption) ?_)
    | (with_reducible refine Within.ofSome (by assumption) ?_)
    | split
    | dsimp only
    | with_reducible apply Within.boot_spl
    | with_reducible apply Within.spl)

theorem execSvnCommit_within {L0 : List RegName} {C0 : List Comp} {s0 : State} {a : Agent} {s : State} (hL : subList [.SPL_BUSY, .MEM_DEEP_WEAR, .FLT_STATUS, .FLT_REC_NEWEST, .FLT_REC_LOST, .FLT_LOG_STATUS, .FLT_P_EVENT] L0 = true) (hC : subList [.resp, .spl, .flt, .deep] C0 = true) (hS : Within L0 C0 s0 s) :
    WithinOut L0 C0 s0 (execSvnCommit a s) := by
  unfold execSvnCommit
  repeat' (first
    | with_reducible exact hS
    | with_reducible assumption
    | exact subList_trans (by decide +kernel) hL
    | exact subList_trans (by decide +kernel) hC
    | exact subList_elem (by decide +kernel) hL
    | exact subList_elem (by decide +kernel) hC
    | with_reducible apply Within.setB
    | with_reducible apply State.respErr_within
    | with_reducible apply State.denied_within
    | with_reducible apply State.record_within
    | with_reducible apply State.respOk_within
    | with_reducible apply WithinOut.next
    | exact Within.memFilter
    | (intro x1; refine Within.cut (l := L0) (c := C0) (s := s0) (t := x1) ?_ ?_; subst x1; rotate_left; intro _; rotate_right)
    | (intro _)
    | lift_lets
    | (with_reducible refine Within.ofPair (by assumption) ?_)
    | (with_reducible refine Within.ofTriple (by assumption) ?_)
    | (with_reducible refine Within.ofFour (by assumption) ?_)
    | (with_reducible refine Within.ofFst (by assumption) ?_)
    | (with_reducible refine Within.ofSome (by assumption) ?_)
    | split
    | dsimp only
    | with_reducible apply Within.spl)

theorem State.showFuses_within {L0 : List RegName} {C0 : List Comp} {s0 : State} {s : State} (hL : subList [.SPL_SVN, .SPL_KEYS] L0 = true) (hC : subList ([] : List Comp) C0 = true) (hS : Within L0 C0 s0 s) :
    Within L0 C0 s0 (State.showFuses s) := by
  unfold State.showFuses
  repeat' (first
    | with_reducible exact hS
    | with_reducible assumption
    | exact subList_trans (by decide +kernel) hL
    | exact subList_trans (by decide +kernel) hC
    | exact subList_elem (by decide +kernel) hL
    | exact subList_elem (by decide +kernel) hC
    | with_reducible apply Within.wr
    | exact Within.memFilter
    | (with_reducible refine Within.foldl (fun _ _ _ => ?_) _ ?_)
    | (with_reducible refine Within.foldlPair (fun _ _ _ => ?_) _ ?_)
    | (with_reducible refine Within.foldlFst (fun _ _ _ => ?_) _ ?_)
    | (intro x1; refine Within.cut (l := L0) (c := C0) (s := s0) (t := x1) ?_ ?_; subst x1; rotate_left; intro _; rotate_right)
    | (intro _)
    | lift_lets
    | (with_reducible refine Within.ofPair (by assumption) ?_)
    | (with_reducible refine Within.ofTriple (by assumption) ?_)
    | (with_reducible refine Within.ofFour (by assumption) ?_)
    | (with_reducible refine Within.ofFst (by assumption) ?_)
    | (with_reducible refine Within.ofSome (by assumption) ?_)
    | split
    | dsimp only)

theorem State.fenceWaiting_within {L0 : List RegName} {C0 : List Comp} {s0 : State} {s : State} (hL : subList [.TILE_STATUS] L0 = true) (hC : subList [.flt, .sch] C0 = true) (hS : Within L0 C0 s0 s) :
    Within L0 C0 s0 (State.fenceWaiting s) := by
  unfold State.fenceWaiting
  repeat' (first
    | with_reducible exact hS
    | with_reducible assumption
    | exact subList_trans (by decide +kernel) hL
    | exact subList_trans (by decide +kernel) hC
    | exact subList_elem (by decide +kernel) hL
    | exact subList_elem (by decide +kernel) hC
    | with_reducible apply State.fenceStart_within
    | exact Within.memFilter
    | (intro x1; refine Within.cut (l := L0) (c := C0) (s := s0) (t := x1) ?_ ?_; subst x1; rotate_left; intro _; rotate_right)
    | (intro _)
    | lift_lets
    | (with_reducible refine Within.ofPair (by assumption) ?_)
    | (with_reducible refine Within.ofTriple (by assumption) ?_)
    | (with_reducible refine Within.ofFour (by assumption) ?_)
    | (with_reducible refine Within.ofFst (by assumption) ?_)
    | (with_reducible refine Within.ofSome (by assumption) ?_)
    | split
    | dsimp only
    | with_reducible apply Within.flt)

theorem execSvnCommitDone_within {L0 : List RegName} {C0 : List Comp} {s0 : State} {s : State} (hL : subList [.SPL_SVN, .SPL_KEYS, .SPL_BUSY, .TILE_STATUS] L0 = true) (hC : subList [.spl, .flt, .sch] C0 = true) (hS : Within L0 C0 s0 s) :
    WithinOut L0 C0 s0 (execSvnCommitDone s) := by
  unfold execSvnCommitDone
  repeat' (first
    | with_reducible exact hS
    | with_reducible assumption
    | exact subList_trans (by decide +kernel) hL
    | exact subList_trans (by decide +kernel) hC
    | exact subList_elem (by decide +kernel) hL
    | exact subList_elem (by decide +kernel) hC
    | with_reducible apply Within.clrB
    | with_reducible apply State.showFuses_within
    | with_reducible apply State.fenceWaiting_within
    | with_reducible apply WithinOut.next
    | exact Within.memFilter
    | (intro x1; refine Within.cut (l := L0) (c := C0) (s := s0) (t := x1) ?_ ?_; subst x1; rotate_left; intro _; rotate_right)
    | (intro _)
    | lift_lets
    | (with_reducible refine Within.ofPair (by assumption) ?_)
    | (with_reducible refine Within.ofTriple (by assumption) ?_)
    | (with_reducible refine Within.ofFour (by assumption) ?_)
    | (with_reducible refine Within.ofFst (by assumption) ?_)
    | (with_reducible refine Within.ofSome (by assumption) ?_)
    | split
    | dsimp only
    | with_reducible apply Within.spl)

end Sys2Proof.Machine
end

