-- ==== Sys2Proof/Laws/WithinCurve.lean ====
section
/-!
SUPPORT. What each operation of Machine/Curve.lean leaves alone.
-/

set_option Elab.async false

namespace Sys2Proof.Machine

theorem execCurveCommit_within {L0 : List RegName} {C0 : List Comp} {s0 : State} {a : Agent} {c : Nat} {s : State} (hL : subList [.MEM_DEEP_WEAR, .FLT_STATUS, .FLT_REC_NEWEST, .FLT_REC_LOST, .FLT_LOG_STATUS, .FLT_P_EVENT] L0 = true) (hC : subList [.resp, .flt, .curves, .deep] C0 = true) (hS : Within L0 C0 s0 s) :
    WithinOut L0 C0 s0 (execCurveCommit a c s) := by
  unfold execCurveCommit
  repeat' (first
    | with_reducible exact hS
    | with_reducible assumption
    | exact subList_trans (by decide +kernel) hL
    | exact subList_trans (by decide +kernel) hC
    | exact subList_elem (by decide +kernel) hL
    | exact subList_elem (by decide +kernel) hC
    | with_reducible apply State.respErr_within
    | with_reducible apply State.denied_within
    | with_reducible apply State.respOk_within
    | with_reducible apply WithinOut.next
    | exact Within.memFilter
    | (intro x1; refine Within.cut (l := L0) (c := C0) (s := s0) (t := x1) ?_ ?_; subst x1; rotate_left; intro _; rotate_right)
    | (intro _)
    | lift_lets
    | (with_reducible refine Within.ofPair (by assumption) ?_)
    | (with_reducible refine Within.ofTriple (by assumption) ?_)
    | (with_reducible refine Within.ofFour (by assumption) ?_)
    | (with_reducible refine Within.ofFst (by assumption) ?_)
    | (with_reducible refine Within.ofSome (by assumption) ?_)
    | split
    | dsimp only
    | with_reducible apply Within.curves)

end Sys2Proof.Machine
end

