-- ==== Sys2Proof/Laws/WithinWindbreak.lean ====
section
/-!
SUPPORT. What each operation of Machine/Windbreak.lean leaves alone.
-/

set_option Elab.async false

namespace Sys2Proof.Machine

theorem State.setWbState_within {L0 : List RegName} {C0 : List Comp} {s0 : State} {s : State} {st : Nat} (hL : subList [.WB_STATUS, .WB_EVENT] L0 = true) (hC : subList ([] : List Comp) C0 = true) (hS : Within L0 C0 s0 s) :
    Within L0 C0 s0 (State.setWbState s st) := by
  unfold State.setWbState
  repeat' (first
    | with_reducible exact hS
    | with_reducible assumption
    | exact subList_trans (by decide +kernel) hL
    | exact subList_trans (by decide +kernel) hC
    | exact subList_elem (by decide +kernel) hL
    | exact subList_elem (by decide +kernel) hC
    | with_reducible apply Within.wrF
    | with_reducible apply Within.setB
    | exact Within.memFilter
    | (intro x1; refine Within.cut (l := L0) (c := C0) (s := s0) (t := x1) ?_ ?_; subst x1; rotate_left; intro _; rotate_right)
    | (intro _)
    | lift_lets
    | (with_reducible refine Within.ofPair (by assumption) ?_)
    | (with_reducible refine Within.ofTriple (by assumption) ?_)
    | (with_reducible refine Within.ofFour (by assumption) ?_)
    | (with_reducible refine Within.ofFst (by assumption) ?_)
    | (with_reducible refine Within.ofSome (by assumption) ?_)
    | split
    | dsimp only)

theorem State.wbCauseSet_within {L0 : List RegName} {C0 : List Comp} {s0 : State} {s : State} {c : WbCause} (hL : subList [.WB_CAUSE] L0 = true) (hC : subList [.wb] C0 = true) (hS : Within L0 C0 s0 s) :
    Within L0 C0 s0 (State.wbCauseSet s c) := by
  unfold State.wbCauseSet
  repeat' (first
    | with_reducible exact hS
    | with_reducible assumption
    | exact subList_trans (by decide +kernel) hL
    | exact subList_trans (by decide +kernel) hC
    | exact subList_elem (by decide +kernel) hL
    | exact subList_elem (by decide +kernel) hC
    | with_reducible apply Within.setB
    | exact Within.memFilter
    | (intro x1; refine Within.cut (l := L0) (c := C0) (s := s0) (t := x1) ?_ ?_; subst x1; rotate_left; intro _; rotate_right)
    | (intro _)
    | lift_lets
    | (with_reducible refine Within.ofPair (by assumption) ?_)
    | (with_reducible refine Within.ofTriple (by assumption) ?_)
    | (with_reducible refine Within.ofFour (by assumption) ?_)
    | (with_reducible refine Within.ofFst (by assumption) ?_)
    | (with_reducible refine Within.ofSome (by assumption) ?_)
    | split
    | dsimp only
    | with_reducible apply Within.wb)

theorem State.safeStopOut_within {L0 : List RegName} {C0 : List Comp} {s0 : State} {s : State} {on : Bool} (hL : subList [.WB_STATUS] L0 = true) (hC : subList [.pins] C0 = true) (hS : Within L0 C0 s0 s) :
    Within L0 C0 s0 (State.safeStopOut s on) := by
  unfold State.safeStopOut
  repeat' (first
    | with_reducible exact hS
    | with_reducible assumption
    | exact subList_trans (by decide +kernel) hL
    | exact subList_trans (by decide +kernel) hC
    | exact subList_elem (by decide +kernel) hL
    | exact subList_elem (by decide +kernel) hC
    | with_reducible apply Within.wrB
    | exact Within.memFilter
    | (intro x1; refine Within.cut (l := L0) (c := C0) (s := s0) (t := x1) ?_ ?_; subst x1; rotate_left; intro _; rotate_right)
    | (intro _)
    | lift_lets
    | (with_reducible refine Within.ofPair (by assumption) ?_)
    | (with_reducible refine Within.ofTriple (by assumption) ?_)
    | (with_reducible refine Within.ofFour (by assumption) ?_)
    | (with_reducible refine Within.ofFst (by assumption) ?_)
    | (with_reducible refine Within.ofSome (by assumption) ?_)
    | split
    | dsimp only
    | with_reducible apply Within.pins)

theorem State.sto_within {L0 : List RegName} {C0 : List Comp} {s0 : State} {s : State} (hL : subList [.WL_STO_LO, .WL_STO_HI, .WB_STATUS, .WB_EVENT] L0 = true) (hC : subList [.pins] C0 = true) (hS : Within L0 C0 s0 s) :
    Within L0 C0 s0 (State.sto s) := by
  unfold State.sto
  repeat' (first
    | with_reducible exact hS
    | with_reducible assumption
    | exact subList_trans (by decide +kernel) hL
    | exact subList_trans (by decide +kernel) hC
    | exact subList_elem (by decide +kernel) hL
    | exact subList_elem (by decide +kernel) hC
    | with_reducible apply Within.wr
    | with_reducible apply State.safeStopOut_within
    | with_reducible apply State.setWbState_within
    | exact Within.memFilter
    | (intro x1; refine Within.cut (l := L0) (c := C0) (s := s0) (t := x1) ?_ ?_; subst x1; rotate_left; intro _; rotate_right)
    | (intro _)
    | lift_lets
    | (with_reducible refine Within.ofPair (by assumption) ?_)
    | (with_reducible refine Within.ofTriple (by assumption) ?_)
    | (with_reducible refine Within.ofFour (by assumption) ?_)
    | (with_reducible refine Within.ofFst (by assumption) ?_)
    | (with_reducible refine Within.ofSome (by assumption) ?_)
    | split
    | dsimp only)

theorem State.wbSto_within {L0 : List RegName} {C0 : List Comp} {s0 : State} {s : State} {c : WbCause} (hL : subList [.WL_STO_LO, .WL_STO_HI, .WB_STATUS, .WB_CAUSE, .WB_EVENT] L0 = true) (hC : subList [.pins, .wb] C0 = true) (hS : Within L0 C0 s0 s) :
    Within L0 C0 s0 (State.wbSto s c) := by
  unfold State.wbSto
  repeat' (first
    | with_reducible exact hS
    | with_reducible assumption
    | exact subList_trans (by decide +kernel) hL
    | exact subList_trans (by decide +kernel) hC
    | exact subList_elem (by decide +kernel) hL
    | exact subList_elem (by decide +kernel) hC
    | with_reducible apply State.wbCauseSet_within
    | with_reducible apply State.sto_within
    | exact Within.memFilter
    | (intro x1; refine Within.cut (l := L0) (c := C0) (s := s0) (t := x1) ?_ ?_; subst x1; rotate_left; intro _; rotate_right)
    | (intro _)
    | lift_lets
    | (with_reducible refine Within.ofPair (by assumption) ?_)
    | (with_reducible refine Within.ofTriple (by assumption) ?_)
    | (with_reducible refine Within.ofFour (by assumption) ?_)
    | (with_reducible refine Within.ofFst (by assumption) ?_)
    | (with_reducible refine Within.ofSome (by assumption) ?_)
    | split
    | dsimp only)

theorem State.safeStop_within {L0 : List RegName} {C0 : List Comp} {s0 : State} {s : State} {c : WbCause} (hL : subList [.WB_STATUS, .WB_CAUSE, .WB_EVENT] L0 = true) (hC : subList [.wb] C0 = true) (hS : Within L0 C0 s0 s) :
    Within L0 C0 s0 (State.safeStop s c) := by
  unfold State.safeStop
  repeat' (first
    | with_reducible exact hS
    | with_reducible assumption
    | exact subList_trans (by decide +kernel) hL
    | exact subList_trans (by decide +kernel) hC
    | exact subList_elem (by decide +kernel) hL
    | exact subList_elem (by decide +kernel) hC
    | with_reducible apply State.wbCauseSet_within
    | with_reducible apply State.setWbState_within
    | exact Within.memFilter
    | (intro x1; refine Within.cut (l := L0) (c := C0) (s := s0) (t := x1) ?_ ?_; subst x1; rotate_left; intro _; rotate_right)
    | (intro _)
    | lift_lets
    | (with_reducible refine Within.ofPair (by assumption) ?_)
    | (with_reducible refine Within.ofTriple (by assumption) ?_)
    | (with_reducible refine Within.ofFour (by assumption) ?_)
    | (with_reducible refine Within.ofFst (by assumption) ?_)
    | (with_reducible refine Within.ofSome (by assumption) ?_)
    | split
    | dsimp only
    | with_reducible apply Within.wb)

theorem State.wbNode_within {L0 : List RegName} {C0 : List Comp} {s0 : State} {s : State} {k : Nat} (hL : subList [.WL_STO_LO, .WL_STO_HI, .WB_STATUS, .WB_CAUSE, .WB_EVENT] L0 = true) (hC : subList [.wb] C0 = true) (hS : Within L0 C0 s0 s) :
    Within L0 C0 s0 (State.wbNode s k) := by
  unfold State.wbNode
  repeat' (first
    | with_reducible exact hS
    | with_reducible assumption
    | exact subList_trans (by decide +kernel) hL
    | exact subList_trans (by decide +kernel) hC
    | exact subList_elem (by decide +kernel) hL
    | exact subList_elem (by decide +kernel) hC
    | with_reducible apply Within.setB
    | with_reducible apply State.safeStop_within
    | exact Within.memFilter
    | (intro x1; refine Within.cut (l := L0) (c := C0) (s := s0) (t := x1) ?_ ?_; subst x1; rotate_left; intro _; rotate_right)
    | (intro _)
    | lift_lets
    | (with_reducible refine Within.ofPair (by assumption) ?_)
    | (with_reducible refine Within.ofTriple (by assumption) ?_)
    | (with_reducible refine Within.ofFour (by assumption) ?_)
    | (with_reducible refine Within.ofFst (by assumption) ?_)
    | (with_reducible refine Within.ofSome (by assumption) ?_)
    | split
    | dsimp only)

theorem execEstopSample_within {L0 : List RegName} {C0 : List Comp} {s0 : State} {low : Bool} {s : State} (hL : subList [.WL_STO_LO, .WL_STO_HI, .WB_STATUS, .WB_CAUSE, .WB_EVENT] L0 = true) (hC : subList [.pins, .wb] C0 = true) (hS : Within L0 C0 s0 s) :
    WithinOut L0 C0 s0 (execEstopSample low s) := by
  unfold execEstopSample
  repeat' (first
    | with_reducible exact hS
    | with_reducible assumption
    | exact subList_trans (by decide +kernel) hL
    | exact subList_trans (by decide +kernel) hC
    | exact subList_elem (by decide +kernel) hL
    | exact subList_elem (by decide +kernel) hC
    | with_reducible apply Within.wrB
    | with_reducible apply State.wbSto_within
    | with_reducible apply State.safeStop_within
    | with_reducible apply WithinOut.next
    | exact Within.memFilter
    | (intro x1; refine Within.cut (l := L0) (c := C0) (s := s0) (t := x1) ?_ ?_; subst x1; rotate_left; intro _; rotate_right)
    | (intro _)
    | lift_lets
    | (with_reducible refine Within.ofPair (by assumption) ?_)
    | (with_reducible refine Within.ofTriple (by assumption) ?_)
    | (with_reducible refine Within.ofFour (by assumption) ?_)
    | (with_reducible refine Within.ofFst (by assumption) ?_)
    | (with_reducible refine Within.ofSome (by assumption) ?_)
    | split
    | dsimp only
    | with_reducible apply Within.pins_wb)

theorem execStopTimeExpiry_within {L0 : List RegName} {C0 : List Comp} {s0 : State} {s : State} (hL : subList [.WL_STO_LO, .WL_STO_HI, .WB_STATUS, .WB_EVENT] L0 = true) (hC : subList [.pins] C0 = true) (hS : Within L0 C0 s0 s) :
    WithinOut L0 C0 s0 (execStopTimeExpiry s) := by
  unfold execStopTimeExpiry
  repeat' (first
    | with_reducible exact hS
    | with_reducible assumption
    | exact subList_trans (by decide +kernel) hL
    | exact subList_trans (by decide +kernel) hC
    | exact subList_elem (by decide +kernel) hL
    | exact subList_elem (by decide +kernel) hC
    | with_reducible apply State.sto_within
    | with_reducible apply WithinOut.next
    | exact Within.memFilter
    | (intro x1; refine Within.cut (l := L0) (c := C0) (s := s0) (t := x1) ?_ ?_; subst x1; rotate_left; intro _; rotate_right)
    | (intro _)
    | lift_lets
    | (with_reducible refine Within.ofPair (by assumption) ?_)
    | (with_reducible refine Within.ofTriple (by assumption) ?_)
    | (with_reducible refine Within.ofFour (by assumption) ?_)
    | (with_reducible refine Within.ofFst (by assumption) ?_)
    | (with_reducible refine Within.ofSome (by assumption) ?_)
    | split
    | dsimp only)

theorem execWbStop_within {L0 : List RegName} {C0 : List Comp} {s0 : State} {a : Agent} {s : State} (hL : subList [.MEM_DEEP_WEAR, .FLT_STATUS, .FLT_REC_NEWEST, .FLT_REC_LOST, .FLT_LOG_STATUS, .FLT_P_EVENT, .WB_STATUS, .WB_CAUSE, .WB_EVENT] L0 = true) (hC : subList [.resp, .flt, .wb, .deep] C0 = true) (hS : Within L0 C0 s0 s) :
    WithinOut L0 C0 s0 (execWbStop a s) := by
  unfold execWbStop
  repeat' (first
    | with_reducible exact hS
    | with_reducible assumption
    | exact subList_trans (by decide +kernel) hL
    | exact subList_trans (by decide +kernel) hC
    | exact subList_elem (by decide +kernel) hL
    | exact subList_elem (by decide +kernel) hC
    | with_reducible apply State.respErr_within
    | with_reducible apply State.denied_within
    | with_reducible apply State.respOk_within
    | with_reducible apply State.safeStop_within
    | with_reducible apply WithinOut.next
    | exact Within.memFilter
    | (intro x1; refine Within.cut (l := L0) (c := C0) (s := s0) (t := x1) ?_ ?_; subst x1; rotate_left; intro _; rotate_right)
    | (intro _)
    | lift_lets
    | (with_reducible refine Within.ofPair (by assumption) ?_)
    | (with_reducible refine Within.ofTriple (by assumption) ?_)
    | (with_reducible refine Within.ofFour (by assumption) ?_)
    | (with_reducible refine Within.ofFst (by assumption) ?_)
    | (with_reducible refine Within.ofSome (by assumption) ?_)
    | split
    | dsimp only)

theorem execWbRelease_within {L0 : List RegName} {C0 : List Comp} {s0 : State} {a : Agent} {s : State} (hL : subList [.MEM_DEEP_WEAR, .WL_STO_LO, .WL_STO_HI, .FLT_STATUS, .FLT_REC_NEWEST, .FLT_REC_LOST, .FLT_LOG_STATUS, .FLT_P_EVENT, .WB_STATUS, .WB_CAUSE, .WB_LIMIT, .WB_EVENT] L0 = true) (hC : subList [.resp, .pins, .flt, .wb, .deep] C0 = true) (hS : Within L0 C0 s0 s) :
    WithinOut L0 C0 s0 (execWbRelease a s) := by
  unfold execWbRelease
  repeat' (first
    | with_reducible exact hS
    | with_reducible assumption
    | exact subList_trans (by decide +kernel) hL
    | exact subList_trans (by decide +kernel) hC
    | exact subList_elem (by decide +kernel) hL
    | exact subList_elem (by decide +kernel) hC
    | with_reducible apply Within.wr
    | with_reducible apply Within.wrF
    | with_reducible apply Within.setB
    | with_reducible apply State.respErr_within
    | with_reducible apply State.denied_within
    | with_reducible apply State.respOk_within
    | with_reducible apply State.safeStopOut_within
    | with_reducible apply State.setWbState_within
    | with_reducible apply WithinOut.next
    | exact Within.memFilter
    | (with_reducible refine Within.foldl (fun _ _ _ => ?_) _ ?_)
    | (with_reducible refine Within.foldlPair (fun _ _ _ => ?_) _ ?_)
    | (with_reducible refine Within.foldlFst (fun _ _ _ => ?_) _ ?_)
    | (intro x1; refine Within.cut (l := L0) (c := C0) (s := s0) (t := x1) ?_ ?_; subst x1; rotate_left; intro _; rotate_right)
    | (intro _)
    | lift_lets
    | (with_reducible refine Within.ofPair (by assumption) ?_)
    | (with_reducible refine Within.ofTriple (by assumption) ?_)
    | (with_reducible refine Within.ofFour (by assumption) ?_)
    | (with_reducible refine Within.ofFst (by assumption) ?_)
    | (with_reducible refine Within.ofSome (by assumption) ?_)
    | split
    | dsimp only
    | with_reducible apply Within.wb)

theorem execLockstepMismatch_within {L0 : List RegName} {C0 : List Comp} {s0 : State} {active standby : Bool} {s : State} (hL : subList [.MEM_DEEP_WEAR, .WL_STO_LO, .WL_STO_HI, .FLT_STATUS, .FLT_REC_NEWEST, .FLT_REC_LOST, .FLT_LOG_STATUS, .FLT_P_EVENT, .WB_STATUS, .WB_CAUSE, .WB_EVENT, .WB_PAIR] L0 = true) (hC : subList [.pins, .flt, .wb, .deep] C0 = true) (hS : Within L0 C0 s0 s) :
    WithinOut L0 C0 s0 (execLockstepMismatch active standby s) := by
  unfold execLockstepMismatch
  repeat' (first
    | with_reducible exact hS
    | with_reducible assumption
    | exact subList_trans (by decide +kernel) hL
    | exact subList_trans (by decide +kernel) hC
    | exact subList_elem (by decide +kernel) hL
    | exact subList_elem (by decide +kernel) hC
    | with_reducible apply Within.wrF
    | with_reducible apply Within.setB
    | with_reducible apply Within.clrB
    | with_reducible apply Within.bumpSatF
    | with_reducible apply State.wbSto_within
    | with_reducible apply State.record_within
    | with_reducible apply WithinOut.next
    | exact Within.memFilter
    | (intro x1; refine Within.cut (l := L0) (c := C0) (s := s0) (t := x1) ?_ ?_; subst x1; rotate_left; intro _; rotate_right)
    | (intro _)
    | lift_lets
    | (with_reducible refine Within.ofPair (by assumption) ?_)
    | (with_reducible refine Within.ofTriple (by assumption) ?_)
    | (with_reducible refine Within.ofFour (by assumption) ?_)
    | (with_reducible refine Within.ofFst (by assumption) ?_)
    | (with_reducible refine Within.ofSome (by assumption) ?_)
    | split
    | dsimp only
    | with_reducible apply Within.wb)

theorem execWboWriteReject_within {L0 : List RegName} {C0 : List Comp} {s0 : State} {a : Agent} {r : Reg} {s : State} (hL : subList [.MEM_DEEP_WEAR, .FLT_STATUS, .FLT_REC_NEWEST, .FLT_REC_LOST, .FLT_LOG_STATUS, .FLT_P_EVENT, .WB_EVENT, .WB_REJECTS] L0 = true) (hC : subList [.resp, .flt, .deep] C0 = true) (hS : Within L0 C0 s0 s) :
    WithinOut L0 C0 s0 (execWboWriteReject a r s) := by
  unfold execWboWriteReject
  repeat' (first
    | with_reducible exact hS
    | with_reducible assumption
    | exact subList_trans (by decide +kernel) hL
    | exact subList_trans (by decide +kernel) hC
    | exact subList_elem (by decide +kernel) hL
    | exact subList_elem (by decide +kernel) hC
    | with_reducible apply Within.setB
    | with_reducible apply Within.bump
    | with_reducible apply State.respOk_within
    | with_reducible apply State.recordRated_within
    | with_reducible apply WithinOut.next
    | exact Within.memFilter
    | (intro x1; refine Within.cut (l := L0) (c := C0) (s := s0) (t := x1) ?_ ?_; subst x1; rotate_left; intro _; rotate_right)
    | (intro _)
    | lift_lets
    | (with_reducible refine Within.ofPair (by assumption) ?_)
    | (with_reducible refine Within.ofTriple (by assumption) ?_)
    | (with_reducible refine Within.ofFour (by assumption) ?_)
    | (with_reducible refine Within.ofFst (by assumption) ?_)
    | (with_reducible refine Within.ofSome (by assumption) ?_)
    | split
    | dsimp only)

theorem State.ageCauses_within {L0 : List RegName} {C0 : List Comp} {s0 : State} {s : State} {present : List Nat} (hL : subList ([] : List RegName) L0 = true) (hC : subList [.wb] C0 = true) (hS : Within L0 C0 s0 s) :
    Within L0 C0 s0 (State.ageCauses s present) := by
  unfold State.ageCauses
  repeat' (first
    | with_reducible exact hS
    | with_reducible assumption
    | exact subList_trans (by decide +kernel) hL
    | exact subList_trans (by decide +kernel) hC
    | exact subList_elem (by decide +kernel) hL
    | exact subList_elem (by decide +kernel) hC
    | exact Within.memFilter
    | (intro x1; refine Within.cut (l := L0) (c := C0) (s := s0) (t := x1) ?_ ?_; subst x1; rotate_left; intro _; rotate_right)
    | (intro _)
    | lift_lets
    | (with_reducible refine Within.ofPair (by assumption) ?_)
    | (with_reducible refine Within.ofTriple (by assumption) ?_)
    | (with_reducible refine Within.ofFour (by assumption) ?_)
    | (with_reducible refine Within.ofFst (by assumption) ?_)
    | (with_reducible refine Within.ofSome (by assumption) ?_)
    | split
    | dsimp only
    | with_reducible apply Within.wb)

theorem State.wbFusion_within {L0 : List RegName} {C0 : List Comp} {s0 : State} {s : State} (hL : subList [.WB_STATUS, .WB_CAUSE, .WB_EVENT] L0 = true) (hC : subList [.wb] C0 = true) (hS : Within L0 C0 s0 s) :
    Within L0 C0 s0 (State.wbFusion s) := by
  unfold State.wbFusion
  repeat' (first
    | with_reducible exact hS
    | with_reducible assumption
    | exact subList_trans (by decide +kernel) hL
    | exact subList_trans (by decide +kernel) hC
    | exact subList_elem (by decide +kernel) hL
    | exact subList_elem (by decide +kernel) hC
    | with_reducible apply State.safeStop_within
    | with_reducible apply State.wbCauseSet_within
    | with_reducible apply State.setWbState_within
    | exact Within.memFilter
    | (intro x1; refine Within.cut (l := L0) (c := C0) (s := s0) (t := x1) ?_ ?_; subst x1; rotate_left; intro _; rotate_right)
    | (intro _)
    | lift_lets
    | (with_reducible refine Within.ofPair (by assumption) ?_)
    | (with_reducible refine Within.ofTriple (by assumption) ?_)
    | (with_reducible refine Within.ofFour (by assumption) ?_)
    | (with_reducible refine Within.ofFst (by assumption) ?_)
    | (with_reducible refine Within.ofSome (by assumption) ?_)
    | split
    | dsimp only)

theorem State.wbOverspeed_within {L0 : List RegName} {C0 : List Comp} {s0 : State} {s : State} {excess : Bool} (hL : subList [.WB_STATUS, .WB_CAUSE, .WB_EVENT] L0 = true) (hC : subList [.wb] C0 = true) (hS : Within L0 C0 s0 s) :
    Within L0 C0 s0 (State.wbOverspeed s excess) := by
  unfold State.wbOverspeed
  repeat' (first
    | with_reducible exact hS
    | with_reducible assumption
    | exact subList_trans (by decide +kernel) hL
    | exact subList_trans (by decide +kernel) hC
    | exact subList_elem (by decide +kernel) hL
    | exact subList_elem (by decide +kernel) hC
    | with_reducible apply State.safeStop_within
    | exact Within.memFilter
    | (intro x1; refine Within.cut (l := L0) (c := C0) (s := s0) (t := x1) ?_ ?_; subst x1; rotate_left; intro _; rotate_right)
    | (intro _)
    | lift_lets
    | (with_reducible refine Within.ofPair (by assumption) ?_)
    | (with_reducible refine Within.ofTriple (by assumption) ?_)
    | (with_reducible refine Within.ofFour (by assumption) ?_)
    | (with_reducible refine Within.ofFst (by assumption) ?_)
    | (with_reducible refine Within.ofSome (by assumption) ?_)
    | split
    | dsimp only
    | with_reducible apply Within.wb)

theorem State.wbStopping_within {L0 : List RegName} {C0 : List Comp} {s0 : State} {s : State} {v : Nat} (hL : subList [.WL_STO_LO, .WL_STO_HI, .WB_STATUS, .WB_EVENT] L0 = true) (hC : subList [.pins, .wb] C0 = true) (hS : Within L0 C0 s0 s) :
    Within L0 C0 s0 (State.wbStopping s v) := by
  unfold State.wbStopping
  repeat' (first
    | with_reducible exact hS
    | with_reducible assumption
    | exact subList_trans (by decide +kernel) hL
    | exact subList_trans (by decide +kernel) hC
    | exact subList_elem (by decide +kernel) hL
    | exact subList_elem (by decide +kernel) hC
    | with_reducible apply State.sto_within
    | exact Within.memFilter
    | (intro x1; refine Within.cut (l := L0) (c := C0) (s := s0) (t := x1) ?_ ?_; subst x1; rotate_left; intro _; rotate_right)
    | (intro _)
    | lift_lets
    | (with_reducible refine Within.ofPair (by assumption) ?_)
    | (with_reducible refine Within.ofTriple (by assumption) ?_)
    | (with_reducible refine Within.ofFour (by assumption) ?_)
    | (with_reducible refine Within.ofFst (by assumption) ?_)
    | (with_reducible refine Within.ofSome (by assumption) ?_)
    | split
    | dsimp only
    | with_reducible apply Within.wb)

theorem State.wbCycle_within {L0 : List RegName} {C0 : List Comp} {s0 : State} {s : State} {v : Nat} (hL : subList [.WL_STO_LO, .WL_STO_HI, .WB_STATUS, .WB_CAUSE, .WB_LIMIT, .WB_EVENT] L0 = true) (hC : subList [.pins, .wb] C0 = true) (hS : Within L0 C0 s0 s) :
    Within L0 C0 s0 (State.wbCycle s v) := by
  unfold State.wbCycle
  repeat' (first
    | with_reducible exact hS
    | with_reducible assumption
    | exact subList_trans (by decide +kernel) hL
    | exact subList_trans (by decide +kernel) hC
    | exact subList_elem (by decide +kernel) hL
    | exact subList_elem (by decide +kernel) hC
    | with_reducible apply Within.wrF
    | with_reducible apply State.ageCauses_within
    | with_reducible apply State.wbFusion_within
    | with_reducible apply State.wbOverspeed_within
    | with_reducible apply State.wbStopping_within
    | exact Within.memFilter
    | (intro x1; refine Within.cut (l := L0) (c := C0) (s := s0) (t := x1) ?_ ?_; subst x1; rotate_left; intro _; rotate_right)
    | (intro _)
    | lift_lets
    | (with_reducible refine Within.ofPair (by assumption) ?_)
    | (with_reducible refine Within.ofTriple (by assumption) ?_)
    | (with_reducible refine Within.ofFour (by assumption) ?_)
    | (with_reducible refine Within.ofFst (by assumption) ?_)
    | (with_reducible refine Within.ofSome (by assumption) ?_)
    | split
    | dsimp only
    | with_reducible apply Within.wb)

theorem State.wbLoopMiss_within {L0 : List RegName} {C0 : List Comp} {s0 : State} {s : State} {loop : Nat} {missed : Bool} (hL : subList [.WB_STATUS, .WB_CAUSE, .WB_EVENT] L0 = true) (hC : subList [.wb] C0 = true) (hS : Within L0 C0 s0 s) :
    Within L0 C0 s0 (State.wbLoopMiss s loop missed) := by
  unfold State.wbLoopMiss
  repeat' (first
    | with_reducible exact hS
    | with_reducible assumption
    | exact subList_trans (by decide +kernel) hL
    | exact subList_trans (by decide +kernel) hC
    | exact subList_elem (by decide +kernel) hL
    | exact subList_elem (by decide +kernel) hC
    | with_reducible apply State.safeStop_within
    | exact Within.memFilter
    | (intro x1; refine Within.cut (l := L0) (c := C0) (s := s0) (t := x1) ?_ ?_; subst x1; rotate_left; intro _; rotate_right)
    | (intro _)
    | lift_lets
    | (with_reducible refine Within.ofPair (by assumption) ?_)
    | (with_reducible refine Within.ofTriple (by assumption) ?_)
    | (with_reducible refine Within.ofFour (by assumption) ?_)
    | (with_reducible refine Within.ofFst (by assumption) ?_)
    | (with_reducible refine Within.ofSome (by assumption) ?_)
    | split
    | dsimp only
    | with_reducible apply Within.wb)

theorem State.wbNoFrame_within {L0 : List RegName} {C0 : List Comp} {s0 : State} {s : State} (hL : subList [.WL_STO_LO, .WL_STO_HI, .WB_STATUS, .WB_CAUSE, .WB_EVENT] L0 = true) (hC : subList [.pins, .wb] C0 = true) (hS : Within L0 C0 s0 s) :
    Within L0 C0 s0 (State.wbNoFrame s) := by
  unfold State.wbNoFrame
  repeat' (first
    | with_reducible exact hS
    | with_reducible assumption
    | exact subList_trans (by decide +kernel) hL
    | exact subList_trans (by decide +kernel) hC
    | exact subList_elem (by decide +kernel) hL
    | exact subList_elem (by decide +kernel) hC
    | with_reducible apply State.wbSto_within
    | exact Within.memFilter
    | (intro x1; refine Within.cut (l := L0) (c := C0) (s := s0) (t := x1) ?_ ?_; subst x1; rotate_left; intro _; rotate_right)
    | (intro _)
    | lift_lets
    | (with_reducible refine Within.ofPair (by assumption) ?_)
    | (with_reducible refine Within.ofTriple (by assumption) ?_)
    | (with_reducible refine Within.ofFour (by assumption) ?_)
    | (with_reducible refine Within.ofFst (by assumption) ?_)
    | (with_reducible refine Within.ofSome (by assumption) ?_)
    | split
    | dsimp only
    | with_reducible apply Within.wb)

theorem State.wbHeartbeat_within {L0 : List RegName} {C0 : List Comp} {s0 : State} {s : State} {due commit frame : Bool} (hL : subList [.WL_STO_LO, .WL_STO_HI, .WB_STATUS, .WB_CAUSE, .WB_EVENT] L0 = true) (hC : subList [.pins, .wb] C0 = true) (hS : Within L0 C0 s0 s) :
    Within L0 C0 s0 (State.wbHeartbeat s due commit frame) := by
  unfold State.wbHeartbeat
  repeat' (first
    | with_reducible exact hS
    | with_reducible assumption
    | exact subList_trans (by decide +kernel) hL
    | exact subList_trans (by decide +kernel) hC
    | exact subList_elem (by decide +kernel) hL
    | exact subList_elem (by decide +kernel) hC
    | with_reducible apply State.wbSto_within
    | exact Within.memFilter
    | (intro x1; refine Within.cut (l := L0) (c := C0) (s := s0) (t := x1) ?_ ?_; subst x1; rotate_left; intro _; rotate_right)
    | (intro _)
    | lift_lets
    | (with_reducible refine Within.ofPair (by assumption) ?_)
    | (with_reducible refine Within.ofTriple (by assumption) ?_)
    | (with_reducible refine Within.ofFour (by assumption) ?_)
    | (with_reducible refine Within.ofFst (by assumption) ?_)
    | (with_reducible refine Within.ofSome (by assumption) ?_)
    | split
    | dsimp only
    | with_reducible apply Within.wb)

end Sys2Proof.Machine
end

