-- ==== Sys2Proof/Laws/WithinWindline.lean ====
section
/-!
SUPPORT. What each operation of Machine/Windline.lean leaves alone.
-/

set_option Elab.async false

namespace Sys2Proof.Machine

theorem State.wlViolation_within {L0 : List RegName} {C0 : List Comp} {s0 : State} {s : State} {pos : Option Nat} {code : Nat} (hL : subList [.MEM_DEEP_WEAR, .WL_EVENT, .WL_N_STATUS, .WL_N_ERRORS, .FLT_STATUS, .FLT_REC_NEWEST, .FLT_REC_LOST, .FLT_LOG_STATUS, .FLT_P_EVENT] L0 = true) (hC : subList [.flt, .deep] C0 = true) (hS : Within L0 C0 s0 s) :
    Within L0 C0 s0 (State.wlViolation s pos code) := by
  unfold State.wlViolation
  repeat' (first
    | with_reducible exact hS
    | with_reducible assumption
    | exact subList_trans (by decide +kernel) hL
    | exact subList_trans (by decide +kernel) hC
    | exact subList_elem (by decide +kernel) hL
    | exact subList_elem (by decide +kernel) hC
    | with_reducible apply Within.wrF
    | with_reducible apply Within.setB
    | with_reducible apply Within.bump
    | with_reducible apply State.recordRated_within
    | exact Within.memFilter
    | (intro x1; refine Within.cut (l := L0) (c := C0) (s := s0) (t := x1) ?_ ?_; subst x1; rotate_left; intro _; rotate_right)
    | (intro _)
    | lift_lets
    | (with_reducible refine Within.ofPair (by assumption) ?_)
    | (with_reducible refine Within.ofTriple (by assumption) ?_)
    | (with_reducible refine Within.ofFour (by assumption) ?_)
    | (with_reducible refine Within.ofFst (by assumption) ?_)
    | (with_reducible refine Within.ofSome (by assumption) ?_)
    | split
    | dsimp only)

theorem State.wlAbsent_within {L0 : List RegName} {C0 : List Comp} {s0 : State} {s : State} (hL : subList [.WL_STATUS, .WL_LOST_LO, .WL_LOST_HI, .WL_N_STATUS] L0 = true) (hC : subList [.brz, .wl] C0 = true) (hS : Within L0 C0 s0 s) :
    Within L0 C0 s0 (State.wlAbsent s) := by
  unfold State.wlAbsent
  repeat' (first
    | with_reducible exact hS
    | with_reducible assumption
    | exact subList_trans (by decide +kernel) hL
    | exact subList_trans (by decide +kernel) hC
    | exact subList_elem (by decide +kernel) hL
    | exact subList_elem (by decide +kernel) hC
    | with_reducible apply Within.wr
    | with_reducible apply Within.wrF
    | exact Within.memFilter
    | (with_reducible refine Within.foldl (fun _ _ _ => ?_) _ ?_)
    | (with_reducible refine Within.foldlPair (fun _ _ _ => ?_) _ ?_)
    | (with_reducible refine Within.foldlFst (fun _ _ _ => ?_) _ ?_)
    | (intro x1; refine Within.cut (l := L0) (c := C0) (s := s0) (t := x1) ?_ ?_; subst x1; rotate_left; intro _; rotate_right)
    | (intro _)
    | lift_lets
    | (with_reducible refine Within.ofPair (by assumption) ?_)
    | (with_reducible refine Within.ofTriple (by assumption) ?_)
    | (with_reducible refine Within.ofFour (by assumption) ?_)
    | (with_reducible refine Within.ofFst (by assumption) ?_)
    | (with_reducible refine Within.ofSome (by assumption) ?_)
    | split
    | dsimp only
    | with_reducible apply Within.brz_wl)

theorem execWindlineEnable_within {L0 : List RegName} {C0 : List Comp} {s0 : State} {a : Agent} {w : Word} {s : State} (hL : subList [.MEM_DEEP_WEAR, .WL_CTRL, .WL_STATUS, .WL_LOST_LO, .WL_LOST_HI, .WL_N_STATUS, .FLT_STATUS, .FLT_REC_NEWEST, .FLT_REC_LOST, .FLT_LOG_STATUS, .FLT_P_EVENT] L0 = true) (hC : subList [.resp, .flt, .deep, .brz, .wl] C0 = true) (hS : Within L0 C0 s0 s) :
    WithinOut L0 C0 s0 (execWindlineEnable a w s) := by
  unfold execWindlineEnable
  repeat' (first
    | with_reducible exact hS
    | with_reducible assumption
    | exact subList_trans (by decide +kernel) hL
    | exact subList_trans (by decide +kernel) hC
    | exact subList_elem (by decide +kernel) hL
    | exact subList_elem (by decide +kernel) hC
    | with_reducible apply Within.wrF
    | with_reducible apply Within.wrB
    | with_reducible apply State.respErr_within
    | with_reducible apply State.denied_within
    | with_reducible apply State.respOk_within
    | with_reducible apply State.wlAbsent_within
    | with_reducible apply WithinOut.next
    | exact Within.memFilter
    | (intro x1; refine Within.cut (l := L0) (c := C0) (s := s0) (t := x1) ?_ ?_; subst x1; rotate_left; intro _; rotate_right)
    | (intro _)
    | lift_lets
    | (with_reducible refine Within.ofPair (by assumption) ?_)
    | (with_reducible refine Within.ofTriple (by assumption) ?_)
    | (with_reducible refine Within.ofFour (by assumption) ?_)
    | (with_reducible refine Within.ofFst (by assumption) ?_)
    | (with_reducible refine Within.ofSome (by assumption) ?_)
    | split
    | dsimp only)

theorem State.takeCopy_within {L0 : List RegName} {C0 : List Comp} {s0 : State} {s : State} {k path : Nat} {b : List Byte} (hL : subList [.WL_N_STATUS, .WL_N_TSAMPLE] L0 = true) (hC : subList [.wl] C0 = true) (hS : Within L0 C0 s0 s) :
    Within L0 C0 s0 (State.takeCopy s k path b) := by
  unfold State.takeCopy
  repeat' (first
    | with_reducible exact hS
    | with_reducible assumption
    | exact subList_trans (by decide +kernel) hL
    | exact subList_trans (by decide +kernel) hC
    | exact subList_elem (by decide +kernel) hL
    | exact subList_elem (by decide +kernel) hC
    | with_reducible apply Within.wr
    | with_reducible apply Within.wrF
    | exact Within.memFilter
    | (intro x1; refine Within.cut (l := L0) (c := C0) (s := s0) (t := x1) ?_ ?_; subst x1; rotate_left; intro _; rotate_right)
    | (intro _)
    | lift_lets
    | (with_reducible refine Within.ofPair (by assumption) ?_)
    | (with_reducible refine Within.ofTriple (by assumption) ?_)
    | (with_reducible refine Within.ofFour (by assumption) ?_)
    | (with_reducible refine Within.ofFst (by assumption) ?_)
    | (with_reducible refine Within.ofSome (by assumption) ?_)
    | split
    | dsimp only
    | with_reducible apply Within.wl)

theorem State.takeSlots_within {L0 : List RegName} {C0 : List Comp} {s0 : State} {s : State} {c path : Nat} {turned : Bool} {frame : List Byte} (hL : subList [.MEM_DEEP_WEAR, .WL_EVENT, .WL_N_STATUS, .WL_N_ERRORS, .WL_N_TSAMPLE, .FLT_STATUS, .FLT_REC_NEWEST, .FLT_REC_LOST, .FLT_LOG_STATUS, .FLT_P_EVENT] L0 = true) (hC : subList [.flt, .deep, .wl] C0 = true) (hS : Within L0 C0 s0 s) :
    Within L0 C0 s0 (State.takeSlots s c path turned frame) := by
  unfold State.takeSlots
  repeat' (first
    | with_reducible exact hS
    | with_reducible assumption
    | exact subList_trans (by decide +kernel) hL
    | exact subList_trans (by decide +kernel) hC
    | exact subList_elem (by decide +kernel) hL
    | exact subList_elem (by decide +kernel) hC
    | with_reducible apply State.takeCopy_within
    | with_reducible apply State.wlViolation_within
    | exact Within.memFilter
    | (with_reducible refine Within.foldl (fun _ _ _ => ?_) _ ?_)
    | (with_reducible refine Within.foldlPair (fun _ _ _ => ?_) _ ?_)
    | (with_reducible refine Within.foldlFst (fun _ _ _ => ?_) _ ?_)
    | (intro x1; refine Within.cut (l := L0) (c := C0) (s := s0) (t := x1) ?_ ?_; subst x1; rotate_left; intro _; rotate_right)
    | (intro _)
    | lift_lets
    | (with_reducible refine Within.ofPair (by assumption) ?_)
    | (with_reducible refine Within.ofTriple (by assumption) ?_)
    | (with_reducible refine Within.ofFour (by assumption) ?_)
    | (with_reducible refine Within.ofFst (by assumption) ?_)
    | (with_reducible refine Within.ofSome (by assumption) ?_)
    | split
    | dsimp only)

theorem State.showBreak_within {L0 : List RegName} {C0 : List Comp} {s0 : State} {s : State} {path : Nat} (hL : subList [.MEM_DEEP_WEAR, .WL_STATUS, .WL_EVENT, .WL_N_STATUS, .WL_N_ERRORS, .FLT_STATUS, .FLT_REC_NEWEST, .FLT_REC_LOST, .FLT_LOG_STATUS, .FLT_P_EVENT] L0 = true) (hC : subList [.flt, .deep] C0 = true) (hS : Within L0 C0 s0 s) :
    Within L0 C0 s0 (State.showBreak s path) := by
  unfold State.showBreak
  repeat' (first
    | with_reducible exact hS
    | with_reducible assumption
    | exact subList_trans (by decide +kernel) hL
    | exact subList_trans (by decide +kernel) hC
    | exact subList_elem (by decide +kernel) hL
    | exact subList_elem (by decide +kernel) hC
    | with_reducible apply Within.wrF
    | with_reducible apply Within.setB
    | with_reducible apply State.wlViolation_within
    | exact Within.memFilter
    | (with_reducible refine Within.foldl (fun _ _ _ => ?_) _ ?_)
    | (with_reducible refine Within.foldlPair (fun _ _ _ => ?_) _ ?_)
    | (with_reducible refine Within.foldlFst (fun _ _ _ => ?_) _ ?_)
    | (intro x1; refine Within.cut (l := L0) (c := C0) (s := s0) (t := x1) ?_ ?_; subst x1; rotate_left; intro _; rotate_right)
    | (intro _)
    | lift_lets
    | (with_reducible refine Within.ofPair (by assumption) ?_)
    | (with_reducible refine Within.ofTriple (by assumption) ?_)
    | (with_reducible refine Within.ofFour (by assumption) ?_)
    | (with_reducible refine Within.ofFst (by assumption) ?_)
    | (with_reducible refine Within.ofSome (by assumption) ?_)
    | split
    | dsimp only)

theorem State.pathReturn_within {L0 : List RegName} {C0 : List Comp} {s0 : State} {s : State} {path : Nat} (hL : subList [.WL_RTT] L0 = true) (hC : subList [.wl] C0 = true) (hS : Within L0 C0 s0 s) :
    Within L0 C0 s0 (State.pathReturn s path) := by
  unfold State.pathReturn
  repeat' (first
    | with_reducible exact hS
    | with_reducible assumption
    | exact subList_trans (by decide +kernel) hL
    | exact subList_trans (by decide +kernel) hC
    | exact subList_elem (by decide +kernel) hL
    | exact subList_elem (by decide +kernel) hC
    | with_reducible apply Within.wrF
    | exact Within.memFilter
    | (intro x1; refine Within.cut (l := L0) (c := C0) (s := s0) (t := x1) ?_ ?_; subst x1; rotate_left; intro _; rotate_right)
    | (intro _)
    | lift_lets
    | (with_reducible refine Within.ofPair (by assumption) ?_)
    | (with_reducible refine Within.ofTriple (by assumption) ?_)
    | (with_reducible refine Within.ofFour (by assumption) ?_)
    | (with_reducible refine Within.ofFst (by assumption) ?_)
    | (with_reducible refine Within.ofSome (by assumption) ?_)
    | split
    | dsimp only
    | with_reducible apply Within.wl)

theorem execWindlineFrameReturn_within {L0 : List RegName} {C0 : List Comp} {s0 : State} {frame : List Byte} {fcsOk : Bool} {s : State} (hL : subList [.MEM_DEEP_WEAR, .WL_STATUS, .WL_RTT, .WL_EVENT, .WL_N_STATUS, .WL_N_ERRORS, .WL_N_TSAMPLE, .FLT_STATUS, .FLT_REC_NEWEST, .FLT_REC_LOST, .FLT_LOG_STATUS, .FLT_P_EVENT] L0 = true) (hC : subList [.flt, .deep, .wl] C0 = true) (hS : Within L0 C0 s0 s) :
    WithinOut L0 C0 s0 (execWindlineFrameReturn frame fcsOk s) := by
  unfold execWindlineFrameReturn
  repeat' (first
    | with_reducible exact hS
    | with_reducible assumption
    | exact subList_trans (by decide +kernel) hL
    | exact subList_trans (by decide +kernel) hC
    | exact subList_elem (by decide +kernel) hL
    | exact subList_elem (by decide +kernel) hC
    | with_reducible apply Within.setB
    | with_reducible apply State.wlViolation_within
    | with_reducible apply State.pathReturn_within
    | with_reducible apply State.takeSlots_within
    | with_reducible apply State.showBreak_within
    | with_reducible apply WithinOut.next
    | exact Within.memFilter
    | (intro x1; refine Within.cut (l := L0) (c := C0) (s := s0) (t := x1) ?_ ?_; subst x1; rotate_left; intro _; rotate_right)
    | (intro _)
    | lift_lets
    | (with_reducible refine Within.ofPair (by assumption) ?_)
    | (with_reducible refine Within.ofTriple (by assumption) ?_)
    | (with_reducible refine Within.ofFour (by assumption) ?_)
    | (with_reducible refine Within.ofFst (by assumption) ?_)
    | (with_reducible refine Within.ofSome (by assumption) ?_)
    | split
    | dsimp only
    | with_reducible apply Within.wl)

theorem State.pathDown_within {L0 : List RegName} {C0 : List Comp} {s0 : State} {s : State} {p : Nat} (hL : subList [.MEM_DEEP_WEAR, .WL_EVENT, .WL_N_STATUS, .WL_N_ERRORS, .FLT_STATUS, .FLT_REC_NEWEST, .FLT_REC_LOST, .FLT_LOG_STATUS, .FLT_P_EVENT] L0 = true) (hC : subList [.flt, .deep, .wl] C0 = true) (hS : Within L0 C0 s0 s) :
    Within L0 C0 s0 (State.pathDown s p) := by
  unfold State.pathDown
  repeat' (first
    | with_reducible exact hS
    | with_reducible assumption
    | exact subList_trans (by decide +kernel) hL
    | exact subList_trans (by decide +kernel) hC
    | exact subList_elem (by decide +kernel) hL
    | exact subList_elem (by decide +kernel) hC
    | with_reducible apply Within.setB
    | with_reducible apply State.wlViolation_within
    | exact Within.memFilter
    | (intro x1; refine Within.cut (l := L0) (c := C0) (s := s0) (t := x1) ?_ ?_; subst x1; rotate_left; intro _; rotate_right)
    | (intro _)
    | lift_lets
    | (with_reducible refine Within.ofPair (by assumption) ?_)
    | (with_reducible refine Within.ofTriple (by assumption) ?_)
    | (with_reducible refine Within.ofFour (by assumption) ?_)
    | (with_reducible refine Within.ofFst (by assumption) ?_)
    | (with_reducible refine Within.ofSome (by assumption) ?_)
    | split
    | dsimp only
    | with_reducible apply Within.wl)

theorem execWindlinePortDown_within {L0 : List RegName} {C0 : List Comp} {s0 : State} {p : Nat} {s : State} (hL : subList [.MEM_DEEP_WEAR, .WL_EVENT, .WL_N_STATUS, .WL_N_ERRORS, .FLT_STATUS, .FLT_REC_NEWEST, .FLT_REC_LOST, .FLT_LOG_STATUS, .FLT_P_EVENT] L0 = true) (hC : subList [.flt, .deep, .wl] C0 = true) (hS : Within L0 C0 s0 s) :
    WithinOut L0 C0 s0 (execWindlinePortDown p s) := by
  unfold execWindlinePortDown
  repeat' (first
    | with_reducible exact hS
    | with_reducible assumption
    | exact subList_trans (by decide +kernel) hL
    | exact subList_trans (by decide +kernel) hC
    | exact subList_elem (by decide +kernel) hL
    | exact subList_elem (by decide +kernel) hC
    | with_reducible apply State.pathDown_within
    | with_reducible apply WithinOut.next
    | exact Within.memFilter
    | (intro x1; refine Within.cut (l := L0) (c := C0) (s := s0) (t := x1) ?_ ?_; subst x1; rotate_left; intro _; rotate_right)
    | (intro _)
    | lift_lets
    | (with_reducible refine Within.ofPair (by assumption) ?_)
    | (with_reducible refine Within.ofTriple (by assumption) ?_)
    | (with_reducible refine Within.ofFour (by assumption) ?_)
    | (with_reducible refine Within.ofFst (by assumption) ?_)
    | (with_reducible refine Within.ofSome (by assumption) ?_)
    | split
    | dsimp only)

theorem State.setNode_within {L0 : List RegName} {C0 : List Comp} {s0 : State} {s : State} {k st missed : Nat} (hL : subList [.WL_N_STATUS] L0 = true) (hC : subList ([] : List Comp) C0 = true) (hS : Within L0 C0 s0 s) :
    Within L0 C0 s0 (State.setNode s k st missed) := by
  unfold State.setNode
  repeat' (first
    | with_reducible exact hS
    | with_reducible assumption
    | exact subList_trans (by decide +kernel) hL
    | exact subList_trans (by decide +kernel) hC
    | exact subList_elem (by decide +kernel) hL
    | exact subList_elem (by decide +kernel) hC
    | with_reducible apply Within.wrF
    | exact Within.memFilter
    | (intro x1; refine Within.cut (l := L0) (c := C0) (s := s0) (t := x1) ?_ ?_; subst x1; rotate_left; intro _; rotate_right)
    | (intro _)
    | lift_lets
    | (with_reducible refine Within.ofPair (by assumption) ?_)
    | (with_reducible refine Within.ofTriple (by assumption) ?_)
    | (with_reducible refine Within.ofFour (by assumption) ?_)
    | (with_reducible refine Within.ofFst (by assumption) ?_)
    | (with_reducible refine Within.ofSome (by assumption) ?_)
    | split
    | dsimp only)

theorem State.setLost_within {L0 : List RegName} {C0 : List Comp} {s0 : State} {s : State} {k : Nat} {b : Bool} (hL : subList [.WL_LOST_LO, .WL_LOST_HI] L0 = true) (hC : subList ([] : List Comp) C0 = true) (hS : Within L0 C0 s0 s) :
    Within L0 C0 s0 (State.setLost s k b) := by
  unfold State.setLost
  repeat' (first
    | with_reducible exact hS
    | with_reducible assumption
    | exact subList_trans (by decide +kernel) hL
    | exact subList_trans (by decide +kernel) hC
    | exact subList_elem (by decide +kernel) hL
    | exact subList_elem (by decide +kernel) hC
    | with_reducible apply Within.wrB
    | exact Within.memFilter
    | (intro x1; refine Within.cut (l := L0) (c := C0) (s := s0) (t := x1) ?_ ?_; subst x1; rotate_left; intro _; rotate_right)
    | (intro _)
    | lift_lets
    | (with_reducible refine Within.ofPair (by assumption) ?_)
    | (with_reducible refine Within.ofTriple (by assumption) ?_)
    | (with_reducible refine Within.ofFour (by assumption) ?_)
    | (with_reducible refine Within.ofFst (by assumption) ?_)
    | (with_reducible refine Within.ofSome (by assumption) ?_)
    | split
    | dsimp only)

theorem State.nodeLost_within {L0 : List RegName} {C0 : List Comp} {s0 : State} {s : State} {k missed : Nat} (hL : subList [.MEM_DEEP_WEAR, .WL_STO_LO, .WL_STO_HI, .WL_EVENT, .WL_LOST_LO, .WL_LOST_HI, .WL_N_STATUS, .WL_N_ERRORS, .FLT_STATUS, .FLT_REC_NEWEST, .FLT_REC_LOST, .FLT_LOG_STATUS, .FLT_P_EVENT, .WB_STATUS, .WB_CAUSE, .WB_EVENT] L0 = true) (hC : subList [.flt, .wb, .deep, .wl] C0 = true) (hS : Within L0 C0 s0 s) :
    Within L0 C0 s0 (State.nodeLost s k missed) := by
  unfold State.nodeLost
  repeat' (first
    | with_reducible exact hS
    | with_reducible assumption
    | exact subList_trans (by decide +kernel) hL
    | exact subList_trans (by decide +kernel) hC
    | exact subList_elem (by decide +kernel) hL
    | exact subList_elem (by decide +kernel) hC
    | with_reducible apply Within.setB
    | with_reducible apply State.setNode_within
    | with_reducible apply State.setLost_within
    | with_reducible apply State.wlViolation_within
    | with_reducible apply State.wbNode_within
    | exact Within.memFilter
    | (intro x1; refine Within.cut (l := L0) (c := C0) (s := s0) (t := x1) ?_ ?_; subst x1; rotate_left; intro _; rotate_right)
    | (intro _)
    | lift_lets
    | (with_reducible refine Within.ofPair (by assumption) ?_)
    | (with_reducible refine Within.ofTriple (by assumption) ?_)
    | (with_reducible refine Within.ofFour (by assumption) ?_)
    | (with_reducible refine Within.ofFst (by assumption) ?_)
    | (with_reducible refine Within.ofSome (by assumption) ?_)
    | split
    | dsimp only
    | with_reducible apply Within.wl)

theorem State.nodeStep_within {L0 : List RegName} {C0 : List Comp} {s0 : State} {s : State} {k : Nat} {valid : Bool} (hL : subList [.MEM_DEEP_WEAR, .WL_STO_LO, .WL_STO_HI, .WL_EVENT, .WL_LOST_LO, .WL_LOST_HI, .WL_N_STATUS, .WL_N_ERRORS, .FLT_STATUS, .FLT_REC_NEWEST, .FLT_REC_LOST, .FLT_LOG_STATUS, .FLT_P_EVENT, .WB_STATUS, .WB_CAUSE, .WB_EVENT] L0 = true) (hC : subList [.flt, .wb, .deep, .wl] C0 = true) (hS : Within L0 C0 s0 s) :
    Within L0 C0 s0 (State.nodeStep s k valid) := by
  unfold State.nodeStep
  repeat' (first
    | with_reducible exact hS
    | with_reducible assumption
    | exact subList_trans (by decide +kernel) hL
    | exact subList_trans (by decide +kernel) hC
    | exact subList_elem (by decide +kernel) hL
    | exact subList_elem (by decide +kernel) hC
    | with_reducible apply State.setNode_within
    | with_reducible apply State.setLost_within
    | with_reducible apply State.nodeLost_within
    | exact Within.memFilter
    | (intro x1; refine Within.cut (l := L0) (c := C0) (s := s0) (t := x1) ?_ ?_; subst x1; rotate_left; intro _; rotate_right)
    | (intro _)
    | lift_lets
    | (with_reducible refine Within.ofPair (by assumption) ?_)
    | (with_reducible refine Within.ofTriple (by assumption) ?_)
    | (with_reducible refine Within.ofFour (by assumption) ?_)
    | (with_reducible refine Within.ofFst (by assumption) ?_)
    | (with_reducible refine Within.ofSome (by assumption) ?_)
    | split
    | dsimp only
    | with_reducible apply Within.wl)

theorem State.judgeUplink_within {L0 : List RegName} {C0 : List Comp} {s0 : State} {s : State} {k : Nat} (hL : subList [.MEM_DEEP_WEAR, .WL_STO_LO, .WL_STO_HI, .WL_EVENT, .WL_N_STATUS, .WL_N_ERRORS, .FLT_STATUS, .FLT_REC_NEWEST, .FLT_REC_LOST, .FLT_LOG_STATUS, .FLT_P_EVENT, .WB_STATUS, .WB_CAUSE, .WB_EVENT] L0 = true) (hC : subList [.pins, .flt, .wb, .deep, .wl] C0 = true) (hS : Within L0 C0 s0 s) :
    Within L0 C0 s0 (State.judgeUplink s k) := by
  unfold State.judgeUplink
  repeat' (first
    | with_reducible exact hS
    | with_reducible assumption
    | exact subList_trans (by decide +kernel) hL
    | exact subList_trans (by decide +kernel) hC
    | exact subList_elem (by decide +kernel) hL
    | exact subList_elem (by decide +kernel) hC
    | with_reducible apply State.wlViolation_within
    | with_reducible apply State.wbNode_within
    | with_reducible apply State.wbSto_within
    | exact Within.memFilter
    | (intro x1; refine Within.cut (l := L0) (c := C0) (s := s0) (t := x1) ?_ ?_; subst x1; rotate_left; intro _; rotate_right)
    | (intro _)
    | lift_lets
    | (with_reducible refine Within.ofPair (by assumption) ?_)
    | (with_reducible refine Within.ofTriple (by assumption) ?_)
    | (with_reducible refine Within.ofFour (by assumption) ?_)
    | (with_reducible refine Within.ofFst (by assumption) ?_)
    | (with_reducible refine Within.ofSome (by assumption) ?_)
    | split
    | dsimp only
    | with_reducible apply Within.wl)

theorem State.nodeDeadline_within {L0 : List RegName} {C0 : List Comp} {s0 : State} {s : State} {k : Nat} (hL : subList [.MEM_DEEP_WEAR, .WL_STO_LO, .WL_STO_HI, .WL_EVENT, .WL_LOST_LO, .WL_LOST_HI, .WL_N_STATUS, .WL_N_ERRORS, .FLT_STATUS, .FLT_REC_NEWEST, .FLT_REC_LOST, .FLT_LOG_STATUS, .FLT_P_EVENT, .WB_STATUS, .WB_CAUSE, .WB_EVENT] L0 = true) (hC : subList [.pins, .flt, .wb, .deep, .wl] C0 = true) (hS : Within L0 C0 s0 s) :
    Within L0 C0 s0 (State.nodeDeadline s k) := by
  unfold State.nodeDeadline
  repeat' (first
    | with_reducible exact hS
    | with_reducible assumption
    | exact subList_trans (by decide +kernel) hL
    | exact subList_trans (by decide +kernel) hC
    | exact subList_elem (by decide +kernel) hL
    | exact subList_elem (by decide +kernel) hC
    | with_reducible apply State.judgeUplink_within
    | with_reducible apply State.nodeStep_within
    | with_reducible apply State.wlViolation_within
    | exact Within.memFilter
    | (intro x1; refine Within.cut (l := L0) (c := C0) (s := s0) (t := x1) ?_ ?_; subst x1; rotate_left; intro _; rotate_right)
    | (intro _)
    | lift_lets
    | (with_reducible refine Within.ofPair (by assumption) ?_)
    | (with_reducible refine Within.ofTriple (by assumption) ?_)
    | (with_reducible refine Within.ofFour (by assumption) ?_)
    | (with_reducible refine Within.ofFst (by assumption) ?_)
    | (with_reducible refine Within.ofSome (by assumption) ?_)
    | split
    | dsimp only)

theorem State.pathDeadline_within {L0 : List RegName} {C0 : List Comp} {s0 : State} {s : State} {p : Nat} (hL : subList [.MEM_DEEP_WEAR, .WL_EVENT, .WL_N_STATUS, .WL_N_ERRORS, .FLT_STATUS, .FLT_REC_NEWEST, .FLT_REC_LOST, .FLT_LOG_STATUS, .FLT_P_EVENT] L0 = true) (hC : subList [.flt, .deep, .wl] C0 = true) (hS : Within L0 C0 s0 s) :
    Within L0 C0 s0 (State.pathDeadline s p) := by
  unfold State.pathDeadline
  repeat' (first
    | with_reducible exact hS
    | with_reducible assumption
    | exact subList_trans (by decide +kernel) hL
    | exact subList_trans (by decide +kernel) hC
    | exact subList_elem (by decide +kernel) hL
    | exact subList_elem (by decide +kernel) hC
    | with_reducible apply Within.setB
    | with_reducible apply State.wlViolation_within
    | with_reducible apply State.pathDown_within
    | exact Within.memFilter
    | (intro x1; refine Within.cut (l := L0) (c := C0) (s := s0) (t := x1) ?_ ?_; subst x1; rotate_left; intro _; rotate_right)
    | (intro _)
    | lift_lets
    | (with_reducible refine Within.ofPair (by assumption) ?_)
    | (with_reducible refine Within.ofTriple (by assumption) ?_)
    | (with_reducible refine Within.ofFour (by assumption) ?_)
    | (with_reducible refine Within.ofFst (by assumption) ?_)
    | (with_reducible refine Within.ofSome (by assumption) ?_)
    | split
    | dsimp only
    | with_reducible apply Within.wl)

theorem State.showRing_within {L0 : List RegName} {C0 : List Comp} {s0 : State} {s : State} (hL : subList [.WL_STATUS] L0 = true) (hC : subList ([] : List Comp) C0 = true) (hS : Within L0 C0 s0 s) :
    Within L0 C0 s0 (State.showRing s) := by
  unfold State.showRing
  repeat' (first
    | with_reducible exact hS
    | with_reducible assumption
    | exact subList_trans (by decide +kernel) hL
    | exact subList_trans (by decide +kernel) hC
    | exact subList_elem (by decide +kernel) hL
    | exact subList_elem (by decide +kernel) hC
    | with_reducible apply Within.wrF
    | exact Within.memFilter
    | (intro x1; refine Within.cut (l := L0) (c := C0) (s := s0) (t := x1) ?_ ?_; subst x1; rotate_left; intro _; rotate_right)
    | (intro _)
    | lift_lets
    | (with_reducible refine Within.ofPair (by assumption) ?_)
    | (with_reducible refine Within.ofTriple (by assumption) ?_)
    | (with_reducible refine Within.ofFour (by assumption) ?_)
    | (with_reducible refine Within.ofFst (by assumption) ?_)
    | (with_reducible refine Within.ofSome (by assumption) ?_)
    | split
    | dsimp only)

theorem execRxDeadline_within {L0 : List RegName} {C0 : List Comp} {s0 : State} {s : State} (hL : subList [.MEM_DEEP_WEAR, .WL_STATUS, .WL_STO_LO, .WL_STO_HI, .WL_EVENT, .WL_LOST_LO, .WL_LOST_HI, .WL_N_STATUS, .WL_N_ERRORS, .FLT_STATUS, .FLT_REC_NEWEST, .FLT_REC_LOST, .FLT_LOG_STATUS, .FLT_P_EVENT, .WB_STATUS, .WB_CAUSE, .WB_LIMIT, .WB_EVENT] L0 = true) (hC : subList [.pins, .flt, .wb, .deep, .wl] C0 = true) (hS : Within L0 C0 s0 s) :
    WithinOut L0 C0 s0 (execRxDeadline s) := by
  unfold execRxDeadline
  repeat' (first
    | with_reducible exact hS
    | with_reducible assumption
    | exact subList_trans (by decide +kernel) hL
    | exact subList_trans (by decide +kernel) hC
    | exact subList_elem (by decide +kernel) hL
    | exact subList_elem (by decide +kernel) hC
    | with_reducible apply State.nodeDeadline_within
    | with_reducible apply State.pathDeadline_within
    | with_reducible apply State.showRing_within
    | with_reducible apply State.wbCycle_within
    | with_reducible apply WithinOut.next
    | exact Within.memFilter
    | (with_reducible refine Within.foldl (fun _ _ _ => ?_) _ ?_)
    | (with_reducible refine Within.foldlPair (fun _ _ _ => ?_) _ ?_)
    | (with_reducible refine Within.foldlFst (fun _ _ _ => ?_) _ ?_)
    | (intro x1; refine Within.cut (l := L0) (c := C0) (s := s0) (t := x1) ?_ ?_; subst x1; rotate_left; intro _; rotate_right)
    | (intro _)
    | lift_lets
    | (with_reducible refine Within.ofPair (by assumption) ?_)
    | (with_reducible refine Within.ofTriple (by assumption) ?_)
    | (with_reducible refine Within.ofFour (by assumption) ?_)
    | (with_reducible refine Within.ofFst (by assumption) ?_)
    | (with_reducible refine Within.ofSome (by assumption) ?_)
    | split
    | dsimp only
    | with_reducible apply Within.wl)

end Sys2Proof.Machine
end

