-- ==== Sys2Proof/Laws/WithinSensors.lean ====
section
/-!
SUPPORT. What each operation of Machine/Sensors.lean leaves alone.
-/

set_option Elab.async false

namespace Sys2Proof.Machine

theorem State.dropOpen_within {L0 : List RegName} {C0 : List Comp} {s0 : State} {s : State} {n : Nat} (hL : subList ([] : List RegName) L0 = true) (hC : subList [.sns] C0 = true) (hS : Within L0 C0 s0 s) :
    Within L0 C0 s0 (State.dropOpen s n) := by
  unfold State.dropOpen
  repeat' (first
    | with_reducible exact hS
    | with_reducible assumption
    | exact subList_trans (by decide +kernel) hL
    | exact subList_trans (by decide +kernel) hC
    | exact subList_elem (by decide +kernel) hL
    | exact subList_elem (by decide +kernel) hC
    | with_reducible apply State.setStrm_within
    | exact Within.memFilter
    | (intro x1; refine Within.cut (l := L0) (c := C0) (s := s0) (t := x1) ?_ ?_; subst x1; rotate_left; intro _; rotate_right)
    | (intro _)
    | lift_lets
    | (with_reducible refine Within.ofPair (by assumption) ?_)
    | (with_reducible refine Within.ofTriple (by assumption) ?_)
    | (with_reducible refine Within.ofFour (by assumption) ?_)
    | (with_reducible refine Within.ofFst (by assumption) ?_)
    | (with_reducible refine Within.ofSome (by assumption) ?_)
    | split
    | dsimp only)

theorem State.openSample_within {L0 : List RegName} {C0 : List Comp} {s0 : State} {s : State} {n raw : Nat} (hL : subList ([] : List RegName) L0 = true) (hC : subList [.sns] C0 = true) (hS : Within L0 C0 s0 s) :
    Within L0 C0 s0 (State.openSample s n raw) := by
  unfold State.openSample
  repeat' (first
    | with_reducible exact hS
    | with_reducible assumption
    | exact subList_trans (by decide +kernel) hL
    | exact subList_trans (by decide +kernel) hC
    | exact subList_elem (by decide +kernel) hL
    | exact subList_elem (by decide +kernel) hC
    | with_reducible apply State.setStrm_within
    | exact Within.memFilter
    | (intro x1; refine Within.cut (l := L0) (c := C0) (s := s0) (t := x1) ?_ ?_; subst x1; rotate_left; intro _; rotate_right)
    | (intro _)
    | lift_lets
    | (with_reducible refine Within.ofPair (by assumption) ?_)
    | (with_reducible refine Within.ofTriple (by assumption) ?_)
    | (with_reducible refine Within.ofFour (by assumption) ?_)
    | (with_reducible refine Within.ofFst (by assumption) ?_)
    | (with_reducible refine Within.ofSome (by assumption) ?_)
    | split
    | dsimp only)

theorem State.completeSample_within {L0 : List RegName} {C0 : List Comp} {s0 : State} {s : State} {n : Nat} {o : OpenSample} (hL : subList ([] : List RegName) L0 = true) (hC : subList [.sns] C0 = true) (hS : Within L0 C0 s0 s) :
    Within L0 C0 s0 (State.completeSample s n o) := by
  unfold State.completeSample
  repeat' (first
    | with_reducible exact hS
    | with_reducible assumption
    | exact subList_trans (by decide +kernel) hL
    | exact subList_trans (by decide +kernel) hC
    | exact subList_elem (by decide +kernel) hL
    | exact subList_elem (by decide +kernel) hC
    | with_reducible apply State.setStrm_within
    | exact Within.memFilter
    | (intro x1; refine Within.cut (l := L0) (c := C0) (s := s0) (t := x1) ?_ ?_; subst x1; rotate_left; intro _; rotate_right)
    | (intro _)
    | lift_lets
    | (with_reducible refine Within.ofPair (by assumption) ?_)
    | (with_reducible refine Within.ofTriple (by assumption) ?_)
    | (with_reducible refine Within.ofFour (by assumption) ?_)
    | (with_reducible refine Within.ofFst (by assumption) ?_)
    | (with_reducible refine Within.ofSome (by assumption) ?_)
    | split
    | dsimp only)

theorem State.dropBursts_within {L0 : List RegName} {C0 : List Comp} {s0 : State} {s : State} {n : Nat} (hL : subList ([] : List RegName) L0 = true) (hC : subList [.sns] C0 = true) (hS : Within L0 C0 s0 s) :
    Within L0 C0 s0 (State.dropBursts s n) := by
  unfold State.dropBursts
  repeat' (first
    | with_reducible exact hS
    | with_reducible assumption
    | exact subList_trans (by decide +kernel) hL
    | exact subList_trans (by decide +kernel) hC
    | exact subList_elem (by decide +kernel) hL
    | exact subList_elem (by decide +kernel) hC
    | exact Within.memFilter
    | (intro x1; refine Within.cut (l := L0) (c := C0) (s := s0) (t := x1) ?_ ?_; subst x1; rotate_left; intro _; rotate_right)
    | (intro _)
    | lift_lets
    | (with_reducible refine Within.ofPair (by assumption) ?_)
    | (with_reducible refine Within.ofTriple (by assumption) ?_)
    | (with_reducible refine Within.ofFour (by assumption) ?_)
    | (with_reducible refine Within.ofFst (by assumption) ?_)
    | (with_reducible refine Within.ofSome (by assumption) ?_)
    | split
    | dsimp only
    | with_reducible apply Within.sns)

theorem State.enableStream_within {L0 : List RegName} {C0 : List Comp} {s0 : State} {s : State} {n : Nat} {on : Bool} (hL : subList [.SNS_ACTIVE, .SNS_S_CTRL, .SNS_S_STATUS, .SNS_S_EVENT] L0 = true) (hC : subList [.sns] C0 = true) (hS : Within L0 C0 s0 s) :
    Within L0 C0 s0 (State.enableStream s n on) := by
  unfold State.enableStream
  repeat' (first
    | with_reducible exact hS
    | with_reducible assumption
    | exact subList_trans (by decide +kernel) hL
    | exact subList_trans (by decide +kernel) hC
    | exact subList_elem (by decide +kernel) hL
    | exact subList_elem (by decide +kernel) hC
    | with_reducible apply Within.wrB
    | with_reducible apply State.setStrm_within
    | with_reducible apply State.dropBursts_within
    | with_reducible apply State.showRun_within
    | exact Within.memFilter
    | (intro x1; refine Within.cut (l := L0) (c := C0) (s := s0) (t := x1) ?_ ?_; subst x1; rotate_left; intro _; rotate_right)
    | (intro _)
    | lift_lets
    | (with_reducible refine Within.ofPair (by assumption) ?_)
    | (with_reducible refine Within.ofTriple (by assumption) ?_)
    | (with_reducible refine Within.ofFour (by assumption) ?_)
    | (with_reducible refine Within.ofFst (by assumption) ?_)
    | (with_reducible refine Within.ofSome (by assumption) ?_)
    | split
    | dsimp only)

theorem execSnsEnable_within {L0 : List RegName} {C0 : List Comp} {s0 : State} {a : Agent} {n : Nat} {on : Bool} {s : State} (hL : subList [.MEM_DEEP_WEAR, .SNS_ACTIVE, .SNS_S_CTRL, .SNS_S_STATUS, .SNS_S_EVENT, .FLT_STATUS, .FLT_REC_NEWEST, .FLT_REC_LOST, .FLT_LOG_STATUS, .FLT_P_EVENT] L0 = true) (hC : subList [.resp, .flt, .deep, .sns] C0 = true) (hS : Within L0 C0 s0 s) :
    WithinOut L0 C0 s0 (execSnsEnable a n on s) := by
  unfold execSnsEnable
  repeat' (first
    | with_reducible exact hS
    | with_reducible assumption
    | exact subList_trans (by decide +kernel) hL
    | exact subList_trans (by decide +kernel) hC
    | exact subList_elem (by decide +kernel) hL
    | exact subList_elem (by decide +kernel) hC
    | with_reducible apply State.denied_within
    | with_reducible apply State.respErr_within
    | with_reducible apply State.respOk_within
    | with_reducible apply State.enableStream_within
    | with_reducible apply WithinOut.next
    | exact Within.memFilter
    | (intro x1; refine Within.cut (l := L0) (c := C0) (s := s0) (t := x1) ?_ ?_; subst x1; rotate_left; intro _; rotate_right)
    | (intro _)
    | lift_lets
    | (with_reducible refine Within.ofPair (by assumption) ?_)
    | (with_reducible refine Within.ofTriple (by assumption) ?_)
    | (with_reducible refine Within.ofFour (by assumption) ?_)
    | (with_reducible refine Within.ofFst (by assumption) ?_)
    | (with_reducible refine Within.ofSome (by assumption) ?_)
    | split
    | dsimp only)

theorem execClearSuspect_within {L0 : List RegName} {C0 : List Comp} {s0 : State} {a : Agent} {n : Nat} {s : State} (hL : subList [.MEM_DEEP_WEAR, .SNS_S_STATUS, .SNS_S_EVENT, .FLT_STATUS, .FLT_REC_NEWEST, .FLT_REC_LOST, .FLT_LOG_STATUS, .FLT_P_EVENT] L0 = true) (hC : subList [.resp, .flt, .deep, .sns] C0 = true) (hS : Within L0 C0 s0 s) :
    WithinOut L0 C0 s0 (execClearSuspect a n s) := by
  unfold execClearSuspect
  repeat' (first
    | with_reducible exact hS
    | with_reducible assumption
    | exact subList_trans (by decide +kernel) hL
    | exact subList_trans (by decide +kernel) hC
    | exact subList_elem (by decide +kernel) hL
    | exact subList_elem (by decide +kernel) hC
    | with_reducible apply State.denied_within
    | with_reducible apply State.respErr_within
    | with_reducible apply State.respOk_within
    | with_reducible apply State.setStrm_within
    | with_reducible apply State.setStrmFlag_within
    | with_reducible apply WithinOut.next
    | exact Within.memFilter
    | (intro x1; refine Within.cut (l := L0) (c := C0) (s := s0) (t := x1) ?_ ?_; subst x1; rotate_left; intro _; rotate_right)
    | (intro _)
    | lift_lets
    | (with_reducible refine Within.ofPair (by assumption) ?_)
    | (with_reducible refine Within.ofTriple (by assumption) ?_)
    | (with_reducible refine Within.ofFour (by assumption) ?_)
    | (with_reducible refine Within.ofFst (by assumption) ?_)
    | (with_reducible refine Within.ofSome (by assumption) ?_)
    | split
    | dsimp only)

theorem execCsi2FrameStart_within {L0 : List RegName} {C0 : List Comp} {s0 : State} {port vc ecc : Nat} {s : State} (hL : subList [.MEM_DEEP_WEAR, .SNS_PORT_ERRORS, .SNS_S_STATUS, .SNS_S_ERRORS, .SNS_S_EVENT, .FLT_STATUS, .FLT_REC_NEWEST, .FLT_REC_LOST, .FLT_LOG_STATUS, .FLT_P_EVENT] L0 = true) (hC : subList [.flt, .deep, .sns] C0 = true) (hS : Within L0 C0 s0 s) :
    WithinOut L0 C0 s0 (execCsi2FrameStart port vc ecc s) := by
  unfold execCsi2FrameStart
  repeat' (first
    | with_reducible exact hS
    | with_reducible assumption
    | exact subList_trans (by decide +kernel) hL
    | exact subList_trans (by decide +kernel) hC
    | exact subList_elem (by decide +kernel) hL
    | exact subList_elem (by decide +kernel) hC
    | with_reducible apply State.sensorStray_within
    | with_reducible apply State.sensorViolation_within
    | with_reducible apply State.dropOpen_within
    | with_reducible apply State.openSample_within
    | with_reducible apply WithinOut.next
    | exact Within.memFilter
    | (intro x1; refine Within.cut (l := L0) (c := C0) (s := s0) (t := x1) ?_ ?_; subst x1; rotate_left; intro _; rotate_right)
    | (intro _)
    | lift_lets
    | (with_reducible refine Within.ofPair (by assumption) ?_)
    | (with_reducible refine Within.ofTriple (by assumption) ?_)
    | (with_reducible refine Within.ofFour (by assumption) ?_)
    | (with_reducible refine Within.ofFst (by assumption) ?_)
    | (with_reducible refine Within.ofSome (by assumption) ?_)
    | split
    | dsimp only)

theorem execCsi2FrameEnd_within {L0 : List RegName} {C0 : List Comp} {s0 : State} {port vc ecc : Nat} {payload : List Byte} {crcBad : Bool} {s : State} (hL : subList [.MEM_DEEP_WEAR, .SNS_PORT_ERRORS, .SNS_S_STATUS, .SNS_S_ERRORS, .SNS_S_EVENT, .FLT_STATUS, .FLT_REC_NEWEST, .FLT_REC_LOST, .FLT_LOG_STATUS, .FLT_P_EVENT] L0 = true) (hC : subList [.flt, .deep, .sns] C0 = true) (hS : Within L0 C0 s0 s) :
    WithinOut L0 C0 s0 (execCsi2FrameEnd port vc ecc payload crcBad s) := by
  unfold execCsi2FrameEnd
  repeat' (first
    | with_reducible exact hS
    | with_reducible assumption
    | exact subList_trans (by decide +kernel) hL
    | exact subList_trans (by decide +kernel) hC
    | exact subList_elem (by decide +kernel) hL
    | exact subList_elem (by decide +kernel) hC
    | with_reducible apply State.sensorStray_within
    | with_reducible apply State.sensorViolation_within
    | with_reducible apply State.dropOpen_within
    | with_reducible apply State.completeSample_within
    | with_reducible apply WithinOut.next
    | exact Within.memFilter
    | (intro x1; refine Within.cut (l := L0) (c := C0) (s := s0) (t := x1) ?_ ?_; subst x1; rotate_left; intro _; rotate_right)
    | (intro _)
    | lift_lets
    | (with_reducible refine Within.ofPair (by assumption) ?_)
    | (with_reducible refine Within.ofTriple (by assumption) ?_)
    | (with_reducible refine Within.ofFour (by assumption) ?_)
    | (with_reducible refine Within.ofFst (by assumption) ?_)
    | (with_reducible refine Within.ofSome (by assumption) ?_)
    | split
    | dsimp only)

theorem execEthSampleDatagram_within {L0 : List RegName} {C0 : List Comp} {s0 : State} {port udp mac : Nat} {data : List Byte} {s : State} (hL : subList [.MEM_DEEP_WEAR, .SNS_PORT_ERRORS, .FLT_STATUS, .FLT_REC_NEWEST, .FLT_REC_LOST, .FLT_LOG_STATUS, .FLT_P_EVENT] L0 = true) (hC : subList [.flt, .deep, .sns] C0 = true) (hS : Within L0 C0 s0 s) :
    WithinOut L0 C0 s0 (execEthSampleDatagram port udp mac data s) := by
  unfold execEthSampleDatagram
  repeat' (first
    | with_reducible exact hS
    | with_reducible assumption
    | exact subList_trans (by decide +kernel) hL
    | exact subList_trans (by decide +kernel) hC
    | exact subList_elem (by decide +kernel) hL
    | exact subList_elem (by decide +kernel) hC
    | with_reducible apply State.sensorStray_within
    | with_reducible apply State.completeSample_within
    | with_reducible apply State.setStrm_within
    | with_reducible apply WithinOut.next
    | exact Within.memFilter
    | (intro x1; refine Within.cut (l := L0) (c := C0) (s := s0) (t := x1) ?_ ?_; subst x1; rotate_left; intro _; rotate_right)
    | (intro _)
    | lift_lets
    | (with_reducible refine Within.ofPair (by assumption) ?_)
    | (with_reducible refine Within.ofTriple (by assumption) ?_)
    | (with_reducible refine Within.ofFour (by assumption) ?_)
    | (with_reducible refine Within.ofFst (by assumption) ?_)
    | (with_reducible refine Within.ofSome (by assumption) ?_)
    | split
    | dsimp only)

theorem State.setSpi_within {L0 : List RegName} {C0 : List Comp} {s0 : State} {s : State} {port : Nat} {l : List (Nat × OpenSample)} (hL : subList ([] : List RegName) L0 = true) (hC : subList [.sns] C0 = true) (hS : Within L0 C0 s0 s) :
    Within L0 C0 s0 (State.setSpi s port l) := by
  unfold State.setSpi
  repeat' (first
    | with_reducible exact hS
    | with_reducible assumption
    | exact subList_trans (by decide +kernel) hL
    | exact subList_trans (by decide +kernel) hC
    | exact subList_elem (by decide +kernel) hL
    | exact subList_elem (by decide +kernel) hC
    | exact Within.memFilter
    | (intro x1; refine Within.cut (l := L0) (c := C0) (s := s0) (t := x1) ?_ ?_; subst x1; rotate_left; intro _; rotate_right)
    | (intro _)
    | lift_lets
    | (with_reducible refine Within.ofPair (by assumption) ?_)
    | (with_reducible refine Within.ofTriple (by assumption) ?_)
    | (with_reducible refine Within.ofFour (by assumption) ?_)
    | (with_reducible refine Within.ofFst (by assumption) ?_)
    | (with_reducible refine Within.ofSome (by assumption) ?_)
    | split
    | dsimp only
    | with_reducible apply Within.sns)

theorem State.sendCmd_within {L0 : List RegName} {C0 : List Comp} {s0 : State} {s : State} {e : StreamEntry} (hL : subList ([] : List RegName) L0 = true) (hC : subList [.sns] C0 = true) (hS : Within L0 C0 s0 s) :
    Within L0 C0 s0 (State.sendCmd s e) := by
  unfold State.sendCmd
  repeat' (first
    | with_reducible exact hS
    | with_reducible assumption
    | exact subList_trans (by decide +kernel) hL
    | exact subList_trans (by decide +kernel) hC
    | exact subList_elem (by decide +kernel) hL
    | exact subList_elem (by decide +kernel) hC
    | exact Within.memFilter
    | (intro x1; refine Within.cut (l := L0) (c := C0) (s := s0) (t := x1) ?_ ?_; subst x1; rotate_left; intro _; rotate_right)
    | (intro _)
    | lift_lets
    | (with_reducible refine Within.ofPair (by assumption) ?_)
    | (with_reducible refine Within.ofTriple (by assumption) ?_)
    | (with_reducible refine Within.ofFour (by assumption) ?_)
    | (with_reducible refine Within.ofFst (by assumption) ?_)
    | (with_reducible refine Within.ofSome (by assumption) ?_)
    | split
    | dsimp only
    | with_reducible apply Within.sns)

theorem execSpiDataReady_within {L0 : List RegName} {C0 : List Comp} {s0 : State} {n : Nat} {s : State} (hL : subList [.MEM_DEEP_WEAR, .SNS_PORT_ERRORS, .FLT_STATUS, .FLT_REC_NEWEST, .FLT_REC_LOST, .FLT_LOG_STATUS, .FLT_P_EVENT] L0 = true) (hC : subList [.flt, .deep, .sns] C0 = true) (hS : Within L0 C0 s0 s) :
    WithinOut L0 C0 s0 (execSpiDataReady n s) := by
  unfold execSpiDataReady
  repeat' (first
    | with_reducible exact hS
    | with_reducible assumption
    | exact subList_trans (by decide +kernel) hL
    | exact subList_trans (by decide +kernel) hC
    | exact subList_elem (by decide +kernel) hL
    | exact subList_elem (by decide +kernel) hC
    | with_reducible apply State.sensorStray_within
    | with_reducible apply State.setSpi_within
    | with_reducible apply WithinOut.next
    | exact Within.memFilter
    | (intro x1; refine Within.cut (l := L0) (c := C0) (s := s0) (t := x1) ?_ ?_; subst x1; rotate_left; intro _; rotate_right)
    | (intro _)
    | lift_lets
    | (with_reducible refine Within.ofPair (by assumption) ?_)
    | (with_reducible refine Within.ofTriple (by assumption) ?_)
    | (with_reducible refine Within.ofFour (by assumption) ?_)
    | (with_reducible refine Within.ofFst (by assumption) ?_)
    | (with_reducible refine Within.ofSome (by assumption) ?_)
    | split
    | dsimp only)

theorem execSpiBurstDone_within {L0 : List RegName} {C0 : List Comp} {s0 : State} {n : Nat} {data : List Byte} {s : State} (hL : subList [.MEM_DEEP_WEAR, .SNS_PORT_ERRORS, .SNS_S_STATUS, .SNS_S_ERRORS, .SNS_S_EVENT, .FLT_STATUS, .FLT_REC_NEWEST, .FLT_REC_LOST, .FLT_LOG_STATUS, .FLT_P_EVENT] L0 = true) (hC : subList [.flt, .deep, .sns] C0 = true) (hS : Within L0 C0 s0 s) :
    WithinOut L0 C0 s0 (execSpiBurstDone n data s) := by
  unfold execSpiBurstDone
  repeat' (first
    | with_reducible exact hS
    | with_reducible assumption
    | exact subList_trans (by decide +kernel) hL
    | exact subList_trans (by decide +kernel) hC
    | exact subList_elem (by decide +kernel) hL
    | exact subList_elem (by decide +kernel) hC
    | with_reducible apply State.sensorStray_within
    | with_reducible apply State.setSpi_within
    | with_reducible apply State.sendCmd_within
    | with_reducible apply State.completeSample_within
    | with_reducible apply State.sensorViolation_within
    | with_reducible apply State.setStrm_within
    | with_reducible apply WithinOut.next
    | exact Within.memFilter
    | (intro x1; refine Within.cut (l := L0) (c := C0) (s := s0) (t := x1) ?_ ?_; subst x1; rotate_left; intro _; rotate_right)
    | (intro _)
    | lift_lets
    | (with_reducible refine Within.ofPair (by assumption) ?_)
    | (with_reducible refine Within.ofTriple (by assumption) ?_)
    | (with_reducible refine Within.ofFour (by assumption) ?_)
    | (with_reducible refine Within.ofFst (by assumption) ?_)
    | (with_reducible refine Within.ofSome (by assumption) ?_)
    | split
    | dsimp only)

theorem execI3cIbi_within {L0 : List RegName} {C0 : List Comp} {s0 : State} {port addr : Nat} {s : State} (hL : subList [.MEM_DEEP_WEAR, .SNS_PORT_ERRORS, .FLT_STATUS, .FLT_REC_NEWEST, .FLT_REC_LOST, .FLT_LOG_STATUS, .FLT_P_EVENT] L0 = true) (hC : subList [.flt, .deep, .sns] C0 = true) (hS : Within L0 C0 s0 s) :
    WithinOut L0 C0 s0 (execI3cIbi port addr s) := by
  unfold execI3cIbi
  repeat' (first
    | with_reducible exact hS
    | with_reducible assumption
    | exact subList_trans (by decide +kernel) hL
    | exact subList_trans (by decide +kernel) hC
    | exact subList_elem (by decide +kernel) hL
    | exact subList_elem (by decide +kernel) hC
    | with_reducible apply State.sensorStray_within
    | with_reducible apply State.openSample_within
    | with_reducible apply WithinOut.next
    | exact Within.memFilter
    | (intro x1; refine Within.cut (l := L0) (c := C0) (s := s0) (t := x1) ?_ ?_; subst x1; rotate_left; intro _; rotate_right)
    | (intro _)
    | lift_lets
    | (with_reducible refine Within.ofPair (by assumption) ?_)
    | (with_reducible refine Within.ofTriple (by assumption) ?_)
    | (with_reducible refine Within.ofFour (by assumption) ?_)
    | (with_reducible refine Within.ofFst (by assumption) ?_)
    | (with_reducible refine Within.ofSome (by assumption) ?_)
    | split
    | dsimp only)

theorem execI3cReadDone_within {L0 : List RegName} {C0 : List Comp} {s0 : State} {port addr : Nat} {data : List Byte} {s : State} (hL : subList [.MEM_DEEP_WEAR, .SNS_PORT_ERRORS, .FLT_STATUS, .FLT_REC_NEWEST, .FLT_REC_LOST, .FLT_LOG_STATUS, .FLT_P_EVENT] L0 = true) (hC : subList [.flt, .deep, .sns] C0 = true) (hS : Within L0 C0 s0 s) :
    WithinOut L0 C0 s0 (execI3cReadDone port addr data s) := by
  unfold execI3cReadDone
  repeat' (first
    | with_reducible exact hS
    | with_reducible assumption
    | exact subList_trans (by decide +kernel) hL
    | exact subList_trans (by decide +kernel) hC
    | exact subList_elem (by decide +kernel) hL
    | exact subList_elem (by decide +kernel) hC
    | with_reducible apply State.sensorStray_within
    | with_reducible apply State.sendCmd_within
    | with_reducible apply State.completeSample_within
    | with_reducible apply WithinOut.next
    | exact Within.memFilter
    | (intro x1; refine Within.cut (l := L0) (c := C0) (s := s0) (t := x1) ?_ ?_; subst x1; rotate_left; intro _; rotate_right)
    | (intro _)
    | lift_lets
    | (with_reducible refine Within.ofPair (by assumption) ?_)
    | (with_reducible refine Within.ofTriple (by assumption) ?_)
    | (with_reducible refine Within.ofFour (by assumption) ?_)
    | (with_reducible refine Within.ofFst (by assumption) ?_)
    | (with_reducible refine Within.ofSome (by assumption) ?_)
    | split
    | dsimp only)

theorem execTdmFrameSync_within {L0 : List RegName} {C0 : List Comp} {s0 : State} {n : Nat} {slots : List Nat} {s : State} (hL : subList [.MEM_DEEP_WEAR, .SNS_PORT_ERRORS, .FLT_STATUS, .FLT_REC_NEWEST, .FLT_REC_LOST, .FLT_LOG_STATUS, .FLT_P_EVENT] L0 = true) (hC : subList [.flt, .deep, .sns] C0 = true) (hS : Within L0 C0 s0 s) :
    WithinOut L0 C0 s0 (execTdmFrameSync n slots s) := by
  unfold execTdmFrameSync
  repeat' (first
    | with_reducible exact hS
    | with_reducible assumption
    | exact subList_trans (by decide +kernel) hL
    | exact subList_trans (by decide +kernel) hC
    | exact subList_elem (by decide +kernel) hL
    | exact subList_elem (by decide +kernel) hC
    | with_reducible apply State.sensorStray_within
    | with_reducible apply State.completeSample_within
    | with_reducible apply State.setStrm_within
    | with_reducible apply WithinOut.next
    | exact Within.memFilter
    | (intro x1; refine Within.cut (l := L0) (c := C0) (s := s0) (t := x1) ?_ ?_; subst x1; rotate_left; intro _; rotate_right)
    | (intro _)
    | lift_lets
    | (with_reducible refine Within.ofPair (by assumption) ?_)
    | (with_reducible refine Within.ofTriple (by assumption) ?_)
    | (with_reducible refine Within.ofFour (by assumption) ?_)
    | (with_reducible refine Within.ofFst (by assumption) ?_)
    | (with_reducible refine Within.ofSome (by assumption) ?_)
    | split
    | dsimp only)

theorem execTdmClockLoss_within {L0 : List RegName} {C0 : List Comp} {s0 : State} {port : Nat} {s : State} (hL : subList [.MEM_DEEP_WEAR, .SNS_S_STATUS, .SNS_S_ERRORS, .SNS_S_EVENT, .FLT_STATUS, .FLT_REC_NEWEST, .FLT_REC_LOST, .FLT_LOG_STATUS, .FLT_P_EVENT] L0 = true) (hC : subList [.flt, .deep, .sns] C0 = true) (hS : Within L0 C0 s0 s) :
    WithinOut L0 C0 s0 (execTdmClockLoss port s) := by
  unfold execTdmClockLoss
  repeat' (first
    | with_reducible exact hS
    | with_reducible assumption
    | exact subList_trans (by decide +kernel) hL
    | exact subList_trans (by decide +kernel) hC
    | exact subList_elem (by decide +kernel) hL
    | exact subList_elem (by decide +kernel) hC
    | with_reducible apply State.sensorViolation_within
    | with_reducible apply State.setStrm_within
    | with_reducible apply WithinOut.next
    | exact Within.memFilter
    | (with_reducible refine Within.foldl (fun _ _ _ => ?_) _ ?_)
    | (with_reducible refine Within.foldlPair (fun _ _ _ => ?_) _ ?_)
    | (with_reducible refine Within.foldlFst (fun _ _ _ => ?_) _ ?_)
    | (intro x1; refine Within.cut (l := L0) (c := C0) (s := s0) (t := x1) ?_ ?_; subst x1; rotate_left; intro _; rotate_right)
    | (intro _)
    | lift_lets
    | (with_reducible refine Within.ofPair (by assumption) ?_)
    | (with_reducible refine Within.ofTriple (by assumption) ?_)
    | (with_reducible refine Within.ofFour (by assumption) ?_)
    | (with_reducible refine Within.ofFst (by assumption) ?_)
    | (with_reducible refine Within.ofSome (by assumption) ?_)
    | split
    | dsimp only)

theorem execSampleIncompleteTimeout_within {L0 : List RegName} {C0 : List Comp} {s0 : State} {n : Nat} {s : State} (hL : subList [.MEM_DEEP_WEAR, .SNS_S_STATUS, .SNS_S_ERRORS, .SNS_S_EVENT, .FLT_STATUS, .FLT_REC_NEWEST, .FLT_REC_LOST, .FLT_LOG_STATUS, .FLT_P_EVENT] L0 = true) (hC : subList [.flt, .deep, .sns] C0 = true) (hS : Within L0 C0 s0 s) :
    WithinOut L0 C0 s0 (execSampleIncompleteTimeout n s) := by
  unfold execSampleIncompleteTimeout
  repeat' (first
    | with_reducible exact hS
    | with_reducible assumption
    | exact subList_trans (by decide +kernel) hL
    | exact subList_trans (by decide +kernel) hC
    | exact subList_elem (by decide +kernel) hL
    | exact subList_elem (by decide +kernel) hC
    | with_reducible apply State.sensorViolation_within
    | with_reducible apply State.dropOpen_within
    | with_reducible apply WithinOut.next
    | exact Within.memFilter
    | (intro x1; refine Within.cut (l := L0) (c := C0) (s := s0) (t := x1) ?_ ?_; subst x1; rotate_left; intro _; rotate_right)
    | (intro _)
    | lift_lets
    | (with_reducible refine Within.ofPair (by assumption) ?_)
    | (with_reducible refine Within.ofTriple (by assumption) ?_)
    | (with_reducible refine Within.ofFour (by assumption) ?_)
    | (with_reducible refine Within.ofFst (by assumption) ?_)
    | (with_reducible refine Within.ofSome (by assumption) ?_)
    | split
    | dsimp only)

theorem State.sampleTime_within {L0 : List RegName} {C0 : List Comp} {s0 : State} {s : State} {n : Nat} {e : StreamEntry} {o : OpenSample} (hL : subList ([] : List RegName) L0 = true) (hC : subList [.free, .sns] C0 = true) (hS : Within L0 C0 s0 s) :
    Within L0 C0 s0 (State.sampleTime s n e o).2.2.2 := by
  unfold State.sampleTime
  repeat' (first
    | with_reducible exact hS
    | with_reducible assumption
    | exact subList_trans (by decide +kernel) hL
    | exact subList_trans (by decide +kernel) hC
    | exact subList_elem (by decide +kernel) hL
    | exact subList_elem (by decide +kernel) hC
    | with_reducible apply State.setStrm_within
    | with_reducible apply State.fresh_within
    | exact Within.memFilter
    | (with_reducible refine Within.foldl (fun _ _ _ => ?_) _ ?_)
    | (with_reducible refine Within.foldlPair (fun _ _ _ => ?_) _ ?_)
    | (with_reducible refine Within.foldlFst (fun _ _ _ => ?_) _ ?_)
    | (intro x1; refine Within.cut (l := L0) (c := C0) (s := s0) (t := x1) ?_ ?_; subst x1; rotate_left; intro _; rotate_right)
    | (intro _)
    | lift_lets
    | (with_reducible refine Within.ofPair (by assumption) ?_)
    | (with_reducible refine Within.ofTriple (by assumption) ?_)
    | (with_reducible refine Within.ofFour (by assumption) ?_)
    | (with_reducible refine Within.ofFst (by assumption) ?_)
    | (with_reducible refine Within.ofSome (by assumption) ?_)
    | split
    | dsimp only)

theorem State.readDirections_within {L0 : List RegName} {C0 : List Comp} {s0 : State} {s : State} {g p : Nat} {e : StreamEntry} (hL : subList [.BANK_CQ_STATUS, .BANK_TQ_STATUS, .MEM_DEEP_WEAR, .FLT_STATUS, .FLT_REC_NEWEST, .FLT_REC_LOST, .FLT_LOG_STATUS, .FLT_P_EVENT] L0 = true) (hC : subList [.flt, .hdw, .deep] C0 = true) (hS : Within L0 C0 s0 s) :
    Within L0 C0 s0 (State.readDirections s g p e) := by
  unfold State.readDirections
  repeat' (first
    | with_reducible exact hS
    | with_reducible assumption
    | exact subList_trans (by decide +kernel) hL
    | exact subList_trans (by decide +kernel) hC
    | exact subList_elem (by decide +kernel) hL
    | exact subList_elem (by decide +kernel) hC
    | with_reducible apply State.fetch_within
    | exact Within.memFilter
    | (intro x1; refine Within.cut (l := L0) (c := C0) (s := s0) (t := x1) ?_ ?_; subst x1; rotate_left; intro _; rotate_right)
    | (intro _)
    | lift_lets
    | (with_reducible refine Within.ofPair (by assumption) ?_)
    | (with_reducible refine Within.ofTriple (by assumption) ?_)
    | (with_reducible refine Within.ofFour (by assumption) ?_)
    | (with_reducible refine Within.ofFst (by assumption) ?_)
    | (with_reducible refine Within.ofSome (by assumption) ?_)
    | split
    | dsimp only)

theorem State.contributeRanges_within {L0 : List RegName} {C0 : List Comp} {s0 : State} {s : State} {n p : Nat} {e : StreamEntry} {o : OpenSample} {capture : Int} {unc : Nat} (hL : subList [.BANK_CQ_STATUS, .BANK_TQ_STATUS, .MEM_DEEP_WEAR, .SNS_S_STATUS, .SNS_S_LATEMAP, .SNS_S_DROPPED, .SNS_S_EVENT, .XW_EVENT, .FLT_STATUS, .FLT_REC_NEWEST, .FLT_REC_LOST, .FLT_LOG_STATUS, .FLT_P_EVENT] L0 = true) (hC : subList [.flt, .hdw, .deep, .xw] C0 = true) (hS : Within L0 C0 s0 s) :
    Within L0 C0 s0 (State.contributeRanges s n p e o capture unc) := by
  unfold State.contributeRanges
  repeat' (first
    | with_reducible exact hS
    | with_reducible assumption
    | exact subList_trans (by decide +kernel) hL
    | exact subList_trans (by decide +kernel) hC
    | exact subList_elem (by decide +kernel) hL
    | exact subList_elem (by decide +kernel) hC
    | with_reducible apply State.dropContribution_within
    | with_reducible apply State.readDirections_within
    | with_reducible apply State.contribute_within
    | exact Within.memFilter
    | (intro x1; refine Within.cut (l := L0) (c := C0) (s := s0) (t := x1) ?_ ?_; subst x1; rotate_left; intro _; rotate_right)
    | (intro _)
    | lift_lets
    | (with_reducible refine Within.ofPair (by assumption) ?_)
    | (with_reducible refine Within.ofTriple (by assumption) ?_)
    | (with_reducible refine Within.ofFour (by assumption) ?_)
    | (with_reducible refine Within.ofFst (by assumption) ?_)
    | (with_reducible refine Within.ofSome (by assumption) ?_)
    | split
    | dsimp only)

theorem State.writeSample_within {L0 : List RegName} {C0 : List Comp} {s0 : State} {s : State} {n p : Nat} {e : StreamEntry} {o : OpenSample} {capture : Int} {unc : Nat} {old : Bool} (hL : subList [.BANK_CQ_STATUS, .BANK_TQ_STATUS, .MEM_DEEP_WEAR, .SNS_S_STATUS, .SNS_S_SEQ, .SNS_S_LATEMAP, .SNS_S_DROPPED, .SNS_S_EVENT, .XW_EVENT, .FLT_STATUS, .FLT_REC_NEWEST, .FLT_REC_LOST, .FLT_LOG_STATUS, .FLT_P_EVENT] L0 = true) (hC : subList [.mem, .badCheck, .badWord, .flt, .hdw, .deep, .sns, .xw] C0 = true) (hS : Within L0 C0 s0 s) :
    Within L0 C0 s0 (State.writeSample s n p e o capture unc old) := by
  unfold State.writeSample
  repeat' (first
    | with_reducible exact hS
    | with_reducible assumption
    | exact subList_trans (by decide +kernel) hL
    | exact subList_trans (by decide +kernel) hC
    | exact subList_elem (by decide +kernel) hL
    | exact subList_elem (by decide +kernel) hC
    | with_reducible apply Within.wr
    | with_reducible apply State.traffic_within
    | with_reducible apply State.storeChecked_within
    | with_reducible apply State.setStrm_within
    | with_reducible apply State.setStrmFlag_within
    | with_reducible apply State.judgeLate_within
    | with_reducible apply State.contributeRanges_within
    | exact Within.memFilter
    | (intro x1; refine Within.cut (l := L0) (c := C0) (s := s0) (t := x1) ?_ ?_; subst x1; rotate_left; intro _; rotate_right)
    | (intro _)
    | lift_lets
    | (with_reducible refine Within.ofPair (by assumption) ?_)
    | (with_reducible refine Within.ofTriple (by assumption) ?_)
    | (with_reducible refine Within.ofFour (by assumption) ?_)
    | (with_reducible refine Within.ofFst (by assumption) ?_)
    | (with_reducible refine Within.ofSome (by assumption) ?_)
    | split
    | dsimp only)

theorem execSampleWrite_within {L0 : List RegName} {C0 : List Comp} {s0 : State} {n : Nat} {s : State} (hL : subList [.BANK_CQ_STATUS, .BANK_TQ_STATUS, .MEM_DEEP_WEAR, .SNS_S_STATUS, .SNS_S_SEQ, .SNS_S_UNC, .SNS_S_LATEMAP, .SNS_S_DROPPED, .SNS_S_ERRORS, .SNS_S_EVENT, .XW_EVENT, .TIME_OLD_CONV, .FLT_STATUS, .FLT_REC_NEWEST, .FLT_REC_LOST, .FLT_LOG_STATUS, .FLT_P_EVENT] L0 = true) (hC : subList [.free, .mem, .badCheck, .badWord, .flt, .hdw, .deep, .sns, .xw] C0 = true) (hS : Within L0 C0 s0 s) :
    WithinOut L0 C0 s0 (execSampleWrite n s) := by
  unfold execSampleWrite
  apply WithinOut.next
  split
  all_goals repeat' (first
    | with_reducible exact hS
    | with_reducible assumption
    | exact subList_trans (by decide +kernel) hL
    | exact subList_trans (by decide +kernel) hC
    | exact subList_elem (by decide +kernel) hL
    | exact subList_elem (by decide +kernel) hC
    | with_reducible apply Within.wr
    | with_reducible apply Within.bump
    | with_reducible apply State.wakeAll_within
    | with_reducible apply State.setStrm_within
    | with_reducible apply State.sensorViolation_within
    | with_reducible apply State.sampleTime_within
    | with_reducible apply State.setStrmFlag_within
    | with_reducible apply State.dropContribution_within
    | with_reducible apply State.refusalRecord_within
    | with_reducible apply State.writeSample_within
    | with_reducible apply WithinOut.next
    | exact Within.memFilter
    | (intro x1; refine Within.cut (l := L0) (c := C0) (s := s0) (t := x1) ?_ ?_; subst x1; rotate_left; intro _; rotate_right)
    | (intro _)
    | lift_lets
    | (with_reducible refine Within.ofPair (by assumption) ?_)
    | (with_reducible refine Within.ofTriple (by assumption) ?_)
    | (with_reducible refine Within.ofFour (by assumption) ?_)
    | (with_reducible refine Within.ofFst (by assumption) ?_)
    | (with_reducible refine Within.ofSome (by assumption) ?_)
    | split
    | dsimp only)

theorem execStreamLostTimeout_within {L0 : List RegName} {C0 : List Comp} {s0 : State} {n : Nat} {s : State} (hL : subList [.SNS_S_STATUS, .SNS_S_EVENT] L0 = true) (hC : subList ([] : List Comp) C0 = true) (hS : Within L0 C0 s0 s) :
    WithinOut L0 C0 s0 (execStreamLostTimeout n s) := by
  unfold execStreamLostTimeout
  repeat' (first
    | with_reducible exact hS
    | with_reducible assumption
    | exact subList_trans (by decide +kernel) hL
    | exact subList_trans (by decide +kernel) hC
    | exact subList_elem (by decide +kernel) hL
    | exact subList_elem (by decide +kernel) hC
    | with_reducible apply State.setStrmFlag_within
    | with_reducible apply WithinOut.next
    | exact Within.memFilter
    | (intro x1; refine Within.cut (l := L0) (c := C0) (s := s0) (t := x1) ?_ ?_; subst x1; rotate_left; intro _; rotate_right)
    | (intro _)
    | lift_lets
    | (with_reducible refine Within.ofPair (by assumption) ?_)
    | (with_reducible refine Within.ofTriple (by assumption) ?_)
    | (with_reducible refine Within.ofFour (by assumption) ?_)
    | (with_reducible refine Within.ofFst (by assumption) ?_)
    | (with_reducible refine Within.ofSome (by assumption) ?_)
    | split
    | dsimp only)

theorem execUnsyncClearTimeout_within {L0 : List RegName} {C0 : List Comp} {s0 : State} {n : Nat} {s : State} (hL : subList [.SNS_S_STATUS, .SNS_S_EVENT] L0 = true) (hC : subList ([] : List Comp) C0 = true) (hS : Within L0 C0 s0 s) :
    WithinOut L0 C0 s0 (execUnsyncClearTimeout n s) := by
  unfold execUnsyncClearTimeout
  repeat' (first
    | with_reducible exact hS
    | with_reducible assumption
    | exact subList_trans (by decide +kernel) hL
    | exact subList_trans (by decide +kernel) hC
    | exact subList_elem (by decide +kernel) hL
    | exact subList_elem (by decide +kernel) hC
    | with_reducible apply State.setStrmFlag_within
    | with_reducible apply WithinOut.next
    | exact Within.memFilter
    | (intro x1; refine Within.cut (l := L0) (c := C0) (s := s0) (t := x1) ?_ ?_; subst x1; rotate_left; intro _; rotate_right)
    | (intro _)
    | lift_lets
    | (with_reducible refine Within.ofPair (by assumption) ?_)
    | (with_reducible refine Within.ofTriple (by assumption) ?_)
    | (with_reducible refine Within.ofFour (by assumption) ?_)
    | (with_reducible refine Within.ofFst (by assumption) ?_)
    | (with_reducible refine Within.ofSome (by assumption) ?_)
    | split
    | dsimp only)

theorem State.restartStream_within {L0 : List RegName} {C0 : List Comp} {s0 : State} {s : State} {n : Nat} (hL : subList [.SNS_S_STATUS, .SNS_S_EVENT] L0 = true) (hC : subList [.sns] C0 = true) (hS : Within L0 C0 s0 s) :
    Within L0 C0 s0 (State.restartStream s n) := by
  unfold State.restartStream
  repeat' (first
    | with_reducible exact hS
    | with_reducible assumption
    | exact subList_trans (by decide +kernel) hL
    | exact subList_trans (by decide +kernel) hC
    | exact subList_elem (by decide +kernel) hL
    | exact subList_elem (by decide +kernel) hC
    | with_reducible apply State.setStrm_within
    | with_reducible apply State.dropBursts_within
    | with_reducible apply State.setStrmFlag_within
    | exact Within.memFilter
    | (intro x1; refine Within.cut (l := L0) (c := C0) (s := s0) (t := x1) ?_ ?_; subst x1; rotate_left; intro _; rotate_right)
    | (intro _)
    | lift_lets
    | (with_reducible refine Within.ofPair (by assumption) ?_)
    | (with_reducible refine Within.ofTriple (by assumption) ?_)
    | (with_reducible refine Within.ofFour (by assumption) ?_)
    | (with_reducible refine Within.ofFst (by assumption) ?_)
    | (with_reducible refine Within.ofSome (by assumption) ?_)
    | split
    | dsimp only)

end Sys2Proof.Machine
end

