-- ==== Sys2Proof/Laws/WithinPool.lean ====
section
/-!
SUPPORT. What each operation of Machine/Pool.lean leaves alone.
-/

set_option Elab.async false

namespace Sys2Proof.Machine

theorem State.setSeqState_within {L0 : List RegName} {C0 : List Comp} {s0 : State} {s : State} {n st : Nat} (hL : subList [.SEQ_ENT] L0 = true) (hC : subList ([] : List Comp) C0 = true) (hS : Within L0 C0 s0 s) :
    Within L0 C0 s0 (State.setSeqState s n st) := by
  unfold State.setSeqState
  repeat' (first
    | with_reducible exact hS
    | with_reducible assumption
    | exact subList_trans (by decide +kernel) hL
    | exact subList_trans (by decide +kernel) hC
    | exact subList_elem (by decide +kernel) hL
    | exact subList_elem (by decide +kernel) hC
    | with_reducible apply Within.wrF
    | exact Within.memFilter
    | (intro x1; refine Within.cut (l := L0) (c := C0) (s := s0) (t := x1) ?_ ?_; subst x1; rotate_left; intro _; rotate_right)
    | (intro _)
    | lift_lets
    | (with_reducible refine Within.ofPair (by assumption) ?_)
    | (with_reducible refine Within.ofTriple (by assumption) ?_)
    | (with_reducible refine Within.ofFour (by assumption) ?_)
    | (with_reducible refine Within.ofFst (by assumption) ?_)
    | (with_reducible refine Within.ofSome (by assumption) ?_)
    | split
    | dsimp only)

theorem State.setSeqPart_within {L0 : List RegName} {C0 : List Comp} {s0 : State} {s : State} {p : Nat} {x : SeqPart} (hL : subList ([] : List RegName) L0 = true) (hC : subList [.sqe] C0 = true) (hS : Within L0 C0 s0 s) :
    Within L0 C0 s0 (State.setSeqPart s p x) := by
  unfold State.setSeqPart
  repeat' (first
    | with_reducible exact hS
    | with_reducible assumption
    | exact subList_trans (by decide +kernel) hL
    | exact subList_trans (by decide +kernel) hC
    | exact subList_elem (by decide +kernel) hL
    | exact subList_elem (by decide +kernel) hC
    | exact Within.memFilter
    | (intro x1; refine Within.cut (l := L0) (c := C0) (s := s0) (t := x1) ?_ ?_; subst x1; rotate_left; intro _; rotate_right)
    | (intro _)
    | lift_lets
    | (with_reducible refine Within.ofPair (by assumption) ?_)
    | (with_reducible refine Within.ofTriple (by assumption) ?_)
    | (with_reducible refine Within.ofFour (by assumption) ?_)
    | (with_reducible refine Within.ofFst (by assumption) ?_)
    | (with_reducible refine Within.ofSome (by assumption) ?_)
    | split
    | dsimp only
    | with_reducible apply Within.sqe)

theorem State.releaseExtent_within {L0 : List RegName} {C0 : List Comp} {s0 : State} {s : State} {e : Nat} (hL : subList ([] : List RegName) L0 = true) (hC : subList [.upool] C0 = true) (hS : Within L0 C0 s0 s) :
    Within L0 C0 s0 (State.releaseExtent s e) := by
  unfold State.releaseExtent
  repeat' (first
    | with_reducible exact hS
    | with_reducible assumption
    | exact subList_trans (by decide +kernel) hL
    | exact subList_trans (by decide +kernel) hC
    | exact subList_elem (by decide +kernel) hL
    | exact subList_elem (by decide +kernel) hC
    | exact Within.memFilter
    | (intro x1; refine Within.cut (l := L0) (c := C0) (s := s0) (t := x1) ?_ ?_; subst x1; rotate_left; intro _; rotate_right)
    | (intro _)
    | lift_lets
    | (with_reducible refine Within.ofPair (by assumption) ?_)
    | (with_reducible refine Within.ofTriple (by assumption) ?_)
    | (with_reducible refine Within.ofFour (by assumption) ?_)
    | (with_reducible refine Within.ofFst (by assumption) ?_)
    | (with_reducible refine Within.ofSome (by assumption) ?_)
    | split
    | dsimp only
    | with_reducible apply Within.upool)

theorem State.reapPages_within {L0 : List RegName} {C0 : List Comp} {s0 : State} {s : State} {p : Nat} (hL : subList ([] : List RegName) L0 = true) (hC : subList [.upool, .sqe] C0 = true) (hS : Within L0 C0 s0 s) :
    Within L0 C0 s0 (State.reapPages s p) := by
  unfold State.reapPages
  repeat' (first
    | with_reducible exact hS
    | with_reducible assumption
    | exact subList_trans (by decide +kernel) hL
    | exact subList_trans (by decide +kernel) hC
    | exact subList_elem (by decide +kernel) hL
    | exact subList_elem (by decide +kernel) hC
    | with_reducible apply State.releaseExtent_within
    | exact Within.memFilter
    | (with_reducible refine Within.foldl (fun _ _ _ => ?_) _ ?_)
    | (with_reducible refine Within.foldlPair (fun _ _ _ => ?_) _ ?_)
    | (with_reducible refine Within.foldlFst (fun _ _ _ => ?_) _ ?_)
    | (intro x1; refine Within.cut (l := L0) (c := C0) (s := s0) (t := x1) ?_ ?_; subst x1; rotate_left; intro _; rotate_right)
    | (intro _)
    | lift_lets
    | (with_reducible refine Within.ofPair (by assumption) ?_)
    | (with_reducible refine Within.ofTriple (by assumption) ?_)
    | (with_reducible refine Within.ofFour (by assumption) ?_)
    | (with_reducible refine Within.ofFst (by assumption) ?_)
    | (with_reducible refine Within.ofSome (by assumption) ?_)
    | split
    | dsimp only
    | with_reducible apply Within.sqe)

theorem State.releasePage_within {L0 : List RegName} {C0 : List Comp} {s0 : State} {s : State} {g : Nat} (hL : subList ([] : List RegName) L0 = true) (hC : subList [.sqe] C0 = true) (hS : Within L0 C0 s0 s) :
    Within L0 C0 s0 (State.releasePage s g) := by
  unfold State.releasePage
  repeat' (first
    | with_reducible exact hS
    | with_reducible assumption
    | exact subList_trans (by decide +kernel) hL
    | exact subList_trans (by decide +kernel) hC
    | exact subList_elem (by decide +kernel) hL
    | exact subList_elem (by decide +kernel) hC
    | exact Within.memFilter
    | (intro x1; refine Within.cut (l := L0) (c := C0) (s := s0) (t := x1) ?_ ?_; subst x1; rotate_left; intro _; rotate_right)
    | (intro _)
    | lift_lets
    | (with_reducible refine Within.ofPair (by assumption) ?_)
    | (with_reducible refine Within.ofTriple (by assumption) ?_)
    | (with_reducible refine Within.ofFour (by assumption) ?_)
    | (with_reducible refine Within.ofFst (by assumption) ?_)
    | (with_reducible refine Within.ofSome (by assumption) ?_)
    | split
    | dsimp only
    | with_reducible apply Within.sqe)

theorem State.releaseSeqPages_within {L0 : List RegName} {C0 : List Comp} {s0 : State} {s : State} {n : Nat} (hL : subList [.SEQ_ENT] L0 = true) (hC : subList [.mem, .badCheck, .badWord, .upool, .sqe] C0 = true) (hS : Within L0 C0 s0 s) :
    Within L0 C0 s0 (State.releaseSeqPages s n) := by
  unfold State.releaseSeqPages
  repeat' (first
    | with_reducible exact hS
    | with_reducible assumption
    | exact subList_trans (by decide +kernel) hL
    | exact subList_trans (by decide +kernel) hC
    | exact subList_elem (by decide +kernel) hL
    | exact subList_elem (by decide +kernel) hC
    | with_reducible apply Within.wr
    | with_reducible apply State.releasePage_within
    | with_reducible apply State.zero_within
    | with_reducible apply State.reapPages_within
    | exact Within.memFilter
    | (with_reducible refine Within.foldl (fun _ _ _ => ?_) _ ?_)
    | (with_reducible refine Within.foldlPair (fun _ _ _ => ?_) _ ?_)
    | (with_reducible refine Within.foldlFst (fun _ _ _ => ?_) _ ?_)
    | (intro x1; refine Within.cut (l := L0) (c := C0) (s := s0) (t := x1) ?_ ?_; subst x1; rotate_left; intro _; rotate_right)
    | (intro _)
    | lift_lets
    | (with_reducible refine Within.ofPair (by assumption) ?_)
    | (with_reducible refine Within.ofTriple (by assumption) ?_)
    | (with_reducible refine Within.ofFour (by assumption) ?_)
    | (with_reducible refine Within.ofFst (by assumption) ?_)
    | (with_reducible refine Within.ofSome (by assumption) ?_)
    | split
    | dsimp only)

theorem State.endSequence_within {L0 : List RegName} {C0 : List Comp} {s0 : State} {s : State} {n status : Nat} (hL : subList [.MEM_DEEP_WEAR, .SEQ_ENT, .FLT_STATUS, .FLT_REC_NEWEST, .FLT_REC_LOST, .FLT_LOG_STATUS, .FLT_P_EVENT] L0 = true) (hC : subList [.mem, .badCheck, .badWord, .pulses, .flt, .upool, .deep, .sqe] C0 = true) (hS : Within L0 C0 s0 s) :
    Within L0 C0 s0 (State.endSequence s n status) := by
  unfold State.endSequence
  repeat' (first
    | with_reducible exact hS
    | with_reducible assumption
    | exact subList_trans (by decide +kernel) hL
    | exact subList_trans (by decide +kernel) hC
    | exact subList_elem (by decide +kernel) hL
    | exact subList_elem (by decide +kernel) hC
    | with_reducible apply Within.wrF
    | with_reducible apply State.releaseSeqPages_within
    | with_reducible apply State.pulse_within
    | with_reducible apply State.setSeqState_within
    | with_reducible apply State.record_within
    | exact Within.memFilter
    | (intro x1; refine Within.cut (l := L0) (c := C0) (s := s0) (t := x1) ?_ ?_; subst x1; rotate_left; intro _; rotate_right)
    | (intro _)
    | lift_lets
    | (with_reducible refine Within.ofPair (by assumption) ?_)
    | (with_reducible refine Within.ofTriple (by assumption) ?_)
    | (with_reducible refine Within.ofFour (by assumption) ?_)
    | (with_reducible refine Within.ofFst (by assumption) ?_)
    | (with_reducible refine Within.ofSome (by assumption) ?_)
    | split
    | dsimp only)

theorem State.freeSequence_within {L0 : List RegName} {C0 : List Comp} {s0 : State} {s : State} {n : Nat} (hL : subList [.SEQ_ENT] L0 = true) (hC : subList [.mem, .badCheck, .badWord, .upool, .sqe] C0 = true) (hS : Within L0 C0 s0 s) :
    Within L0 C0 s0 (State.freeSequence s n) := by
  unfold State.freeSequence
  repeat' (first
    | with_reducible exact hS
    | with_reducible assumption
    | exact subList_trans (by decide +kernel) hL
    | exact subList_trans (by decide +kernel) hC
    | exact subList_elem (by decide +kernel) hL
    | exact subList_elem (by decide +kernel) hC
    | with_reducible apply Within.wr
    | with_reducible apply State.releaseSeqPages_within
    | exact Within.memFilter
    | (with_reducible refine Within.foldl (fun _ _ _ => ?_) _ ?_)
    | (with_reducible refine Within.foldlPair (fun _ _ _ => ?_) _ ?_)
    | (with_reducible refine Within.foldlFst (fun _ _ _ => ?_) _ ?_)
    | (intro x1; refine Within.cut (l := L0) (c := C0) (s := s0) (t := x1) ?_ ?_; subst x1; rotate_left; intro _; rotate_right)
    | (intro _)
    | lift_lets
    | (with_reducible refine Within.ofPair (by assumption) ?_)
    | (with_reducible refine Within.ofTriple (by assumption) ?_)
    | (with_reducible refine Within.ofFour (by assumption) ?_)
    | (with_reducible refine Within.ofFst (by assumption) ?_)
    | (with_reducible refine Within.ofSome (by assumption) ?_)
    | split
    | dsimp only
    | with_reducible apply Within.sqe)

theorem State.setPlan_within {L0 : List RegName} {C0 : List Comp} {s0 : State} {s : State} {n : Nat} {x : PlanState} (hL : subList ([] : List RegName) L0 = true) (hC : subList [.upd] C0 = true) (hS : Within L0 C0 s0 s) :
    Within L0 C0 s0 (State.setPlan s n x) := by
  unfold State.setPlan
  repeat' (first
    | with_reducible exact hS
    | with_reducible assumption
    | exact subList_trans (by decide +kernel) hL
    | exact subList_trans (by decide +kernel) hC
    | exact subList_elem (by decide +kernel) hL
    | exact subList_elem (by decide +kernel) hC
    | exact Within.memFilter
    | (intro x1; refine Within.cut (l := L0) (c := C0) (s := s0) (t := x1) ?_ ?_; subst x1; rotate_left; intro _; rotate_right)
    | (intro _)
    | lift_lets
    | (with_reducible refine Within.ofPair (by assumption) ?_)
    | (with_reducible refine Within.ofTriple (by assumption) ?_)
    | (with_reducible refine Within.ofFour (by assumption) ?_)
    | (with_reducible refine Within.ofFst (by assumption) ?_)
    | (with_reducible refine Within.ofSome (by assumption) ?_)
    | split
    | dsimp only
    | with_reducible apply Within.upd)

theorem State.markBusy_within {L0 : List RegName} {C0 : List Comp} {s0 : State} {s : State} {l : List Nat} {b : Bool} (hL : subList ([] : List RegName) L0 = true) (hC : subList [.upool] C0 = true) (hS : Within L0 C0 s0 s) :
    Within L0 C0 s0 (State.markBusy s l b) := by
  unfold State.markBusy
  repeat' (first
    | with_reducible exact hS
    | with_reducible assumption
    | exact subList_trans (by decide +kernel) hL
    | exact subList_trans (by decide +kernel) hC
    | exact subList_elem (by decide +kernel) hL
    | exact subList_elem (by decide +kernel) hC
    | exact Within.memFilter
    | (intro x1; refine Within.cut (l := L0) (c := C0) (s := s0) (t := x1) ?_ ?_; subst x1; rotate_left; intro _; rotate_right)
    | (intro _)
    | lift_lets
    | (with_reducible refine Within.ofPair (by assumption) ?_)
    | (with_reducible refine Within.ofTriple (by assumption) ?_)
    | (with_reducible refine Within.ofFour (by assumption) ?_)
    | (with_reducible refine Within.ofFst (by assumption) ?_)
    | (with_reducible refine Within.ofSome (by assumption) ?_)
    | split
    | dsimp only
    | with_reducible apply Within.upool)

theorem State.evict_within {L0 : List RegName} {C0 : List Comp} {s0 : State} {s : State} {e : Nat} (hL : subList [.MEM_DEEP_WEAR, .MEM_P_EVICTS, .SEQ_ENT, .HDW_P_EVENT, .HDW_P_MISSES, .FLT_STATUS, .FLT_REC_NEWEST, .FLT_REC_LOST, .FLT_LOG_STATUS, .FLT_P_EVENT] L0 = true) (hC : subList [.mem, .badCheck, .badWord, .resp, .pulses, .flt, .hdw, .upool, .deep, .upd, .sqe, .hp] C0 = true) (hS : Within L0 C0 s0 s) :
    Within L0 C0 s0 (State.evict s e) := by
  unfold State.evict
  repeat' (first
    | with_reducible exact hS
    | with_reducible assumption
    | exact subList_trans (by decide +kernel) hL
    | exact subList_trans (by decide +kernel) hC
    | exact subList_elem (by decide +kernel) hL
    | exact subList_elem (by decide +kernel) hC
    | with_reducible apply Within.bump
    | with_reducible apply State.drainWaiting_within
    | with_reducible apply State.releaseExtent_within
    | with_reducible apply State.setPlan_within
    | with_reducible apply State.endSequence_within
    | exact Within.memFilter
    | (with_reducible refine Within.foldl (fun _ _ _ => ?_) _ ?_)
    | (with_reducible refine Within.foldlPair (fun _ _ _ => ?_) _ ?_)
    | (with_reducible refine Within.foldlFst (fun _ _ _ => ?_) _ ?_)
    | (intro x1; refine Within.cut (l := L0) (c := C0) (s := s0) (t := x1) ?_ ?_; subst x1; rotate_left; intro _; rotate_right)
    | (intro _)
    | lift_lets
    | (with_reducible refine Within.ofPair (by assumption) ?_)
    | (with_reducible refine Within.ofTriple (by assumption) ?_)
    | (with_reducible refine Within.ofFour (by assumption) ?_)
    | (with_reducible refine Within.ofFst (by assumption) ?_)
    | (with_reducible refine Within.ofSome (by assumption) ?_)
    | split
    | dsimp only
    | with_reducible apply Within.sqe)

theorem State.zeroIfForeign_within {L0 : List RegName} {C0 : List Comp} {s0 : State} {s : State} {e p : Nat} (hL : subList ([] : List RegName) L0 = true) (hC : subList [.mem, .badCheck, .badWord] C0 = true) (hS : Within L0 C0 s0 s) :
    Within L0 C0 s0 (State.zeroIfForeign s e p) := by
  unfold State.zeroIfForeign
  repeat' (first
    | with_reducible exact hS
    | with_reducible assumption
    | exact subList_trans (by decide +kernel) hL
    | exact subList_trans (by decide +kernel) hC
    | exact subList_elem (by decide +kernel) hL
    | exact subList_elem (by decide +kernel) hC
    | with_reducible apply State.zero_within
    | exact Within.memFilter
    | (intro x1; refine Within.cut (l := L0) (c := C0) (s := s0) (t := x1) ?_ ?_; subst x1; rotate_left; intro _; rotate_right)
    | (intro _)
    | lift_lets
    | (with_reducible refine Within.ofPair (by assumption) ?_)
    | (with_reducible refine Within.ofTriple (by assumption) ?_)
    | (with_reducible refine Within.ofFour (by assumption) ?_)
    | (with_reducible refine Within.ofFst (by assumption) ?_)
    | (with_reducible refine Within.ofSome (by assumption) ?_)
    | split
    | dsimp only)

theorem State.requestExtent_within {L0 : List RegName} {C0 : List Comp} {s0 : State} {s : State} {p : Nat} {h : Holder} {pinned : Bool} (hL : subList [.MEM_DEEP_WEAR, .MEM_P_EVICTS, .SEQ_ENT, .HDW_P_EVENT, .HDW_P_MISSES, .FLT_STATUS, .FLT_REC_NEWEST, .FLT_REC_LOST, .FLT_LOG_STATUS, .FLT_P_EVENT] L0 = true) (hC : subList [.mem, .badCheck, .badWord, .resp, .pulses, .flt, .hdw, .upool, .deep, .upd, .sqe, .hp] C0 = true) (hS : Within L0 C0 s0 s) :
    ∀ u0, State.requestExtent s p h pinned = some u0 → Within L0 C0 s0 u0.2 := by
  intro t ht
  unfold State.requestExtent at ht
  rw [Option.map_eq_some_iff] at ht
  obtain ⟨_, _, rfl⟩ := ht
  repeat' (first
    | with_reducible exact hS
    | with_reducible assumption
    | exact subList_trans (by decide +kernel) hL
    | exact subList_trans (by decide +kernel) hC
    | exact subList_elem (by decide +kernel) hL
    | exact subList_elem (by decide +kernel) hC
    | with_reducible apply State.evict_within
    | exact Within.memFilter
    | (intro x1; refine Within.cut (l := L0) (c := C0) (s := s0) (t := x1) ?_ ?_; subst x1; rotate_left; intro _; rotate_right)
    | (intro _)
    | lift_lets
    | (with_reducible refine Within.ofPair (by assumption) ?_)
    | (with_reducible refine Within.ofTriple (by assumption) ?_)
    | (with_reducible refine Within.ofFour (by assumption) ?_)
    | (with_reducible refine Within.ofFst (by assumption) ?_)
    | (with_reducible refine Within.ofSome (by assumption) ?_)
    | split
    | dsimp only
    | with_reducible apply Within.upool)

theorem State.assignExtent_within {L0 : List RegName} {C0 : List Comp} {s0 : State} {s : State} {g : ExtentGrant} (hL : subList ([] : List RegName) L0 = true) (hC : subList [.mem, .badCheck, .badWord, .upool] C0 = true) (hS : Within L0 C0 s0 s) :
    Within L0 C0 s0 (State.assignExtent s g) := by
  unfold State.assignExtent
  repeat' (first
    | with_reducible exact hS
    | with_reducible assumption
    | exact subList_trans (by decide +kernel) hL
    | exact subList_trans (by decide +kernel) hC
    | exact subList_elem (by decide +kernel) hL
    | exact subList_elem (by decide +kernel) hC
    | with_reducible apply State.zeroIfForeign_within
    | exact Within.memFilter
    | (intro x1; refine Within.cut (l := L0) (c := C0) (s := s0) (t := x1) ?_ ?_; subst x1; rotate_left; intro _; rotate_right)
    | (intro _)
    | lift_lets
    | (with_reducible refine Within.ofPair (by assumption) ?_)
    | (with_reducible refine Within.ofTriple (by assumption) ?_)
    | (with_reducible refine Within.ofFour (by assumption) ?_)
    | (with_reducible refine Within.ofFst (by assumption) ?_)
    | (with_reducible refine Within.ofSome (by assumption) ?_)
    | split
    | dsimp only
    | with_reducible apply Within.upool)

theorem State.takeExtent_within {L0 : List RegName} {C0 : List Comp} {s0 : State} {s : State} {p : Nat} {h : Holder} {pinned : Bool} (hL : subList [.MEM_DEEP_WEAR, .MEM_P_EVICTS, .SEQ_ENT, .HDW_P_EVENT, .HDW_P_MISSES, .FLT_STATUS, .FLT_REC_NEWEST, .FLT_REC_LOST, .FLT_LOG_STATUS, .FLT_P_EVENT] L0 = true) (hC : subList [.mem, .badCheck, .badWord, .resp, .pulses, .flt, .hdw, .upool, .deep, .upd, .sqe, .hp] C0 = true) (hS : Within L0 C0 s0 s) :
    ∀ u0, State.takeExtent s p h pinned = some u0 → Within L0 C0 s0 u0.2 := by
  intro t ht
  unfold State.takeExtent at ht
  rw [Option.map_eq_some_iff] at ht
  obtain ⟨_, _, rfl⟩ := ht
  repeat' (first
    | with_reducible exact hS
    | with_reducible assumption
    | exact subList_trans (by decide +kernel) hL
    | exact subList_trans (by decide +kernel) hC
    | exact subList_elem (by decide +kernel) hL
    | exact subList_elem (by decide +kernel) hC
    | with_reducible refine State.requestExtent_within (subList_trans (by decide +kernel) hL) (subList_trans (by decide +kernel) hC) ?_ _ (by assumption)
    | with_reducible apply State.assignExtent_within
    | exact Within.memFilter
    | (intro x1; refine Within.cut (l := L0) (c := C0) (s := s0) (t := x1) ?_ ?_; subst x1; rotate_left; intro _; rotate_right)
    | (intro _)
    | lift_lets
    | (with_reducible refine Within.ofPair (by assumption) ?_)
    | (with_reducible refine Within.ofTriple (by assumption) ?_)
    | (with_reducible refine Within.ofFour (by assumption) ?_)
    | (with_reducible refine Within.ofFst (by assumption) ?_)
    | (with_reducible refine Within.ofSome (by assumption) ?_)
    | split
    | dsimp only)

theorem State.grabExtents_within {L0 : List RegName} {C0 : List Comp} {s0 : State} {s : State} {p : Nat} {h : Holder} {pinned : Bool} {k0 : Nat} (hL : subList [.MEM_DEEP_WEAR, .MEM_P_EVICTS, .SEQ_ENT, .HDW_P_EVENT, .HDW_P_MISSES, .FLT_STATUS, .FLT_REC_NEWEST, .FLT_REC_LOST, .FLT_LOG_STATUS, .FLT_P_EVENT] L0 = true) (hC : subList [.mem, .badCheck, .badWord, .resp, .pulses, .flt, .hdw, .upool, .deep, .upd, .sqe, .hp] C0 = true) (hS : Within L0 C0 s0 s) :
    ∀ u0, State.grabExtents s p h pinned k0 = some u0 → Within L0 C0 s0 u0.2 := by
  induction k0 generalizing s with
  | zero => intro u0 h0; unfold State.grabExtents at h0; cases h0; exact hS
  | succ k ih =>
    intro u0 h0
    unfold State.grabExtents at h0
    split at h0
    · cases h0
    · split at h0
      · cases h0
      · cases h0
        exact State.markBusy_within (subList_trans (by decide +kernel) hL) (subList_trans (by decide +kernel) hC) (State.takeExtent_within (subList_trans (by decide +kernel) hL) (subList_trans (by decide +kernel) hC) (ih hS _ (by assumption)) _ (by assumption))

theorem State.takeExtents_within {L0 : List RegName} {C0 : List Comp} {s0 : State} {s : State} {p : Nat} {h : Holder} {pinned : Bool} {k : Nat} (hL : subList [.MEM_DEEP_WEAR, .MEM_P_EVICTS, .SEQ_ENT, .HDW_P_EVENT, .HDW_P_MISSES, .FLT_STATUS, .FLT_REC_NEWEST, .FLT_REC_LOST, .FLT_LOG_STATUS, .FLT_P_EVENT] L0 = true) (hC : subList [.mem, .badCheck, .badWord, .resp, .pulses, .flt, .hdw, .upool, .deep, .upd, .sqe, .hp] C0 = true) (hS : Within L0 C0 s0 s) :
    ∀ u0, State.takeExtents s p h pinned k = some u0 → Within L0 C0 s0 u0.2 := by
  intro t ht
  unfold State.takeExtents at ht
  rw [Option.map_eq_some_iff] at ht
  obtain ⟨r, h1, rfl⟩ := ht
  exact State.markBusy_within (subList_trans (by decide +kernel) hL) (subList_trans (by decide +kernel) hC) (State.grabExtents_within (subList_trans (by decide +kernel) hL) (subList_trans (by decide +kernel) hC) hS _ h1)

theorem State.touchExtent_within {L0 : List RegName} {C0 : List Comp} {s0 : State} {s : State} {e : Nat} (hL : subList ([] : List RegName) L0 = true) (hC : subList [.upool] C0 = true) (hS : Within L0 C0 s0 s) :
    Within L0 C0 s0 (State.touchExtent s e) := by
  unfold State.touchExtent
  repeat' (first
    | with_reducible exact hS
    | with_reducible assumption
    | exact subList_trans (by decide +kernel) hL
    | exact subList_trans (by decide +kernel) hC
    | exact subList_elem (by decide +kernel) hL
    | exact subList_elem (by decide +kernel) hC
    | exact Within.memFilter
    | (intro x1; refine Within.cut (l := L0) (c := C0) (s := s0) (t := x1) ?_ ?_; subst x1; rotate_left; intro _; rotate_right)
    | (intro _)
    | lift_lets
    | (with_reducible refine Within.ofPair (by assumption) ?_)
    | (with_reducible refine Within.ofTriple (by assumption) ?_)
    | (with_reducible refine Within.ofFour (by assumption) ?_)
    | (with_reducible refine Within.ofFst (by assumption) ?_)
    | (with_reducible refine Within.ofSome (by assumption) ?_)
    | split
    | dsimp only
    | with_reducible apply Within.upool)

theorem State.refuseExtent_within {L0 : List RegName} {C0 : List Comp} {s0 : State} {s : State} {x : Extent} (hL : subList [.MEM_P_ALLOC] L0 = true) (hC : subList ([] : List Comp) C0 = true) (hS : Within L0 C0 s0 s) :
    Within L0 C0 s0 (State.refuseExtent s x) := by
  unfold State.refuseExtent
  repeat' (first
    | with_reducible exact hS
    | with_reducible assumption
    | exact subList_trans (by decide +kernel) hL
    | exact subList_trans (by decide +kernel) hC
    | exact subList_elem (by decide +kernel) hL
    | exact subList_elem (by decide +kernel) hC
    | with_reducible apply Within.wr
    | exact Within.memFilter
    | (intro x1; refine Within.cut (l := L0) (c := C0) (s := s0) (t := x1) ?_ ?_; subst x1; rotate_left; intro _; rotate_right)
    | (intro _)
    | lift_lets
    | (with_reducible refine Within.ofPair (by assumption) ?_)
    | (with_reducible refine Within.ofTriple (by assumption) ?_)
    | (with_reducible refine Within.ofFour (by assumption) ?_)
    | (with_reducible refine Within.ofFst (by assumption) ?_)
    | (with_reducible refine Within.ofSome (by assumption) ?_)
    | split
    | dsimp only)

theorem State.seekExtent_within {L0 : List RegName} {C0 : List Comp} {s0 : State} {s : State} {x : Extent} (hL : subList [.MEM_DEEP_WEAR, .MEM_P_EVICTS, .MEM_P_ALLOC, .SEQ_ENT, .HDW_P_EVENT, .HDW_P_MISSES, .FLT_STATUS, .FLT_REC_NEWEST, .FLT_REC_LOST, .FLT_LOG_STATUS, .FLT_P_EVENT] L0 = true) (hC : subList [.mem, .badCheck, .badWord, .resp, .pulses, .flt, .hdw, .upool, .deep, .upd, .sqe, .hp] C0 = true) (hS : Within L0 C0 s0 s) :
    Within L0 C0 s0 (State.seekExtent s x) := by
  unfold State.seekExtent
  repeat' (first
    | with_reducible exact hS
    | with_reducible assumption
    | exact subList_trans (by decide +kernel) hL
    | exact subList_trans (by decide +kernel) hC
    | exact subList_elem (by decide +kernel) hL
    | exact subList_elem (by decide +kernel) hC
    | with_reducible refine State.requestExtent_within (subList_trans (by decide +kernel) hL) (subList_trans (by decide +kernel) hC) ?_ _ (by assumption)
    | with_reducible apply State.refuseExtent_within
    | exact Within.memFilter
    | (intro x1; refine Within.cut (l := L0) (c := C0) (s := s0) (t := x1) ?_ ?_; subst x1; rotate_left; intro _; rotate_right)
    | (intro _)
    | lift_lets
    | (with_reducible refine Within.ofPair (by assumption) ?_)
    | (with_reducible refine Within.ofTriple (by assumption) ?_)
    | (with_reducible refine Within.ofFour (by assumption) ?_)
    | (with_reducible refine Within.ofFst (by assumption) ?_)
    | (with_reducible refine Within.ofSome (by assumption) ?_)
    | split
    | dsimp only
    | with_reducible apply Within.upool)

theorem State.retryExtents_within {L0 : List RegName} {C0 : List Comp} {s0 : State} {s : State} (hL : subList [.MEM_DEEP_WEAR, .MEM_P_EVICTS, .MEM_P_ALLOC, .SEQ_ENT, .HDW_P_EVENT, .HDW_P_MISSES, .FLT_STATUS, .FLT_REC_NEWEST, .FLT_REC_LOST, .FLT_LOG_STATUS, .FLT_P_EVENT] L0 = true) (hC : subList [.mem, .badCheck, .badWord, .resp, .pulses, .flt, .hdw, .upool, .deep, .upd, .sqe, .hp] C0 = true) (hS : Within L0 C0 s0 s) :
    Within L0 C0 s0 (State.retryExtents s) := by
  unfold State.retryExtents
  repeat' (first
    | with_reducible exact hS
    | with_reducible assumption
    | exact subList_trans (by decide +kernel) hL
    | exact subList_trans (by decide +kernel) hC
    | exact subList_elem (by decide +kernel) hL
    | exact subList_elem (by decide +kernel) hC
    | with_reducible apply State.seekExtent_within
    | exact Within.memFilter
    | (with_reducible refine Within.foldl (fun _ _ _ => ?_) _ ?_)
    | (with_reducible refine Within.foldlPair (fun _ _ _ => ?_) _ ?_)
    | (with_reducible refine Within.foldlFst (fun _ _ _ => ?_) _ ?_)
    | (intro x1; refine Within.cut (l := L0) (c := C0) (s := s0) (t := x1) ?_ ?_; subst x1; rotate_left; intro _; rotate_right)
    | (intro _)
    | lift_lets
    | (with_reducible refine Within.ofPair (by assumption) ?_)
    | (with_reducible refine Within.ofTriple (by assumption) ?_)
    | (with_reducible refine Within.ofFour (by assumption) ?_)
    | (with_reducible refine Within.ofFst (by assumption) ?_)
    | (with_reducible refine Within.ofSome (by assumption) ?_)
    | split
    | dsimp only
    | with_reducible apply Within.upool)

theorem execExtentRequest_within {L0 : List RegName} {C0 : List Comp} {s0 : State} {p : Nat} {h : Holder} {pinned : Bool} {s : State} (hL : subList [.MEM_DEEP_WEAR, .MEM_P_EVICTS, .MEM_P_ALLOC, .SEQ_ENT, .HDW_P_EVENT, .HDW_P_MISSES, .FLT_STATUS, .FLT_REC_NEWEST, .FLT_REC_LOST, .FLT_LOG_STATUS, .FLT_P_EVENT] L0 = true) (hC : subList [.mem, .badCheck, .badWord, .resp, .pulses, .flt, .hdw, .upool, .deep, .upd, .sqe, .hp] C0 = true) (hS : Within L0 C0 s0 s) :
    WithinOut L0 C0 s0 (execExtentRequest p h pinned s) := by
  unfold execExtentRequest
  repeat' (first
    | with_reducible exact hS
    | with_reducible assumption
    | exact subList_trans (by decide +kernel) hL
    | exact subList_trans (by decide +kernel) hC
    | exact subList_elem (by decide +kernel) hL
    | exact subList_elem (by decide +kernel) hC
    | with_reducible apply State.seekExtent_within
    | with_reducible apply WithinOut.next
    | exact Within.memFilter
    | (intro x1; refine Within.cut (l := L0) (c := C0) (s := s0) (t := x1) ?_ ?_; subst x1; rotate_left; intro _; rotate_right)
    | (intro _)
    | lift_lets
    | (with_reducible refine Within.ofPair (by assumption) ?_)
    | (with_reducible refine Within.ofTriple (by assumption) ?_)
    | (with_reducible refine Within.ofFour (by assumption) ?_)
    | (with_reducible refine Within.ofFst (by assumption) ?_)
    | (with_reducible refine Within.ofSome (by assumption) ?_)
    | split
    | dsimp only)

theorem execExtentAssigned_within {L0 : List RegName} {C0 : List Comp} {s0 : State} {e : Nat} {s : State} (hL : subList [.MEM_P_ALLOC] L0 = true) (hC : subList [.mem, .badCheck, .badWord, .upool, .upd] C0 = true) (hS : Within L0 C0 s0 s) :
    WithinOut L0 C0 s0 (execExtentAssigned e s) := by
  unfold execExtentAssigned
  repeat' (first
    | with_reducible exact hS
    | with_reducible assumption
    | exact subList_trans (by decide +kernel) hL
    | exact subList_trans (by decide +kernel) hC
    | exact subList_elem (by decide +kernel) hL
    | exact subList_elem (by decide +kernel) hC
    | with_reducible apply Within.wr
    | with_reducible apply State.assignExtent_within
    | with_reducible apply State.setPlan_within
    | with_reducible apply State.releaseExtent_within
    | with_reducible apply WithinOut.next
    | exact Within.memFilter
    | (intro x1; refine Within.cut (l := L0) (c := C0) (s := s0) (t := x1) ?_ ?_; subst x1; rotate_left; intro _; rotate_right)
    | (intro _)
    | lift_lets
    | (with_reducible refine Within.ofPair (by assumption) ?_)
    | (with_reducible refine Within.ofTriple (by assumption) ?_)
    | (with_reducible refine Within.ofFour (by assumption) ?_)
    | (with_reducible refine Within.ofFst (by assumption) ?_)
    | (with_reducible refine Within.ofSome (by assumption) ?_)
    | split
    | dsimp only)

theorem execSoftwareAlloc_within {L0 : List RegName} {C0 : List Comp} {s0 : State} {a : Agent} {p : Nat} {s : State} (hL : subList [.MEM_DEEP_WEAR, .MEM_P_EVICTS, .MEM_P_ALLOC, .SEQ_ENT, .HDW_P_EVENT, .HDW_P_MISSES, .FLT_STATUS, .FLT_REC_NEWEST, .FLT_REC_LOST, .FLT_LOG_STATUS, .FLT_P_EVENT] L0 = true) (hC : subList [.mem, .badCheck, .badWord, .resp, .pulses, .flt, .hdw, .upool, .deep, .upd, .sqe, .hp] C0 = true) (hS : Within L0 C0 s0 s) :
    WithinOut L0 C0 s0 (execSoftwareAlloc a p s) := by
  unfold execSoftwareAlloc
  repeat' (first
    | with_reducible exact hS
    | with_reducible assumption
    | exact subList_trans (by decide +kernel) hL
    | exact subList_trans (by decide +kernel) hC
    | exact subList_elem (by decide +kernel) hL
    | exact subList_elem (by decide +kernel) hC
    | with_reducible apply Within.wr
    | with_reducible apply State.respErr_within
    | with_reducible apply State.denied_within
    | with_reducible apply State.respOk_within
    | with_reducible apply State.seekExtent_within
    | with_reducible apply WithinOut.next
    | exact Within.memFilter
    | (intro x1; refine Within.cut (l := L0) (c := C0) (s := s0) (t := x1) ?_ ?_; subst x1; rotate_left; intro _; rotate_right)
    | (intro _)
    | lift_lets
    | (with_reducible refine Within.ofPair (by assumption) ?_)
    | (with_reducible refine Within.ofTriple (by assumption) ?_)
    | (with_reducible refine Within.ofFour (by assumption) ?_)
    | (with_reducible refine Within.ofFst (by assumption) ?_)
    | (with_reducible refine Within.ofSome (by assumption) ?_)
    | split
    | dsimp only)

theorem execSoftwareFree_within {L0 : List RegName} {C0 : List Comp} {s0 : State} {a : Agent} {p e : Nat} {s : State} (hL : subList [.MEM_DEEP_WEAR, .FLT_STATUS, .FLT_REC_NEWEST, .FLT_REC_LOST, .FLT_LOG_STATUS, .FLT_P_EVENT] L0 = true) (hC : subList [.resp, .flt, .upool, .deep] C0 = true) (hS : Within L0 C0 s0 s) :
    WithinOut L0 C0 s0 (execSoftwareFree a p e s) := by
  unfold execSoftwareFree
  repeat' (first
    | with_reducible exact hS
    | with_reducible assumption
    | exact subList_trans (by decide +kernel) hL
    | exact subList_trans (by decide +kernel) hC
    | exact subList_elem (by decide +kernel) hL
    | exact subList_elem (by decide +kernel) hC
    | with_reducible apply State.respErr_within
    | with_reducible apply State.denied_within
    | with_reducible apply State.respOk_within
    | with_reducible apply State.releaseExtent_within
    | with_reducible apply State.violation_within
    | with_reducible apply WithinOut.next
    | exact Within.memFilter
    | (intro x1; refine Within.cut (l := L0) (c := C0) (s := s0) (t := x1) ?_ ?_; subst x1; rotate_left; intro _; rotate_right)
    | (intro _)
    | lift_lets
    | (with_reducible refine Within.ofPair (by assumption) ?_)
    | (with_reducible refine Within.ofTriple (by assumption) ?_)
    | (with_reducible refine Within.ofFour (by assumption) ?_)
    | (with_reducible refine Within.ofFst (by assumption) ?_)
    | (with_reducible refine Within.ofSome (by assumption) ?_)
    | split
    | dsimp only)

theorem State.freeSoftware_within {L0 : List RegName} {C0 : List Comp} {s0 : State} {s : State} {p : Nat} (hL : subList ([] : List RegName) L0 = true) (hC : subList [.upool] C0 = true) (hS : Within L0 C0 s0 s) :
    Within L0 C0 s0 (State.freeSoftware s p) := by
  unfold State.freeSoftware
  repeat' (first
    | with_reducible exact hS
    | with_reducible assumption
    | exact subList_trans (by decide +kernel) hL
    | exact subList_trans (by decide +kernel) hC
    | exact subList_elem (by decide +kernel) hL
    | exact subList_elem (by decide +kernel) hC
    | with_reducible apply State.releaseExtent_within
    | exact Within.memFilter
    | (with_reducible refine Within.foldl (fun _ _ _ => ?_) _ ?_)
    | (with_reducible refine Within.foldlPair (fun _ _ _ => ?_) _ ?_)
    | (with_reducible refine Within.foldlFst (fun _ _ _ => ?_) _ ?_)
    | (intro x1; refine Within.cut (l := L0) (c := C0) (s := s0) (t := x1) ?_ ?_; subst x1; rotate_left; intro _; rotate_right)
    | (intro _)
    | lift_lets
    | (with_reducible refine Within.ofPair (by assumption) ?_)
    | (with_reducible refine Within.ofTriple (by assumption) ?_)
    | (with_reducible refine Within.ofFour (by assumption) ?_)
    | (with_reducible refine Within.ofFst (by assumption) ?_)
    | (with_reducible refine Within.ofSome (by assumption) ?_)
    | split
    | dsimp only)

theorem execSoftwareFreeAll_within {L0 : List RegName} {C0 : List Comp} {s0 : State} {a : Agent} {p : Nat} {s : State} (hL : subList [.MEM_DEEP_WEAR, .FLT_STATUS, .FLT_REC_NEWEST, .FLT_REC_LOST, .FLT_LOG_STATUS, .FLT_P_EVENT] L0 = true) (hC : subList [.resp, .flt, .upool, .deep] C0 = true) (hS : Within L0 C0 s0 s) :
    WithinOut L0 C0 s0 (execSoftwareFreeAll a p s) := by
  unfold execSoftwareFreeAll
  repeat' (first
    | with_reducible exact hS
    | with_reducible assumption
    | exact subList_trans (by decide +kernel) hL
    | exact subList_trans (by decide +kernel) hC
    | exact subList_elem (by decide +kernel) hL
    | exact subList_elem (by decide +kernel) hC
    | with_reducible apply State.respErr_within
    | with_reducible apply State.denied_within
    | with_reducible apply State.respOk_within
    | with_reducible apply State.freeSoftware_within
    | with_reducible apply WithinOut.next
    | exact Within.memFilter
    | (intro x1; refine Within.cut (l := L0) (c := C0) (s := s0) (t := x1) ?_ ?_; subst x1; rotate_left; intro _; rotate_right)
    | (intro _)
    | lift_lets
    | (with_reducible refine Within.ofPair (by assumption) ?_)
    | (with_reducible refine Within.ofTriple (by assumption) ?_)
    | (with_reducible refine Within.ofFour (by assumption) ?_)
    | (with_reducible refine Within.ofFst (by assumption) ?_)
    | (with_reducible refine Within.ofSome (by assumption) ?_)
    | split
    | dsimp only)

theorem execAgeTick_within {L0 : List RegName} {C0 : List Comp} {s0 : State} {s : State} (hL : subList [.MEM_DEEP_WEAR, .MEM_P_EVICTS, .MEM_P_ALLOC, .SEQ_ENT, .HDW_P_EVENT, .HDW_P_MISSES, .FLT_STATUS, .FLT_REC_NEWEST, .FLT_REC_LOST, .FLT_LOG_STATUS, .FLT_P_EVENT] L0 = true) (hC : subList [.mem, .badCheck, .badWord, .resp, .pulses, .flt, .hdw, .upool, .deep, .upd, .sqe, .hp] C0 = true) (hS : Within L0 C0 s0 s) :
    WithinOut L0 C0 s0 (execAgeTick s) := by
  unfold execAgeTick
  repeat' (first
    | with_reducible exact hS
    | with_reducible assumption
    | exact subList_trans (by decide +kernel) hL
    | exact subList_trans (by decide +kernel) hC
    | exact subList_elem (by decide +kernel) hL
    | exact subList_elem (by decide +kernel) hC
    | with_reducible apply State.retryExtents_within
    | with_reducible apply WithinOut.next
    | exact Within.memFilter
    | (intro x1; refine Within.cut (l := L0) (c := C0) (s := s0) (t := x1) ?_ ?_; subst x1; rotate_left; intro _; rotate_right)
    | (intro _)
    | lift_lets
    | (with_reducible refine Within.ofPair (by assumption) ?_)
    | (with_reducible refine Within.ofTriple (by assumption) ?_)
    | (with_reducible refine Within.ofFour (by assumption) ?_)
    | (with_reducible refine Within.ofFst (by assumption) ?_)
    | (with_reducible refine Within.ofSome (by assumption) ?_)
    | split
    | dsimp only
    | with_reducible apply Within.upool)

end Sys2Proof.Machine
end

