-- ==== Sys2Proof/Laws/WithinSequence.lean ====
section
/-!
SUPPORT. What each operation of Machine/Sequence.lean leaves alone.
-/

set_option Elab.async false

namespace Sys2Proof.Machine

theorem State.seqTouch_within {L0 : List RegName} {C0 : List Comp} {s0 : State} {s : State} {p a n : Nat} (hL : subList [.BANK_CQ_STATUS, .BANK_TQ_STATUS] L0 = true) (hC : subList [.hdw] C0 = true) (hS : Within L0 C0 s0 s) :
    Within L0 C0 s0 (State.seqTouch s p a n) := by
  unfold State.seqTouch
  repeat' (first
    | with_reducible exact hS
    | with_reducible assumption
    | exact subList_trans (by decide +kernel) hL
    | exact subList_trans (by decide +kernel) hC
    | exact subList_elem (by decide +kernel) hL
    | exact subList_elem (by decide +kernel) hC
    | with_reducible apply State.traffic_within
    | with_reducible apply State.wakeAll_within
    | exact Within.memFilter
    | (intro x1; refine Within.cut (l := L0) (c := C0) (s := s0) (t := x1) ?_ ?_; subst x1; rotate_left; intro _; rotate_right)
    | (intro _)
    | lift_lets
    | (with_reducible refine Within.ofPair (by assumption) ?_)
    | (with_reducible refine Within.ofTriple (by assumption) ?_)
    | (with_reducible refine Within.ofFour (by assumption) ?_)
    | (with_reducible refine Within.ofFst (by assumption) ?_)
    | (with_reducible refine Within.ofSome (by assumption) ?_)
    | split
    | dsimp only)

theorem State.seqStore_within {L0 : List RegName} {C0 : List Comp} {s0 : State} {s : State} {p a : Nat} {d : List Byte} (hL : subList [.BANK_CQ_STATUS, .BANK_TQ_STATUS] L0 = true) (hC : subList [.mem, .badCheck, .badWord, .hdw] C0 = true) (hS : Within L0 C0 s0 s) :
    Within L0 C0 s0 (State.seqStore s p a d) := by
  unfold State.seqStore
  repeat' (first
    | with_reducible exact hS
    | with_reducible assumption
    | exact subList_trans (by decide +kernel) hL
    | exact subList_trans (by decide +kernel) hC
    | exact subList_elem (by decide +kernel) hL
    | exact subList_elem (by decide +kernel) hC
    | with_reducible apply State.seqTouch_within
    | with_reducible apply State.store_within
    | exact Within.memFilter
    | (intro x1; refine Within.cut (l := L0) (c := C0) (s := s0) (t := x1) ?_ ?_; subst x1; rotate_left; intro _; rotate_right)
    | (intro _)
    | lift_lets
    | (with_reducible refine Within.ofPair (by assumption) ?_)
    | (with_reducible refine Within.ofTriple (by assumption) ?_)
    | (with_reducible refine Within.ofFour (by assumption) ?_)
    | (with_reducible refine Within.ofFst (by assumption) ?_)
    | (with_reducible refine Within.ofSome (by assumption) ?_)
    | split
    | dsimp only)

theorem State.seqStoreKeep_within {L0 : List RegName} {C0 : List Comp} {s0 : State} {s : State} {p a : Nat} {d : List Byte} (hL : subList [.BANK_CQ_STATUS, .BANK_TQ_STATUS] L0 = true) (hC : subList [.mem, .badWord, .hdw] C0 = true) (hS : Within L0 C0 s0 s) :
    Within L0 C0 s0 (State.seqStoreKeep s p a d) := by
  unfold State.seqStoreKeep
  repeat' (first
    | with_reducible exact hS
    | with_reducible assumption
    | exact subList_trans (by decide +kernel) hL
    | exact subList_trans (by decide +kernel) hC
    | exact subList_elem (by decide +kernel) hL
    | exact subList_elem (by decide +kernel) hC
    | with_reducible apply State.seqTouch_within
    | with_reducible apply State.storeKeep_within
    | exact Within.memFilter
    | (intro x1; refine Within.cut (l := L0) (c := C0) (s := s0) (t := x1) ?_ ?_; subst x1; rotate_left; intro _; rotate_right)
    | (intro _)
    | lift_lets
    | (with_reducible refine Within.ofPair (by assumption) ?_)
    | (with_reducible refine Within.ofTriple (by assumption) ?_)
    | (with_reducible refine Within.ofFour (by assumption) ?_)
    | (with_reducible refine Within.ofFst (by assumption) ?_)
    | (with_reducible refine Within.ofSome (by assumption) ?_)
    | split
    | dsimp only)

theorem State.seqResult_within {L0 : List RegName} {C0 : List Comp} {s0 : State} {s : State} {p code n : Nat} (hL : subList [.MEM_DEEP_WEAR, .SEQ_P_RESULT, .FLT_STATUS, .FLT_REC_NEWEST, .FLT_REC_LOST, .FLT_LOG_STATUS, .FLT_P_EVENT] L0 = true) (hC : subList [.flt, .deep] C0 = true) (hS : Within L0 C0 s0 s) :
    Within L0 C0 s0 (State.seqResult s p code n) := by
  unfold State.seqResult
  repeat' (first
    | with_reducible exact hS
    | with_reducible assumption
    | exact subList_trans (by decide +kernel) hL
    | exact subList_trans (by decide +kernel) hC
    | exact subList_elem (by decide +kernel) hL
    | exact subList_elem (by decide +kernel) hC
    | with_reducible apply Within.wrF
    | with_reducible apply Within.setB
    | with_reducible apply Within.clrB
    | with_reducible apply State.record_within
    | exact Within.memFilter
    | (intro x1; refine Within.cut (l := L0) (c := C0) (s := s0) (t := x1) ?_ ?_; subst x1; rotate_left; intro _; rotate_right)
    | (intro _)
    | lift_lets
    | (with_reducible refine Within.ofPair (by assumption) ?_)
    | (with_reducible refine Within.ofTriple (by assumption) ?_)
    | (with_reducible refine Within.ofFour (by assumption) ?_)
    | (with_reducible refine Within.ofFst (by assumption) ?_)
    | (with_reducible refine Within.ofSome (by assumption) ?_)
    | split
    | dsimp only)

theorem State.seqCommand_within {L0 : List RegName} {C0 : List Comp} {s0 : State} {s : State} {a : Agent} {p op rsv : Nat} {run : State → Nat × Nat × State} (hL : subList [.MEM_DEEP_WEAR, .SEQ_P_CMD, .SEQ_P_RESULT, .FLT_STATUS, .FLT_REC_NEWEST, .FLT_REC_LOST, .FLT_LOG_STATUS, .FLT_P_EVENT] L0 = true) (hC : subList [.resp, .flt, .deep] C0 = true) (hrun : ∀ t, Within L0 C0 s0 t → Within L0 C0 s0 (run t).2.2) (hS : Within L0 C0 s0 s) :
    Within L0 C0 s0 (State.seqCommand s a p op rsv run) := by
  unfold State.seqCommand
  repeat' (first
    | with_reducible exact hS
    | with_reducible assumption
    | with_reducible apply hrun
    | exact subList_trans (by decide +kernel) hL
    | exact subList_trans (by decide +kernel) hC
    | exact subList_elem (by decide +kernel) hL
    | exact subList_elem (by decide +kernel) hC
    | with_reducible apply Within.wr
    | with_reducible apply State.respErr_within
    | with_reducible apply State.denied_within
    | with_reducible apply State.respOk_within
    | with_reducible apply State.seqResult_within
    | exact Within.memFilter
    | (intro x1; refine Within.cut (l := L0) (c := C0) (s := s0) (t := x1) ?_ ?_; subst x1; rotate_left; intro _; rotate_right)
    | (intro _)
    | lift_lets
    | (with_reducible refine Within.ofPair (by assumption) ?_)
    | (with_reducible refine Within.ofTriple (by assumption) ?_)
    | (with_reducible refine Within.ofFour (by assumption) ?_)
    | (with_reducible refine Within.ofFst (by assumption) ?_)
    | (with_reducible refine Within.ofSome (by assumption) ?_)
    | split
    | dsimp only)

theorem State.openEntry_within {L0 : List RegName} {C0 : List Comp} {s0 : State} {s : State} {p : Nat} {x : OpenArgs} {r : SeqRec} {parent : Nat} (hL : subList [.BANK_CQ_STATUS, .BANK_TQ_STATUS, .SEQ_ENT] L0 = true) (hC : subList [.mem, .badCheck, .badWord, .hdw, .sqe] C0 = true) (hS : Within L0 C0 s0 s) :
    Within L0 C0 s0 (State.openEntry s p x r parent).2 := by
  unfold State.openEntry
  repeat' (first
    | with_reducible exact hS
    | with_reducible assumption
    | exact subList_trans (by decide +kernel) hL
    | exact subList_trans (by decide +kernel) hC
    | exact subList_elem (by decide +kernel) hL
    | exact subList_elem (by decide +kernel) hC
    | with_reducible apply Within.wr
    | with_reducible apply State.seqTouch_within
    | with_reducible apply State.zero_within
    | exact Within.memFilter
    | (with_reducible refine Within.foldl (fun _ _ _ => ?_) _ ?_)
    | (with_reducible refine Within.foldlPair (fun _ _ _ => ?_) _ ?_)
    | (with_reducible refine Within.foldlFst (fun _ _ _ => ?_) _ ?_)
    | (intro x1; refine Within.cut (l := L0) (c := C0) (s := s0) (t := x1) ?_ ?_; subst x1; rotate_left; intro _; rotate_right)
    | (intro _)
    | lift_lets
    | (with_reducible refine Within.ofPair (by assumption) ?_)
    | (with_reducible refine Within.ofTriple (by assumption) ?_)
    | (with_reducible refine Within.ofFour (by assumption) ?_)
    | (with_reducible refine Within.ofFst (by assumption) ?_)
    | (with_reducible refine Within.ofSome (by assumption) ?_)
    | split
    | dsimp only
    | with_reducible apply Within.sqe)

theorem execOpenSeq_within {L0 : List RegName} {C0 : List Comp} {s0 : State} {a : Agent} {p rsv : Nat} {s : State} (hL : subList [.BANK_CQ_STATUS, .BANK_TQ_STATUS, .MEM_DEEP_WEAR, .SEQ_P_CMD, .SEQ_P_RESULT, .SEQ_ENT, .FLT_STATUS, .FLT_REC_NEWEST, .FLT_REC_LOST, .FLT_LOG_STATUS, .FLT_P_EVENT] L0 = true) (hC : subList [.mem, .badCheck, .badWord, .resp, .flt, .hdw, .deep, .sqe] C0 = true) (hS : Within L0 C0 s0 s) :
    WithinOut L0 C0 s0 (execOpenSeq a p rsv s) := by
  unfold execOpenSeq
  repeat' (first
    | with_reducible exact hS
    | with_reducible assumption
    | exact subList_trans (by decide +kernel) hL
    | exact subList_trans (by decide +kernel) hC
    | exact subList_elem (by decide +kernel) hL
    | exact subList_elem (by decide +kernel) hC
    | with_reducible apply State.seqCommand_within
    | with_reducible apply State.openEntry_within
    | with_reducible apply WithinOut.next
    | exact Within.memFilter
    | (intro x1; refine Within.cut (l := L0) (c := C0) (s := s0) (t := x1) ?_ ?_; subst x1; rotate_left; intro _; rotate_right)
    | (intro _)
    | lift_lets
    | (with_reducible refine Within.ofPair (by assumption) ?_)
    | (with_reducible refine Within.ofTriple (by assumption) ?_)
    | (with_reducible refine Within.ofFour (by assumption) ?_)
    | (with_reducible refine Within.ofFst (by assumption) ?_)
    | (with_reducible refine Within.ofSome (by assumption) ?_)
    | split
    | dsimp only)

theorem execCloseSeq_within {L0 : List RegName} {C0 : List Comp} {s0 : State} {a : Agent} {p rsv : Nat} {s : State} (hL : subList [.MEM_DEEP_WEAR, .SEQ_P_CMD, .SEQ_P_RESULT, .SEQ_ENT, .FLT_STATUS, .FLT_REC_NEWEST, .FLT_REC_LOST, .FLT_LOG_STATUS, .FLT_P_EVENT] L0 = true) (hC : subList [.mem, .badCheck, .badWord, .resp, .flt, .upool, .deep, .sqe] C0 = true) (hS : Within L0 C0 s0 s) :
    WithinOut L0 C0 s0 (execCloseSeq a p rsv s) := by
  unfold execCloseSeq
  repeat' (first
    | with_reducible exact hS
    | with_reducible assumption
    | exact subList_trans (by decide +kernel) hL
    | exact subList_trans (by decide +kernel) hC
    | exact subList_elem (by decide +kernel) hL
    | exact subList_elem (by decide +kernel) hC
    | with_reducible apply State.seqCommand_within
    | with_reducible apply State.setSeqState_within
    | with_reducible apply State.freeSequence_within
    | with_reducible apply WithinOut.next
    | exact Within.memFilter
    | (intro x1; refine Within.cut (l := L0) (c := C0) (s := s0) (t := x1) ?_ ?_; subst x1; rotate_left; intro _; rotate_right)
    | (intro _)
    | lift_lets
    | (with_reducible refine Within.ofPair (by assumption) ?_)
    | (with_reducible refine Within.ofTriple (by assumption) ?_)
    | (with_reducible refine Within.ofFour (by assumption) ?_)
    | (with_reducible refine Within.ofFst (by assumption) ?_)
    | (with_reducible refine Within.ofSome (by assumption) ?_)
    | split
    | dsimp only)

theorem State.copyStaging_within {L0 : List RegName} {C0 : List Comp} {s0 : State} {s : State} {p : Nat} {g : Geom} {src dst k : Nat} (hL : subList [.BANK_CQ_STATUS, .BANK_TQ_STATUS] L0 = true) (hC : subList [.mem, .badCheck, .badWord, .hdw] C0 = true) (hS : Within L0 C0 s0 s) :
    Within L0 C0 s0 (State.copyStaging s p g src dst k) := by
  unfold State.copyStaging
  repeat' (first
    | with_reducible exact hS
    | with_reducible assumption
    | exact subList_trans (by decide +kernel) hL
    | exact subList_trans (by decide +kernel) hC
    | exact subList_elem (by decide +kernel) hL
    | exact subList_elem (by decide +kernel) hC
    | with_reducible apply State.seqTouch_within
    | with_reducible apply State.seqStoreKeep_within
    | exact Within.memFilter
    | (with_reducible refine Within.foldl (fun _ _ _ => ?_) _ ?_)
    | (with_reducible refine Within.foldlPair (fun _ _ _ => ?_) _ ?_)
    | (with_reducible refine Within.foldlFst (fun _ _ _ => ?_) _ ?_)
    | (intro x1; refine Within.cut (l := L0) (c := C0) (s := s0) (t := x1) ?_ ?_; subst x1; rotate_left; intro _; rotate_right)
    | (intro _)
    | lift_lets
    | (with_reducible refine Within.ofPair (by assumption) ?_)
    | (with_reducible refine Within.ofTriple (by assumption) ?_)
    | (with_reducible refine Within.ofFour (by assumption) ?_)
    | (with_reducible refine Within.ofFst (by assumption) ?_)
    | (with_reducible refine Within.ofSome (by assumption) ?_)
    | split
    | dsimp only
    | with_reducible apply Within.badCheck)

theorem execFork_within {L0 : List RegName} {C0 : List Comp} {s0 : State} {a : Agent} {p rsv : Nat} {s : State} (hL : subList [.BANK_CQ_STATUS, .BANK_TQ_STATUS, .MEM_DEEP_WEAR, .SEQ_P_CMD, .SEQ_P_RESULT, .SEQ_ENT, .FLT_STATUS, .FLT_REC_NEWEST, .FLT_REC_LOST, .FLT_LOG_STATUS, .FLT_P_EVENT] L0 = true) (hC : subList [.mem, .badCheck, .badWord, .resp, .flt, .hdw, .deep, .sqe] C0 = true) (hS : Within L0 C0 s0 s) :
    WithinOut L0 C0 s0 (execFork a p rsv s) := by
  unfold execFork
  repeat' (first
    | with_reducible exact hS
    | with_reducible assumption
    | exact subList_trans (by decide +kernel) hL
    | exact subList_trans (by decide +kernel) hC
    | exact subList_elem (by decide +kernel) hL
    | exact subList_elem (by decide +kernel) hC
    | with_reducible apply Within.wr
    | with_reducible apply Within.wrF
    | with_reducible apply State.seqCommand_within
    | with_reducible apply State.openEntry_within
    | with_reducible apply State.seqStore_within
    | with_reducible apply State.copyStaging_within
    | with_reducible apply WithinOut.next
    | exact Within.memFilter
    | (with_reducible refine Within.foldl (fun _ _ _ => ?_) _ ?_)
    | (with_reducible refine Within.foldlPair (fun _ _ _ => ?_) _ ?_)
    | (with_reducible refine Within.foldlFst (fun _ _ _ => ?_) _ ?_)
    | (intro x1; refine Within.cut (l := L0) (c := C0) (s := s0) (t := x1) ?_ ?_; subst x1; rotate_left; intro _; rotate_right)
    | (intro _)
    | lift_lets
    | (with_reducible refine Within.ofPair (by assumption) ?_)
    | (with_reducible refine Within.ofTriple (by assumption) ?_)
    | (with_reducible refine Within.ofFour (by assumption) ?_)
    | (with_reducible refine Within.ofFst (by assumption) ?_)
    | (with_reducible refine Within.ofSome (by assumption) ?_)
    | split
    | dsimp only
    | with_reducible apply Within.sqe)

theorem execTruncate_within {L0 : List RegName} {C0 : List Comp} {s0 : State} {a : Agent} {p rsv : Nat} {s : State} (hL : subList [.MEM_DEEP_WEAR, .SEQ_P_CMD, .SEQ_P_RESULT, .SEQ_ENT, .FLT_STATUS, .FLT_REC_NEWEST, .FLT_REC_LOST, .FLT_LOG_STATUS, .FLT_P_EVENT] L0 = true) (hC : subList [.resp, .flt, .deep] C0 = true) (hS : Within L0 C0 s0 s) :
    WithinOut L0 C0 s0 (execTruncate a p rsv s) := by
  unfold execTruncate
  repeat' (first
    | with_reducible exact hS
    | with_reducible assumption
    | exact subList_trans (by decide +kernel) hL
    | exact subList_trans (by decide +kernel) hC
    | exact subList_elem (by decide +kernel) hL
    | exact subList_elem (by decide +kernel) hC
    | with_reducible apply Within.wr
    | with_reducible apply Within.wrF
    | with_reducible apply State.seqCommand_within
    | with_reducible apply WithinOut.next
    | exact Within.memFilter
    | (intro x1; refine Within.cut (l := L0) (c := C0) (s := s0) (t := x1) ?_ ?_; subst x1; rotate_left; intro _; rotate_right)
    | (intro _)
    | lift_lets
    | (with_reducible refine Within.ofPair (by assumption) ?_)
    | (with_reducible refine Within.ofTriple (by assumption) ?_)
    | (with_reducible refine Within.ofFour (by assumption) ?_)
    | (with_reducible refine Within.ofFst (by assumption) ?_)
    | (with_reducible refine Within.ofSome (by assumption) ?_)
    | split
    | dsimp only)

theorem State.setFlushPages_within {L0 : List RegName} {C0 : List Comp} {s0 : State} {s : State} {p : Nat} {l : List Nat} (hL : subList ([] : List RegName) L0 = true) (hC : subList [.sqe] C0 = true) (hS : Within L0 C0 s0 s) :
    Within L0 C0 s0 (State.setFlushPages s p l) := by
  unfold State.setFlushPages
  repeat' (first
    | with_reducible exact hS
    | with_reducible assumption
    | exact subList_trans (by decide +kernel) hL
    | exact subList_trans (by decide +kernel) hC
    | exact subList_elem (by decide +kernel) hL
    | exact subList_elem (by decide +kernel) hC
    | with_reducible apply State.setSeqPart_within
    | exact Within.memFilter
    | (intro x1; refine Within.cut (l := L0) (c := C0) (s := s0) (t := x1) ?_ ?_; subst x1; rotate_left; intro _; rotate_right)
    | (intro _)
    | lift_lets
    | (with_reducible refine Within.ofPair (by assumption) ?_)
    | (with_reducible refine Within.ofTriple (by assumption) ?_)
    | (with_reducible refine Within.ofFour (by assumption) ?_)
    | (with_reducible refine Within.ofFst (by assumption) ?_)
    | (with_reducible refine Within.ofSome (by assumption) ?_)
    | split
    | dsimp only)

theorem State.takePages_within {L0 : List RegName} {C0 : List Comp} {s0 : State} {s : State} {p : Nat} {k0 : Nat} (hL : subList ([] : List RegName) L0 = true) (hC : subList [.free, .sqe] C0 = true) (hS : Within L0 C0 s0 s) :
    Within L0 C0 s0 (State.takePages s p k0) := by
  induction k0 generalizing s p with
  | zero =>
    unfold State.takePages
    repeat' (first
      | with_reducible exact hS
      | with_reducible assumption
      | exact subList_trans (by decide +kernel) hL
      | exact subList_trans (by decide +kernel) hC
      | exact subList_elem (by decide +kernel) hL
      | exact subList_elem (by decide +kernel) hC
      | with_reducible apply State.fresh_within
      | with_reducible apply State.setFlushPages_within
      | exact Within.memFilter
      | (intro x1; refine Within.cut (l := L0) (c := C0) (s := s0) (t := x1) ?_ ?_; subst x1; rotate_left; intro _; rotate_right)
      | (intro _)
      | lift_lets
      | (with_reducible refine Within.ofPair (by assumption) ?_)
      | (with_reducible refine Within.ofTriple (by assumption) ?_)
      | (with_reducible refine Within.ofFour (by assumption) ?_)
      | (with_reducible refine Within.ofFst (by assumption) ?_)
      | (with_reducible refine Within.ofSome (by assumption) ?_)
      | split
      | dsimp only
      | with_reducible apply Within.sqe)
  | succ n1 ih =>
    unfold State.takePages
    repeat' (first
      | with_reducible exact hS
      | with_reducible assumption
      | with_reducible apply ih
      | exact subList_trans (by decide +kernel) hL
      | exact subList_trans (by decide +kernel) hC
      | exact subList_elem (by decide +kernel) hL
      | exact subList_elem (by decide +kernel) hC
      | with_reducible apply State.fresh_within
      | with_reducible apply State.setFlushPages_within
      | exact Within.memFilter
      | (intro x1; refine Within.cut (l := L0) (c := C0) (s := s0) (t := x1) ?_ ?_; subst x1; rotate_left; intro _; rotate_right)
      | (intro _)
      | lift_lets
      | (with_reducible refine Within.ofPair (by assumption) ?_)
      | (with_reducible refine Within.ofTriple (by assumption) ?_)
      | (with_reducible refine Within.ofFour (by assumption) ?_)
      | (with_reducible refine Within.ofFst (by assumption) ?_)
      | (with_reducible refine Within.ofSome (by assumption) ?_)
      | split
      | dsimp only
      | with_reducible apply Within.sqe)

theorem State.keepPages_within {L0 : List RegName} {C0 : List Comp} {s0 : State} {s : State} {p k : Nat} (hL : subList ([] : List RegName) L0 = true) (hC : subList [.upool, .sqe] C0 = true) (hS : Within L0 C0 s0 s) :
    Within L0 C0 s0 (State.keepPages s p k) := by
  unfold State.keepPages
  repeat' (first
    | with_reducible exact hS
    | with_reducible assumption
    | exact subList_trans (by decide +kernel) hL
    | exact subList_trans (by decide +kernel) hC
    | exact subList_elem (by decide +kernel) hL
    | exact subList_elem (by decide +kernel) hC
    | with_reducible apply State.setFlushPages_within
    | with_reducible apply State.releaseExtent_within
    | exact Within.memFilter
    | (with_reducible refine Within.foldl (fun _ _ _ => ?_) _ ?_)
    | (with_reducible refine Within.foldlPair (fun _ _ _ => ?_) _ ?_)
    | (with_reducible refine Within.foldlFst (fun _ _ _ => ?_) _ ?_)
    | (intro x1; refine Within.cut (l := L0) (c := C0) (s := s0) (t := x1) ?_ ?_; subst x1; rotate_left; intro _; rotate_right)
    | (intro _)
    | lift_lets
    | (with_reducible refine Within.ofPair (by assumption) ?_)
    | (with_reducible refine Within.ofTriple (by assumption) ?_)
    | (with_reducible refine Within.ofFour (by assumption) ?_)
    | (with_reducible refine Within.ofFst (by assumption) ?_)
    | (with_reducible refine Within.ofSome (by assumption) ?_)
    | split
    | dsimp only
    | with_reducible apply Within.sqe)

theorem State.moveSlot_within {L0 : List RegName} {C0 : List Comp} {s0 : State} {s : State} {gm : Geom} {n l j g k : Nat} (hL : subList [.BANK_CQ_STATUS, .BANK_TQ_STATUS] L0 = true) (hC : subList [.mem, .badCheck, .badWord, .hdw] C0 = true) (hS : Within L0 C0 s0 s) :
    Within L0 C0 s0 (State.moveSlot s gm n l j g k) := by
  unfold State.moveSlot
  repeat' (first
    | with_reducible exact hS
    | with_reducible assumption
    | exact subList_trans (by decide +kernel) hL
    | exact subList_trans (by decide +kernel) hC
    | exact subList_elem (by decide +kernel) hL
    | exact subList_elem (by decide +kernel) hC
    | with_reducible apply State.seqTouch_within
    | with_reducible apply State.seqStore_within
    | with_reducible apply State.store_within
    | exact Within.memFilter
    | (with_reducible refine Within.foldl (fun _ _ _ => ?_) _ ?_)
    | (with_reducible refine Within.foldlPair (fun _ _ _ => ?_) _ ?_)
    | (with_reducible refine Within.foldlFst (fun _ _ _ => ?_) _ ?_)
    | (intro x1; refine Within.cut (l := L0) (c := C0) (s := s0) (t := x1) ?_ ?_; subst x1; rotate_left; intro _; rotate_right)
    | (intro _)
    | lift_lets
    | (with_reducible refine Within.ofPair (by assumption) ?_)
    | (with_reducible refine Within.ofTriple (by assumption) ?_)
    | (with_reducible refine Within.ofFour (by assumption) ?_)
    | (with_reducible refine Within.ofFst (by assumption) ?_)
    | (with_reducible refine Within.ofSome (by assumption) ?_)
    | split
    | dsimp only)

theorem State.flushNew_within {L0 : List RegName} {C0 : List Comp} {s0 : State} {s : State} {gm : Geom} {n : Nat} {pages : List Nat} (hL : subList [.BANK_CQ_STATUS, .BANK_TQ_STATUS, .SEQ_ENT] L0 = true) (hC : subList [.mem, .badCheck, .badWord, .hdw, .upool] C0 = true) (hS : Within L0 C0 s0 s) :
    Within L0 C0 s0 (State.flushNew s gm n pages) := by
  unfold State.flushNew
  repeat' (first
    | with_reducible exact hS
    | with_reducible assumption
    | exact subList_trans (by decide +kernel) hL
    | exact subList_trans (by decide +kernel) hC
    | exact subList_elem (by decide +kernel) hL
    | exact subList_elem (by decide +kernel) hC
    | with_reducible apply Within.wr
    | with_reducible apply State.zero_within
    | with_reducible apply State.moveSlot_within
    | with_reducible apply State.seqStore_within
    | with_reducible apply State.touchExtent_within
    | exact Within.memFilter
    | (with_reducible refine Within.foldl (fun _ _ _ => ?_) _ ?_)
    | (with_reducible refine Within.foldlPair (fun _ _ _ => ?_) _ ?_)
    | (with_reducible refine Within.foldlFst (fun _ _ _ => ?_) _ ?_)
    | (intro x1; refine Within.cut (l := L0) (c := C0) (s := s0) (t := x1) ?_ ?_; subst x1; rotate_left; intro _; rotate_right)
    | (intro _)
    | lift_lets
    | (with_reducible refine Within.ofPair (by assumption) ?_)
    | (with_reducible refine Within.ofTriple (by assumption) ?_)
    | (with_reducible refine Within.ofFour (by assumption) ?_)
    | (with_reducible refine Within.ofFst (by assumption) ?_)
    | (with_reducible refine Within.ofSome (by assumption) ?_)
    | split
    | dsimp only)

theorem State.copyPages_within {L0 : List RegName} {C0 : List Comp} {s0 : State} {s : State} {n : Nat} {l : List ((Nat × Nat) × Nat)} (hL : subList [.BANK_CQ_STATUS, .BANK_TQ_STATUS] L0 = true) (hC : subList [.mem, .badCheck, .badWord, .hdw, .sqe] C0 = true) (hS : Within L0 C0 s0 s) :
    Within L0 C0 s0 (State.copyPages s n l) := by
  unfold State.copyPages
  repeat' (first
    | with_reducible exact hS
    | with_reducible assumption
    | exact subList_trans (by decide +kernel) hL
    | exact subList_trans (by decide +kernel) hC
    | exact subList_elem (by decide +kernel) hL
    | exact subList_elem (by decide +kernel) hC
    | with_reducible apply State.seqTouch_within
    | with_reducible apply State.seqStore_within
    | with_reducible apply State.releasePage_within
    | exact Within.memFilter
    | (with_reducible refine Within.foldl (fun _ _ _ => ?_) _ ?_)
    | (with_reducible refine Within.foldlPair (fun _ _ _ => ?_) _ ?_)
    | (with_reducible refine Within.foldlFst (fun _ _ _ => ?_) _ ?_)
    | (intro x1; refine Within.cut (l := L0) (c := C0) (s := s0) (t := x1) ?_ ?_; subst x1; rotate_left; intro _; rotate_right)
    | (intro _)
    | lift_lets
    | (with_reducible refine Within.ofPair (by assumption) ?_)
    | (with_reducible refine Within.ofTriple (by assumption) ?_)
    | (with_reducible refine Within.ofFour (by assumption) ?_)
    | (with_reducible refine Within.ofFst (by assumption) ?_)
    | (with_reducible refine Within.ofSome (by assumption) ?_)
    | split
    | dsimp only)

theorem State.flushInto_within {L0 : List RegName} {C0 : List Comp} {s0 : State} {s : State} {gm : Geom} {n : Nat} {v : List (List Cand)} (hL : subList [.BANK_CQ_STATUS, .BANK_TQ_STATUS] L0 = true) (hC : subList [.mem, .badCheck, .badWord, .hdw, .upool] C0 = true) (hS : Within L0 C0 s0 s) :
    Within L0 C0 s0 (State.flushInto s gm n v) := by
  unfold State.flushInto
  repeat' (first
    | with_reducible exact hS
    | with_reducible assumption
    | exact subList_trans (by decide +kernel) hL
    | exact subList_trans (by decide +kernel) hC
    | exact subList_elem (by decide +kernel) hL
    | exact subList_elem (by decide +kernel) hC
    | with_reducible apply State.moveSlot_within
    | with_reducible apply State.touchExtent_within
    | exact Within.memFilter
    | (with_reducible refine Within.foldl (fun _ _ _ => ?_) _ ?_)
    | (with_reducible refine Within.foldlPair (fun _ _ _ => ?_) _ ?_)
    | (with_reducible refine Within.foldlFst (fun _ _ _ => ?_) _ ?_)
    | (intro x1; refine Within.cut (l := L0) (c := C0) (s := s0) (t := x1) ?_ ?_; subst x1; rotate_left; intro _; rotate_right)
    | (intro _)
    | lift_lets
    | (with_reducible refine Within.ofPair (by assumption) ?_)
    | (with_reducible refine Within.ofTriple (by assumption) ?_)
    | (with_reducible refine Within.ofFour (by assumption) ?_)
    | (with_reducible refine Within.ofFst (by assumption) ?_)
    | (with_reducible refine Within.ofSome (by assumption) ?_)
    | split
    | dsimp only)

theorem State.emptyStaging_within {L0 : List RegName} {C0 : List Comp} {s0 : State} {s : State} {n : Nat} (hL : subList [.SEQ_ENT] L0 = true) (hC : subList ([] : List Comp) C0 = true) (hS : Within L0 C0 s0 s) :
    Within L0 C0 s0 (State.emptyStaging s n) := by
  unfold State.emptyStaging
  repeat' (first
    | with_reducible exact hS
    | with_reducible assumption
    | exact subList_trans (by decide +kernel) hL
    | exact subList_trans (by decide +kernel) hC
    | exact subList_elem (by decide +kernel) hL
    | exact subList_elem (by decide +kernel) hC
    | with_reducible apply Within.wrF
    | exact Within.memFilter
    | (intro x1; refine Within.cut (l := L0) (c := C0) (s := s0) (t := x1) ?_ ?_; subst x1; rotate_left; intro _; rotate_right)
    | (intro _)
    | lift_lets
    | (with_reducible refine Within.ofPair (by assumption) ?_)
    | (with_reducible refine Within.ofTriple (by assumption) ?_)
    | (with_reducible refine Within.ofFour (by assumption) ?_)
    | (with_reducible refine Within.ofFst (by assumption) ?_)
    | (with_reducible refine Within.ofSome (by assumption) ?_)
    | split
    | dsimp only)

theorem State.flush_within {L0 : List RegName} {C0 : List Comp} {s0 : State} {s : State} {n : Nat} (hL : subList [.BANK_CQ_STATUS, .BANK_TQ_STATUS, .MEM_DEEP_WEAR, .MEM_P_EVICTS, .SEQ_ENT, .HDW_P_EVENT, .HDW_P_MISSES, .FLT_STATUS, .FLT_REC_NEWEST, .FLT_REC_LOST, .FLT_LOG_STATUS, .FLT_P_EVENT] L0 = true) (hC : subList [.free, .mem, .badCheck, .badWord, .resp, .pulses, .flt, .hdw, .upool, .deep, .upd, .sqe, .hp] C0 = true) (hS : Within L0 C0 s0 s) :
    Within L0 C0 s0 (State.flush s n).2 := by
  unfold State.flush
  repeat' (first
    | with_reducible exact hS
    | with_reducible assumption
    | exact subList_trans (by decide +kernel) hL
    | exact subList_trans (by decide +kernel) hC
    | exact subList_elem (by decide +kernel) hL
    | exact subList_elem (by decide +kernel) hC
    | with_reducible apply State.keepPages_within
    | with_reducible apply State.checkFailed_within
    | with_reducible apply State.takePages_within
    | with_reducible apply State.copyPages_within
    | with_reducible apply State.flushInto_within
    | with_reducible apply State.emptyStaging_within
    | with_reducible apply State.flushNew_within
    | with_reducible refine State.requestExtent_within (subList_trans (by decide +kernel) hL) (subList_trans (by decide +kernel) hC) ?_ _ (by assumption)
    | exact Within.memFilter
    | (intro x1; refine Within.cut (l := L0) (c := C0) (s := s0) (t := x1) ?_ ?_; subst x1; rotate_left; intro _; rotate_right)
    | (intro x1; refine Within.cut (l := L0) (c := C0) (s := s0) (t := x1.2) ?_ ?_; subst x1; rotate_left; intro _; clear_value x1; rotate_right)
    | (intro x1; refine Within.cut (l := L0) (c := C0) (s := s0) (t := x1.1) ?_ ?_; subst x1; rotate_left; intro _; clear_value x1; rotate_right)
    | (intro x1; have h1 : ∀ u, x1 = some u → Within L0 C0 s0 u := ?_; clear_value x1; rotate_left; subst x1; intro _ _; rotate_right)
    | (intro x1; clear_value x1)
    | (intro _)
    | lift_lets
    | (with_reducible refine Within.ofPair (by assumption) ?_)
    | (with_reducible refine Within.ofTriple (by assumption) ?_)
    | (with_reducible refine Within.ofFour (by assumption) ?_)
    | (with_reducible refine Within.ofFst (by assumption) ?_)
    | (with_reducible refine Within.ofSome (by assumption) ?_)
    | split
    | dsimp only)

theorem State.showSteps_within {L0 : List RegName} {C0 : List Comp} {s0 : State} {s : State} {p : Nat} (hL : subList [.SEQ_P_STEP_STATUS] L0 = true) (hC : subList ([] : List Comp) C0 = true) (hS : Within L0 C0 s0 s) :
    Within L0 C0 s0 (State.showSteps s p) := by
  unfold State.showSteps
  repeat' (first
    | with_reducible exact hS
    | with_reducible assumption
    | exact subList_trans (by decide +kernel) hL
    | exact subList_trans (by decide +kernel) hC
    | exact subList_elem (by decide +kernel) hL
    | exact subList_elem (by decide +kernel) hC
    | with_reducible apply Within.wrF
    | exact Within.memFilter
    | (intro x1; refine Within.cut (l := L0) (c := C0) (s := s0) (t := x1) ?_ ?_; subst x1; rotate_left; intro _; rotate_right)
    | (intro _)
    | lift_lets
    | (with_reducible refine Within.ofPair (by assumption) ?_)
    | (with_reducible refine Within.ofTriple (by assumption) ?_)
    | (with_reducible refine Within.ofFour (by assumption) ?_)
    | (with_reducible refine Within.ofFst (by assumption) ?_)
    | (with_reducible refine Within.ofSome (by assumption) ?_)
    | split
    | dsimp only)

theorem State.stepRefused_within {L0 : List RegName} {C0 : List Comp} {s0 : State} {s : State} {p code : Nat} (hL : subList [.MEM_DEEP_WEAR, .SEQ_P_STEP_STATUS, .FLT_STATUS, .FLT_REC_NEWEST, .FLT_REC_LOST, .FLT_LOG_STATUS, .FLT_P_EVENT] L0 = true) (hC : subList [.flt, .deep] C0 = true) (hS : Within L0 C0 s0 s) :
    Within L0 C0 s0 (State.stepRefused s p code) := by
  unfold State.stepRefused
  repeat' (first
    | with_reducible exact hS
    | with_reducible assumption
    | exact subList_trans (by decide +kernel) hL
    | exact subList_trans (by decide +kernel) hC
    | exact subList_elem (by decide +kernel) hL
    | exact subList_elem (by decide +kernel) hC
    | with_reducible apply Within.wrF
    | with_reducible apply Within.setB
    | with_reducible apply State.record_within
    | exact Within.memFilter
    | (intro x1; refine Within.cut (l := L0) (c := C0) (s := s0) (t := x1) ?_ ?_; subst x1; rotate_left; intro _; rotate_right)
    | (intro _)
    | lift_lets
    | (with_reducible refine Within.ofPair (by assumption) ?_)
    | (with_reducible refine Within.ofTriple (by assumption) ?_)
    | (with_reducible refine Within.ofFour (by assumption) ?_)
    | (with_reducible refine Within.ofFst (by assumption) ?_)
    | (with_reducible refine Within.ofSome (by assumption) ?_)
    | split
    | dsimp only)

theorem State.setBuilding_within {L0 : List RegName} {C0 : List Comp} {s0 : State} {s : State} {p epoch : Nat} {f : List StepEnt → List StepEnt} (hL : subList ([] : List RegName) L0 = true) (hC : subList [.sqe] C0 = true) (hS : Within L0 C0 s0 s) :
    Within L0 C0 s0 (State.setBuilding s p epoch f) := by
  unfold State.setBuilding
  repeat' (first
    | with_reducible exact hS
    | with_reducible assumption
    | exact subList_trans (by decide +kernel) hL
    | exact subList_trans (by decide +kernel) hC
    | exact subList_elem (by decide +kernel) hL
    | exact subList_elem (by decide +kernel) hC
    | with_reducible apply State.setSeqPart_within
    | exact Within.memFilter
    | (intro x1; refine Within.cut (l := L0) (c := C0) (s := s0) (t := x1) ?_ ?_; subst x1; rotate_left; intro _; rotate_right)
    | (intro _)
    | lift_lets
    | (with_reducible refine Within.ofPair (by assumption) ?_)
    | (with_reducible refine Within.ofTriple (by assumption) ?_)
    | (with_reducible refine Within.ofFour (by assumption) ?_)
    | (with_reducible refine Within.ofFst (by assumption) ?_)
    | (with_reducible refine Within.ofSome (by assumption) ?_)
    | split
    | dsimp only)

theorem State.setSeqStatus_within {L0 : List RegName} {C0 : List Comp} {s0 : State} {s : State} {n code : Nat} (hL : subList [.SEQ_ENT] L0 = true) (hC : subList ([] : List Comp) C0 = true) (hS : Within L0 C0 s0 s) :
    Within L0 C0 s0 (State.setSeqStatus s n code) := by
  unfold State.setSeqStatus
  repeat' (first
    | with_reducible exact hS
    | with_reducible assumption
    | exact subList_trans (by decide +kernel) hL
    | exact subList_trans (by decide +kernel) hC
    | exact subList_elem (by decide +kernel) hL
    | exact subList_elem (by decide +kernel) hC
    | with_reducible apply Within.wrF
    | exact Within.memFilter
    | (intro x1; refine Within.cut (l := L0) (c := C0) (s := s0) (t := x1) ?_ ?_; subst x1; rotate_left; intro _; rotate_right)
    | (intro _)
    | lift_lets
    | (with_reducible refine Within.ofPair (by assumption) ?_)
    | (with_reducible refine Within.ofTriple (by assumption) ?_)
    | (with_reducible refine Within.ofFour (by assumption) ?_)
    | (with_reducible refine Within.ofFst (by assumption) ?_)
    | (with_reducible refine Within.ofSome (by assumption) ?_)
    | split
    | dsimp only)

theorem State.stepRequest_within {L0 : List RegName} {C0 : List Comp} {s0 : State} {s : State} {p epoch : Nat} {earlier : List Nat} {want n : Nat} (hL : subList [.BANK_CQ_STATUS, .BANK_TQ_STATUS, .MEM_DEEP_WEAR, .MEM_P_EVICTS, .SEQ_P_WAITS, .SEQ_ENT, .HDW_P_EVENT, .HDW_P_MISSES, .FLT_STATUS, .FLT_REC_NEWEST, .FLT_REC_LOST, .FLT_LOG_STATUS, .FLT_P_EVENT] L0 = true) (hC : subList [.free, .mem, .badCheck, .badWord, .resp, .pulses, .flt, .hdw, .upool, .deep, .upd, .sqe, .hp] C0 = true) (hS : Within L0 C0 s0 s) :
    Within L0 C0 s0 (State.stepRequest s p epoch earlier want n).2 := by
  unfold State.stepRequest
  repeat' (first
    | with_reducible exact hS
    | with_reducible assumption
    | exact subList_trans (by decide +kernel) hL
    | exact subList_trans (by decide +kernel) hC
    | exact subList_elem (by decide +kernel) hL
    | exact subList_elem (by decide +kernel) hC
    | with_reducible apply Within.wrF
    | with_reducible apply Within.bump
    | with_reducible apply State.setSeqStatus_within
    | with_reducible apply State.setBuilding_within
    | with_reducible apply State.flush_within
    | with_reducible apply State.endSequence_within
    | with_reducible apply State.setSeqState_within
    | exact Within.memFilter
    | (intro x1; refine Within.cut (l := L0) (c := C0) (s := s0) (t := x1) ?_ ?_; subst x1; rotate_left; intro _; rotate_right)
    | (intro x1; refine Within.cut (l := L0) (c := C0) (s := s0) (t := x1.2) ?_ ?_; subst x1; rotate_left; intro _; clear_value x1; rotate_right)
    | (intro x1; refine Within.cut (l := L0) (c := C0) (s := s0) (t := x1.1) ?_ ?_; subst x1; rotate_left; intro _; clear_value x1; rotate_right)
    | (intro x1; have h1 : ∀ u, x1 = some u → Within L0 C0 s0 u := ?_; clear_value x1; rotate_left; subst x1; intro _ _; rotate_right)
    | (intro x1; clear_value x1)
    | (intro _)
    | lift_lets
    | (with_reducible refine Within.ofPair (by assumption) ?_)
    | (with_reducible refine Within.ofTriple (by assumption) ?_)
    | (with_reducible refine Within.ofFour (by assumption) ?_)
    | (with_reducible refine Within.ofFst (by assumption) ?_)
    | (with_reducible refine Within.ofSome (by assumption) ?_)
    | split
    | dsimp only)

theorem State.stepRequests_within {L0 : List RegName} {C0 : List Comp} {s0 : State} {s : State} {p epoch : Nat} {done : List WlEntry} {k0 : List (Nat × Nat)} (hL : subList [.BANK_CQ_STATUS, .BANK_TQ_STATUS, .MEM_DEEP_WEAR, .MEM_P_EVICTS, .SEQ_P_WAITS, .SEQ_ENT, .HDW_P_EVENT, .HDW_P_MISSES, .FLT_STATUS, .FLT_REC_NEWEST, .FLT_REC_LOST, .FLT_LOG_STATUS, .FLT_P_EVENT] L0 = true) (hC : subList [.free, .mem, .badCheck, .badWord, .resp, .pulses, .flt, .hdw, .upool, .deep, .upd, .sqe, .hp] C0 = true) (hS : Within L0 C0 s0 s) :
    Within L0 C0 s0 (State.stepRequests s p epoch done k0).2 := by
  induction k0 generalizing s p epoch done with
  | nil =>
    unfold State.stepRequests
    repeat' (first
      | with_reducible exact hS
      | with_reducible assumption
      | exact subList_trans (by decide +kernel) hL
      | exact subList_trans (by decide +kernel) hC
      | exact subList_elem (by decide +kernel) hL
      | exact subList_elem (by decide +kernel) hC
      | with_reducible apply State.stepRequest_within
      | exact Within.memFilter
      | (intro x1; refine Within.cut (l := L0) (c := C0) (s := s0) (t := x1) ?_ ?_; subst x1; rotate_left; intro _; rotate_right)
      | (intro _)
      | lift_lets
      | (with_reducible refine Within.ofPair (by assumption) ?_)
      | (with_reducible refine Within.ofTriple (by assumption) ?_)
      | (with_reducible refine Within.ofFour (by assumption) ?_)
      | (with_reducible refine Within.ofFst (by assumption) ?_)
      | (with_reducible refine Within.ofSome (by assumption) ?_)
      | split
      | dsimp only)
  | cons a1 l1 ih =>
    unfold State.stepRequests
    repeat' (first
      | with_reducible exact hS
      | with_reducible assumption
      | with_reducible apply ih
      | exact subList_trans (by decide +kernel) hL
      | exact subList_trans (by decide +kernel) hC
      | exact subList_elem (by decide +kernel) hL
      | exact subList_elem (by decide +kernel) hC
      | with_reducible apply State.stepRequest_within
      | exact Within.memFilter
      | (intro x1; refine Within.cut (l := L0) (c := C0) (s := s0) (t := x1) ?_ ?_; subst x1; rotate_left; intro _; rotate_right)
      | (intro _)
      | lift_lets
      | (with_reducible refine Within.ofPair (by assumption) ?_)
      | (with_reducible refine Within.ofTriple (by assumption) ?_)
      | (with_reducible refine Within.ofFour (by assumption) ?_)
      | (with_reducible refine Within.ofFst (by assumption) ?_)
      | (with_reducible refine Within.ofSome (by assumption) ?_)
      | split
      | dsimp only)

theorem State.finishBuild_within {L0 : List RegName} {C0 : List Comp} {s0 : State} {s : State} {p : Nat} {b : Build} {l : List WlEntry} (hL : subList [.BANK_CQ_STATUS, .BANK_TQ_STATUS, .MEM_DEEP_WEAR, .SEQ_P_STEP_STATUS, .FLT_STATUS, .FLT_REC_NEWEST, .FLT_REC_LOST, .FLT_LOG_STATUS, .FLT_P_EVENT] L0 = true) (hC : subList [.free, .mem, .badCheck, .badWord, .flt, .bank, .hdw, .deep, .sqe] C0 = true) (hS : Within L0 C0 s0 s) :
    Within L0 C0 s0 (State.finishBuild s p b l) := by
  unfold State.finishBuild
  repeat' (first
    | with_reducible exact hS
    | with_reducible assumption
    | exact subList_trans (by decide +kernel) hL
    | exact subList_trans (by decide +kernel) hC
    | exact subList_elem (by decide +kernel) hL
    | exact subList_elem (by decide +kernel) hC
    | with_reducible apply Within.setB
    | with_reducible apply State.setSeqPart_within
    | with_reducible apply State.fresh_within
    | with_reducible apply State.postWrite_within
    | with_reducible apply State.showSteps_within
    | exact Within.memFilter
    | (intro x1; refine Within.cut (l := L0) (c := C0) (s := s0) (t := x1) ?_ ?_; subst x1; rotate_left; intro _; rotate_right)
    | (intro _)
    | lift_lets
    | (with_reducible refine Within.ofPair (by assumption) ?_)
    | (with_reducible refine Within.ofTriple (by assumption) ?_)
    | (with_reducible refine Within.ofFour (by assumption) ?_)
    | (with_reducible refine Within.ofFst (by assumption) ?_)
    | (with_reducible refine Within.ofSome (by assumption) ?_)
    | split
    | dsimp only)

theorem State.goOn_within {L0 : List RegName} {C0 : List Comp} {s0 : State} {s : State} {p : Nat} (hL : subList [.BANK_CQ_STATUS, .BANK_TQ_STATUS, .MEM_DEEP_WEAR, .MEM_P_EVICTS, .SEQ_P_STEP_STATUS, .SEQ_P_WAITS, .SEQ_ENT, .HDW_P_EVENT, .HDW_P_MISSES, .FLT_STATUS, .FLT_REC_NEWEST, .FLT_REC_LOST, .FLT_LOG_STATUS, .FLT_P_EVENT] L0 = true) (hC : subList [.free, .mem, .badCheck, .badWord, .resp, .pulses, .flt, .bank, .hdw, .upool, .deep, .upd, .sqe, .hp] C0 = true) (hS : Within L0 C0 s0 s) :
    Within L0 C0 s0 (State.goOn s p) := by
  unfold State.goOn
  repeat' (first
    | with_reducible exact hS
    | with_reducible assumption
    | exact subList_trans (by decide +kernel) hL
    | exact subList_trans (by decide +kernel) hC
    | exact subList_elem (by decide +kernel) hL
    | exact subList_elem (by decide +kernel) hC
    | with_reducible apply State.stepRequests_within
    | with_reducible apply State.finishBuild_within
    | with_reducible apply State.setSeqPart_within
    | exact Within.memFilter
    | (intro x1; refine Within.cut (l := L0) (c := C0) (s := s0) (t := x1) ?_ ?_; subst x1; rotate_left; intro _; rotate_right)
    | (intro _)
    | lift_lets
    | (with_reducible refine Within.ofPair (by assumption) ?_)
    | (with_reducible refine Within.ofTriple (by assumption) ?_)
    | (with_reducible refine Within.ofFour (by assumption) ?_)
    | (with_reducible refine Within.ofFst (by assumption) ?_)
    | (with_reducible refine Within.ofSome (by assumption) ?_)
    | split
    | dsimp only)

theorem execStepBegin_within {L0 : List RegName} {C0 : List Comp} {s0 : State} {a : Agent} {p count : Nat} {s : State} (hL : subList [.BANK_CQ_STATUS, .BANK_TQ_STATUS, .MEM_DEEP_WEAR, .MEM_P_EVICTS, .SEQ_P_STEP_CTRL, .SEQ_P_STEP_STATUS, .SEQ_P_EPOCH, .SEQ_P_WAITS, .SEQ_ENT, .HDW_P_EVENT, .HDW_P_MISSES, .FLT_STATUS, .FLT_REC_NEWEST, .FLT_REC_LOST, .FLT_LOG_STATUS, .FLT_P_EVENT] L0 = true) (hC : subList [.free, .mem, .badCheck, .badWord, .resp, .pulses, .flt, .bank, .hdw, .upool, .deep, .upd, .sqe, .hp] C0 = true) (hS : Within L0 C0 s0 s) :
    WithinOut L0 C0 s0 (execStepBegin a p count s) := by
  unfold execStepBegin
  repeat' (first
    | with_reducible exact hS
    | with_reducible assumption
    | exact subList_trans (by decide +kernel) hL
    | exact subList_trans (by decide +kernel) hC
    | exact subList_elem (by decide +kernel) hL
    | exact subList_elem (by decide +kernel) hC
    | with_reducible apply Within.wr
    | with_reducible apply Within.wrF
    | with_reducible apply State.respErr_within
    | with_reducible apply State.denied_within
    | with_reducible apply State.respOk_within
    | with_reducible apply State.stepRefused_within
    | with_reducible apply State.wakeAll_within
    | with_reducible apply State.engineRead_within
    | with_reducible apply State.setSeqPart_within
    | with_reducible apply State.showSteps_within
    | with_reducible apply State.goOn_within
    | with_reducible apply WithinOut.next
    | exact Within.memFilter
    | (intro x1; refine Within.cut (l := L0) (c := C0) (s := s0) (t := x1) ?_ ?_; subst x1; rotate_left; intro _; rotate_right)
    | (intro _)
    | lift_lets
    | (with_reducible refine Within.ofPair (by assumption) ?_)
    | (with_reducible refine Within.ofTriple (by assumption) ?_)
    | (with_reducible refine Within.ofFour (by assumption) ?_)
    | (with_reducible refine Within.ofFst (by assumption) ?_)
    | (with_reducible refine Within.ofSome (by assumption) ?_)
    | split
    | dsimp only)

theorem execStepEnd_within {L0 : List RegName} {C0 : List Comp} {s0 : State} {a : Agent} {p : Nat} {s : State} (hL : subList [.MEM_DEEP_WEAR, .SEQ_P_STEP_STATUS, .FLT_STATUS, .FLT_REC_NEWEST, .FLT_REC_LOST, .FLT_LOG_STATUS, .FLT_P_EVENT] L0 = true) (hC : subList [.resp, .flt, .deep, .sqe] C0 = true) (hS : Within L0 C0 s0 s) :
    WithinOut L0 C0 s0 (execStepEnd a p s) := by
  unfold execStepEnd
  repeat' (first
    | with_reducible exact hS
    | with_reducible assumption
    | exact subList_trans (by decide +kernel) hL
    | exact subList_trans (by decide +kernel) hC
    | exact subList_elem (by decide +kernel) hL
    | exact subList_elem (by decide +kernel) hC
    | with_reducible apply State.respErr_within
    | with_reducible apply State.denied_within
    | with_reducible apply State.respOk_within
    | with_reducible apply State.stepRefused_within
    | with_reducible apply State.setSeqPart_within
    | with_reducible apply WithinOut.next
    | exact Within.memFilter
    | (intro x1; refine Within.cut (l := L0) (c := C0) (s := s0) (t := x1) ?_ ?_; subst x1; rotate_left; intro _; rotate_right)
    | (intro _)
    | lift_lets
    | (with_reducible refine Within.ofPair (by assumption) ?_)
    | (with_reducible refine Within.ofTriple (by assumption) ?_)
    | (with_reducible refine Within.ofFour (by assumption) ?_)
    | (with_reducible refine Within.ofFst (by assumption) ?_)
    | (with_reducible refine Within.ofSome (by assumption) ?_)
    | split
    | dsimp only)

theorem State.takeScores_within {L0 : List RegName} {C0 : List Comp} {s0 : State} {s : State} {p slot g : Nat} (hL : subList [.BANK_CQ_STATUS, .BANK_TQ_STATUS] L0 = true) (hC : subList [.mem, .badCheck, .badWord, .hdw] C0 = true) (hS : Within L0 C0 s0 s) :
    Within L0 C0 s0 (State.takeScores s p slot g) := by
  unfold State.takeScores
  repeat' (first
    | with_reducible exact hS
    | with_reducible assumption
    | exact subList_trans (by decide +kernel) hL
    | exact subList_trans (by decide +kernel) hC
    | exact subList_elem (by decide +kernel) hL
    | exact subList_elem (by decide +kernel) hC
    | with_reducible apply State.seqTouch_within
    | with_reducible apply State.seqStore_within
    | exact Within.memFilter
    | (with_reducible refine Within.foldl (fun _ _ _ => ?_) _ ?_)
    | (with_reducible refine Within.foldlPair (fun _ _ _ => ?_) _ ?_)
    | (with_reducible refine Within.foldlFst (fun _ _ _ => ?_) _ ?_)
    | (intro x1; refine Within.cut (l := L0) (c := C0) (s := s0) (t := x1) ?_ ?_; subst x1; rotate_left; intro _; rotate_right)
    | (intro _)
    | lift_lets
    | (with_reducible refine Within.ofPair (by assumption) ?_)
    | (with_reducible refine Within.ofTriple (by assumption) ?_)
    | (with_reducible refine Within.ofFour (by assumption) ?_)
    | (with_reducible refine Within.ofFst (by assumption) ?_)
    | (with_reducible refine Within.ofSome (by assumption) ?_)
    | split
    | dsimp only)

theorem State.setFeed_within {L0 : List RegName} {C0 : List Comp} {s0 : State} {s : State} {p i : Nat} {f : FeedTile} (hL : subList ([] : List RegName) L0 = true) (hC : subList [.sqe] C0 = true) (hS : Within L0 C0 s0 s) :
    Within L0 C0 s0 (State.setFeed s p i f) := by
  unfold State.setFeed
  repeat' (first
    | with_reducible exact hS
    | with_reducible assumption
    | exact subList_trans (by decide +kernel) hL
    | exact subList_trans (by decide +kernel) hC
    | exact subList_elem (by decide +kernel) hL
    | exact subList_elem (by decide +kernel) hC
    | with_reducible apply State.setSeqPart_within
    | exact Within.memFilter
    | (intro x1; refine Within.cut (l := L0) (c := C0) (s := s0) (t := x1) ?_ ?_; subst x1; rotate_left; intro _; rotate_right)
    | (intro _)
    | lift_lets
    | (with_reducible refine Within.ofPair (by assumption) ?_)
    | (with_reducible refine Within.ofTriple (by assumption) ?_)
    | (with_reducible refine Within.ofFour (by assumption) ?_)
    | (with_reducible refine Within.ofFst (by assumption) ?_)
    | (with_reducible refine Within.ofSome (by assumption) ?_)
    | split
    | dsimp only)

theorem State.settleFeed_within {L0 : List RegName} {C0 : List Comp} {s0 : State} {s : State} {p i : Nat} (hL : subList [.BANK_CQ_STATUS, .BANK_TQ_STATUS] L0 = true) (hC : subList [.mem, .badCheck, .badWord, .hdw, .sqe] C0 = true) (hS : Within L0 C0 s0 s) :
    Within L0 C0 s0 (State.settleFeed s p i) := by
  unfold State.settleFeed
  repeat' (first
    | with_reducible exact hS
    | with_reducible assumption
    | exact subList_trans (by decide +kernel) hL
    | exact subList_trans (by decide +kernel) hC
    | exact subList_elem (by decide +kernel) hL
    | exact subList_elem (by decide +kernel) hC
    | with_reducible apply State.takeScores_within
    | with_reducible apply State.setFeed_within
    | exact Within.memFilter
    | (with_reducible refine Within.foldl (fun _ _ _ => ?_) _ ?_)
    | (with_reducible refine Within.foldlPair (fun _ _ _ => ?_) _ ?_)
    | (with_reducible refine Within.foldlFst (fun _ _ _ => ?_) _ ?_)
    | (intro x1; refine Within.cut (l := L0) (c := C0) (s := s0) (t := x1) ?_ ?_; subst x1; rotate_left; intro _; rotate_right)
    | (intro _)
    | lift_lets
    | (with_reducible refine Within.ofPair (by assumption) ?_)
    | (with_reducible refine Within.ofTriple (by assumption) ?_)
    | (with_reducible refine Within.ofFour (by assumption) ?_)
    | (with_reducible refine Within.ofFst (by assumption) ?_)
    | (with_reducible refine Within.ofSome (by assumption) ?_)
    | split
    | dsimp only)

theorem execFeedPageSend_within {L0 : List RegName} {C0 : List Comp} {s0 : State} {p i : Nat} {s : State} (hL : subList [.BANK_CQ_STATUS, .BANK_TQ_STATUS, .MEM_DEEP_WEAR, .FLT_STATUS, .FLT_REC_NEWEST, .FLT_REC_LOST, .FLT_LOG_STATUS, .FLT_P_EVENT] L0 = true) (hC : subList [.mem, .badCheck, .badWord, .flt, .hdw, .upool, .deep, .sqe] C0 = true) (hS : Within L0 C0 s0 s) :
    WithinOut L0 C0 s0 (execFeedPageSend p i s) := by
  unfold execFeedPageSend
  repeat' (first
    | with_reducible exact hS
    | with_reducible assumption
    | exact subList_trans (by decide +kernel) hL
    | exact subList_trans (by decide +kernel) hC
    | exact subList_elem (by decide +kernel) hL
    | exact subList_elem (by decide +kernel) hC
    | with_reducible apply State.wakeAll_within
    | with_reducible apply State.uncorrectable_within
    | with_reducible apply State.settleFeed_within
    | with_reducible apply State.seqTouch_within
    | with_reducible apply State.store_within
    | with_reducible apply State.touchExtent_within
    | with_reducible apply State.storeKeep_within
    | with_reducible apply State.setFeed_within
    | with_reducible apply WithinOut.next
    | exact Within.memFilter
    | (intro x1; refine Within.cut (l := L0) (c := C0) (s := s0) (t := x1) ?_ ?_; subst x1; rotate_left; intro _; rotate_right)
    | (intro _)
    | lift_lets
    | (with_reducible refine Within.ofPair (by assumption) ?_)
    | (with_reducible refine Within.ofTriple (by assumption) ?_)
    | (with_reducible refine Within.ofFour (by assumption) ?_)
    | (with_reducible refine Within.ofFst (by assumption) ?_)
    | (with_reducible refine Within.ofSome (by assumption) ?_)
    | split
    | dsimp only)

theorem State.dropBuild_within {L0 : List RegName} {C0 : List Comp} {s0 : State} {s : State} {p epoch : Nat} (hL : subList ([] : List RegName) L0 = true) (hC : subList [.sqe] C0 = true) (hS : Within L0 C0 s0 s) :
    Within L0 C0 s0 (State.dropBuild s p epoch) := by
  unfold State.dropBuild
  repeat' (first
    | with_reducible exact hS
    | with_reducible assumption
    | exact subList_trans (by decide +kernel) hL
    | exact subList_trans (by decide +kernel) hC
    | exact subList_elem (by decide +kernel) hL
    | exact subList_elem (by decide +kernel) hC
    | with_reducible apply State.setSeqPart_within
    | with_reducible apply State.releasePage_within
    | exact Within.memFilter
    | (with_reducible refine Within.foldl (fun _ _ _ => ?_) _ ?_)
    | (with_reducible refine Within.foldlPair (fun _ _ _ => ?_) _ ?_)
    | (with_reducible refine Within.foldlFst (fun _ _ _ => ?_) _ ?_)
    | (intro x1; refine Within.cut (l := L0) (c := C0) (s := s0) (t := x1) ?_ ?_; subst x1; rotate_left; intro _; rotate_right)
    | (intro _)
    | lift_lets
    | (with_reducible refine Within.ofPair (by assumption) ?_)
    | (with_reducible refine Within.ofTriple (by assumption) ?_)
    | (with_reducible refine Within.ofFour (by assumption) ?_)
    | (with_reducible refine Within.ofFst (by assumption) ?_)
    | (with_reducible refine Within.ofSome (by assumption) ?_)
    | split
    | dsimp only)

theorem State.stepLeaves_within {L0 : List RegName} {C0 : List Comp} {s0 : State} {s : State} {p : Nat} {st : SeqStep} (hL : subList [.SEQ_P_STEP_STATUS, .SEQ_ENT] L0 = true) (hC : subList [.mem, .badCheck, .badWord, .upool, .sqe] C0 = true) (hS : Within L0 C0 s0 s) :
    Within L0 C0 s0 (State.stepLeaves s p st) := by
  unfold State.stepLeaves
  repeat' (first
    | with_reducible exact hS
    | with_reducible assumption
    | exact subList_trans (by decide +kernel) hL
    | exact subList_trans (by decide +kernel) hC
    | exact subList_elem (by decide +kernel) hL
    | exact subList_elem (by decide +kernel) hC
    | with_reducible apply State.setSeqPart_within
    | with_reducible apply State.freeSequence_within
    | with_reducible apply State.setSeqState_within
    | with_reducible apply State.reapPages_within
    | with_reducible apply State.showSteps_within
    | exact Within.memFilter
    | (with_reducible refine Within.foldl (fun _ _ _ => ?_) _ ?_)
    | (with_reducible refine Within.foldlPair (fun _ _ _ => ?_) _ ?_)
    | (with_reducible refine Within.foldlFst (fun _ _ _ => ?_) _ ?_)
    | (intro x1; refine Within.cut (l := L0) (c := C0) (s := s0) (t := x1) ?_ ?_; subst x1; rotate_left; intro _; rotate_right)
    | (intro _)
    | lift_lets
    | (with_reducible refine Within.ofPair (by assumption) ?_)
    | (with_reducible refine Within.ofTriple (by assumption) ?_)
    | (with_reducible refine Within.ofFour (by assumption) ?_)
    | (with_reducible refine Within.ofFst (by assumption) ?_)
    | (with_reducible refine Within.ofSome (by assumption) ?_)
    | split
    | dsimp only)

theorem State.commitEnt_within {L0 : List RegName} {C0 : List Comp} {s0 : State} {s : State} {epoch : Nat} {e : StepEnt} (hL : subList [.BANK_CQ_STATUS, .BANK_TQ_STATUS, .SEQ_ENT] L0 = true) (hC : subList [.mem, .badWord, .hdw] C0 = true) (hS : Within L0 C0 s0 s) :
    Within L0 C0 s0 (State.commitEnt s epoch e) := by
  unfold State.commitEnt
  repeat' (first
    | with_reducible exact hS
    | with_reducible assumption
    | exact subList_trans (by decide +kernel) hL
    | exact subList_trans (by decide +kernel) hC
    | exact subList_elem (by decide +kernel) hL
    | exact subList_elem (by decide +kernel) hC
    | with_reducible apply Within.wr
    | with_reducible apply Within.wrF
    | with_reducible apply State.seqStoreKeep_within
    | exact Within.memFilter
    | (with_reducible refine Within.foldl (fun _ _ _ => ?_) _ ?_)
    | (with_reducible refine Within.foldlPair (fun _ _ _ => ?_) _ ?_)
    | (with_reducible refine Within.foldlFst (fun _ _ _ => ?_) _ ?_)
    | (intro x1; refine Within.cut (l := L0) (c := C0) (s := s0) (t := x1) ?_ ?_; subst x1; rotate_left; intro _; rotate_right)
    | (intro _)
    | lift_lets
    | (with_reducible refine Within.ofPair (by assumption) ?_)
    | (with_reducible refine Within.ofTriple (by assumption) ?_)
    | (with_reducible refine Within.ofFour (by assumption) ?_)
    | (with_reducible refine Within.ofFst (by assumption) ?_)
    | (with_reducible refine Within.ofSome (by assumption) ?_)
    | split
    | dsimp only)

theorem State.settleFeeds_within {L0 : List RegName} {C0 : List Comp} {s0 : State} {s : State} {p : Nat} (hL : subList [.BANK_CQ_STATUS, .BANK_TQ_STATUS] L0 = true) (hC : subList [.mem, .badCheck, .badWord, .hdw, .sqe] C0 = true) (hS : Within L0 C0 s0 s) :
    Within L0 C0 s0 (State.settleFeeds s p) := by
  unfold State.settleFeeds
  repeat' (first
    | with_reducible exact hS
    | with_reducible assumption
    | exact subList_trans (by decide +kernel) hL
    | exact subList_trans (by decide +kernel) hC
    | exact subList_elem (by decide +kernel) hL
    | exact subList_elem (by decide +kernel) hC
    | with_reducible apply State.settleFeed_within
    | exact Within.memFilter
    | (with_reducible refine Within.foldl (fun _ _ _ => ?_) _ ?_)
    | (with_reducible refine Within.foldlPair (fun _ _ _ => ?_) _ ?_)
    | (with_reducible refine Within.foldlFst (fun _ _ _ => ?_) _ ?_)
    | (intro x1; refine Within.cut (l := L0) (c := C0) (s := s0) (t := x1) ?_ ?_; subst x1; rotate_left; intro _; rotate_right)
    | (intro _)
    | lift_lets
    | (with_reducible refine Within.ofPair (by assumption) ?_)
    | (with_reducible refine Within.ofTriple (by assumption) ?_)
    | (with_reducible refine Within.ofFour (by assumption) ?_)
    | (with_reducible refine Within.ofFst (by assumption) ?_)
    | (with_reducible refine Within.ofSome (by assumption) ?_)
    | split
    | dsimp only)

theorem execStepCommit_within {L0 : List RegName} {C0 : List Comp} {s0 : State} {p : Nat} {s : State} (hL : subList [.BANK_CQ_STATUS, .BANK_TQ_STATUS, .SEQ_P_STEP_STATUS, .SEQ_ENT] L0 = true) (hC : subList [.mem, .badCheck, .badWord, .hdw, .upool, .sqe] C0 = true) (hS : Within L0 C0 s0 s) :
    WithinOut L0 C0 s0 (execStepCommit p s) := by
  unfold execStepCommit
  repeat' (first
    | with_reducible exact hS
    | with_reducible assumption
    | exact subList_trans (by decide +kernel) hL
    | exact subList_trans (by decide +kernel) hC
    | exact subList_elem (by decide +kernel) hL
    | exact subList_elem (by decide +kernel) hC
    | with_reducible apply Within.setB
    | with_reducible apply State.wakeAll_within
    | with_reducible apply State.settleFeeds_within
    | with_reducible apply State.commitEnt_within
    | with_reducible apply State.stepLeaves_within
    | with_reducible apply WithinOut.next
    | exact Within.memFilter
    | (with_reducible refine Within.foldl (fun _ _ _ => ?_) _ ?_)
    | (with_reducible refine Within.foldlPair (fun _ _ _ => ?_) _ ?_)
    | (with_reducible refine Within.foldlFst (fun _ _ _ => ?_) _ ?_)
    | (intro x1; refine Within.cut (l := L0) (c := C0) (s := s0) (t := x1) ?_ ?_; subst x1; rotate_left; intro _; rotate_right)
    | (intro _)
    | lift_lets
    | (with_reducible refine Within.ofPair (by assumption) ?_)
    | (with_reducible refine Within.ofTriple (by assumption) ?_)
    | (with_reducible refine Within.ofFour (by assumption) ?_)
    | (with_reducible refine Within.ofFst (by assumption) ?_)
    | (with_reducible refine Within.ofSome (by assumption) ?_)
    | split
    | dsimp only)

theorem State.abortStep_within {L0 : List RegName} {C0 : List Comp} {s0 : State} {s : State} {p : Nat} (hL : subList [.BANK_CQ_STATUS, .BANK_TQ_STATUS, .SEQ_P_STEP_STATUS, .SEQ_ENT] L0 = true) (hC : subList [.mem, .badCheck, .badWord, .hdw, .upool, .sqe] C0 = true) (hS : Within L0 C0 s0 s) :
    Within L0 C0 s0 (State.abortStep s p) := by
  unfold State.abortStep
  repeat' (first
    | with_reducible exact hS
    | with_reducible assumption
    | exact subList_trans (by decide +kernel) hL
    | exact subList_trans (by decide +kernel) hC
    | exact subList_elem (by decide +kernel) hL
    | exact subList_elem (by decide +kernel) hC
    | with_reducible apply State.settleFeeds_within
    | with_reducible apply State.dropBuild_within
    | with_reducible apply State.setSeqPart_within
    | with_reducible apply State.stepLeaves_within
    | exact Within.memFilter
    | (intro x1; refine Within.cut (l := L0) (c := C0) (s := s0) (t := x1) ?_ ?_; subst x1; rotate_left; intro _; rotate_right)
    | (intro _)
    | lift_lets
    | (with_reducible refine Within.ofPair (by assumption) ?_)
    | (with_reducible refine Within.ofTriple (by assumption) ?_)
    | (with_reducible refine Within.ofFour (by assumption) ?_)
    | (with_reducible refine Within.ofFst (by assumption) ?_)
    | (with_reducible refine Within.ofSome (by assumption) ?_)
    | split
    | dsimp only)

theorem execStepAbort_within {L0 : List RegName} {C0 : List Comp} {s0 : State} {a : Agent} {p : Nat} {s : State} (hL : subList [.BANK_CQ_STATUS, .BANK_TQ_STATUS, .MEM_DEEP_WEAR, .SEQ_P_STEP_STATUS, .SEQ_ENT, .FLT_STATUS, .FLT_REC_NEWEST, .FLT_REC_LOST, .FLT_LOG_STATUS, .FLT_P_EVENT] L0 = true) (hC : subList [.mem, .badCheck, .badWord, .resp, .flt, .hdw, .upool, .deep, .sqe] C0 = true) (hS : Within L0 C0 s0 s) :
    WithinOut L0 C0 s0 (execStepAbort a p s) := by
  unfold execStepAbort
  repeat' (first
    | with_reducible exact hS
    | with_reducible assumption
    | exact subList_trans (by decide +kernel) hL
    | exact subList_trans (by decide +kernel) hC
    | exact subList_elem (by decide +kernel) hL
    | exact subList_elem (by decide +kernel) hC
    | with_reducible apply State.respErr_within
    | with_reducible apply State.denied_within
    | with_reducible apply State.respOk_within
    | with_reducible apply State.stepRefused_within
    | with_reducible apply State.abortStep_within
    | with_reducible apply WithinOut.next
    | exact Within.memFilter
    | (intro x1; refine Within.cut (l := L0) (c := C0) (s := s0) (t := x1) ?_ ?_; subst x1; rotate_left; intro _; rotate_right)
    | (intro _)
    | lift_lets
    | (with_reducible refine Within.ofPair (by assumption) ?_)
    | (with_reducible refine Within.ofTriple (by assumption) ?_)
    | (with_reducible refine Within.ofFour (by assumption) ?_)
    | (with_reducible refine Within.ofFst (by assumption) ?_)
    | (with_reducible refine Within.ofSome (by assumption) ?_)
    | split
    | dsimp only)

end Sys2Proof.Machine
end

