-- ==== Sys2Proof/Laws/WithinTile.lean ====
section
/-!
SUPPORT. What each operation of Machine/Tile.lean leaves alone.
-/

set_option Elab.async false

namespace Sys2Proof.Machine

theorem State.startScratch_within {L0 : List RegName} {C0 : List Comp} {s0 : State} {s : State} {t op : Nat} {bad format : NextCmd → Bool} (hL : subList [.TILE_STATUS, .TILE_ERR, .BANK_CQ_STATUS, .BANK_TQ_STATUS, .MEM_DEEP_WEAR, .UPD_PLAN_STATUS, .UPD_PLAN_STALL_US, .UPD_PLAN_STALL_MAX, .SCH_P_EVENT, .SCH_CTX, .FLT_STATUS, .FLT_REC_NEWEST, .FLT_REC_LOST, .FLT_LOG_STATUS, .FLT_P_EVENT] L0 = true) (hC : subList [.pulses, .flt, .sch, .deep, .upd] C0 = true) (hS : Within L0 C0 s0 s) :
    Within L0 C0 s0 (State.startScratch s t op bad format) := by
  unfold State.startScratch
  repeat' (first
    | with_reducible exact hS
    | with_reducible assumption
    | exact subList_trans (by decide +kernel) hL
    | exact subList_trans (by decide +kernel) hC
    | exact subList_elem (by decide +kernel) hL
    | exact subList_elem (by decide +kernel) hC
    | with_reducible refine State.startCmd_within (subList_trans (by decide +kernel) hL) (subList_trans (by decide +kernel) hC) ?_ _ (by assumption)
    | with_reducible apply State.wakeQueue_within
    | exact Within.memFilter
    | (intro x1; refine Within.cut (l := L0) (c := C0) (s := s0) (t := x1) ?_ ?_; subst x1; rotate_left; intro _; rotate_right)
    | (intro _)
    | lift_lets
    | (with_reducible refine Within.ofPair (by assumption) ?_)
    | (with_reducible refine Within.ofTriple (by assumption) ?_)
    | (with_reducible refine Within.ofFour (by assumption) ?_)
    | (with_reducible refine Within.ofFst (by assumption) ?_)
    | (with_reducible refine Within.ofSome (by assumption) ?_)
    | split
    | dsimp only)

theorem execMatmul_within {L0 : List RegName} {C0 : List Comp} {s0 : State} {t : Nat} {s : State} (hL : subList [.TILE_STATUS, .TILE_ERR, .BANK_CQ_STATUS, .BANK_TQ_STATUS, .MEM_DEEP_WEAR, .UPD_PLAN_STATUS, .UPD_PLAN_STALL_US, .UPD_PLAN_STALL_MAX, .SCH_P_EVENT, .SCH_CTX, .FLT_STATUS, .FLT_REC_NEWEST, .FLT_REC_LOST, .FLT_LOG_STATUS, .FLT_P_EVENT] L0 = true) (hC : subList [.pulses, .flt, .sch, .deep, .upd] C0 = true) (hS : Within L0 C0 s0 s) :
    WithinOut L0 C0 s0 (execMatmul t s) := by
  unfold execMatmul
  repeat' (first
    | with_reducible exact hS
    | with_reducible assumption
    | exact subList_trans (by decide +kernel) hL
    | exact subList_trans (by decide +kernel) hC
    | exact subList_elem (by decide +kernel) hL
    | exact subList_elem (by decide +kernel) hC
    | with_reducible apply State.startScratch_within
    | with_reducible apply WithinOut.next
    | exact Within.memFilter
    | (intro x1; refine Within.cut (l := L0) (c := C0) (s := s0) (t := x1) ?_ ?_; subst x1; rotate_left; intro _; rotate_right)
    | (intro _)
    | lift_lets
    | (with_reducible refine Within.ofPair (by assumption) ?_)
    | (with_reducible refine Within.ofTriple (by assumption) ?_)
    | (with_reducible refine Within.ofFour (by assumption) ?_)
    | (with_reducible refine Within.ofFst (by assumption) ?_)
    | (with_reducible refine Within.ofSome (by assumption) ?_)
    | split
    | dsimp only)

theorem execEwise_within {L0 : List RegName} {C0 : List Comp} {s0 : State} {t : Nat} {s : State} (hL : subList [.TILE_STATUS, .TILE_ERR, .BANK_CQ_STATUS, .BANK_TQ_STATUS, .MEM_DEEP_WEAR, .UPD_PLAN_STATUS, .UPD_PLAN_STALL_US, .UPD_PLAN_STALL_MAX, .SCH_P_EVENT, .SCH_CTX, .FLT_STATUS, .FLT_REC_NEWEST, .FLT_REC_LOST, .FLT_LOG_STATUS, .FLT_P_EVENT] L0 = true) (hC : subList [.pulses, .flt, .sch, .deep, .upd] C0 = true) (hS : Within L0 C0 s0 s) :
    WithinOut L0 C0 s0 (execEwise t s) := by
  unfold execEwise
  repeat' (first
    | with_reducible exact hS
    | with_reducible assumption
    | exact subList_trans (by decide +kernel) hL
    | exact subList_trans (by decide +kernel) hC
    | exact subList_elem (by decide +kernel) hL
    | exact subList_elem (by decide +kernel) hC
    | with_reducible apply State.startScratch_within
    | with_reducible apply WithinOut.next
    | exact Within.memFilter
    | (intro x1; refine Within.cut (l := L0) (c := C0) (s := s0) (t := x1) ?_ ?_; subst x1; rotate_left; intro _; rotate_right)
    | (intro _)
    | lift_lets
    | (with_reducible refine Within.ofPair (by assumption) ?_)
    | (with_reducible refine Within.ofTriple (by assumption) ?_)
    | (with_reducible refine Within.ofFour (by assumption) ?_)
    | (with_reducible refine Within.ofFst (by assumption) ?_)
    | (with_reducible refine Within.ofSome (by assumption) ?_)
    | split
    | dsimp only)

theorem execCopyCmd_within {L0 : List RegName} {C0 : List Comp} {s0 : State} {t : Nat} {s : State} (hL : subList [.TILE_STATUS, .TILE_ERR, .BANK_CQ_STATUS, .BANK_TQ_STATUS, .MEM_DEEP_WEAR, .UPD_PLAN_STATUS, .UPD_PLAN_STALL_US, .UPD_PLAN_STALL_MAX, .SCH_P_EVENT, .SCH_CTX, .FLT_STATUS, .FLT_REC_NEWEST, .FLT_REC_LOST, .FLT_LOG_STATUS, .FLT_P_EVENT] L0 = true) (hC : subList [.pulses, .flt, .sch, .deep, .upd] C0 = true) (hS : Within L0 C0 s0 s) :
    WithinOut L0 C0 s0 (execCopyCmd t s) := by
  unfold execCopyCmd
  repeat' (first
    | with_reducible exact hS
    | with_reducible assumption
    | exact subList_trans (by decide +kernel) hL
    | exact subList_trans (by decide +kernel) hC
    | exact subList_elem (by decide +kernel) hL
    | exact subList_elem (by decide +kernel) hC
    | with_reducible apply State.startScratch_within
    | with_reducible apply WithinOut.next
    | exact Within.memFilter
    | (intro x1; refine Within.cut (l := L0) (c := C0) (s := s0) (t := x1) ?_ ?_; subst x1; rotate_left; intro _; rotate_right)
    | (intro _)
    | lift_lets
    | (with_reducible refine Within.ofPair (by assumption) ?_)
    | (with_reducible refine Within.ofTriple (by assumption) ?_)
    | (with_reducible refine Within.ofFour (by assumption) ?_)
    | (with_reducible refine Within.ofFst (by assumption) ?_)
    | (with_reducible refine Within.ofSome (by assumption) ?_)
    | split
    | dsimp only)

theorem execScan_within {L0 : List RegName} {C0 : List Comp} {s0 : State} {t : Nat} {s : State} (hL : subList [.TILE_STATUS, .TILE_ERR, .BANK_CQ_STATUS, .BANK_TQ_STATUS, .MEM_DEEP_WEAR, .UPD_PLAN_STATUS, .UPD_PLAN_STALL_US, .UPD_PLAN_STALL_MAX, .SCH_P_EVENT, .SCH_CTX, .FLT_STATUS, .FLT_REC_NEWEST, .FLT_REC_LOST, .FLT_LOG_STATUS, .FLT_P_EVENT] L0 = true) (hC : subList [.pulses, .flt, .sch, .deep, .upd] C0 = true) (hS : Within L0 C0 s0 s) :
    WithinOut L0 C0 s0 (execScan t s) := by
  unfold execScan
  repeat' (first
    | with_reducible exact hS
    | with_reducible assumption
    | exact subList_trans (by decide +kernel) hL
    | exact subList_trans (by decide +kernel) hC
    | exact subList_elem (by decide +kernel) hL
    | exact subList_elem (by decide +kernel) hC
    | with_reducible apply State.startScratch_within
    | with_reducible apply WithinOut.next
    | exact Within.memFilter
    | (intro x1; refine Within.cut (l := L0) (c := C0) (s := s0) (t := x1) ?_ ?_; subst x1; rotate_left; intro _; rotate_right)
    | (intro _)
    | lift_lets
    | (with_reducible refine Within.ofPair (by assumption) ?_)
    | (with_reducible refine Within.ofTriple (by assumption) ?_)
    | (with_reducible refine Within.ofFour (by assumption) ?_)
    | (with_reducible refine Within.ofFst (by assumption) ?_)
    | (with_reducible refine Within.ofSome (by assumption) ?_)
    | split
    | dsimp only)

theorem execCollective_within {L0 : List RegName} {C0 : List Comp} {s0 : State} {t : Nat} {s : State} (hL : subList [.TILE_STATUS, .TILE_ERR, .BANK_CQ_STATUS, .BANK_TQ_STATUS, .MEM_DEEP_WEAR, .UPD_PLAN_STATUS, .UPD_PLAN_STALL_US, .UPD_PLAN_STALL_MAX, .SCH_P_EVENT, .SCH_CTX, .FLT_STATUS, .FLT_REC_NEWEST, .FLT_REC_LOST, .FLT_LOG_STATUS, .FLT_P_EVENT] L0 = true) (hC : subList [.pulses, .flt, .sch, .deep, .upd] C0 = true) (hS : Within L0 C0 s0 s) :
    WithinOut L0 C0 s0 (execCollective t s) := by
  unfold execCollective
  repeat' (first
    | with_reducible exact hS
    | with_reducible assumption
    | exact subList_trans (by decide +kernel) hL
    | exact subList_trans (by decide +kernel) hC
    | exact subList_elem (by decide +kernel) hL
    | exact subList_elem (by decide +kernel) hC
    | with_reducible apply State.startScratch_within
    | with_reducible apply WithinOut.next
    | exact Within.memFilter
    | (intro x1; refine Within.cut (l := L0) (c := C0) (s := s0) (t := x1) ?_ ?_; subst x1; rotate_left; intro _; rotate_right)
    | (intro _)
    | lift_lets
    | (with_reducible refine Within.ofPair (by assumption) ?_)
    | (with_reducible refine Within.ofTriple (by assumption) ?_)
    | (with_reducible refine Within.ofFour (by assumption) ?_)
    | (with_reducible refine Within.ofFst (by assumption) ?_)
    | (with_reducible refine Within.ofSome (by assumption) ?_)
    | split
    | dsimp only)

theorem execNop_within {L0 : List RegName} {C0 : List Comp} {s0 : State} {t : Nat} {s : State} (hL : subList [.TILE_STATUS, .TILE_FLAGS, .TILE_ERR, .TILE_DONE_TAG, .TILE_CMD_COUNT, .BANK_CQ_STATUS, .BANK_TQ_STATUS, .MEM_DEEP_WEAR, .UPD_PLAN_STATUS, .UPD_PLAN_STALL_US, .UPD_PLAN_STALL_MAX, .SCH_P_EVENT, .SCH_CTX, .FLT_STATUS, .FLT_REC_NEWEST, .FLT_REC_LOST, .FLT_LOG_STATUS, .FLT_P_EVENT] L0 = true) (hC : subList [.mem, .badCheck, .badWord, .pulses, .flt, .bank, .hdw, .sch, .deep, .upd] C0 = true) (hS : Within L0 C0 s0 s) :
    WithinOut L0 C0 s0 (execNop t s) := by
  unfold execNop
  repeat' (first
    | with_reducible exact hS
    | with_reducible assumption
    | exact subList_trans (by decide +kernel) hL
    | exact subList_trans (by decide +kernel) hC
    | exact subList_elem (by decide +kernel) hL
    | exact subList_elem (by decide +kernel) hC
    | with_reducible refine State.startCmd_within (subList_trans (by decide +kernel) hL) (subList_trans (by decide +kernel) hC) ?_ _ (by assumption)
    | with_reducible apply State.wakeQueue_within
    | with_reducible apply State.finish_within
    | with_reducible apply WithinOut.next
    | exact Within.memFilter
    | (intro x1; refine Within.cut (l := L0) (c := C0) (s := s0) (t := x1) ?_ ?_; subst x1; rotate_left; intro _; rotate_right)
    | (intro _)
    | lift_lets
    | (with_reducible refine Within.ofPair (by assumption) ?_)
    | (with_reducible refine Within.ofTriple (by assumption) ?_)
    | (with_reducible refine Within.ofFour (by assumption) ?_)
    | (with_reducible refine Within.ofFst (by assumption) ?_)
    | (with_reducible refine Within.ofSome (by assumption) ?_)
    | split
    | dsimp only)

theorem execReservedOpcode_within {L0 : List RegName} {C0 : List Comp} {s0 : State} {t : Nat} {s : State} (hL : subList [.TILE_STATUS, .TILE_ERR, .BANK_CQ_STATUS, .BANK_TQ_STATUS, .MEM_DEEP_WEAR, .UPD_PLAN_STATUS, .UPD_PLAN_STALL_US, .UPD_PLAN_STALL_MAX, .SCH_P_EVENT, .SCH_CTX, .FLT_STATUS, .FLT_REC_NEWEST, .FLT_REC_LOST, .FLT_LOG_STATUS, .FLT_P_EVENT] L0 = true) (hC : subList [.pulses, .flt, .sch, .deep, .upd] C0 = true) (hS : Within L0 C0 s0 s) :
    WithinOut L0 C0 s0 (execReservedOpcode t s) := by
  unfold execReservedOpcode
  repeat' (first
    | with_reducible exact hS
    | with_reducible assumption
    | exact subList_trans (by decide +kernel) hL
    | exact subList_trans (by decide +kernel) hC
    | exact subList_elem (by decide +kernel) hL
    | exact subList_elem (by decide +kernel) hC
    | with_reducible apply State.wakeQueue_within
    | with_reducible refine State.startCmd_within (subList_trans (by decide +kernel) hL) (subList_trans (by decide +kernel) hC) ?_ _ (by assumption)
    | with_reducible apply WithinOut.next
    | exact Within.memFilter
    | (intro x1; refine Within.cut (l := L0) (c := C0) (s := s0) (t := x1) ?_ ?_; subst x1; rotate_left; intro _; rotate_right)
    | (intro _)
    | lift_lets
    | (with_reducible refine Within.ofPair (by assumption) ?_)
    | (with_reducible refine Within.ofTriple (by assumption) ?_)
    | (with_reducible refine Within.ofFour (by assumption) ?_)
    | (with_reducible refine Within.ofFst (by assumption) ?_)
    | (with_reducible refine Within.ofSome (by assumption) ?_)
    | split
    | dsimp only)

theorem State.readCounter_within {L0 : List RegName} {C0 : List Comp} {s0 : State} {s : State} {t j a : Nat} (hL : subList [.MEM_DEEP_WEAR, .FLT_STATUS, .FLT_REC_NEWEST, .FLT_REC_LOST, .FLT_LOG_STATUS, .FLT_P_EVENT] L0 = true) (hC : subList [.flt, .deep] C0 = true) (hS : Within L0 C0 s0 s) :
    Within L0 C0 s0 (State.readCounter s t j a).2 := by
  unfold State.readCounter
  repeat' (first
    | with_reducible exact hS
    | with_reducible assumption
    | exact subList_trans (by decide +kernel) hL
    | exact subList_trans (by decide +kernel) hC
    | exact subList_elem (by decide +kernel) hL
    | exact subList_elem (by decide +kernel) hC
    | with_reducible apply State.refusalRecord_within
    | with_reducible apply State.violation_within
    | with_reducible apply State.readAs_within
    | exact Within.memFilter
    | (intro x1; refine Within.cut (l := L0) (c := C0) (s := s0) (t := x1) ?_ ?_; subst x1; rotate_left; intro _; rotate_right)
    | (intro _)
    | lift_lets
    | (with_reducible refine Within.ofPair (by assumption) ?_)
    | (with_reducible refine Within.ofTriple (by assumption) ?_)
    | (with_reducible refine Within.ofFour (by assumption) ?_)
    | (with_reducible refine Within.ofFst (by assumption) ?_)
    | (with_reducible refine Within.ofSome (by assumption) ?_)
    | split
    | dsimp only)

theorem State.checkWait_within {L0 : List RegName} {C0 : List Comp} {s0 : State} {s : State} {t : Nat} (hL : subList [.TILE_STATUS, .TILE_FLAGS, .TILE_ERR, .TILE_DONE_TAG, .TILE_CMD_COUNT, .BANK_CQ_STATUS, .BANK_TQ_STATUS, .MEM_DEEP_WEAR, .UPD_PLAN_STATUS, .UPD_PLAN_STALL_US, .UPD_PLAN_STALL_MAX, .SCH_P_EVENT, .SCH_CTX, .FLT_STATUS, .FLT_REC_NEWEST, .FLT_REC_LOST, .FLT_LOG_STATUS, .FLT_P_EVENT] L0 = true) (hC : subList [.mem, .badCheck, .badWord, .pulses, .flt, .bank, .hdw, .sch, .deep, .upd] C0 = true) (hS : Within L0 C0 s0 s) :
    Within L0 C0 s0 (State.checkWait s t) := by
  unfold State.checkWait
  repeat' (first
    | with_reducible exact hS
    | with_reducible assumption
    | exact subList_trans (by decide +kernel) hL
    | exact subList_trans (by decide +kernel) hC
    | exact subList_elem (by decide +kernel) hL
    | exact subList_elem (by decide +kernel) hC
    | with_reducible apply State.startWake_within
    | with_reducible apply State.readCounter_within
    | with_reducible apply State.failCommand_within
    | with_reducible apply State.finish_within
    | exact Within.memFilter
    | (with_reducible refine Within.foldl (fun _ _ _ => ?_) _ ?_)
    | (with_reducible refine Within.foldlPair (fun _ _ _ => ?_) _ ?_)
    | (with_reducible refine Within.foldlFst (fun _ _ _ => ?_) _ ?_)
    | (intro x1; refine Within.cut (l := L0) (c := C0) (s := s0) (t := x1) ?_ ?_; subst x1; rotate_left; intro _; rotate_right)
    | (intro _)
    | lift_lets
    | (with_reducible refine Within.ofPair (by assumption) ?_)
    | (with_reducible refine Within.ofTriple (by assumption) ?_)
    | (with_reducible refine Within.ofFour (by assumption) ?_)
    | (with_reducible refine Within.ofFst (by assumption) ?_)
    | (with_reducible refine Within.ofSome (by assumption) ?_)
    | split
    | dsimp only)

theorem execWaitCmd_within {L0 : List RegName} {C0 : List Comp} {s0 : State} {t : Nat} {s : State} (hL : subList [.TILE_STATUS, .TILE_FLAGS, .TILE_ERR, .TILE_DONE_TAG, .TILE_CMD_COUNT, .BANK_CQ_STATUS, .BANK_TQ_STATUS, .MEM_DEEP_WEAR, .UPD_PLAN_STATUS, .UPD_PLAN_STALL_US, .UPD_PLAN_STALL_MAX, .SCH_P_EVENT, .SCH_CTX, .FLT_STATUS, .FLT_REC_NEWEST, .FLT_REC_LOST, .FLT_LOG_STATUS, .FLT_P_EVENT] L0 = true) (hC : subList [.mem, .badCheck, .badWord, .pulses, .flt, .bank, .hdw, .sch, .deep, .upd] C0 = true) (hS : Within L0 C0 s0 s) :
    WithinOut L0 C0 s0 (execWaitCmd t s) := by
  unfold execWaitCmd
  repeat' (first
    | with_reducible exact hS
    | with_reducible assumption
    | exact subList_trans (by decide +kernel) hL
    | exact subList_trans (by decide +kernel) hC
    | exact subList_elem (by decide +kernel) hL
    | exact subList_elem (by decide +kernel) hC
    | with_reducible refine State.startCmd_within (subList_trans (by decide +kernel) hL) (subList_trans (by decide +kernel) hC) ?_ _ (by assumption)
    | with_reducible apply State.wakeQueue_within
    | with_reducible apply State.checkWait_within
    | with_reducible apply WithinOut.next
    | exact Within.memFilter
    | (intro x1; refine Within.cut (l := L0) (c := C0) (s := s0) (t := x1) ?_ ?_; subst x1; rotate_left; intro _; rotate_right)
    | (intro _)
    | lift_lets
    | (with_reducible refine Within.ofPair (by assumption) ?_)
    | (with_reducible refine Within.ofTriple (by assumption) ?_)
    | (with_reducible refine Within.ofFour (by assumption) ?_)
    | (with_reducible refine Within.ofFst (by assumption) ?_)
    | (with_reducible refine Within.ofSome (by assumption) ?_)
    | split
    | dsimp only)

theorem execWaitSatisfied_within {L0 : List RegName} {C0 : List Comp} {s0 : State} {t : Nat} {s : State} (hL : subList [.TILE_STATUS, .TILE_FLAGS, .TILE_ERR, .TILE_DONE_TAG, .TILE_CMD_COUNT, .BANK_CQ_STATUS, .BANK_TQ_STATUS, .MEM_DEEP_WEAR, .UPD_PLAN_STATUS, .UPD_PLAN_STALL_US, .UPD_PLAN_STALL_MAX, .SCH_P_EVENT, .SCH_CTX, .FLT_STATUS, .FLT_REC_NEWEST, .FLT_REC_LOST, .FLT_LOG_STATUS, .FLT_P_EVENT] L0 = true) (hC : subList [.mem, .badCheck, .badWord, .pulses, .flt, .bank, .hdw, .sch, .deep, .upd] C0 = true) (hS : Within L0 C0 s0 s) :
    WithinOut L0 C0 s0 (execWaitSatisfied t s) := by
  unfold execWaitSatisfied
  repeat' (first
    | with_reducible exact hS
    | with_reducible assumption
    | exact subList_trans (by decide +kernel) hL
    | exact subList_trans (by decide +kernel) hC
    | exact subList_elem (by decide +kernel) hL
    | exact subList_elem (by decide +kernel) hC
    | with_reducible apply State.checkWait_within
    | with_reducible apply WithinOut.next
    | exact Within.memFilter
    | (intro x1; refine Within.cut (l := L0) (c := C0) (s := s0) (t := x1) ?_ ?_; subst x1; rotate_left; intro _; rotate_right)
    | (intro _)
    | lift_lets
    | (with_reducible refine Within.ofPair (by assumption) ?_)
    | (with_reducible refine Within.ofTriple (by assumption) ?_)
    | (with_reducible refine Within.ofFour (by assumption) ?_)
    | (with_reducible refine Within.ofFst (by assumption) ?_)
    | (with_reducible refine Within.ofSome (by assumption) ?_)
    | split
    | dsimp only)

theorem execWaitPoll_within {L0 : List RegName} {C0 : List Comp} {s0 : State} {t : Nat} {s : State} (hL : subList [.TILE_STATUS, .TILE_FLAGS, .TILE_ERR, .TILE_DONE_TAG, .TILE_CMD_COUNT, .BANK_CQ_STATUS, .BANK_TQ_STATUS, .MEM_DEEP_WEAR, .UPD_PLAN_STATUS, .UPD_PLAN_STALL_US, .UPD_PLAN_STALL_MAX, .SCH_P_EVENT, .SCH_CTX, .FLT_STATUS, .FLT_REC_NEWEST, .FLT_REC_LOST, .FLT_LOG_STATUS, .FLT_P_EVENT] L0 = true) (hC : subList [.mem, .badCheck, .badWord, .pulses, .flt, .bank, .hdw, .sch, .deep, .upd] C0 = true) (hS : Within L0 C0 s0 s) :
    WithinOut L0 C0 s0 (execWaitPoll t s) := by
  unfold execWaitPoll
  repeat' (first
    | with_reducible exact hS
    | with_reducible assumption
    | exact subList_trans (by decide +kernel) hL
    | exact subList_trans (by decide +kernel) hC
    | exact subList_elem (by decide +kernel) hL
    | exact subList_elem (by decide +kernel) hC
    | with_reducible apply State.checkWait_within
    | with_reducible apply WithinOut.next
    | exact Within.memFilter
    | (intro x1; refine Within.cut (l := L0) (c := C0) (s := s0) (t := x1) ?_ ?_; subst x1; rotate_left; intro _; rotate_right)
    | (intro _)
    | lift_lets
    | (with_reducible refine Within.ofPair (by assumption) ?_)
    | (with_reducible refine Within.ofTriple (by assumption) ?_)
    | (with_reducible refine Within.ofFour (by assumption) ?_)
    | (with_reducible refine Within.ofFst (by assumption) ?_)
    | (with_reducible refine Within.ofSome (by assumption) ?_)
    | split
    | dsimp only)

theorem execWaitTimeout_within {L0 : List RegName} {C0 : List Comp} {s0 : State} {t : Nat} {s : State} (hL : subList [.TILE_STATUS, .TILE_ERR, .MEM_DEEP_WEAR, .UPD_PLAN_STATUS, .UPD_PLAN_STALL_US, .UPD_PLAN_STALL_MAX, .SCH_P_EVENT, .SCH_CTX, .FLT_STATUS, .FLT_REC_NEWEST, .FLT_REC_LOST, .FLT_LOG_STATUS, .FLT_P_EVENT] L0 = true) (hC : subList [.pulses, .flt, .sch, .deep, .upd] C0 = true) (hS : Within L0 C0 s0 s) :
    WithinOut L0 C0 s0 (execWaitTimeout t s) := by
  unfold execWaitTimeout
  repeat' (first
    | with_reducible exact hS
    | with_reducible assumption
    | exact subList_trans (by decide +kernel) hL
    | exact subList_trans (by decide +kernel) hC
    | exact subList_elem (by decide +kernel) hL
    | exact subList_elem (by decide +kernel) hC
    | with_reducible apply State.failCommand_within
    | with_reducible apply WithinOut.next
    | exact Within.memFilter
    | (intro x1; refine Within.cut (l := L0) (c := C0) (s := s0) (t := x1) ?_ ?_; subst x1; rotate_left; intro _; rotate_right)
    | (intro _)
    | lift_lets
    | (with_reducible refine Within.ofPair (by assumption) ?_)
    | (with_reducible refine Within.ofTriple (by assumption) ?_)
    | (with_reducible refine Within.ofFour (by assumption) ?_)
    | (with_reducible refine Within.ofFst (by assumption) ?_)
    | (with_reducible refine Within.ofSome (by assumption) ?_)
    | split
    | dsimp only)

theorem execSignal_within {L0 : List RegName} {C0 : List Comp} {s0 : State} {t : Nat} {s : State} (hL : subList [.TILE_STATUS, .TILE_FLAGS, .TILE_ERR, .TILE_DONE_TAG, .TILE_CMD_COUNT, .BANK_CQ_STATUS, .BANK_TQ_STATUS, .MEM_DEEP_WEAR, .UPD_PLAN_STATUS, .UPD_PLAN_STALL_US, .UPD_PLAN_STALL_MAX, .SCH_P_EVENT, .SCH_CTX, .FLT_STATUS, .FLT_REC_NEWEST, .FLT_REC_LOST, .FLT_LOG_STATUS, .FLT_P_EVENT] L0 = true) (hC : subList [.mem, .badCheck, .badWord, .pulses, .flt, .bank, .hdw, .sch, .deep, .upd] C0 = true) (hS : Within L0 C0 s0 s) :
    WithinOut L0 C0 s0 (execSignal t s) := by
  unfold execSignal
  repeat' (first
    | with_reducible exact hS
    | with_reducible assumption
    | exact subList_trans (by decide +kernel) hL
    | exact subList_trans (by decide +kernel) hC
    | exact subList_elem (by decide +kernel) hL
    | exact subList_elem (by decide +kernel) hC
    | with_reducible apply State.startWake_within
    | with_reducible refine State.startCmd_within (subList_trans (by decide +kernel) hL) (subList_trans (by decide +kernel) hC) ?_ _ (by assumption)
    | with_reducible apply State.wakeQueue_within
    | with_reducible apply State.readCounter_within
    | with_reducible apply State.failCommand_within
    | with_reducible apply State.writeAs_within
    | with_reducible apply State.finish_within
    | with_reducible apply WithinOut.next
    | exact Within.memFilter
    | (with_reducible refine Within.foldl (fun _ _ _ => ?_) _ ?_)
    | (with_reducible refine Within.foldlPair (fun _ _ _ => ?_) _ ?_)
    | (with_reducible refine Within.foldlFst (fun _ _ _ => ?_) _ ?_)
    | (intro x1; refine Within.cut (l := L0) (c := C0) (s := s0) (t := x1) ?_ ?_; subst x1; rotate_left; intro _; rotate_right)
    | (intro _)
    | lift_lets
    | (with_reducible refine Within.ofPair (by assumption) ?_)
    | (with_reducible refine Within.ofTriple (by assumption) ?_)
    | (with_reducible refine Within.ofFour (by assumption) ?_)
    | (with_reducible refine Within.ofFst (by assumption) ?_)
    | (with_reducible refine Within.ofSome (by assumption) ?_)
    | split
    | dsimp only)

theorem State.putResults_within {L0 : List RegName} {C0 : List Comp} {s0 : State} {s : State} {l : Nat} {check : Bool} {ws : List (Nat × List Byte)} (hL : subList ([] : List RegName) L0 = true) (hC : subList [.mem, .badCheck, .badWord] C0 = true) (hS : Within L0 C0 s0 s) :
    Within L0 C0 s0 (State.putResults s l check ws) := by
  unfold State.putResults
  repeat' (first
    | with_reducible exact hS
    | with_reducible assumption
    | exact subList_trans (by decide +kernel) hL
    | exact subList_trans (by decide +kernel) hC
    | exact subList_elem (by decide +kernel) hL
    | exact subList_elem (by decide +kernel) hC
    | with_reducible apply State.storeKeep_within
    | exact Within.memFilter
    | (with_reducible refine Within.foldl (fun _ _ _ => ?_) _ ?_)
    | (with_reducible refine Within.foldlPair (fun _ _ _ => ?_) _ ?_)
    | (with_reducible refine Within.foldlFst (fun _ _ _ => ?_) _ ?_)
    | (intro x1; refine Within.cut (l := L0) (c := C0) (s := s0) (t := x1) ?_ ?_; subst x1; rotate_left; intro _; rotate_right)
    | (intro _)
    | lift_lets
    | (with_reducible refine Within.ofPair (by assumption) ?_)
    | (with_reducible refine Within.ofTriple (by assumption) ?_)
    | (with_reducible refine Within.ofFour (by assumption) ?_)
    | (with_reducible refine Within.ofFst (by assumption) ?_)
    | (with_reducible refine Within.ofSome (by assumption) ?_)
    | split
    | dsimp only
    | with_reducible apply Within.badCheck)

theorem State.endCompute_within {L0 : List RegName} {C0 : List Comp} {s0 : State} {s : State} {t j : Nat} {c : RunCmd} {f : List Nat → Scratch → EwOut} {rg : Ranges} (hL : subList [.TILE_STATUS, .TILE_FLAGS, .TILE_ERR, .TILE_DONE_TAG, .TILE_CMD_COUNT, .BANK_CQ_STATUS, .BANK_TQ_STATUS, .MEM_DEEP_WEAR, .UPD_PLAN_STATUS, .UPD_PLAN_STALL_US, .UPD_PLAN_STALL_MAX, .SCH_P_EVENT, .SCH_CTX, .FLT_STATUS, .FLT_REC_NEWEST, .FLT_REC_LOST, .FLT_LOG_STATUS, .FLT_P_EVENT] L0 = true) (hC : subList [.mem, .badCheck, .badWord, .pulses, .flt, .bank, .hdw, .sch, .deep, .upd] C0 = true) (hS : Within L0 C0 s0 s) :
    Within L0 C0 s0 (State.endCompute s t j c f rg) := by
  unfold State.endCompute
  repeat' (first
    | with_reducible exact hS
    | with_reducible assumption
    | exact subList_trans (by decide +kernel) hL
    | exact subList_trans (by decide +kernel) hC
    | exact subList_elem (by decide +kernel) hL
    | exact subList_elem (by decide +kernel) hC
    | with_reducible apply State.uncorrectable_within
    | with_reducible apply State.failCommand_within
    | with_reducible apply State.putResults_within
    | with_reducible apply State.finish_within
    | exact Within.memFilter
    | (intro x1; refine Within.cut (l := L0) (c := C0) (s := s0) (t := x1) ?_ ?_; subst x1; rotate_left; intro _; rotate_right)
    | (intro _)
    | lift_lets
    | (with_reducible refine Within.ofPair (by assumption) ?_)
    | (with_reducible refine Within.ofTriple (by assumption) ?_)
    | (with_reducible refine Within.ofFour (by assumption) ?_)
    | (with_reducible refine Within.ofFst (by assumption) ?_)
    | (with_reducible refine Within.ofSome (by assumption) ?_)
    | split
    | dsimp only)

theorem State.copyWrite_within {L0 : List RegName} {C0 : List Comp} {s0 : State} {s : State} {ag : Agent} {w : List Nat} {src dst : Nat} {d : List Byte} (hL : subList [.MEM_DEEP_WEAR, .FLT_STATUS, .FLT_REC_NEWEST, .FLT_REC_LOST, .FLT_LOG_STATUS, .FLT_P_EVENT] L0 = true) (hC : subList [.mem, .badCheck, .badWord, .flt, .deep] C0 = true) (hS : Within L0 C0 s0 s) :
    Within L0 C0 s0 (State.copyWrite s ag w src dst d).2 := by
  unfold State.copyWrite
  repeat' (first
    | with_reducible exact hS
    | with_reducible assumption
    | exact subList_trans (by decide +kernel) hL
    | exact subList_trans (by decide +kernel) hC
    | exact subList_elem (by decide +kernel) hL
    | exact subList_elem (by decide +kernel) hC
    | with_reducible apply State.checkFailed_within
    | with_reducible apply State.storeFor_within
    | with_reducible apply State.refusalRecord_within
    | exact Within.memFilter
    | (intro x1; refine Within.cut (l := L0) (c := C0) (s := s0) (t := x1) ?_ ?_; subst x1; rotate_left; intro _; rotate_right)
    | (intro _)
    | lift_lets
    | (with_reducible refine Within.ofPair (by assumption) ?_)
    | (with_reducible refine Within.ofTriple (by assumption) ?_)
    | (with_reducible refine Within.ofFour (by assumption) ?_)
    | (with_reducible refine Within.ofFst (by assumption) ?_)
    | (with_reducible refine Within.ofSome (by assumption) ?_)
    | split
    | dsimp only
    | with_reducible apply Within.badCheck)

theorem State.copyRead_within {L0 : List RegName} {C0 : List Comp} {s0 : State} {s : State} {ag : Agent} {w : List Nat} {src n : Nat} (hL : subList [.MEM_DEEP_WEAR, .FLT_STATUS, .FLT_REC_NEWEST, .FLT_REC_LOST, .FLT_LOG_STATUS, .FLT_P_EVENT] L0 = true) (hC : subList [.flt, .deep] C0 = true) (hS : Within L0 C0 s0 s) :
    Within L0 C0 s0 (State.copyRead s ag w src n).2.2 := by
  unfold State.copyRead
  repeat' (first
    | with_reducible exact hS
    | with_reducible assumption
    | exact subList_trans (by decide +kernel) hL
    | exact subList_trans (by decide +kernel) hC
    | exact subList_elem (by decide +kernel) hL
    | exact subList_elem (by decide +kernel) hC
    | with_reducible apply State.readPassed_within
    | with_reducible apply State.checkFailed_within
    | with_reducible apply State.refusalRecord_within
    | exact Within.memFilter
    | (intro x1; refine Within.cut (l := L0) (c := C0) (s := s0) (t := x1) ?_ ?_; subst x1; rotate_left; intro _; rotate_right)
    | (intro _)
    | lift_lets
    | (with_reducible refine Within.ofPair (by assumption) ?_)
    | (with_reducible refine Within.ofTriple (by assumption) ?_)
    | (with_reducible refine Within.ofFour (by assumption) ?_)
    | (with_reducible refine Within.ofFst (by assumption) ?_)
    | (with_reducible refine Within.ofSome (by assumption) ?_)
    | split
    | dsimp only)

theorem State.copyRows_within {L0 : List RegName} {C0 : List Comp} {s0 : State} {s : State} {ag : Agent} {w : List Nat} {c : CopyArgs} {k0 : List Nat} (hL : subList [.MEM_DEEP_WEAR, .FLT_STATUS, .FLT_REC_NEWEST, .FLT_REC_LOST, .FLT_LOG_STATUS, .FLT_P_EVENT] L0 = true) (hC : subList [.mem, .badCheck, .badWord, .flt, .hdw, .deep] C0 = true) (hS : Within L0 C0 s0 s) :
    Within L0 C0 s0 (State.copyRows s ag w c k0).2 := by
  induction k0 generalizing s ag w c with
  | nil =>
    unfold State.copyRows
    repeat' (first
      | with_reducible exact hS
      | with_reducible assumption
      | exact subList_trans (by decide +kernel) hL
      | exact subList_trans (by decide +kernel) hC
      | exact subList_elem (by decide +kernel) hL
      | exact subList_elem (by decide +kernel) hC
      | with_reducible apply State.traffic_within
      | with_reducible apply State.copyRead_within
      | with_reducible apply State.copyWrite_within
      | exact Within.memFilter
      | (intro x1; refine Within.cut (l := L0) (c := C0) (s := s0) (t := x1) ?_ ?_; subst x1; rotate_left; intro _; rotate_right)
      | (intro _)
      | lift_lets
      | (with_reducible refine Within.ofPair (by assumption) ?_)
      | (with_reducible refine Within.ofTriple (by assumption) ?_)
      | (with_reducible refine Within.ofFour (by assumption) ?_)
      | (with_reducible refine Within.ofFst (by assumption) ?_)
      | (with_reducible refine Within.ofSome (by assumption) ?_)
      | split
      | dsimp only)
  | cons a1 l1 ih =>
    unfold State.copyRows
    repeat' (first
      | with_reducible exact hS
      | with_reducible assumption
      | with_reducible apply ih
      | exact subList_trans (by decide +kernel) hL
      | exact subList_trans (by decide +kernel) hC
      | exact subList_elem (by decide +kernel) hL
      | exact subList_elem (by decide +kernel) hC
      | with_reducible apply State.traffic_within
      | with_reducible apply State.copyRead_within
      | with_reducible apply State.copyWrite_within
      | exact Within.memFilter
      | (intro x1; refine Within.cut (l := L0) (c := C0) (s := s0) (t := x1) ?_ ?_; subst x1; rotate_left; intro _; rotate_right)
      | (intro _)
      | lift_lets
      | (with_reducible refine Within.ofPair (by assumption) ?_)
      | (with_reducible refine Within.ofTriple (by assumption) ?_)
      | (with_reducible refine Within.ofFour (by assumption) ?_)
      | (with_reducible refine Within.ofFst (by assumption) ?_)
      | (with_reducible refine Within.ofSome (by assumption) ?_)
      | split
      | dsimp only)

theorem State.endCopy_within {L0 : List RegName} {C0 : List Comp} {s0 : State} {s : State} {t j : Nat} {c : RunCmd} (hL : subList [.TILE_STATUS, .TILE_FLAGS, .TILE_ERR, .TILE_DONE_TAG, .TILE_CMD_COUNT, .BANK_CQ_STATUS, .BANK_TQ_STATUS, .MEM_DEEP_WEAR, .UPD_PLAN_STATUS, .UPD_PLAN_STALL_US, .UPD_PLAN_STALL_MAX, .SCH_P_EVENT, .SCH_CTX, .FLT_STATUS, .FLT_REC_NEWEST, .FLT_REC_LOST, .FLT_LOG_STATUS, .FLT_P_EVENT] L0 = true) (hC : subList [.mem, .badCheck, .badWord, .pulses, .flt, .bank, .hdw, .sch, .deep, .upd] C0 = true) (hS : Within L0 C0 s0 s) :
    Within L0 C0 s0 (State.endCopy s t j c) := by
  unfold State.endCopy
  repeat' (first
    | with_reducible exact hS
    | with_reducible assumption
    | exact subList_trans (by decide +kernel) hL
    | exact subList_trans (by decide +kernel) hC
    | exact subList_elem (by decide +kernel) hL
    | exact subList_elem (by decide +kernel) hC
    | with_reducible apply State.copyRows_within
    | with_reducible apply State.finish_within
    | with_reducible apply State.failCommand_within
    | exact Within.memFilter
    | (intro x1; refine Within.cut (l := L0) (c := C0) (s := s0) (t := x1) ?_ ?_; subst x1; rotate_left; intro _; rotate_right)
    | (intro _)
    | lift_lets
    | (with_reducible refine Within.ofPair (by assumption) ?_)
    | (with_reducible refine Within.ofTriple (by assumption) ?_)
    | (with_reducible refine Within.ofFour (by assumption) ?_)
    | (with_reducible refine Within.ofFst (by assumption) ?_)
    | (with_reducible refine Within.ofSome (by assumption) ?_)
    | split
    | dsimp only)

theorem execCommandComplete_within {L0 : List RegName} {C0 : List Comp} {s0 : State} {t k : Nat} {s : State} (hL : subList [.TILE_STATUS, .TILE_FLAGS, .TILE_ERR, .TILE_DONE_TAG, .TILE_CMD_COUNT, .TILE_BUSY_LO, .TILE_BUSY_HI, .BANK_CQ_STATUS, .BANK_TQ_STATUS, .MEM_DEEP_WEAR, .UPD_PLAN_STATUS, .UPD_PLAN_STALL_US, .UPD_PLAN_STALL_MAX, .SCH_P_EVENT, .SCH_CTX, .FLT_STATUS, .FLT_REC_NEWEST, .FLT_REC_LOST, .FLT_LOG_STATUS, .FLT_P_EVENT] L0 = true) (hC : subList [.mem, .badCheck, .badWord, .pulses, .flt, .bank, .hdw, .sch, .deep, .upd] C0 = true) (hS : Within L0 C0 s0 s) :
    WithinOut L0 C0 s0 (execCommandComplete t k s) := by
  unfold execCommandComplete
  repeat' (first
    | with_reducible exact hS
    | with_reducible assumption
    | exact subList_trans (by decide +kernel) hL
    | exact subList_trans (by decide +kernel) hC
    | exact subList_elem (by decide +kernel) hL
    | exact subList_elem (by decide +kernel) hC
    | with_reducible apply Within.wr64
    | with_reducible apply State.startWake_within
    | with_reducible apply State.endCompute_within
    | with_reducible apply State.endCopy_within
    | with_reducible apply WithinOut.next
    | exact Within.memFilter
    | (intro _ h1; cases h1; exact subList_elem (by decide +kernel) hL)
    | (with_reducible refine Within.foldl (fun _ _ _ => ?_) _ ?_)
    | (with_reducible refine Within.foldlPair (fun _ _ _ => ?_) _ ?_)
    | (with_reducible refine Within.foldlFst (fun _ _ _ => ?_) _ ?_)
    | (intro x1; refine Within.cut (l := L0) (c := C0) (s := s0) (t := x1) ?_ ?_; subst x1; rotate_left; intro _; rotate_right)
    | (intro _)
    | lift_lets
    | (with_reducible refine Within.ofPair (by assumption) ?_)
    | (with_reducible refine Within.ofTriple (by assumption) ?_)
    | (with_reducible refine Within.ofFour (by assumption) ?_)
    | (with_reducible refine Within.ofFst (by assumption) ?_)
    | (with_reducible refine Within.ofSome (by assumption) ?_)
    | split
    | dsimp only)

end Sys2Proof.Machine
end

