-- ==== Sys2Proof/Laws/WithinUpdraft.lean ====
section
/-!
SUPPORT. What each operation of Machine/Updraft.lean leaves alone.
-/

set_option Elab.async false

namespace Sys2Proof.Machine

theorem State.setPlanState_within {L0 : List RegName} {C0 : List Comp} {s0 : State} {s : State} {n st : Nat} (hL : subList [.UPD_PLAN_STATUS] L0 = true) (hC : subList ([] : List Comp) C0 = true) (hS : Within L0 C0 s0 s) :
    Within L0 C0 s0 (State.setPlanState s n st) := by
  unfold State.setPlanState
  repeat' (first
    | with_reducible exact hS
    | with_reducible assumption
    | exact subList_trans (by decide +kernel) hL
    | exact subList_trans (by decide +kernel) hC
    | exact subList_elem (by decide +kernel) hL
    | exact subList_elem (by decide +kernel) hC
    | with_reducible apply Within.wrF
    | exact Within.memFilter
    | (intro x1; refine Within.cut (l := L0) (c := C0) (s := s0) (t := x1) ?_ ?_; subst x1; rotate_left; intro _; rotate_right)
    | (intro _)
    | lift_lets
    | (with_reducible refine Within.ofPair (by assumption) ?_)
    | (with_reducible refine Within.ofTriple (by assumption) ?_)
    | (with_reducible refine Within.ofFour (by assumption) ?_)
    | (with_reducible refine Within.ofFst (by assumption) ?_)
    | (with_reducible refine Within.ofSome (by assumption) ?_)
    | split
    | dsimp only)

theorem State.planFail_within {L0 : List RegName} {C0 : List Comp} {s0 : State} {s : State} {n code : Nat} (hL : subList [.MEM_DEEP_WEAR, .UPD_PLAN_STATUS, .FLT_STATUS, .FLT_REC_NEWEST, .FLT_REC_LOST, .FLT_LOG_STATUS, .FLT_P_EVENT] L0 = true) (hC : subList [.pulses, .flt, .deep] C0 = true) (hS : Within L0 C0 s0 s) :
    Within L0 C0 s0 (State.planFail s n code) := by
  unfold State.planFail
  repeat' (first
    | with_reducible exact hS
    | with_reducible assumption
    | exact subList_trans (by decide +kernel) hL
    | exact subList_trans (by decide +kernel) hC
    | exact subList_elem (by decide +kernel) hL
    | exact subList_elem (by decide +kernel) hC
    | with_reducible apply Within.wrF
    | with_reducible apply Within.setB
    | with_reducible apply Within.clrB
    | with_reducible apply State.pulse_within
    | with_reducible apply State.record_within
    | exact Within.memFilter
    | (intro x1; refine Within.cut (l := L0) (c := C0) (s := s0) (t := x1) ?_ ?_; subst x1; rotate_left; intro _; rotate_right)
    | (intro _)
    | lift_lets
    | (with_reducible refine Within.ofPair (by assumption) ?_)
    | (with_reducible refine Within.ofTriple (by assumption) ?_)
    | (with_reducible refine Within.ofFour (by assumption) ?_)
    | (with_reducible refine Within.ofFst (by assumption) ?_)
    | (with_reducible refine Within.ofSome (by assumption) ?_)
    | split
    | dsimp only)

theorem State.planDone_within {L0 : List RegName} {C0 : List Comp} {s0 : State} {s : State} {n : Nat} (hL : subList [.UPD_PLAN_STATUS] L0 = true) (hC : subList [.pulses] C0 = true) (hS : Within L0 C0 s0 s) :
    Within L0 C0 s0 (State.planDone s n) := by
  unfold State.planDone
  repeat' (first
    | with_reducible exact hS
    | with_reducible assumption
    | exact subList_trans (by decide +kernel) hL
    | exact subList_trans (by decide +kernel) hC
    | exact subList_elem (by decide +kernel) hL
    | exact subList_elem (by decide +kernel) hC
    | with_reducible apply Within.wrF
    | with_reducible apply Within.setB
    | with_reducible apply Within.clrB
    | with_reducible apply State.pulse_within
    | exact Within.memFilter
    | (intro x1; refine Within.cut (l := L0) (c := C0) (s := s0) (t := x1) ?_ ?_; subst x1; rotate_left; intro _; rotate_right)
    | (intro _)
    | lift_lets
    | (with_reducible refine Within.ofPair (by assumption) ?_)
    | (with_reducible refine Within.ofTriple (by assumption) ?_)
    | (with_reducible refine Within.ofFour (by assumption) ?_)
    | (with_reducible refine Within.ofFst (by assumption) ?_)
    | (with_reducible refine Within.ofSome (by assumption) ?_)
    | split
    | dsimp only)

theorem State.clearPlan_within {L0 : List RegName} {C0 : List Comp} {s0 : State} {s : State} {n : Nat} (hL : subList [.UPD_PLAN_STATUS] L0 = true) (hC : subList [.upool, .upd] C0 = true) (hS : Within L0 C0 s0 s) :
    Within L0 C0 s0 (State.clearPlan s n) := by
  unfold State.clearPlan
  repeat' (first
    | with_reducible exact hS
    | with_reducible assumption
    | exact subList_trans (by decide +kernel) hL
    | exact subList_trans (by decide +kernel) hC
    | exact subList_elem (by decide +kernel) hL
    | exact subList_elem (by decide +kernel) hC
    | with_reducible apply Within.clrB
    | with_reducible apply State.releaseExtent_within
    | with_reducible apply State.setPlanState_within
    | exact Within.memFilter
    | (with_reducible refine Within.foldl (fun _ _ _ => ?_) _ ?_)
    | (with_reducible refine Within.foldlPair (fun _ _ _ => ?_) _ ?_)
    | (with_reducible refine Within.foldlFst (fun _ _ _ => ?_) _ ?_)
    | (intro x1; refine Within.cut (l := L0) (c := C0) (s := s0) (t := x1) ?_ ?_; subst x1; rotate_left; intro _; rotate_right)
    | (intro _)
    | lift_lets
    | (with_reducible refine Within.ofPair (by assumption) ?_)
    | (with_reducible refine Within.ofTriple (by assumption) ?_)
    | (with_reducible refine Within.ofFour (by assumption) ?_)
    | (with_reducible refine Within.ofFst (by assumption) ?_)
    | (with_reducible refine Within.ofSome (by assumption) ?_)
    | split
    | dsimp only
    | with_reducible apply Within.upool_upd)

theorem State.clearCounters_within {L0 : List RegName} {C0 : List Comp} {s0 : State} {s : State} {n : Nat} (hL : subList [.UPD_PLAN_STALLS, .UPD_PLAN_STALL_US, .UPD_PLAN_STALL_MAX, .UPD_PLAN_HITS, .UPD_PLAN_MISSES] L0 = true) (hC : subList ([] : List Comp) C0 = true) (hS : Within L0 C0 s0 s) :
    Within L0 C0 s0 (State.clearCounters s n) := by
  unfold State.clearCounters
  repeat' (first
    | with_reducible exact hS
    | with_reducible assumption
    | exact subList_trans (by decide +kernel) hL
    | exact subList_trans (by decide +kernel) hC
    | exact subList_elem (by decide +kernel) hL
    | exact subList_elem (by decide +kernel) hC
    | with_reducible apply Within.wr
    | exact Within.memFilter
    | (intro x1; refine Within.cut (l := L0) (c := C0) (s := s0) (t := x1) ?_ ?_; subst x1; rotate_left; intro _; rotate_right)
    | (intro _)
    | lift_lets
    | (with_reducible refine Within.ofPair (by assumption) ?_)
    | (with_reducible refine Within.ofTriple (by assumption) ?_)
    | (with_reducible refine Within.ofFour (by assumption) ?_)
    | (with_reducible refine Within.ofFst (by assumption) ?_)
    | (with_reducible refine Within.ofSome (by assumption) ?_)
    | split
    | dsimp only)

theorem execPlanLoad_within {L0 : List RegName} {C0 : List Comp} {s0 : State} {a : Agent} {n : Nat} {s : State} (hL : subList [.MEM_DEEP_WEAR, .MEM_P_EVICTS, .UPD_PLAN_STATUS, .UPD_PLAN_STALLS, .UPD_PLAN_STALL_US, .UPD_PLAN_STALL_MAX, .UPD_PLAN_HITS, .UPD_PLAN_MISSES, .SEQ_ENT, .HDW_P_EVENT, .HDW_P_MISSES, .FLT_STATUS, .FLT_REC_NEWEST, .FLT_REC_LOST, .FLT_LOG_STATUS, .FLT_P_EVENT] L0 = true) (hC : subList [.mem, .badCheck, .badWord, .resp, .pulses, .flt, .hdw, .upool, .deep, .upd, .sqe, .hp] C0 = true) (hS : Within L0 C0 s0 s) :
    WithinOut L0 C0 s0 (execPlanLoad a n s) := by
  unfold execPlanLoad
  repeat' (first
    | with_reducible exact hS
    | with_reducible assumption
    | exact subList_trans (by decide +kernel) hL
    | exact subList_trans (by decide +kernel) hC
    | exact subList_elem (by decide +kernel) hL
    | exact subList_elem (by decide +kernel) hC
    | with_reducible apply State.respErr_within
    | with_reducible apply State.denied_within
    | with_reducible apply State.respOk_within
    | with_reducible apply State.planFail_within
    | with_reducible apply State.clearCounters_within
    | with_reducible refine State.takeExtents_within (subList_trans (by decide +kernel) hL) (subList_trans (by decide +kernel) hC) ?_ _ (by assumption)
    | with_reducible apply State.setPlan_within
    | with_reducible apply State.setPlanState_within
    | with_reducible apply WithinOut.next
    | exact Within.memFilter
    | (with_reducible refine Within.foldlMem _ (fun _ _ _ _ => ?_) ?_)
    | exact subList_mem hL (subList_of (by assumption) (by decide +kernel))
    | exact subList_mem hL (RegName.mem_all _)
    | (intro x1; refine Within.cut (l := L0) (c := C0) (s := s0) (t := x1) ?_ ?_; subst x1; rotate_left; intro _; rotate_right)
    | (intro _)
    | lift_lets
    | (with_reducible refine Within.ofPair (by assumption) ?_)
    | (with_reducible refine Within.ofTriple (by assumption) ?_)
    | (with_reducible refine Within.ofFour (by assumption) ?_)
    | (with_reducible refine Within.ofFst (by assumption) ?_)
    | (with_reducible refine Within.ofSome (by assumption) ?_)
    | split
    | dsimp only)

theorem State.fillExtents_within {L0 : List RegName} {C0 : List Comp} {s0 : State} {s : State} {n : Nat} {l : List Nat} {off : Nat} {d : List Byte} (hL : subList [.MEM_DEEP_WEAR, .FLT_STATUS, .FLT_REC_NEWEST, .FLT_REC_LOST, .FLT_LOG_STATUS, .FLT_P_EVENT] L0 = true) (hC : subList [.mem, .badCheck, .badWord, .flt, .hdw, .deep] C0 = true) (hS : Within L0 C0 s0 s) :
    Within L0 C0 s0 (State.fillExtents s n l off d) := by
  unfold State.fillExtents
  repeat' (first
    | with_reducible exact hS
    | with_reducible assumption
    | exact subList_trans (by decide +kernel) hL
    | exact subList_trans (by decide +kernel) hC
    | exact subList_elem (by decide +kernel) hL
    | exact subList_elem (by decide +kernel) hC
    | with_reducible apply State.engineWrite_within
    | exact Within.memFilter
    | (with_reducible refine Within.foldl (fun _ _ _ => ?_) _ ?_)
    | (with_reducible refine Within.foldlPair (fun _ _ _ => ?_) _ ?_)
    | (with_reducible refine Within.foldlFst (fun _ _ _ => ?_) _ ?_)
    | (intro x1; refine Within.cut (l := L0) (c := C0) (s := s0) (t := x1) ?_ ?_; subst x1; rotate_left; intro _; rotate_right)
    | (intro _)
    | lift_lets
    | (with_reducible refine Within.ofPair (by assumption) ?_)
    | (with_reducible refine Within.ofTriple (by assumption) ?_)
    | (with_reducible refine Within.ofFour (by assumption) ?_)
    | (with_reducible refine Within.ofFst (by assumption) ?_)
    | (with_reducible refine Within.ofSome (by assumption) ?_)
    | split
    | dsimp only)

theorem State.readExtents_within {L0 : List RegName} {C0 : List Comp} {s0 : State} {s : State} {n : Nat} {l : List Nat} {off len : Nat} (hL : subList [.MEM_DEEP_WEAR, .FLT_STATUS, .FLT_REC_NEWEST, .FLT_REC_LOST, .FLT_LOG_STATUS, .FLT_P_EVENT] L0 = true) (hC : subList [.flt, .hdw, .upool, .deep] C0 = true) (hS : Within L0 C0 s0 s) :
    Within L0 C0 s0 (State.readExtents s n l off len).2 := by
  unfold State.readExtents
  repeat' (first
    | with_reducible exact hS
    | with_reducible assumption
    | exact subList_trans (by decide +kernel) hL
    | exact subList_trans (by decide +kernel) hC
    | exact subList_elem (by decide +kernel) hL
    | exact subList_elem (by decide +kernel) hC
    | with_reducible apply State.engineRead_within
    | with_reducible apply State.touchExtent_within
    | exact Within.memFilter
    | (with_reducible refine Within.foldl (fun _ _ _ => ?_) _ ?_)
    | (with_reducible refine Within.foldlPair (fun _ _ _ => ?_) _ ?_)
    | (with_reducible refine Within.foldlFst (fun _ _ _ => ?_) _ ?_)
    | (intro x1; refine Within.cut (l := L0) (c := C0) (s := s0) (t := x1) ?_ ?_; subst x1; rotate_left; intro _; rotate_right)
    | (intro _)
    | lift_lets
    | (with_reducible refine Within.ofPair (by assumption) ?_)
    | (with_reducible refine Within.ofTriple (by assumption) ?_)
    | (with_reducible refine Within.ofFour (by assumption) ?_)
    | (with_reducible refine Within.ofFst (by assumption) ?_)
    | (with_reducible refine Within.ofSome (by assumption) ?_)
    | split
    | dsimp only)

theorem State.readDeep_within {L0 : List RegName} {C0 : List Comp} {s0 : State} {s : State} {n off len : Nat} (hL : subList [.MEM_DEEP_WEAR, .FLT_STATUS, .FLT_REC_NEWEST, .FLT_REC_LOST, .FLT_LOG_STATUS, .FLT_P_EVENT] L0 = true) (hC : subList [.flt, .hdw, .deep] C0 = true) (hS : Within L0 C0 s0 s) :
    Within L0 C0 s0 (State.readDeep s n off len).2 := by
  unfold State.readDeep
  repeat' (first
    | with_reducible exact hS
    | with_reducible assumption
    | exact subList_trans (by decide +kernel) hL
    | exact subList_trans (by decide +kernel) hC
    | exact subList_elem (by decide +kernel) hL
    | exact subList_elem (by decide +kernel) hC
    | with_reducible apply State.engineRead_within
    | exact Within.memFilter
    | (intro x1; refine Within.cut (l := L0) (c := C0) (s := s0) (t := x1) ?_ ?_; subst x1; rotate_left; intro _; rotate_right)
    | (intro _)
    | lift_lets
    | (with_reducible refine Within.ofPair (by assumption) ?_)
    | (with_reducible refine Within.ofTriple (by assumption) ?_)
    | (with_reducible refine Within.ofFour (by assumption) ?_)
    | (with_reducible refine Within.ofFst (by assumption) ?_)
    | (with_reducible refine Within.ofSome (by assumption) ?_)
    | split
    | dsimp only)

theorem State.loadPinned_within {L0 : List RegName} {C0 : List Comp} {s0 : State} {s : State} {n : Nat} {x : Plan} {l : List Nat} {k0 : Nat} {k1 : List PlanLayer} (hL : subList [.MEM_DEEP_WEAR, .FLT_STATUS, .FLT_REC_NEWEST, .FLT_REC_LOST, .FLT_LOG_STATUS, .FLT_P_EVENT] L0 = true) (hC : subList [.mem, .badCheck, .badWord, .flt, .hdw, .deep] C0 = true) (hS : Within L0 C0 s0 s) :
    Within L0 C0 s0 (State.loadPinned s n x l k0 k1).2 := by
  induction k1 generalizing s n x l k0 with
  | nil =>
    unfold State.loadPinned
    repeat' (first
      | with_reducible exact hS
      | with_reducible assumption
      | exact subList_trans (by decide +kernel) hL
      | exact subList_trans (by decide +kernel) hC
      | exact subList_elem (by decide +kernel) hL
      | exact subList_elem (by decide +kernel) hC
      | with_reducible apply State.readDeep_within
      | with_reducible apply State.fillExtents_within
      | exact Within.memFilter
      | (intro x1; refine Within.cut (l := L0) (c := C0) (s := s0) (t := x1) ?_ ?_; subst x1; rotate_left; intro _; rotate_right)
      | (intro _)
      | lift_lets
      | (with_reducible refine Within.ofPair (by assumption) ?_)
      | (with_reducible refine Within.ofTriple (by assumption) ?_)
      | (with_reducible refine Within.ofFour (by assumption) ?_)
      | (with_reducible refine Within.ofFst (by assumption) ?_)
      | (with_reducible refine Within.ofSome (by assumption) ?_)
      | split
      | dsimp only)
  | cons a1 l1 ih =>
    unfold State.loadPinned
    repeat' (first
      | with_reducible exact hS
      | with_reducible assumption
      | with_reducible apply ih
      | exact subList_trans (by decide +kernel) hL
      | exact subList_trans (by decide +kernel) hC
      | exact subList_elem (by decide +kernel) hL
      | exact subList_elem (by decide +kernel) hC
      | with_reducible apply State.readDeep_within
      | with_reducible apply State.fillExtents_within
      | exact Within.memFilter
      | (intro x1; refine Within.cut (l := L0) (c := C0) (s := s0) (t := x1) ?_ ?_; subst x1; rotate_left; intro _; rotate_right)
      | (intro _)
      | lift_lets
      | (with_reducible refine Within.ofPair (by assumption) ?_)
      | (with_reducible refine Within.ofTriple (by assumption) ?_)
      | (with_reducible refine Within.ofFour (by assumption) ?_)
      | (with_reducible refine Within.ofFst (by assumption) ?_)
      | (with_reducible refine Within.ofSome (by assumption) ?_)
      | split
      | dsimp only)

theorem State.loadTilePinned_within {L0 : List RegName} {C0 : List Comp} {s0 : State} {s : State} {n : Nat} {x : Plan} {pos : List Nat} {k0 : List PlanLayer} (hL : subList [.MEM_DEEP_WEAR, .FLT_STATUS, .FLT_REC_NEWEST, .FLT_REC_LOST, .FLT_LOG_STATUS, .FLT_P_EVENT] L0 = true) (hC : subList [.mem, .badCheck, .badWord, .flt, .hdw, .deep] C0 = true) (hS : Within L0 C0 s0 s) :
    Within L0 C0 s0 (State.loadTilePinned s n x pos k0).2 := by
  induction k0 generalizing s n x pos with
  | nil =>
    unfold State.loadTilePinned
    repeat' (first
      | with_reducible exact hS
      | with_reducible assumption
      | exact subList_trans (by decide +kernel) hL
      | exact subList_trans (by decide +kernel) hC
      | exact subList_elem (by decide +kernel) hL
      | exact subList_elem (by decide +kernel) hC
      | with_reducible apply State.readDeep_within
      | with_reducible apply State.store_within
      | exact Within.memFilter
      | (with_reducible refine Within.foldl (fun _ _ _ => ?_) _ ?_)
      | (with_reducible refine Within.foldlPair (fun _ _ _ => ?_) _ ?_)
      | (with_reducible refine Within.foldlFst (fun _ _ _ => ?_) _ ?_)
      | (intro x1; refine Within.cut (l := L0) (c := C0) (s := s0) (t := x1) ?_ ?_; subst x1; rotate_left; intro _; rotate_right)
      | (intro _)
      | lift_lets
      | (with_reducible refine Within.ofPair (by assumption) ?_)
      | (with_reducible refine Within.ofTriple (by assumption) ?_)
      | (with_reducible refine Within.ofFour (by assumption) ?_)
      | (with_reducible refine Within.ofFst (by assumption) ?_)
      | (with_reducible refine Within.ofSome (by assumption) ?_)
      | split
      | dsimp only)
  | cons a1 l1 ih =>
    unfold State.loadTilePinned
    repeat' (first
      | with_reducible exact hS
      | with_reducible assumption
      | with_reducible apply ih
      | exact subList_trans (by decide +kernel) hL
      | exact subList_trans (by decide +kernel) hC
      | exact subList_elem (by decide +kernel) hL
      | exact subList_elem (by decide +kernel) hC
      | with_reducible apply State.readDeep_within
      | with_reducible apply State.store_within
      | exact Within.memFilter
      | (with_reducible refine Within.foldl (fun _ _ _ => ?_) _ ?_)
      | (with_reducible refine Within.foldlPair (fun _ _ _ => ?_) _ ?_)
      | (with_reducible refine Within.foldlFst (fun _ _ _ => ?_) _ ?_)
      | (intro x1; refine Within.cut (l := L0) (c := C0) (s := s0) (t := x1) ?_ ?_; subst x1; rotate_left; intro _; rotate_right)
      | (intro _)
      | lift_lets
      | (with_reducible refine Within.ofPair (by assumption) ?_)
      | (with_reducible refine Within.ofTriple (by assumption) ?_)
      | (with_reducible refine Within.ofFour (by assumption) ?_)
      | (with_reducible refine Within.ofFst (by assumption) ?_)
      | (with_reducible refine Within.ofSome (by assumption) ?_)
      | split
      | dsimp only)

theorem execPlanLoadDone_within {L0 : List RegName} {C0 : List Comp} {s0 : State} {n : Nat} {s : State} (hL : subList [.BANK_CQ_STATUS, .BANK_TQ_STATUS, .MEM_DEEP_WEAR, .UPD_PLAN_STATUS, .FLT_STATUS, .FLT_REC_NEWEST, .FLT_REC_LOST, .FLT_LOG_STATUS, .FLT_P_EVENT] L0 = true) (hC : subList [.mem, .badCheck, .badWord, .pulses, .flt, .hdw, .upool, .deep, .upd] C0 = true) (hS : Within L0 C0 s0 s) :
    WithinOut L0 C0 s0 (execPlanLoadDone n s) := by
  unfold execPlanLoadDone
  repeat' (first
    | with_reducible exact hS
    | with_reducible assumption
    | exact subList_trans (by decide +kernel) hL
    | exact subList_trans (by decide +kernel) hC
    | exact subList_elem (by decide +kernel) hL
    | exact subList_elem (by decide +kernel) hC
    | with_reducible apply State.wakeAll_within
    | with_reducible apply State.loadPinned_within
    | with_reducible apply State.clearPlan_within
    | with_reducible apply State.planFail_within
    | with_reducible apply State.loadTilePinned_within
    | with_reducible apply State.setPlan_within
    | with_reducible apply State.setPlanState_within
    | with_reducible apply State.planDone_within
    | with_reducible apply WithinOut.next
    | exact Within.memFilter
    | (intro x1; refine Within.cut (l := L0) (c := C0) (s := s0) (t := x1) ?_ ?_; subst x1; rotate_left; intro _; rotate_right)
    | (intro _)
    | lift_lets
    | (with_reducible refine Within.ofPair (by assumption) ?_)
    | (with_reducible refine Within.ofTriple (by assumption) ?_)
    | (with_reducible refine Within.ofFour (by assumption) ?_)
    | (with_reducible refine Within.ofFst (by assumption) ?_)
    | (with_reducible refine Within.ofSome (by assumption) ?_)
    | split
    | dsimp only)

theorem execPlanUnload_within {L0 : List RegName} {C0 : List Comp} {s0 : State} {a : Agent} {n : Nat} {s : State} (hL : subList [.MEM_DEEP_WEAR, .UPD_PLAN_STATUS, .FLT_STATUS, .FLT_REC_NEWEST, .FLT_REC_LOST, .FLT_LOG_STATUS, .FLT_P_EVENT] L0 = true) (hC : subList [.resp, .pulses, .flt, .upool, .deep, .upd] C0 = true) (hS : Within L0 C0 s0 s) :
    WithinOut L0 C0 s0 (execPlanUnload a n s) := by
  unfold execPlanUnload
  repeat' (first
    | with_reducible exact hS
    | with_reducible assumption
    | exact subList_trans (by decide +kernel) hL
    | exact subList_trans (by decide +kernel) hC
    | exact subList_elem (by decide +kernel) hL
    | exact subList_elem (by decide +kernel) hC
    | with_reducible apply State.respErr_within
    | with_reducible apply State.denied_within
    | with_reducible apply State.respOk_within
    | with_reducible apply State.planDone_within
    | with_reducible apply State.clearPlan_within
    | with_reducible apply State.planFail_within
    | with_reducible apply WithinOut.next
    | exact Within.memFilter
    | (intro x1; refine Within.cut (l := L0) (c := C0) (s := s0) (t := x1) ?_ ?_; subst x1; rotate_left; intro _; rotate_right)
    | (intro _)
    | lift_lets
    | (with_reducible refine Within.ofPair (by assumption) ?_)
    | (with_reducible refine Within.ofTriple (by assumption) ?_)
    | (with_reducible refine Within.ofFour (by assumption) ?_)
    | (with_reducible refine Within.ofFst (by assumption) ?_)
    | (with_reducible refine Within.ofSome (by assumption) ?_)
    | split
    | dsimp only)

theorem State.makeRoom_within {L0 : List RegName} {C0 : List Comp} {s0 : State} {s : State} {n k : Nat} {k0 : Nat} (hL : subList [.MEM_DEEP_WEAR, .MEM_P_EVICTS, .SEQ_ENT, .HDW_P_EVENT, .HDW_P_MISSES, .FLT_STATUS, .FLT_REC_NEWEST, .FLT_REC_LOST, .FLT_LOG_STATUS, .FLT_P_EVENT] L0 = true) (hC : subList [.mem, .badCheck, .badWord, .resp, .pulses, .flt, .hdw, .upool, .deep, .upd, .sqe, .hp] C0 = true) (hS : Within L0 C0 s0 s) :
    Within L0 C0 s0 (State.makeRoom s n k k0) := by
  induction k0 generalizing s n k with
  | zero =>
    unfold State.makeRoom
    repeat' (first
      | with_reducible exact hS
      | with_reducible assumption
      | exact subList_trans (by decide +kernel) hL
      | exact subList_trans (by decide +kernel) hC
      | exact subList_elem (by decide +kernel) hL
      | exact subList_elem (by decide +kernel) hC
      | with_reducible apply State.cacheExtents_within
      | with_reducible apply State.releaseExtent_within
      | with_reducible apply State.setPlan_within
      | exact Within.memFilter
      | (with_reducible refine Within.foldl (fun _ _ _ => ?_) _ ?_)
      | (with_reducible refine Within.foldlPair (fun _ _ _ => ?_) _ ?_)
      | (with_reducible refine Within.foldlFst (fun _ _ _ => ?_) _ ?_)
      | (intro x1; refine Within.cut (l := L0) (c := C0) (s := s0) (t := x1) ?_ ?_; subst x1; rotate_left; intro _; rotate_right)
      | (intro _)
      | lift_lets
      | (with_reducible refine Within.ofPair (by assumption) ?_)
      | (with_reducible refine Within.ofTriple (by assumption) ?_)
      | (with_reducible refine Within.ofFour (by assumption) ?_)
      | (with_reducible refine Within.ofFst (by assumption) ?_)
      | (with_reducible refine Within.ofSome (by assumption) ?_)
      | split
      | dsimp only)
  | succ n1 ih =>
    unfold State.makeRoom
    repeat' (first
      | with_reducible exact hS
      | with_reducible assumption
      | with_reducible apply ih
      | exact subList_trans (by decide +kernel) hL
      | exact subList_trans (by decide +kernel) hC
      | exact subList_elem (by decide +kernel) hL
      | exact subList_elem (by decide +kernel) hC
      | with_reducible apply State.cacheExtents_within
      | with_reducible apply State.releaseExtent_within
      | with_reducible apply State.setPlan_within
      | exact Within.memFilter
      | (with_reducible refine Within.foldl (fun _ _ _ => ?_) _ ?_)
      | (with_reducible refine Within.foldlPair (fun _ _ _ => ?_) _ ?_)
      | (with_reducible refine Within.foldlFst (fun _ _ _ => ?_) _ ?_)
      | (intro x1; refine Within.cut (l := L0) (c := C0) (s := s0) (t := x1) ?_ ?_; subst x1; rotate_left; intro _; rotate_right)
      | (intro _)
      | lift_lets
      | (with_reducible refine Within.ofPair (by assumption) ?_)
      | (with_reducible refine Within.ofTriple (by assumption) ?_)
      | (with_reducible refine Within.ofFour (by assumption) ?_)
      | (with_reducible refine Within.ofFst (by assumption) ?_)
      | (with_reducible refine Within.ofSome (by assumption) ?_)
      | split
      | dsimp only)

theorem State.cacheExtents_within {L0 : List RegName} {C0 : List Comp} {s0 : State} {s : State} {n k : Nat} (hL : subList [.MEM_DEEP_WEAR, .MEM_P_EVICTS, .SEQ_ENT, .HDW_P_EVENT, .HDW_P_MISSES, .FLT_STATUS, .FLT_REC_NEWEST, .FLT_REC_LOST, .FLT_LOG_STATUS, .FLT_P_EVENT] L0 = true) (hC : subList [.mem, .badCheck, .badWord, .resp, .pulses, .flt, .hdw, .upool, .deep, .upd, .sqe, .hp] C0 = true) (hS : Within L0 C0 s0 s) :
    Within L0 C0 s0 (State.cacheExtents s n k).2 := by
  unfold State.cacheExtents
  repeat' (first
    | with_reducible exact hS
    | with_reducible assumption
    | exact subList_trans (by decide +kernel) hL
    | exact subList_trans (by decide +kernel) hC
    | exact subList_elem (by decide +kernel) hL
    | exact subList_elem (by decide +kernel) hC
    | with_reducible apply State.makeRoom_within
    | with_reducible refine State.takeExtents_within (subList_trans (by decide +kernel) hL) (subList_trans (by decide +kernel) hC) ?_ _ (by assumption)
    | with_reducible apply State.setPlan_within
    | exact Within.memFilter
    | (intro x1; refine Within.cut (l := L0) (c := C0) (s := s0) (t := x1) ?_ ?_; subst x1; rotate_left; intro _; rotate_right)
    | (intro _)
    | lift_lets
    | (with_reducible refine Within.ofPair (by assumption) ?_)
    | (with_reducible refine Within.ofTriple (by assumption) ?_)
    | (with_reducible refine Within.ofFour (by assumption) ?_)
    | (with_reducible refine Within.ofFst (by assumption) ?_)
    | (with_reducible refine Within.ofSome (by assumption) ?_)
    | split
    | dsimp only)

theorem State.stageLayer_within {L0 : List RegName} {C0 : List Comp} {s0 : State} {s : State} {n l : Nat} (hL : subList [.MEM_DEEP_WEAR, .MEM_P_EVICTS, .SEQ_ENT, .HDW_P_EVENT, .HDW_P_MISSES, .FLT_STATUS, .FLT_REC_NEWEST, .FLT_REC_LOST, .FLT_LOG_STATUS, .FLT_P_EVENT] L0 = true) (hC : subList [.mem, .badCheck, .badWord, .resp, .pulses, .flt, .hdw, .upool, .deep, .upd, .sqe, .hp] C0 = true) (hS : Within L0 C0 s0 s) :
    Within L0 C0 s0 (State.stageLayer s n l).2 := by
  unfold State.stageLayer
  repeat' (first
    | with_reducible exact hS
    | with_reducible assumption
    | exact subList_trans (by decide +kernel) hL
    | exact subList_trans (by decide +kernel) hC
    | exact subList_elem (by decide +kernel) hL
    | exact subList_elem (by decide +kernel) hC
    | with_reducible apply State.readDeep_within
    | with_reducible apply State.cacheExtents_within
    | with_reducible apply State.fillExtents_within
    | with_reducible apply State.setPlan_within
    | exact Within.memFilter
    | (intro x1; refine Within.cut (l := L0) (c := C0) (s := s0) (t := x1) ?_ ?_; subst x1; rotate_left; intro _; rotate_right)
    | (intro _)
    | lift_lets
    | (with_reducible refine Within.ofPair (by assumption) ?_)
    | (with_reducible refine Within.ofTriple (by assumption) ?_)
    | (with_reducible refine Within.ofFour (by assumption) ?_)
    | (with_reducible refine Within.ofFst (by assumption) ?_)
    | (with_reducible refine Within.ofSome (by assumption) ?_)
    | split
    | dsimp only)

-- TODO Fetch.reply : Fetch × State

theorem State.denseShare_within {L0 : List RegName} {C0 : List Comp} {s0 : State} {s : State} {n i l : Nat} {x : PlanState} (hL : subList [.MEM_DEEP_WEAR, .MEM_P_EVICTS, .SEQ_ENT, .HDW_P_EVENT, .HDW_P_MISSES, .FLT_STATUS, .FLT_REC_NEWEST, .FLT_REC_LOST, .FLT_LOG_STATUS, .FLT_P_EVENT] L0 = true) (hC : subList [.mem, .badCheck, .badWord, .resp, .pulses, .flt, .hdw, .upool, .deep, .upd, .sqe, .hp] C0 = true) (hS : Within L0 C0 s0 s) :
    Within L0 C0 s0 (State.denseShare s n i l x).2 := by
  unfold State.denseShare
  have hr : ∀ r : Option (List Byte) × State, Within L0 C0 s0 r.2 → Within L0 C0 s0 (Fetch.reply r).2 := fun _ h => h
  dsimp only
  split
  · exact hr _ (State.readExtents_within (subList_trans (by decide +kernel) hL) (subList_trans (by decide +kernel) hC) hS)
  · split
    · exact Within.ofPair (by assumption) (State.stageLayer_within (subList_trans (by decide +kernel) hL) (subList_trans (by decide +kernel) hC) hS)
    · have h1 := Within.ofPair (by assumption) (State.stageLayer_within (n := n) (l := l) (subList_trans (by decide +kernel) hL) (subList_trans (by decide +kernel) hC) hS)
      split
      · exact hr _ (State.readExtents_within (subList_trans (by decide +kernel) hL) (subList_trans (by decide +kernel) hC) h1)
      · exact h1
  · exact hr _ (State.readDeep_within (subList_trans (by decide +kernel) hL) (subList_trans (by decide +kernel) hC) hS)

theorem State.readExpert_within {L0 : List RegName} {C0 : List Comp} {s0 : State} {s : State} {n : Nat} {x : PlanState} {e off len : Nat} (hL : subList [.MEM_DEEP_WEAR, .FLT_STATUS, .FLT_REC_NEWEST, .FLT_REC_LOST, .FLT_LOG_STATUS, .FLT_P_EVENT] L0 = true) (hC : subList [.flt, .hdw, .upool, .deep] C0 = true) (hS : Within L0 C0 s0 s) :
    Within L0 C0 s0 (State.readExpert s n x e off len).2 := by
  unfold State.readExpert
  repeat' (first
    | with_reducible exact hS
    | with_reducible assumption
    | exact subList_trans (by decide +kernel) hL
    | exact subList_trans (by decide +kernel) hC
    | exact subList_elem (by decide +kernel) hL
    | exact subList_elem (by decide +kernel) hC
    | with_reducible apply State.readExtents_within
    | with_reducible apply State.readDeep_within
    | exact Within.memFilter
    | (intro x1; refine Within.cut (l := L0) (c := C0) (s := s0) (t := x1) ?_ ?_; subst x1; rotate_left; intro _; rotate_right)
    | (intro _)
    | lift_lets
    | (with_reducible refine Within.ofPair (by assumption) ?_)
    | (with_reducible refine Within.ofTriple (by assumption) ?_)
    | (with_reducible refine Within.ofFour (by assumption) ?_)
    | (with_reducible refine Within.ofFst (by assumption) ?_)
    | (with_reducible refine Within.ofSome (by assumption) ?_)
    | split
    | dsimp only)

theorem State.expertShares_within {L0 : List RegName} {C0 : List Comp} {s0 : State} {s : State} {n i l : Nat} {x : PlanState} {k0 : List (Nat × Nat)} (hL : subList [.MEM_DEEP_WEAR, .FLT_STATUS, .FLT_REC_NEWEST, .FLT_REC_LOST, .FLT_LOG_STATUS, .FLT_P_EVENT] L0 = true) (hC : subList [.flt, .hdw, .upool, .deep] C0 = true) (hS : Within L0 C0 s0 s) :
    Within L0 C0 s0 (State.expertShares s n i l x k0).2 := by
  induction k0 generalizing s n i l x with
  | nil => exact hS
  | cons a1 l1 ih =>
    obtain ⟨r, e⟩ := a1
    unfold State.expertShares
    dsimp only
    split
    · exact Within.ofPair (by assumption) (State.readExpert_within (subList_trans (by decide +kernel) hL) (subList_trans (by decide +kernel) hC) hS)
    · have h1 := Within.ofPair (by assumption) (State.readExpert_within (subList_trans (by decide +kernel) hL) (subList_trans (by decide +kernel) hC) hS)
      split
      · exact Within.ofPair (by assumption) (ih h1)
      · exact ih h1

theorem State.setGate_within {L0 : List RegName} {C0 : List Comp} {s0 : State} {s : State} {n i : Nat} {f : GateState → GateState} (hL : subList ([] : List RegName) L0 = true) (hC : subList [.upd] C0 = true) (hS : Within L0 C0 s0 s) :
    Within L0 C0 s0 (State.setGate s n i f) := by
  unfold State.setGate
  repeat' (first
    | with_reducible exact hS
    | with_reducible assumption
    | exact subList_trans (by decide +kernel) hL
    | exact subList_trans (by decide +kernel) hC
    | exact subList_elem (by decide +kernel) hL
    | exact subList_elem (by decide +kernel) hC
    | with_reducible apply State.setPlan_within
    | exact Within.memFilter
    | (intro x1; refine Within.cut (l := L0) (c := C0) (s := s0) (t := x1) ?_ ?_; subst x1; rotate_left; intro _; rotate_right)
    | (intro _)
    | lift_lets
    | (with_reducible refine Within.ofPair (by assumption) ?_)
    | (with_reducible refine Within.ofTriple (by assumption) ?_)
    | (with_reducible refine Within.ofFour (by assumption) ?_)
    | (with_reducible refine Within.ofFst (by assumption) ?_)
    | (with_reducible refine Within.ofSome (by assumption) ?_)
    | split
    | dsimp only)

theorem State.passGate_within {L0 : List RegName} {C0 : List Comp} {s0 : State} {s : State} {t n i l slot : Nat} (hL : subList [.TILE_STATUS, .TILE_FLAGS, .TILE_DONE_TAG, .TILE_CMD_COUNT, .BANK_CQ_STATUS, .BANK_TQ_STATUS, .MEM_DEEP_WEAR, .UPD_PLAN_STATUS, .UPD_PLAN_STALL_US, .UPD_PLAN_STALL_MAX, .SCH_CTX, .FLT_STATUS, .FLT_REC_NEWEST, .FLT_REC_LOST, .FLT_LOG_STATUS, .FLT_P_EVENT] L0 = true) (hC : subList [.mem, .badCheck, .badWord, .pulses, .flt, .bank, .hdw, .sch, .deep, .upd] C0 = true) (hS : Within L0 C0 s0 s) :
    Within L0 C0 s0 (State.passGate s t n i l slot) := by
  unfold State.passGate
  repeat' (first
    | with_reducible exact hS
    | with_reducible assumption
    | exact subList_trans (by decide +kernel) hL
    | exact subList_trans (by decide +kernel) hC
    | exact subList_elem (by decide +kernel) hL
    | exact subList_elem (by decide +kernel) hC
    | with_reducible apply State.endStall_within
    | with_reducible apply State.setGate_within
    | with_reducible apply State.finish_within
    | exact Within.memFilter
    | (intro x1; refine Within.cut (l := L0) (c := C0) (s := s0) (t := x1) ?_ ?_; subst x1; rotate_left; intro _; rotate_right)
    | (intro _)
    | lift_lets
    | (with_reducible refine Within.ofPair (by assumption) ?_)
    | (with_reducible refine Within.ofTriple (by assumption) ?_)
    | (with_reducible refine Within.ofFour (by assumption) ?_)
    | (with_reducible refine Within.ofFst (by assumption) ?_)
    | (with_reducible refine Within.ofSome (by assumption) ?_)
    | split
    | dsimp only)

theorem State.endGates_within {L0 : List RegName} {C0 : List Comp} {s0 : State} {s : State} {j : Nat} {l : List (Nat × RunCmd)} (hL : subList [.TILE_STATUS, .TILE_ERR, .MEM_DEEP_WEAR, .UPD_PLAN_STATUS, .UPD_PLAN_STALL_US, .UPD_PLAN_STALL_MAX, .SCH_P_EVENT, .SCH_CTX, .FLT_STATUS, .FLT_REC_NEWEST, .FLT_REC_LOST, .FLT_LOG_STATUS, .FLT_P_EVENT] L0 = true) (hC : subList [.pulses, .flt, .sch, .deep, .upd] C0 = true) (hS : Within L0 C0 s0 s) :
    Within L0 C0 s0 (State.endGates s j l) := by
  unfold State.endGates
  repeat' (first
    | with_reducible exact hS
    | with_reducible assumption
    | exact subList_trans (by decide +kernel) hL
    | exact subList_trans (by decide +kernel) hC
    | exact subList_elem (by decide +kernel) hL
    | exact subList_elem (by decide +kernel) hC
    | with_reducible apply State.endCommand_within
    | with_reducible apply State.stopJob_within
    | exact Within.memFilter
    | (with_reducible refine Within.foldl (fun _ _ _ => ?_) _ ?_)
    | (with_reducible refine Within.foldlPair (fun _ _ _ => ?_) _ ?_)
    | (with_reducible refine Within.foldlFst (fun _ _ _ => ?_) _ ?_)
    | (intro x1; refine Within.cut (l := L0) (c := C0) (s := s0) (t := x1) ?_ ?_; subst x1; rotate_left; intro _; rotate_right)
    | (intro _)
    | lift_lets
    | (with_reducible refine Within.ofPair (by assumption) ?_)
    | (with_reducible refine Within.ofTriple (by assumption) ?_)
    | (with_reducible refine Within.ofFour (by assumption) ?_)
    | (with_reducible refine Within.ofFst (by assumption) ?_)
    | (with_reducible refine Within.ofSome (by assumption) ?_)
    | split
    | dsimp only)

theorem State.failGates_within {L0 : List RegName} {C0 : List Comp} {s0 : State} {s : State} {n j : Nat} {hit : GateState → Bool} (hL : subList [.TILE_STATUS, .TILE_ERR, .MEM_DEEP_WEAR, .UPD_PLAN_STATUS, .UPD_PLAN_STALL_US, .UPD_PLAN_STALL_MAX, .SCH_P_EVENT, .SCH_CTX, .FLT_STATUS, .FLT_REC_NEWEST, .FLT_REC_LOST, .FLT_LOG_STATUS, .FLT_P_EVENT] L0 = true) (hC : subList [.pulses, .flt, .sch, .deep, .upd] C0 = true) (hS : Within L0 C0 s0 s) :
    Within L0 C0 s0 (State.failGates s n j hit) := by
  unfold State.failGates
  repeat' (first
    | with_reducible exact hS
    | with_reducible assumption
    | exact subList_trans (by decide +kernel) hL
    | exact subList_trans (by decide +kernel) hC
    | exact subList_elem (by decide +kernel) hL
    | exact subList_elem (by decide +kernel) hC
    | with_reducible apply State.endGates_within
    | exact Within.memFilter
    | (intro x1; refine Within.cut (l := L0) (c := C0) (s := s0) (t := x1) ?_ ?_; subst x1; rotate_left; intro _; rotate_right)
    | (intro _)
    | lift_lets
    | (with_reducible refine Within.ofPair (by assumption) ?_)
    | (with_reducible refine Within.ofTriple (by assumption) ?_)
    | (with_reducible refine Within.ofFour (by assumption) ?_)
    | (with_reducible refine Within.ofFst (by assumption) ?_)
    | (with_reducible refine Within.ofSome (by assumption) ?_)
    | split
    | dsimp only)

theorem execGateWait_within {L0 : List RegName} {C0 : List Comp} {s0 : State} {t : Nat} {s : State} (hL : subList [.TILE_STATUS, .TILE_FLAGS, .TILE_ERR, .TILE_DONE_TAG, .TILE_CMD_COUNT, .BANK_CQ_STATUS, .BANK_TQ_STATUS, .MEM_DEEP_WEAR, .MEM_P_EVICTS, .UPD_PLAN_STATUS, .UPD_PLAN_STALLS, .UPD_PLAN_STALL_US, .UPD_PLAN_STALL_MAX, .SEQ_ENT, .SCH_P_EVENT, .SCH_CTX, .HDW_P_EVENT, .HDW_P_MISSES, .FLT_STATUS, .FLT_REC_NEWEST, .FLT_REC_LOST, .FLT_LOG_STATUS, .FLT_P_EVENT] L0 = true) (hC : subList [.mem, .badCheck, .badWord, .resp, .pulses, .flt, .bank, .hdw, .sch, .upool, .deep, .upd, .sqe, .hp] C0 = true) (hS : Within L0 C0 s0 s) :
    WithinOut L0 C0 s0 (execGateWait t s) := by
  unfold execGateWait
  repeat' (first
    | with_reducible exact hS
    | with_reducible assumption
    | exact subList_trans (by decide +kernel) hL
    | exact subList_trans (by decide +kernel) hC
    | exact subList_elem (by decide +kernel) hL
    | exact subList_elem (by decide +kernel) hC
    | with_reducible apply Within.setB
    | with_reducible apply Within.bump
    | with_reducible refine State.startCmd_within (subList_trans (by decide +kernel) hL) (subList_trans (by decide +kernel) hC) ?_ _ (by assumption)
    | with_reducible apply State.setGate_within
    | with_reducible apply State.stageLayer_within
    | with_reducible apply State.failGates_within
    | with_reducible apply State.passGate_within
    | with_reducible apply WithinOut.next
    | exact Within.memFilter
    | (with_reducible refine Within.foldl (fun _ _ _ => ?_) _ ?_)
    | (with_reducible refine Within.foldlPair (fun _ _ _ => ?_) _ ?_)
    | (with_reducible refine Within.foldlFst (fun _ _ _ => ?_) _ ?_)
    | (intro x1; refine Within.cut (l := L0) (c := C0) (s := s0) (t := x1) ?_ ?_; subst x1; rotate_left; intro _; rotate_right)
    | (intro _)
    | lift_lets
    | (with_reducible refine Within.ofPair (by assumption) ?_)
    | (with_reducible refine Within.ofTriple (by assumption) ?_)
    | (with_reducible refine Within.ofFour (by assumption) ?_)
    | (with_reducible refine Within.ofFst (by assumption) ?_)
    | (with_reducible refine Within.ofSome (by assumption) ?_)
    | split
    | dsimp only)

theorem execGateAnnounce_within {L0 : List RegName} {C0 : List Comp} {s0 : State} {t : Nat} {s : State} (hL : subList [.TILE_STATUS, .TILE_FLAGS, .TILE_ERR, .TILE_DONE_TAG, .TILE_CMD_COUNT, .BANK_CQ_STATUS, .BANK_TQ_STATUS, .MEM_DEEP_WEAR, .UPD_PLAN_STATUS, .UPD_PLAN_STALL_US, .UPD_PLAN_STALL_MAX, .UPD_PLAN_HITS, .UPD_PLAN_MISSES, .SCH_P_EVENT, .SCH_CTX, .FLT_STATUS, .FLT_REC_NEWEST, .FLT_REC_LOST, .FLT_LOG_STATUS, .FLT_P_EVENT] L0 = true) (hC : subList [.mem, .badCheck, .badWord, .pulses, .flt, .bank, .hdw, .sch, .upool, .deep, .upd] C0 = true) (hS : Within L0 C0 s0 s) :
    WithinOut L0 C0 s0 (execGateAnnounce t s) := by
  unfold execGateAnnounce
  repeat' (first
    | with_reducible exact hS
    | with_reducible assumption
    | exact subList_trans (by decide +kernel) hL
    | exact subList_trans (by decide +kernel) hC
    | exact subList_elem (by decide +kernel) hL
    | exact subList_elem (by decide +kernel) hC
    | with_reducible apply Within.bump
    | with_reducible apply State.wakeAll_within
    | with_reducible refine State.startCmd_within (subList_trans (by decide +kernel) hL) (subList_trans (by decide +kernel) hC) ?_ _ (by assumption)
    | with_reducible apply State.uncorrectable_within
    | with_reducible apply State.failCommand_within
    | with_reducible apply State.touchExtent_within
    | with_reducible apply State.setGate_within
    | with_reducible apply State.finish_within
    | with_reducible apply WithinOut.next
    | exact Within.memFilter
    | (with_reducible refine Within.foldl (fun _ _ _ => ?_) _ ?_)
    | (with_reducible refine Within.foldlPair (fun _ _ _ => ?_) _ ?_)
    | (with_reducible refine Within.foldlFst (fun _ _ _ => ?_) _ ?_)
    | (intro x1; refine Within.cut (l := L0) (c := C0) (s := s0) (t := x1) ?_ ?_; subst x1; rotate_left; intro _; rotate_right)
    | (intro _)
    | lift_lets
    | (with_reducible refine Within.ofPair (by assumption) ?_)
    | (with_reducible refine Within.ofTriple (by assumption) ?_)
    | (with_reducible refine Within.ofFour (by assumption) ?_)
    | (with_reducible refine Within.ofFst (by assumption) ?_)
    | (with_reducible refine Within.ofSome (by assumption) ?_)
    | split
    | dsimp only)

theorem execLayerComplete_within {L0 : List RegName} {C0 : List Comp} {s0 : State} {n i l : Nat} {s : State} (hL : subList [.TILE_STATUS, .TILE_FLAGS, .TILE_ERR, .TILE_DONE_TAG, .TILE_CMD_COUNT, .BANK_CQ_STATUS, .BANK_TQ_STATUS, .MEM_DEEP_WEAR, .MEM_P_EVICTS, .UPD_PLAN_STATUS, .UPD_PLAN_STALL_US, .UPD_PLAN_STALL_MAX, .SEQ_ENT, .SCH_P_EVENT, .SCH_CTX, .HDW_P_EVENT, .HDW_P_MISSES, .FLT_STATUS, .FLT_REC_NEWEST, .FLT_REC_LOST, .FLT_LOG_STATUS, .FLT_P_EVENT] L0 = true) (hC : subList [.mem, .badCheck, .badWord, .resp, .pulses, .flt, .bank, .hdw, .sch, .upool, .deep, .upd, .sqe, .hp] C0 = true) (hS : Within L0 C0 s0 s) :
    WithinOut L0 C0 s0 (execLayerComplete n i l s) := by
  unfold execLayerComplete
  repeat' (first
    | with_reducible exact hS
    | with_reducible assumption
    | exact subList_trans (by decide +kernel) hL
    | exact subList_trans (by decide +kernel) hC
    | exact subList_elem (by decide +kernel) hL
    | exact subList_elem (by decide +kernel) hC
    | with_reducible apply State.failCommand_within
    | with_reducible apply State.wakeAll_within
    | with_reducible apply State.expertShares_within
    | with_reducible apply State.denseShare_within
    | with_reducible apply State.failGates_within
    | with_reducible apply State.store_within
    | with_reducible apply State.setGate_within
    | with_reducible apply State.passGate_within
    | with_reducible apply WithinOut.next
    | exact Within.memFilter
    | (with_reducible refine Within.foldl (fun _ _ _ => ?_) _ ?_)
    | (with_reducible refine Within.foldlPair (fun _ _ _ => ?_) _ ?_)
    | (with_reducible refine Within.foldlFst (fun _ _ _ => ?_) _ ?_)
    | (intro x1; refine Within.cut (l := L0) (c := C0) (s := s0) (t := x1) ?_ ?_; subst x1; rotate_left; intro _; rotate_right)
    | (intro x1; refine Within.cut (l := L0) (c := C0) (s := s0) (t := x1.2) ?_ ?_; subst x1; rotate_left; intro _; clear_value x1; rotate_right)
    | (intro x1; refine Within.cut (l := L0) (c := C0) (s := s0) (t := x1.1) ?_ ?_; subst x1; rotate_left; intro _; clear_value x1; rotate_right)
    | (intro x1; have h1 : ∀ u, x1 = some u → Within L0 C0 s0 u := ?_; clear_value x1; rotate_left; subst x1; intro _ _; rotate_right)
    | (intro x1; clear_value x1)
    | (intro _)
    | lift_lets
    | (with_reducible refine Within.ofPair (by assumption) ?_)
    | (with_reducible refine Within.ofTriple (by assumption) ?_)
    | (with_reducible refine Within.ofFour (by assumption) ?_)
    | (with_reducible refine Within.ofFst (by assumption) ?_)
    | (with_reducible refine Within.ofSome (by assumption) ?_)
    | split
    | dsimp only)

theorem execExpertFetchDone_within {L0 : List RegName} {C0 : List Comp} {s0 : State} {n e : Nat} {s : State} (hL : subList [.TILE_STATUS, .TILE_ERR, .MEM_DEEP_WEAR, .MEM_P_EVICTS, .UPD_PLAN_STATUS, .UPD_PLAN_STALL_US, .UPD_PLAN_STALL_MAX, .SEQ_ENT, .SCH_P_EVENT, .SCH_CTX, .HDW_P_EVENT, .HDW_P_MISSES, .FLT_STATUS, .FLT_REC_NEWEST, .FLT_REC_LOST, .FLT_LOG_STATUS, .FLT_P_EVENT] L0 = true) (hC : subList [.mem, .badCheck, .badWord, .resp, .pulses, .flt, .hdw, .sch, .upool, .deep, .upd, .sqe, .hp] C0 = true) (hS : Within L0 C0 s0 s) :
    WithinOut L0 C0 s0 (execExpertFetchDone n e s) := by
  unfold execExpertFetchDone
  repeat' (first
    | with_reducible exact hS
    | with_reducible assumption
    | exact subList_trans (by decide +kernel) hL
    | exact subList_trans (by decide +kernel) hC
    | exact subList_elem (by decide +kernel) hL
    | exact subList_elem (by decide +kernel) hC
    | with_reducible apply State.readDeep_within
    | with_reducible apply State.failGates_within
    | with_reducible apply State.cacheExtents_within
    | with_reducible apply State.fillExtents_within
    | with_reducible apply State.setPlan_within
    | with_reducible apply WithinOut.next
    | exact Within.memFilter
    | (intro x1; refine Within.cut (l := L0) (c := C0) (s := s0) (t := x1) ?_ ?_; subst x1; rotate_left; intro _; rotate_right)
    | (intro _)
    | lift_lets
    | (with_reducible refine Within.ofPair (by assumption) ?_)
    | (with_reducible refine Within.ofTriple (by assumption) ?_)
    | (with_reducible refine Within.ofFour (by assumption) ?_)
    | (with_reducible refine Within.ofFst (by assumption) ?_)
    | (with_reducible refine Within.ofSome (by assumption) ?_)
    | split
    | dsimp only)

theorem execStallLimit_within {L0 : List RegName} {C0 : List Comp} {s0 : State} {t : Nat} {s : State} (hL : subList [.TILE_STATUS, .TILE_ERR, .MEM_DEEP_WEAR, .UPD_PLAN_STATUS, .UPD_PLAN_STALL_US, .UPD_PLAN_STALL_MAX, .SCH_CTX, .FLT_STATUS, .FLT_REC_NEWEST, .FLT_REC_LOST, .FLT_LOG_STATUS, .FLT_P_EVENT] L0 = true) (hC : subList [.pulses, .flt, .sch, .deep, .upd] C0 = true) (hS : Within L0 C0 s0 s) :
    WithinOut L0 C0 s0 (execStallLimit t s) := by
  unfold execStallLimit
  repeat' (first
    | with_reducible exact hS
    | with_reducible assumption
    | exact subList_trans (by decide +kernel) hL
    | exact subList_trans (by decide +kernel) hC
    | exact subList_elem (by decide +kernel) hL
    | exact subList_elem (by decide +kernel) hC
    | with_reducible apply Within.wrF
    | with_reducible apply State.setJob_within
    | with_reducible apply State.dropGate_within
    | with_reducible apply State.loadTileErr_within
    | with_reducible apply State.record_within
    | with_reducible apply State.pulse_within
    | with_reducible apply State.setGangPos_within
    | with_reducible apply State.updRun_within
    | with_reducible apply WithinOut.next
    | exact Within.memFilter
    | (intro x1; refine Within.cut (l := L0) (c := C0) (s := s0) (t := x1) ?_ ?_; subst x1; rotate_left; intro _; rotate_right)
    | (intro _)
    | lift_lets
    | (with_reducible refine Within.ofPair (by assumption) ?_)
    | (with_reducible refine Within.ofTriple (by assumption) ?_)
    | (with_reducible refine Within.ofFour (by assumption) ?_)
    | (with_reducible refine Within.ofFst (by assumption) ?_)
    | (with_reducible refine Within.ofSome (by assumption) ?_)
    | split
    | dsimp only)

theorem execGateTimeout_within {L0 : List RegName} {C0 : List Comp} {s0 : State} {t : Nat} {s : State} (hL : subList [.TILE_STATUS, .TILE_ERR, .MEM_DEEP_WEAR, .UPD_PLAN_STATUS, .UPD_PLAN_STALL_US, .UPD_PLAN_STALL_MAX, .SCH_P_EVENT, .SCH_CTX, .FLT_STATUS, .FLT_REC_NEWEST, .FLT_REC_LOST, .FLT_LOG_STATUS, .FLT_P_EVENT] L0 = true) (hC : subList [.pulses, .flt, .sch, .deep, .upd] C0 = true) (hS : Within L0 C0 s0 s) :
    WithinOut L0 C0 s0 (execGateTimeout t s) := by
  unfold execGateTimeout
  repeat' (first
    | with_reducible exact hS
    | with_reducible assumption
    | exact subList_trans (by decide +kernel) hL
    | exact subList_trans (by decide +kernel) hC
    | exact subList_elem (by decide +kernel) hL
    | exact subList_elem (by decide +kernel) hC
    | with_reducible apply State.failCommand_within
    | with_reducible apply WithinOut.next
    | exact Within.memFilter
    | (intro x1; refine Within.cut (l := L0) (c := C0) (s := s0) (t := x1) ?_ ?_; subst x1; rotate_left; intro _; rotate_right)
    | (intro _)
    | lift_lets
    | (with_reducible refine Within.ofPair (by assumption) ?_)
    | (with_reducible refine Within.ofTriple (by assumption) ?_)
    | (with_reducible refine Within.ofFour (by assumption) ?_)
    | (with_reducible refine Within.ofFst (by assumption) ?_)
    | (with_reducible refine Within.ofSome (by assumption) ?_)
    | split
    | dsimp only)

end Sys2Proof.Machine
end

