-- ==== Sys2Proof/Laws/WithinCsrWrite.lean ====
section
/-!
SUPPORT. What each operation of Machine/CsrWrite.lean leaves alone.
-/

set_option Elab.async false

namespace Sys2Proof.Machine

theorem State.via_within {L0 : List RegName} {C0 : List Comp} {s0 : State} {s : State} {o : Host.Outcome State Fault Refusal} (hL : subList ([] : List RegName) L0 = true) (hC : subList ([] : List Comp) C0 = true) (ho : WithinOut L0 C0 s0 o) (hS : Within L0 C0 s0 s) :
    Within L0 C0 s0 (State.via s o) := by
  unfold State.via
  repeat' (first
    | with_reducible exact hS
    | with_reducible assumption
    | exact ho _ rfl
    | exact subList_trans (by decide +kernel) hL
    | exact subList_trans (by decide +kernel) hC
    | exact subList_elem (by decide +kernel) hL
    | exact subList_elem (by decide +kernel) hC
    | exact Within.memFilter
    | (intro x1; refine Within.cut (l := L0) (c := C0) (s := s0) (t := x1) ?_ ?_; subst x1; rotate_left; intro _; rotate_right)
    | (intro _)
    | lift_lets
    | (with_reducible refine Within.ofPair (by assumption) ?_)
    | (with_reducible refine Within.ofTriple (by assumption) ?_)
    | (with_reducible refine Within.ofFour (by assumption) ?_)
    | (with_reducible refine Within.ofFst (by assumption) ?_)
    | (with_reducible refine Within.ofSome (by assumption) ?_)
    | split
    | dsimp only)

theorem State.plainWrite_within {L0 : List RegName} {C0 : List Comp} {s0 : State} {s : State} {r : Reg} {w : Word} (hL : subList RegName.all L0 = true) (hC : subList ([] : List Comp) C0 = true) (hS : Within L0 C0 s0 s) :
    Within L0 C0 s0 (State.plainWrite s r w) := by
  unfold State.plainWrite
  repeat' (first
    | with_reducible exact hS
    | with_reducible assumption
    | exact subList_trans (by decide +kernel) hL
    | exact subList_trans (by decide +kernel) hC
    | exact subList_elem (by decide +kernel) hL
    | exact subList_elem (by decide +kernel) hC
    | with_reducible apply Within.wrReg
    | exact Within.memFilter
    | (with_reducible refine Within.foldlMem _ (fun _ _ _ _ => ?_) ?_)
    | exact subList_mem hL (subList_of (by assumption) (by decide +kernel))
    | exact subList_mem hL (RegName.mem_all _)
    | (intro x1; refine Within.cut (l := L0) (c := C0) (s := s0) (t := x1) ?_ ?_; subst x1; rotate_left; intro _; rotate_right)
    | (intro _)
    | lift_lets
    | (with_reducible refine Within.ofPair (by assumption) ?_)
    | (with_reducible refine Within.ofTriple (by assumption) ?_)
    | (with_reducible refine Within.ofFour (by assumption) ?_)
    | (with_reducible refine Within.ofFst (by assumption) ?_)
    | (with_reducible refine Within.ofSome (by assumption) ?_)
    | split
    | dsimp only)

theorem State.wakeCommons_within {L0 : List RegName} {C0 : List Comp} {s0 : State} {s : State} {q : Nat} {w : Word} (hL : subList [.BANK_CQ_STATUS, .BANK_TQ_STATUS] L0 = true) (hC : subList ([] : List Comp) C0 = true) (hS : Within L0 C0 s0 s) :
    Within L0 C0 s0 (State.wakeCommons s q w) := by
  unfold State.wakeCommons
  repeat' (first
    | with_reducible exact hS
    | with_reducible assumption
    | exact subList_trans (by decide +kernel) hL
    | exact subList_trans (by decide +kernel) hC
    | exact subList_elem (by decide +kernel) hL
    | exact subList_elem (by decide +kernel) hC
    | with_reducible apply State.startWake_within
    | exact Within.memFilter
    | (intro x1; refine Within.cut (l := L0) (c := C0) (s := s0) (t := x1) ?_ ?_; subst x1; rotate_left; intro _; rotate_right)
    | (intro _)
    | lift_lets
    | (with_reducible refine Within.ofPair (by assumption) ?_)
    | (with_reducible refine Within.ofTriple (by assumption) ?_)
    | (with_reducible refine Within.ofFour (by assumption) ?_)
    | (with_reducible refine Within.ofFst (by assumption) ?_)
    | (with_reducible refine Within.ofSome (by assumption) ?_)
    | split
    | dsimp only)

theorem State.writeTileQuads_within {L0 : List RegName} {C0 : List Comp} {s0 : State} {s : State} {a : Agent} {t : Nat} {w : Word} (hL : subList [.BANK_CQ_STATUS, .BANK_TQ_CTRL, .BANK_TQ_STATUS, .MEM_DEEP_WEAR, .FLT_STATUS, .FLT_REC_NEWEST, .FLT_REC_LOST, .FLT_LOG_STATUS, .FLT_P_EVENT] L0 = true) (hC : subList [.resp, .flt, .bank, .deep] C0 = true) (hS : Within L0 C0 s0 s) :
    Within L0 C0 s0 (State.writeTileQuads s a t w) := by
  unfold State.writeTileQuads
  repeat' (first
    | with_reducible exact hS
    | with_reducible assumption
    | exact subList_trans (by decide +kernel) hL
    | exact subList_trans (by decide +kernel) hC
    | exact subList_elem (by decide +kernel) hL
    | exact subList_elem (by decide +kernel) hC
    | with_reducible apply Within.wrB
    | with_reducible apply State.denied_within
    | with_reducible apply State.startWake_within
    | with_reducible apply State.via_within
    | with_reducible apply execLullRequest_within
    | with_reducible apply State.respOk_within
    | exact Within.memFilter
    | (with_reducible refine Within.foldl (fun _ _ _ => ?_) _ ?_)
    | (with_reducible refine Within.foldlPair (fun _ _ _ => ?_) _ ?_)
    | (with_reducible refine Within.foldlFst (fun _ _ _ => ?_) _ ?_)
    | (intro x1; refine Within.cut (l := L0) (c := C0) (s := s0) (t := x1) ?_ ?_; subst x1; rotate_left; intro _; rotate_right)
    | (intro _)
    | lift_lets
    | (with_reducible refine Within.ofPair (by assumption) ?_)
    | (with_reducible refine Within.ofTriple (by assumption) ?_)
    | (with_reducible refine Within.ofFour (by assumption) ?_)
    | (with_reducible refine Within.ofFst (by assumption) ?_)
    | (with_reducible refine Within.ofSome (by assumption) ?_)
    | split
    | dsimp only)

theorem State.afterWrite_within {L0 : List RegName} {C0 : List Comp} {s0 : State} {s : State} {r : Reg} {w : Word} (hL : subList [.BANK_CQ_STATUS, .BANK_TQ_STATUS, .MEM_DEEP_STATUS, .MEM_DEEP_WEAR, .MEM_HOLDUP_STATUS, .MEM_P_DQ_STATUS, .HP_LINK_STATUS, .HP_CXL_SIZE, .HP_EVENT, .FLT_STATUS, .FLT_REC_NEWEST, .FLT_REC_LOST, .FLT_LOG_STATUS, .FLT_P_EVENT] L0 = true) (hC : subList [.mem, .badCheck, .badWord, .boot, .flt, .hdw, .sch, .deep] C0 = true) (hS : Within L0 C0 s0 s) :
    Within L0 C0 s0 (State.afterWrite s r w) := by
  unfold State.afterWrite
  repeat' (first
    | with_reducible exact hS
    | with_reducible assumption
    | exact subList_trans (by decide +kernel) hL
    | exact subList_trans (by decide +kernel) hC
    | exact subList_elem (by decide +kernel) hL
    | exact subList_elem (by decide +kernel) hC
    | with_reducible apply State.mirror_within
    | with_reducible apply State.showHoldup_within
    | with_reducible apply State.resumeStores_within
    | with_reducible apply State.wakeCommons_within
    | with_reducible apply State.hostLinkDown_within
    | exact Within.memFilter
    | (intro x1; refine Within.cut (l := L0) (c := C0) (s := s0) (t := x1) ?_ ?_; subst x1; rotate_left; intro _; rotate_right)
    | (intro _)
    | lift_lets
    | (with_reducible refine Within.ofPair (by assumption) ?_)
    | (with_reducible refine Within.ofTriple (by assumption) ?_)
    | (with_reducible refine Within.ofFour (by assumption) ?_)
    | (with_reducible refine Within.ofFst (by assumption) ?_)
    | (with_reducible refine Within.ofSome (by assumption) ?_)
    | split
    | dsimp only
    | with_reducible apply Within.sch)

theorem State.runTriggers_within_nil {L0 : List RegName} {C0 : List Comp} {s0 s : State} {w : Word} (hS : Within L0 C0 s0 s) :
    Within L0 C0 s0 (s.runTriggers w []) := hS

theorem State.runTriggers_within_cons {L0 : List RegName} {C0 : List Comp} {s0 s : State} {w : Word} {k : Nat}
    {f : State → Host.Outcome State Fault Refusal} {r : List (Nat × (State → Host.Outcome State Fault Refusal))}
    (hf : ∀ t, Within L0 C0 s0 t → WithinOut L0 C0 s0 (f t)) (hr : ∀ t, Within L0 C0 s0 t → Within L0 C0 s0 (t.runTriggers w r))
    (hS : Within L0 C0 s0 s) : Within L0 C0 s0 (s.runTriggers w ((k, f) :: r)) := by
  show Within L0 C0 s0 (State.runTriggers (if bitOf w.toNat k then s.via (f s) else s) w r)
  apply hr
  split
  · exact State.via_within (L0 := L0) (C0 := C0) (s := s) rfl rfl (hf _ hS) hS
  · exact hS

theorem State.schGo_within {L0 : List RegName} {C0 : List Comp} {s0 : State} {s : State} {a : Agent} {p : Nat} {w : Word} (hL : subList [.TILE_STATUS, .BANK_CQ_STATUS, .BANK_TQ_STATUS, .MEM_DEEP_WEAR, .UPD_PLAN_STATUS, .UPD_PLAN_JOB, .UPD_PLAN_STALL_US, .UPD_PLAN_STALL_MAX, .SCH_FREE_CTX, .SCH_P_CMD, .SCH_P_RESULT, .SCH_CTX, .FLT_STATUS, .FLT_REC_NEWEST, .FLT_REC_LOST, .FLT_LOG_STATUS, .FLT_P_EVENT] L0 = true) (hC : subList [.resp, .flt, .sch, .deep, .upd] C0 = true) (hS : Within L0 C0 s0 s) :
    Within L0 C0 s0 (State.schGo s a p w) := by
  unfold State.schGo
  repeat' (first
    | with_reducible exact hS
    | with_reducible assumption
    | exact subList_trans (by decide +kernel) hL
    | exact subList_trans (by decide +kernel) hC
    | exact subList_elem (by decide +kernel) hL
    | exact subList_elem (by decide +kernel) hC
    | with_reducible apply Within.wrF
    | with_reducible apply State.via_within
    | with_reducible apply execAllocCtx_within
    | with_reducible apply execAdmitCtx_within
    | with_reducible apply execHold_within
    | with_reducible apply execResume_within
    | with_reducible apply execFreeCtx_within
    | with_reducible apply State.schCommand_within
    | exact Within.memFilter
    | (intro x1; refine Within.cut (l := L0) (c := C0) (s := s0) (t := x1) ?_ ?_; subst x1; rotate_left; intro _; rotate_right)
    | (intro _)
    | lift_lets
    | (with_reducible refine Within.ofPair (by assumption) ?_)
    | (with_reducible refine Within.ofTriple (by assumption) ?_)
    | (with_reducible refine Within.ofFour (by assumption) ?_)
    | (with_reducible refine Within.ofFst (by assumption) ?_)
    | (with_reducible refine Within.ofSome (by assumption) ?_)
    | split
    | dsimp only)

theorem State.seqGo_within {L0 : List RegName} {C0 : List Comp} {s0 : State} {s : State} {a : Agent} {p : Nat} {w : Word} (hL : subList [.BANK_CQ_STATUS, .BANK_TQ_STATUS, .MEM_DEEP_WEAR, .SEQ_P_CMD, .SEQ_P_RESULT, .SEQ_ENT, .FLT_STATUS, .FLT_REC_NEWEST, .FLT_REC_LOST, .FLT_LOG_STATUS, .FLT_P_EVENT] L0 = true) (hC : subList [.mem, .badCheck, .badWord, .resp, .flt, .hdw, .upool, .deep, .sqe] C0 = true) (hS : Within L0 C0 s0 s) :
    Within L0 C0 s0 (State.seqGo s a p w) := by
  unfold State.seqGo
  repeat' (first
    | with_reducible exact hS
    | with_reducible assumption
    | exact subList_trans (by decide +kernel) hL
    | exact subList_trans (by decide +kernel) hC
    | exact subList_elem (by decide +kernel) hL
    | exact subList_elem (by decide +kernel) hC
    | with_reducible apply State.via_within
    | with_reducible apply execOpenSeq_within
    | with_reducible apply execCloseSeq_within
    | with_reducible apply execFork_within
    | with_reducible apply execTruncate_within
    | with_reducible apply State.seqCommand_within
    | exact Within.memFilter
    | (intro x1; refine Within.cut (l := L0) (c := C0) (s := s0) (t := x1) ?_ ?_; subst x1; rotate_left; intro _; rotate_right)
    | (intro _)
    | lift_lets
    | (with_reducible refine Within.ofPair (by assumption) ?_)
    | (with_reducible refine Within.ofTriple (by assumption) ?_)
    | (with_reducible refine Within.ofFour (by assumption) ?_)
    | (with_reducible refine Within.ofFst (by assumption) ?_)
    | (with_reducible refine Within.ofSome (by assumption) ?_)
    | split
    | dsimp only)

theorem State.engineRow_within {L0 : List RegName} {C0 : List Comp} {s0 : State} {s : State} {a : Agent} {r : Reg} {w : Word} (hL : subList [.TILE_STATUS, .TILE_FREQ, .BANK_CQ_STATUS, .BANK_TQ_STATUS, .MEM_DEEP_WEAR, .MEM_P_EVICTS, .UPD_PLAN_STATUS, .UPD_PLAN_JOB, .UPD_PLAN_STALL_US, .UPD_PLAN_STALL_MAX, .SEQ_P_CMD, .SEQ_P_RESULT, .SEQ_P_STEP_CTRL, .SEQ_P_STEP_STATUS, .SEQ_P_EPOCH, .SEQ_P_WAITS, .SEQ_ENT, .SCH_FREE_CTX, .SCH_P_CMD, .SCH_P_RESULT, .SCH_P_EVENT, .SCH_CTX, .HDW_PATH, .HDW_P_BUD, .HDW_P_EVENT, .HDW_P_MISSES, .BRZ_PHASE, .BRZ_MAT_CTRL, .BRZ_L_CTRL, .WL_CTRL, .WL_STATUS, .WL_TIMING, .WL_LOST_LO, .WL_LOST_HI, .WL_N_STATUS, .TIME_ROB_RATE, .TIME_ROB_ADJ, .TIME_ROB_STATUS, .TIME_B_RATE, .FLT_STATUS, .FLT_REC_NEWEST, .FLT_REC_LOST, .FLT_LOG_STATUS, .FLT_P_EVENT] L0 = true) (hC : subList [.free, .mem, .badCheck, .badWord, .resp, .pulses, .flt, .time, .bank, .hdw, .pwr, .sch, .upool, .deep, .upd, .sqe, .brz, .wl, .hp] C0 = true) (hS : Within L0 C0 s0 s) :
    ∀ u0, State.engineRow s a r w = some u0 → Within L0 C0 s0 u0 := by
  intro t ht
  unfold State.engineRow at ht
  (try extract_lets at ht)
  repeat' (first | split at ht | (cases ht))
  all_goals
    repeat' (first
      | with_reducible exact hS
      | with_reducible assumption
      | exact subList_trans (by decide +kernel) hL
      | exact subList_trans (by decide +kernel) hC
      | exact subList_elem (by decide +kernel) hL
      | exact subList_elem (by decide +kernel) hC
      | with_reducible apply State.schGo_within
      | with_reducible apply State.seqGo_within
      | with_reducible apply State.via_within
      | with_reducible apply execSchedulerDoorbell_within
      | with_reducible apply execStepBegin_within
      | with_reducible apply State.runTriggers_within_cons
      | with_reducible apply State.runTriggers_within_nil
      | with_reducible apply execStepEnd_within
      | with_reducible apply execStepAbort_within
      | with_reducible apply execHdwBudgetWrite_within
      | with_reducible apply execPhaseWrite_within
      | with_reducible apply execWindlineEnable_within
      | with_reducible apply execLoopEnable_within
      | with_reducible apply execMatrixCommit_within
      | with_reducible apply execRobRateWrite_within
      | with_reducible apply execRobAdjWrite_within
      | with_reducible apply execHpMsiRaise_within
      | exact Within.memFilter
      | (intro x1; refine Within.cut (l := L0) (c := C0) (s := s0) (t := x1) ?_ ?_; subst x1; rotate_left; intro _; rotate_right)
      | (intro _)
      | lift_lets
      | (with_reducible refine Within.ofPair (by assumption) ?_)
      | (with_reducible refine Within.ofTriple (by assumption) ?_)
      | (with_reducible refine Within.ofFour (by assumption) ?_)
      | (with_reducible refine Within.ofFst (by assumption) ?_)
      | (with_reducible refine Within.ofSome (by assumption) ?_)
      | split
      | dsimp only)

theorem State.chipRow_within {L0 : List RegName} {C0 : List Comp} {s0 : State} {s : State} {a : Agent} {r : Reg} {w : Word} (hL : subList [.SPL_BUSY, .SPL_CTRL, .SPL_STATUS, .TILE_STATUS, .BANK_CQ_STATUS, .BANK_TQ_CTRL, .BANK_TQ_STATUS, .MEM_DEEP_WEAR, .MEM_P_DQ_TAIL, .FLT_STATUS, .FLT_REC_NEWEST, .FLT_REC_LOST, .FLT_LOG_STATUS, .FLT_RESET, .FLT_RESET_STATUS, .FLT_RUNG_COUNT, .FLT_P_EVENT] L0 = true) (hC : subList [.resp, .recSel, .pulses, .spl, .flt, .bank, .sch, .upool, .deep] C0 = true) (hS : Within L0 C0 s0 s) :
    ∀ u0, State.chipRow s a r w = some u0 → Within L0 C0 s0 u0 := by
  intro t ht
  unfold State.chipRow at ht
  (try extract_lets at ht)
  repeat' (first | split at ht | (cases ht))
  all_goals
    repeat' (first
      | with_reducible exact hS
      | with_reducible assumption
      | exact subList_trans (by decide +kernel) hL
      | exact subList_trans (by decide +kernel) hC
      | exact subList_elem (by decide +kernel) hL
      | exact subList_elem (by decide +kernel) hC
      | with_reducible apply State.via_within
      | with_reducible apply execLoadGo_within
      | with_reducible apply State.writeTileQuads_within
      | with_reducible apply execBankAccept_within
      | with_reducible apply execDeepQueueTail_within
      | with_reducible apply execSoftwareFreeAll_within
      | with_reducible apply execSoftwareFree_within
      | with_reducible apply execRecSelWrite_within
      | with_reducible apply execFltReset_within
      | exact Within.memFilter
      | (intro x1; refine Within.cut (l := L0) (c := C0) (s := s0) (t := x1) ?_ ?_; subst x1; rotate_left; intro _; rotate_right)
      | (intro _)
      | lift_lets
      | (with_reducible refine Within.ofPair (by assumption) ?_)
      | (with_reducible refine Within.ofTriple (by assumption) ?_)
      | (with_reducible refine Within.ofFour (by assumption) ?_)
      | (with_reducible refine Within.ofFst (by assumption) ?_)
      | (with_reducible refine Within.ofSome (by assumption) ?_)
      | split
      | dsimp only)

theorem State.engineTriggers_within {L0 : List RegName} {C0 : List Comp} {s0 : State} {s : State} {a : Agent} {r : Reg} {w : Word} (hL : subList [.BANK_CQ_STATUS, .BANK_TQ_STATUS, .MEM_DEEP_WEAR, .MEM_P_EVICTS, .UPD_PLAN_STATUS, .UPD_PLAN_STALLS, .UPD_PLAN_STALL_US, .UPD_PLAN_STALL_MAX, .UPD_PLAN_HITS, .UPD_PLAN_MISSES, .SEQ_P_STEP_STATUS, .SEQ_ENT, .HDW_P_EVENT, .HDW_P_MISSES, .SNS_S_STATUS, .SNS_S_EVENT, .TIME_SNAPJ_LO, .TIME_SNAPJ_HI, .NET_P_GATE_CTRL, .FLT_STATUS, .FLT_REC_NEWEST, .FLT_REC_LOST, .FLT_LOG_STATUS, .FLT_P_EVENT] L0 = true) (hC : subList [.mem, .badCheck, .badWord, .resp, .pulses, .flt, .hdw, .curves, .upool, .deep, .upd, .sqe, .sns, .net, .hp] C0 = true) (hS : Within L0 C0 s0 s) :
    Within L0 C0 s0 (State.engineTriggers s a r w) := by
  unfold State.engineTriggers
  repeat' (first
    | with_reducible exact hS
    | with_reducible assumption
    | exact subList_trans (by decide +kernel) hL
    | exact subList_trans (by decide +kernel) hC
    | exact subList_elem (by decide +kernel) hL
    | exact subList_elem (by decide +kernel) hC
    | with_reducible apply State.runTriggers_within_cons
    | with_reducible apply State.runTriggers_within_nil
    | with_reducible apply execStepEnd_within
    | with_reducible apply execStepAbort_within
    | with_reducible apply execPlanLoad_within
    | with_reducible apply execPlanUnload_within
    | with_reducible apply execClearSuspect_within
    | with_reducible apply execCurveCommit_within
    | with_reducible apply execGateListGo_within
    | with_reducible apply execTimeSnap_within
    | exact Within.memFilter
    | (intro x1; refine Within.cut (l := L0) (c := C0) (s := s0) (t := x1) ?_ ?_; subst x1; rotate_left; intro _; rotate_right)
    | (intro _)
    | lift_lets
    | (with_reducible refine Within.ofPair (by assumption) ?_)
    | (with_reducible refine Within.ofTriple (by assumption) ?_)
    | (with_reducible refine Within.ofFour (by assumption) ?_)
    | (with_reducible refine Within.ofFst (by assumption) ?_)
    | (with_reducible refine Within.ofSome (by assumption) ?_)
    | split
    | dsimp only)

theorem State.chipTriggers_within {L0 : List RegName} {C0 : List Comp} {s0 : State} {s : State} {a : Agent} {r : Reg} {w : Word} (hL : subList [.SPL_BUSY, .SPL_CTRL, .SPL_STATUS, .TILE_STATUS, .BANK_CQ_CTRL, .BANK_CQ_STATUS, .BANK_TQ_STATUS, .MEM_DEEP_WEAR, .MEM_P_EVICTS, .MEM_P_ALLOC, .SEQ_ENT, .HDW_P_EVENT, .HDW_P_MISSES, .WL_STO_LO, .WL_STO_HI, .FLT_STATUS, .FLT_REC_NEWEST, .FLT_REC_LOST, .FLT_LOG_STATUS, .FLT_RUNG_COUNT, .FLT_P_EVENT, .WB_STATUS, .WB_CAUSE, .WB_LIMIT, .WB_EVENT, .GLB_BOOT_STATUS, .GLB_BOOT_CTRL] L0 = true) (hC : subList [.free, .mem, .badCheck, .badWord, .resp, .pulses, .pins, .boot, .spl, .flt, .wb, .bank, .hdw, .sch, .upool, .deep, .upd, .sqe, .hp] C0 = true) (hS : Within L0 C0 s0 s) :
    Within L0 C0 s0 (State.chipTriggers s a r w) := by
  unfold State.chipTriggers
  repeat' (first
    | with_reducible exact hS
    | with_reducible assumption
    | exact subList_trans (by decide +kernel) hL
    | exact subList_trans (by decide +kernel) hC
    | exact subList_elem (by decide +kernel) hL
    | exact subList_elem (by decide +kernel) hC
    | with_reducible apply State.runTriggers_within_cons
    | with_reducible apply State.runTriggers_within_nil
    | with_reducible apply execSvnCommit_within
    | with_reducible apply execBankAccept_within
    | with_reducible apply execBankCancel_within
    | with_reducible apply execBankOffer_within
    | with_reducible apply execLullRequest_within
    | with_reducible apply execSoftwareAlloc_within
    | with_reducible apply execFarRekey_within
    | with_reducible apply execLogRead_within
    | with_reducible apply execLogFlush_within
    | with_reducible apply execWbStop_within
    | with_reducible apply execWbRelease_within
    | with_reducible apply execBootOk_within
    | with_reducible apply execRestart_within
    | with_reducible apply execDoldrums_within
    | exact Within.memFilter
    | (intro x1; refine Within.cut (l := L0) (c := C0) (s := s0) (t := x1) ?_ ?_; subst x1; rotate_left; intro _; rotate_right)
    | (intro _)
    | lift_lets
    | (with_reducible refine Within.ofPair (by assumption) ?_)
    | (with_reducible refine Within.ofTriple (by assumption) ?_)
    | (with_reducible refine Within.ofFour (by assumption) ?_)
    | (with_reducible refine Within.ofFst (by assumption) ?_)
    | (with_reducible refine Within.ofSome (by assumption) ?_)
    | split
    | dsimp only)

theorem State.ownedWrite_within {L0 : List RegName} {C0 : List Comp} {s0 : State} {s : State} {a : Agent} {r : Reg} {w : Word} (hL : subList RegName.all L0 = true) (hC : subList [.free, .mem, .badCheck, .badWord, .resp, .pulses, .pins, .boot, .spl, .flt, .wb, .bank, .hdw, .curves, .sch, .upool, .deep, .upd, .sqe, .sns, .net, .hp] C0 = true) (hS : Within L0 C0 s0 s) :
    Within L0 C0 s0 (State.ownedWrite s a r w) := by
  unfold State.ownedWrite
  repeat' (first
    | with_reducible exact hS
    | with_reducible assumption
    | exact subList_trans (by decide +kernel) hL
    | exact subList_trans (by decide +kernel) hC
    | exact subList_elem (by decide +kernel) hL
    | exact subList_elem (by decide +kernel) hC
    | with_reducible apply State.respErr_within
    | with_reducible apply State.record_within
    | with_reducible apply State.via_within
    | with_reducible apply execSnsEnable_within
    | with_reducible apply State.engineTriggers_within
    | with_reducible apply State.respOk_within
    | with_reducible apply State.plainWrite_within
    | with_reducible apply State.afterWrite_within
    | with_reducible apply State.chipTriggers_within
    | exact Within.memFilter
    | (intro x1; refine Within.cut (l := L0) (c := C0) (s := s0) (t := x1) ?_ ?_; subst x1; rotate_left; intro _; rotate_right)
    | (intro _)
    | lift_lets
    | (with_reducible refine Within.ofPair (by assumption) ?_)
    | (with_reducible refine Within.ofTriple (by assumption) ?_)
    | (with_reducible refine Within.ofFour (by assumption) ?_)
    | (with_reducible refine Within.ofFst (by assumption) ?_)
    | (with_reducible refine Within.ofSome (by assumption) ?_)
    | split
    | dsimp only)

theorem State.writeReg_within {L0 : List RegName} {C0 : List Comp} {s0 : State} {s : State} {a : Agent} {r : Reg} {w : Word} (hL : subList RegName.all L0 = true) (hC : subList [.free, .mem, .badCheck, .badWord, .resp, .recSel, .pulses, .pins, .boot, .spl, .flt, .time, .wb, .bank, .hdw, .curves, .pwr, .sch, .upool, .deep, .upd, .sqe, .sns, .brz, .wl, .net, .hp] C0 = true) (hS : Within L0 C0 s0 s) :
    Within L0 C0 s0 (State.writeReg s a r w) := by
  unfold State.writeReg
  repeat' (first
    | with_reducible exact hS
    | with_reducible assumption
    | exact subList_trans (by decide +kernel) hL
    | exact subList_trans (by decide +kernel) hC
    | exact subList_elem (by decide +kernel) hL
    | exact subList_elem (by decide +kernel) hC
    | with_reducible apply State.respOk_within
    | with_reducible apply State.plainWrite_within
    | with_reducible apply State.via_within
    | with_reducible apply execWboWriteReject_within
    | with_reducible apply State.respErr_within
    | with_reducible refine State.engineRow_within (subList_trans (by decide +kernel) hL) (subList_trans (by decide +kernel) hC) ?_ _ (by assumption)
    | with_reducible refine State.chipRow_within (subList_trans (by decide +kernel) hL) (subList_trans (by decide +kernel) hC) ?_ _ (by assumption)
    | with_reducible apply State.denied_within
    | with_reducible apply State.ownedWrite_within
    | exact Within.memFilter
    | (intro x1; refine Within.cut (l := L0) (c := C0) (s := s0) (t := x1) ?_ ?_; subst x1; rotate_left; intro _; rotate_right)
    | (intro _)
    | lift_lets
    | (with_reducible refine Within.ofPair (by assumption) ?_)
    | (with_reducible refine Within.ofTriple (by assumption) ?_)
    | (with_reducible refine Within.ofFour (by assumption) ?_)
    | (with_reducible refine Within.ofFst (by assumption) ?_)
    | (with_reducible refine Within.ofSome (by assumption) ?_)
    | split
    | dsimp only)

theorem State.writeLo_within {L0 : List RegName} {C0 : List Comp} {s0 : State} {s : State} {a : Agent} {lo : Reg} {w : Word} (hL : subList [.MEM_DEEP_WEAR, .FLT_STATUS, .FLT_REC_NEWEST, .FLT_REC_LOST, .FLT_LOG_STATUS, .FLT_P_EVENT, .WB_EVENT, .WB_REJECTS] L0 = true) (hC : subList [.resp, .heldWrite, .flt, .deep] C0 = true) (hS : Within L0 C0 s0 s) :
    Within L0 C0 s0 (State.writeLo s a lo w) := by
  unfold State.writeLo
  repeat' (first
    | with_reducible exact hS
    | with_reducible assumption
    | exact subList_trans (by decide +kernel) hL
    | exact subList_trans (by decide +kernel) hC
    | exact subList_elem (by decide +kernel) hL
    | exact subList_elem (by decide +kernel) hC
    | with_reducible apply State.via_within
    | with_reducible apply execWboWriteReject_within
    | with_reducible apply State.respErr_within
    | with_reducible apply State.denied_within
    | with_reducible apply State.respOk_within
    | exact Within.memFilter
    | (intro x1; refine Within.cut (l := L0) (c := C0) (s := s0) (t := x1) ?_ ?_; subst x1; rotate_left; intro _; rotate_right)
    | (intro _)
    | lift_lets
    | (with_reducible refine Within.ofPair (by assumption) ?_)
    | (with_reducible refine Within.ofTriple (by assumption) ?_)
    | (with_reducible refine Within.ofFour (by assumption) ?_)
    | (with_reducible refine Within.ofFst (by assumption) ?_)
    | (with_reducible refine Within.ofSome (by assumption) ?_)
    | split
    | dsimp only
    | with_reducible apply Within.heldWrite)

theorem State.writeHi_within {L0 : List RegName} {C0 : List Comp} {s0 : State} {s : State} {a : Agent} {lo hi : Reg} {w : Word} (hL : subList RegName.all L0 = true) (hC : subList [.free, .mem, .badCheck, .badWord, .resp, .heldWrite, .recSel, .pulses, .pins, .boot, .spl, .flt, .time, .wb, .bank, .hdw, .curves, .pwr, .sch, .upool, .deep, .upd, .sqe, .sns, .brz, .wl, .net, .hp] C0 = true) (hS : Within L0 C0 s0 s) :
    Within L0 C0 s0 (State.writeHi s a lo hi w) := by
  unfold State.writeHi
  repeat' (first
    | with_reducible exact hS
    | with_reducible assumption
    | exact subList_trans (by decide +kernel) hL
    | exact subList_trans (by decide +kernel) hC
    | exact subList_elem (by decide +kernel) hL
    | exact subList_elem (by decide +kernel) hC
    | with_reducible apply State.writeReg_within
    | exact Within.memFilter
    | (intro x1; refine Within.cut (l := L0) (c := C0) (s := s0) (t := x1) ?_ ?_; subst x1; rotate_left; intro _; rotate_right)
    | (intro x1; refine Within.cut (l := L0) (c := C0) (s := s0) (t := x1.2) ?_ ?_; subst x1; rotate_left; intro _; clear_value x1; rotate_right)
    | (intro x1; refine Within.cut (l := L0) (c := C0) (s := s0) (t := x1.1) ?_ ?_; subst x1; rotate_left; intro _; clear_value x1; rotate_right)
    | (intro x1; have h1 : ∀ u, x1 = some u → Within L0 C0 s0 u := ?_; clear_value x1; rotate_left; subst x1; intro _ _; rotate_right)
    | (intro x1; clear_value x1)
    | (intro _)
    | lift_lets
    | (with_reducible refine Within.ofPair (by assumption) ?_)
    | (with_reducible refine Within.ofTriple (by assumption) ?_)
    | (with_reducible refine Within.ofFour (by assumption) ?_)
    | (with_reducible refine Within.ofFst (by assumption) ?_)
    | (with_reducible refine Within.ofSome (by assumption) ?_)
    | split
    | dsimp only
    | with_reducible apply Within.heldWrite)

theorem State.csrWrite_within {L0 : List RegName} {C0 : List Comp} {s0 : State} {s : State} {a : Agent} {x : Nat} {w : Word} (hL : subList RegName.all L0 = true) (hC : subList [.free, .mem, .badCheck, .badWord, .resp, .heldWrite, .recSel, .pulses, .pins, .boot, .spl, .flt, .time, .wb, .bank, .hdw, .curves, .pwr, .sch, .upool, .deep, .upd, .sqe, .sns, .brz, .wl, .net, .hp] C0 = true) (hS : Within L0 C0 s0 s) :
    Within L0 C0 s0 (State.csrWrite s a x w) := by
  unfold State.csrWrite
  repeat' (first
    | with_reducible exact hS
    | with_reducible assumption
    | exact subList_trans (by decide +kernel) hL
    | exact subList_trans (by decide +kernel) hC
    | exact subList_elem (by decide +kernel) hL
    | exact subList_elem (by decide +kernel) hC
    | with_reducible apply State.csrNoReg_within
    | with_reducible apply State.writeLo_within
    | with_reducible apply State.writeHi_within
    | with_reducible apply State.writeReg_within
    | exact Within.memFilter
    | (intro x1; refine Within.cut (l := L0) (c := C0) (s := s0) (t := x1) ?_ ?_; subst x1; rotate_left; intro _; rotate_right)
    | (intro _)
    | lift_lets
    | (with_reducible refine Within.ofPair (by assumption) ?_)
    | (with_reducible refine Within.ofTriple (by assumption) ?_)
    | (with_reducible refine Within.ofFour (by assumption) ?_)
    | (with_reducible refine Within.ofFst (by assumption) ?_)
    | (with_reducible refine Within.ofSome (by assumption) ?_)
    | split
    | dsimp only)

theorem State.csrRequest_within {L0 : List RegName} {C0 : List Comp} {s0 : State} {s : State} {a : Agent} {op : MemOp} (hL : subList RegName.all L0 = true) (hC : subList [.free, .mem, .badCheck, .badWord, .resp, .heldRead, .heldWrite, .recSel, .pulses, .pins, .boot, .spl, .flt, .time, .wb, .bank, .hdw, .curves, .pwr, .sch, .upool, .deep, .upd, .sqe, .sns, .brz, .wl, .net, .hp] C0 = true) (hS : Within L0 C0 s0 s) :
    Within L0 C0 s0 (State.csrRequest s a op) := by
  unfold State.csrRequest
  repeat' (first
    | with_reducible exact hS
    | with_reducible assumption
    | exact subList_trans (by decide +kernel) hL
    | exact subList_trans (by decide +kernel) hC
    | exact subList_elem (by decide +kernel) hL
    | exact subList_elem (by decide +kernel) hC
    | with_reducible apply State.csrRead_within
    | with_reducible apply State.csrBad_within
    | with_reducible apply State.csrWrite_within
    | exact Within.memFilter
    | (intro x1; refine Within.cut (l := L0) (c := C0) (s := s0) (t := x1) ?_ ?_; subst x1; rotate_left; intro _; rotate_right)
    | (intro _)
    | lift_lets
    | (with_reducible refine Within.ofPair (by assumption) ?_)
    | (with_reducible refine Within.ofTriple (by assumption) ?_)
    | (with_reducible refine Within.ofFour (by assumption) ?_)
    | (with_reducible refine Within.ofFst (by assumption) ?_)
    | (with_reducible refine Within.ofSome (by assumption) ?_)
    | split
    | dsimp only)

end Sys2Proof.Machine
end

