-- ==== Sys2Proof/Laws/WithinHostAccess.lean ====
section
/-!
SUPPORT. What each operation of Machine/HostAccess.lean leaves alone.
-/

set_option Elab.async false

namespace Sys2Proof.Machine

theorem State.windowRequest_within {L0 : List RegName} {C0 : List Comp} {s0 : State} {s : State} {p : Nat} {op : MemOp} (hL : subList RegName.all L0 = true) (hC : subList [.free, .mem, .badCheck, .badWord, .resp, .heldRead, .heldWrite, .recSel, .pulses, .pins, .boot, .spl, .flt, .time, .wb, .bank, .hdw, .curves, .pwr, .sch, .upool, .deep, .upd, .sqe, .sns, .brz, .wl, .net, .hp] C0 = true) (hS : Within L0 C0 s0 s) :
    Within L0 C0 s0 (State.windowRequest s p op) := by
  unfold State.windowRequest
  repeat' (first
    | with_reducible exact hS
    | with_reducible assumption
    | exact subList_trans (by decide +kernel) hL
    | exact subList_trans (by decide +kernel) hC
    | exact subList_elem (by decide +kernel) hL
    | exact subList_elem (by decide +kernel) hC
    | with_reducible apply State.csrRequest_within
    | with_reducible apply State.hpAnswer_within
    | with_reducible apply State.memRequest_within
    | exact Within.memFilter
    | (intro x1; refine Within.cut (l := L0) (c := C0) (s := s0) (t := x1) ?_ ?_; subst x1; rotate_left; intro _; rotate_right)
    | (intro _)
    | lift_lets
    | (with_reducible refine Within.ofPair (by assumption) ?_)
    | (with_reducible refine Within.ofTriple (by assumption) ?_)
    | (with_reducible refine Within.ofFour (by assumption) ?_)
    | (with_reducible refine Within.ofFst (by assumption) ?_)
    | (with_reducible refine Within.ofSome (by assumption) ?_)
    | split
    | dsimp only)

theorem State.deviceRead_within {L0 : List RegName} {C0 : List Comp} {s0 : State} {s : State} {off n : Nat} (hL : subList RegName.all L0 = true) (hC : subList [.free, .mem, .badCheck, .badWord, .resp, .heldRead, .heldWrite, .recSel, .pulses, .pins, .boot, .spl, .flt, .time, .wb, .bank, .hdw, .curves, .pwr, .sch, .upool, .deep, .upd, .sqe, .sns, .brz, .wl, .net, .hp] C0 = true) (hS : Within L0 C0 s0 s) :
    Within L0 C0 s0 (State.deviceRead s off n) := by
  unfold State.deviceRead
  repeat' (first
    | with_reducible exact hS
    | with_reducible assumption
    | exact subList_trans (by decide +kernel) hL
    | exact subList_trans (by decide +kernel) hC
    | exact subList_elem (by decide +kernel) hL
    | exact subList_elem (by decide +kernel) hC
    | with_reducible apply State.hpViolation_within
    | with_reducible apply State.hpAnswer_within
    | with_reducible apply State.windowRequest_within
    | exact Within.memFilter
    | (intro x1; refine Within.cut (l := L0) (c := C0) (s := s0) (t := x1) ?_ ?_; subst x1; rotate_left; intro _; rotate_right)
    | (intro _)
    | lift_lets
    | (with_reducible refine Within.ofPair (by assumption) ?_)
    | (with_reducible refine Within.ofTriple (by assumption) ?_)
    | (with_reducible refine Within.ofFour (by assumption) ?_)
    | (with_reducible refine Within.ofFst (by assumption) ?_)
    | (with_reducible refine Within.ofSome (by assumption) ?_)
    | split
    | dsimp only)

theorem State.deviceWrite_within {L0 : List RegName} {C0 : List Comp} {s0 : State} {s : State} {off : Nat} {d : List Byte} (hL : subList RegName.all L0 = true) (hC : subList [.free, .mem, .badCheck, .badWord, .resp, .heldRead, .heldWrite, .recSel, .pulses, .pins, .boot, .spl, .flt, .time, .wb, .bank, .hdw, .curves, .pwr, .sch, .upool, .deep, .upd, .sqe, .sns, .brz, .wl, .net, .hp] C0 = true) (hS : Within L0 C0 s0 s) :
    Within L0 C0 s0 (State.deviceWrite s off d) := by
  unfold State.deviceWrite
  repeat' (first
    | with_reducible exact hS
    | with_reducible assumption
    | exact subList_trans (by decide +kernel) hL
    | exact subList_trans (by decide +kernel) hC
    | exact subList_elem (by decide +kernel) hL
    | exact subList_elem (by decide +kernel) hC
    | with_reducible apply State.hpViolation_within
    | with_reducible apply State.windowRequest_within
    | exact Within.memFilter
    | (intro x1; refine Within.cut (l := L0) (c := C0) (s := s0) (t := x1) ?_ ?_; subst x1; rotate_left; intro _; rotate_right)
    | (intro _)
    | lift_lets
    | (with_reducible refine Within.ofPair (by assumption) ?_)
    | (with_reducible refine Within.ofTriple (by assumption) ?_)
    | (with_reducible refine Within.ofFour (by assumption) ?_)
    | (with_reducible refine Within.ofFst (by assumption) ?_)
    | (with_reducible refine Within.ofSome (by assumption) ?_)
    | split
    | dsimp only)

theorem State.outboundErr_within {L0 : List RegName} {C0 : List Comp} {s0 : State} {s : State} {a : Agent} {n : Nat} (hL : subList [.TILE_STATUS, .TILE_ERR, .MEM_DEEP_WEAR, .UPD_PLAN_STATUS, .UPD_PLAN_STALL_US, .UPD_PLAN_STALL_MAX, .SCH_P_EVENT, .SCH_CTX, .FLT_STATUS, .FLT_REC_NEWEST, .FLT_REC_LOST, .FLT_LOG_STATUS, .FLT_P_EVENT] L0 = true) (hC : subList [.resp, .pulses, .flt, .sch, .deep, .upd, .hp] C0 = true) (hS : Within L0 C0 s0 s) :
    Within L0 C0 s0 (State.outboundErr s a n) := by
  unfold State.outboundErr
  repeat' (first
    | with_reducible exact hS
    | with_reducible assumption
    | exact subList_trans (by decide +kernel) hL
    | exact subList_trans (by decide +kernel) hC
    | exact subList_elem (by decide +kernel) hL
    | exact subList_elem (by decide +kernel) hC
    | with_reducible apply State.failCommand_within
    | with_reducible apply State.loadErr_within
    | exact Within.memFilter
    | (intro x1; refine Within.cut (l := L0) (c := C0) (s := s0) (t := x1) ?_ ?_; subst x1; rotate_left; intro _; rotate_right)
    | (intro _)
    | lift_lets
    | (with_reducible refine Within.ofPair (by assumption) ?_)
    | (with_reducible refine Within.ofTriple (by assumption) ?_)
    | (with_reducible refine Within.ofFour (by assumption) ?_)
    | (with_reducible refine Within.ofFst (by assumption) ?_)
    | (with_reducible refine Within.ofSome (by assumption) ?_)
    | split
    | dsimp only)

theorem execHpInboundTlp_within {L0 : List RegName} {C0 : List Comp} {s0 : State} {t : HpTlp} {s : State} (hL : subList RegName.all L0 = true) (hC : subList [.free, .mem, .badCheck, .badWord, .resp, .heldRead, .heldWrite, .recSel, .pulses, .pins, .boot, .spl, .flt, .time, .wb, .bank, .hdw, .curves, .pwr, .sch, .upool, .deep, .upd, .sqe, .sns, .brz, .wl, .net, .hp] C0 = true) (hS : Within L0 C0 s0 s) :
    WithinOut L0 C0 s0 (execHpInboundTlp t s) := by
  unfold execHpInboundTlp
  repeat' (first
    | with_reducible exact hS
    | with_reducible assumption
    | exact subList_trans (by decide +kernel) hL
    | exact subList_trans (by decide +kernel) hC
    | exact subList_elem (by decide +kernel) hL
    | exact subList_elem (by decide +kernel) hC
    | with_reducible apply State.hpViolation_within
    | with_reducible apply State.uncorrectable_within
    | with_reducible apply State.outboundErr_within
    | with_reducible apply State.bar0Store_within
    | with_reducible apply State.deviceWrite_within
    | with_reducible apply State.hpAnswer_within
    | with_reducible apply State.deviceRead_within
    | with_reducible apply WithinOut.next
    | exact Within.memFilter
    | (intro x1; refine Within.cut (l := L0) (c := C0) (s := s0) (t := x1) ?_ ?_; subst x1; rotate_left; intro _; rotate_right)
    | (intro _)
    | lift_lets
    | (with_reducible refine Within.ofPair (by assumption) ?_)
    | (with_reducible refine Within.ofTriple (by assumption) ?_)
    | (with_reducible refine Within.ofFour (by assumption) ?_)
    | (with_reducible refine Within.ofFst (by assumption) ?_)
    | (with_reducible refine Within.ofSome (by assumption) ?_)
    | split
    | dsimp only)

theorem execCompletionTimeout_within {L0 : List RegName} {C0 : List Comp} {s0 : State} {a : Agent} {x n : Nat} {s : State} (hL : subList [.TILE_STATUS, .TILE_ERR, .MEM_DEEP_WEAR, .UPD_PLAN_STATUS, .UPD_PLAN_STALL_US, .UPD_PLAN_STALL_MAX, .SCH_P_EVENT, .SCH_CTX, .HP_ERRORS, .HP_EVENT, .FLT_STATUS, .FLT_REC_NEWEST, .FLT_REC_LOST, .FLT_LOG_STATUS, .FLT_P_EVENT] L0 = true) (hC : subList [.resp, .pulses, .flt, .sch, .deep, .upd, .hp] C0 = true) (hS : Within L0 C0 s0 s) :
    WithinOut L0 C0 s0 (execCompletionTimeout a x n s) := by
  unfold execCompletionTimeout
  repeat' (first
    | with_reducible exact hS
    | with_reducible assumption
    | exact subList_trans (by decide +kernel) hL
    | exact subList_trans (by decide +kernel) hC
    | exact subList_elem (by decide +kernel) hL
    | exact subList_elem (by decide +kernel) hC
    | with_reducible apply State.hpViolation_within
    | with_reducible apply State.refusalRecord_within
    | with_reducible apply State.outboundErr_within
    | with_reducible apply WithinOut.next
    | exact Within.memFilter
    | (intro x1; refine Within.cut (l := L0) (c := C0) (s := s0) (t := x1) ?_ ?_; subst x1; rotate_left; intro _; rotate_right)
    | (intro _)
    | lift_lets
    | (with_reducible refine Within.ofPair (by assumption) ?_)
    | (with_reducible refine Within.ofTriple (by assumption) ?_)
    | (with_reducible refine Within.ofFour (by assumption) ?_)
    | (with_reducible refine Within.ofFst (by assumption) ?_)
    | (with_reducible refine Within.ofSome (by assumption) ?_)
    | split
    | dsimp only)

end Sys2Proof.Machine
end

