-- ==== Sys2Proof/Laws/WithinExec.lean ====
section
/-!
SUPPORT. What no command can change: the queue and the variant; and the canonical forms, which every command keeps.
-/

set_option Elab.async false

namespace Sys2Proof.Machine

/-- Whatever the command, the outcome differs from the state in registers and in the components that commands can change. -/
theorem exec_within (i : Instr) (s : State) : WithinOut RegName.all Comp.rest s (exec i s) := by
  cases i with
  | csrBadAccess _ _ _ _ => exact execCsrBadAccess_within (subList_all _) rfl (Within.refl _ _ s)
  | pairLoRead _ _ => exact execPairLoRead_within (subList_all _) rfl (Within.refl _ _ s)
  | pairHiRead _ _ => exact execPairHiRead_within (subList_all _) rfl (Within.refl _ _ s)
  | pairLoWrite _ _ _ => exact execPairLoWrite_within (subList_all _) rfl (Within.refl _ _ s)
  | pairHiWrite _ _ _ => exact execPairHiWrite_within (subList_all _) rfl (Within.refl _ _ s)
  | registerWrite _ _ _ => exact execRegisterWrite_within (subList_all _) rfl (Within.refl _ _ s)
  | unmappedCsrAccess _ _ _ => exact execUnmappedCsrAccess_within (subList_all _) rfl (Within.refl _ _ s)
  | memoryRequest _ _ _ => exact execMemoryRequest_within (subList_all _) rfl (Within.refl _ _ s)
  | loadGo _ _ _ => exact execLoadGo_within (subList_all _) rfl (Within.refl _ _ s)
  | loadHeaderRead => exact execLoadHeaderRead_within (subList_all _) rfl (Within.refl _ _ s)
  | loadDigestDone => exact execLoadDigestDone_within (subList_all _) rfl (Within.refl _ _ s)
  | loadSectionsChecked => exact execLoadSectionsChecked_within (subList_all _) rfl (Within.refl _ _ s)
  | loadFenceDone _ => exact execLoadFenceDone_within (subList_all _) rfl (Within.refl _ _ s)
  | loadApplyDone _ => exact execLoadApplyDone_within (subList_all _) rfl (Within.refl _ _ s)
  | svnCommit _ => exact execSvnCommit_within (subList_all _) rfl (Within.refl _ _ s)
  | svnCommitDone => exact execSvnCommitDone_within (subList_all _) rfl (Within.refl _ _ s)
  | nop _ => exact execNop_within (subList_all _) rfl (Within.refl _ _ s)
  | matmul _ => exact execMatmul_within (subList_all _) rfl (Within.refl _ _ s)
  | ewise _ => exact execEwise_within (subList_all _) rfl (Within.refl _ _ s)
  | copyCmd _ => exact execCopyCmd_within (subList_all _) rfl (Within.refl _ _ s)
  | scan _ => exact execScan_within (subList_all _) rfl (Within.refl _ _ s)
  | waitCmd _ => exact execWaitCmd_within (subList_all _) rfl (Within.refl _ _ s)
  | waitSatisfied _ => exact execWaitSatisfied_within (subList_all _) rfl (Within.refl _ _ s)
  | waitPoll _ => exact execWaitPoll_within (subList_all _) rfl (Within.refl _ _ s)
  | waitTimeout _ => exact execWaitTimeout_within (subList_all _) rfl (Within.refl _ _ s)
  | signal _ => exact execSignal_within (subList_all _) rfl (Within.refl _ _ s)
  | reservedOpcode _ => exact execReservedOpcode_within (subList_all _) rfl (Within.refl _ _ s)
  | commandComplete _ _ => exact execCommandComplete_within (subList_all _) rfl (Within.refl _ _ s)
  | curveCommit _ _ => exact execCurveCommit_within (subList_all _) rfl (Within.refl _ _ s)
  | bankOffer _ _ _ _ => exact execBankOffer_within (subList_all _) rfl (Within.refl _ _ s)
  | bankAccept _ _ => exact execBankAccept_within (subList_all _) rfl (Within.refl _ _ s)
  | bankCancel _ _ => exact execBankCancel_within (subList_all _) rfl (Within.refl _ _ s)
  | handoverDrainDone _ => exact execHandoverDrainDone_within (subList_all _) rfl (Within.refl _ _ s)
  | handoverDrainTimeout _ => exact execHandoverDrainTimeout_within (subList_all _) rfl (Within.refl _ _ s)
  | handoverDone _ => exact execHandoverDone_within (subList_all _) rfl (Within.refl _ _ s)
  | testRegionStart _ => exact execTestRegionStart_within (subList_all _) rfl (Within.refl _ _ s)
  | testStarved _ => exact execTestStarved_within (subList_all _) rfl (Within.refl _ _ s)
  | testRegionDone _ _ => exact execTestRegionDone_within (subList_all _) rfl (Within.refl _ _ s)
  | lullIdleExpiry _ => exact execLullIdleExpiry_within (subList_all _) rfl (Within.refl _ _ s)
  | lullRequest _ _ => exact execLullRequest_within (subList_all _) rfl (Within.refl _ _ s)
  | lullWake _ => exact execLullWake_within (subList_all _) rfl (Within.refl _ _ s)
  | wakeDone _ => exact execWakeDone_within (subList_all _) rfl (Within.refl _ _ s)
  | extentRequest _ _ _ => exact execExtentRequest_within (subList_all _) rfl (Within.refl _ _ s)
  | extentAssigned _ => exact execExtentAssigned_within (subList_all _) rfl (Within.refl _ _ s)
  | softwareAlloc _ _ => exact execSoftwareAlloc_within (subList_all _) rfl (Within.refl _ _ s)
  | softwareFree _ _ _ => exact execSoftwareFree_within (subList_all _) rfl (Within.refl _ _ s)
  | softwareFreeAll _ _ => exact execSoftwareFreeAll_within (subList_all _) rfl (Within.refl _ _ s)
  | ageTick => exact execAgeTick_within (subList_all _) rfl (Within.refl _ _ s)
  | deepQueueTail _ _ _ => exact execDeepQueueTail_within (subList_all _) rfl (Within.refl _ _ s)
  | eraseDeep _ => exact execEraseDeep_within (subList_all _) rfl (Within.refl _ _ s)
  | programDeep _ => exact execProgramDeep_within (subList_all _) rfl (Within.refl _ _ s)
  | syncDeep _ => exact execSyncDeep_within (subList_all _) rfl (Within.refl _ _ s)
  | infoDeep _ => exact execInfoDeep_within (subList_all _) rfl (Within.refl _ _ s)
  | pageProgramDone _ _ _ => exact execPageProgramDone_within (subList_all _) rfl (Within.refl _ _ s)
  | dieEraseDone _ _ _ => exact execDieEraseDone_within (subList_all _) rfl (Within.refl _ _ s)
  | deepCommandDone _ => exact execDeepCommandDone_within (subList_all _) rfl (Within.refl _ _ s)
  | deepReadDone _ _ _ => exact execDeepReadDone_within (subList_all _) rfl (Within.refl _ _ s)
  | readDisturbLimit _ _ => exact execReadDisturbLimit_within (subList_all _) rfl (Within.refl _ _ s)
  | refreshDone _ => exact execRefreshDone_within (subList_all _) rfl (Within.refl _ _ s)
  | scrubRead _ _ _ => exact execScrubRead_within (subList_all _) rfl (Within.refl _ _ s)
  | deepHot => exact execDeepHot_within (subList_all _) rfl (Within.refl _ _ s)
  | deepCooled => exact execDeepCooled_within (subList_all _) rfl (Within.refl _ _ s)
  | wusedHour => exact execWusedHour_within (subList_all _) rfl (Within.refl _ _ s)
  | holdupSample _ => exact execHoldupSample_within (subList_all _) rfl (Within.refl _ _ s)
  | pfailAssert => exact execPfailAssert_within (subList_all _) rfl (Within.refl _ _ s)
  | pfailDeassert => exact execPfailDeassert_within (subList_all _) rfl (Within.refl _ _ s)
  | farRekey _ _ => exact execFarRekey_within (subList_all _) rfl (Within.refl _ _ s)
  | planLoad _ _ => exact execPlanLoad_within (subList_all _) rfl (Within.refl _ _ s)
  | planLoadDone _ => exact execPlanLoadDone_within (subList_all _) rfl (Within.refl _ _ s)
  | planUnload _ _ => exact execPlanUnload_within (subList_all _) rfl (Within.refl _ _ s)
  | gateWait _ => exact execGateWait_within (subList_all _) rfl (Within.refl _ _ s)
  | gateAnnounce _ => exact execGateAnnounce_within (subList_all _) rfl (Within.refl _ _ s)
  | layerComplete _ _ _ => exact execLayerComplete_within (subList_all _) rfl (Within.refl _ _ s)
  | expertFetchDone _ _ => exact execExpertFetchDone_within (subList_all _) rfl (Within.refl _ _ s)
  | stallLimit _ => exact execStallLimit_within (subList_all _) rfl (Within.refl _ _ s)
  | gateTimeout _ => exact execGateTimeout_within (subList_all _) rfl (Within.refl _ _ s)
  | openSeq _ _ _ => exact execOpenSeq_within (subList_all _) rfl (Within.refl _ _ s)
  | closeSeq _ _ _ => exact execCloseSeq_within (subList_all _) rfl (Within.refl _ _ s)
  | fork _ _ _ => exact execFork_within (subList_all _) rfl (Within.refl _ _ s)
  | truncate _ _ _ => exact execTruncate_within (subList_all _) rfl (Within.refl _ _ s)
  | stepBegin _ _ _ => exact execStepBegin_within (subList_all _) rfl (Within.refl _ _ s)
  | stepEnd _ _ => exact execStepEnd_within (subList_all _) rfl (Within.refl _ _ s)
  | stepCommit _ => exact execStepCommit_within (subList_all _) rfl (Within.refl _ _ s)
  | stepAbort _ _ => exact execStepAbort_within (subList_all _) rfl (Within.refl _ _ s)
  | feedPageSend _ _ => exact execFeedPageSend_within (subList_all _) rfl (Within.refl _ _ s)
  | allocCtx _ _ _ => exact execAllocCtx_within (subList_all _) rfl (Within.refl _ _ s)
  | admitCtx _ _ _ => exact execAdmitCtx_within (subList_all _) rfl (Within.refl _ _ s)
  | hold _ _ _ => exact execHold_within (subList_all _) rfl (Within.refl _ _ s)
  | resume _ _ _ => exact execResume_within (subList_all _) rfl (Within.refl _ _ s)
  | freeCtx _ _ _ => exact execFreeCtx_within (subList_all _) rfl (Within.refl _ _ s)
  | schedulerDoorbell _ _ _ => exact execSchedulerDoorbell_within (subList_all _) rfl (Within.refl _ _ s)
  | jobPlace _ => exact execJobPlace_within (subList_all _) rfl (Within.refl _ _ s)
  | sliceEnd _ => exact execSliceEnd_within (subList_all _) rfl (Within.refl _ _ s)
  | cheap _ => exact execCheap_within (subList_all _) rfl (Within.refl _ _ s)
  | switchAtCheap _ => exact execSwitchAtCheap_within (subList_all _) rfl (Within.refl _ _ s)
  | liveSaveDone _ => exact execLiveSaveDone_within (subList_all _) rfl (Within.refl _ _ s)
  | liveRestoreDone _ => exact execLiveRestoreDone_within (subList_all _) rfl (Within.refl _ _ s)
  | spanWatchdog _ => exact execSpanWatchdog_within (subList_all _) rfl (Within.refl _ _ s)
  | rtParkRequest _ => exact execRtParkRequest_within (subList_all _) rfl (Within.refl _ _ s)
  | rtRelease _ => exact execRtRelease_within (subList_all _) rfl (Within.refl _ _ s)
  | collective _ => exact execCollective_within (subList_all _) rfl (Within.refl _ _ s)
  | collectiveDone _ => exact execCollectiveDone_within (subList_all _) rfl (Within.refl _ _ s)
  | collectiveTimeout _ => exact execCollectiveTimeout_within (subList_all _) rfl (Within.refl _ _ s)
  | hdwWindowStart => exact execHdwWindowStart_within (subList_all _) rfl (Within.refl _ _ s)
  | requestAged _ _ => exact execRequestAged_within (subList_all _) rfl (Within.refl _ _ s)
  | requestUrgent _ => exact execRequestUrgent_within (subList_all _) rfl (Within.refl _ _ s)
  | hdwBudgetWrite _ _ _ _ _ => exact execHdwBudgetWrite_within (subList_all _) rfl (Within.refl _ _ s)
  | snsEnable _ _ _ => exact execSnsEnable_within (subList_all _) rfl (Within.refl _ _ s)
  | clearSuspect _ _ => exact execClearSuspect_within (subList_all _) rfl (Within.refl _ _ s)
  | csi2FrameStart _ _ _ => exact execCsi2FrameStart_within (subList_all _) rfl (Within.refl _ _ s)
  | csi2FrameEnd _ _ _ _ _ => exact execCsi2FrameEnd_within (subList_all _) rfl (Within.refl _ _ s)
  | ethSampleDatagram _ _ _ _ => exact execEthSampleDatagram_within (subList_all _) rfl (Within.refl _ _ s)
  | spiDataReady _ => exact execSpiDataReady_within (subList_all _) rfl (Within.refl _ _ s)
  | spiBurstDone _ _ => exact execSpiBurstDone_within (subList_all _) rfl (Within.refl _ _ s)
  | i3cIbi _ _ => exact execI3cIbi_within (subList_all _) rfl (Within.refl _ _ s)
  | i3cReadDone _ _ _ => exact execI3cReadDone_within (subList_all _) rfl (Within.refl _ _ s)
  | tdmFrameSync _ _ => exact execTdmFrameSync_within (subList_all _) rfl (Within.refl _ _ s)
  | sampleWrite _ => exact execSampleWrite_within (subList_all _) rfl (Within.refl _ _ s)
  | sampleIncompleteTimeout _ => exact execSampleIncompleteTimeout_within (subList_all _) rfl (Within.refl _ _ s)
  | streamLostTimeout _ => exact execStreamLostTimeout_within (subList_all _) rfl (Within.refl _ _ s)
  | unsyncClearTimeout _ => exact execUnsyncClearTimeout_within (subList_all _) rfl (Within.refl _ _ s)
  | xwInputEntry => exact execXwInputEntry_within (subList_all _) rfl (Within.refl _ _ s)
  | instantEmit _ => exact execInstantEmit_within (subList_all _) rfl (Within.refl _ _ s)
  | gridHoldExpiry _ => exact execGridHoldExpiry_within (subList_all _) rfl (Within.refl _ _ s)
  | emissionDone => exact execEmissionDone_within (subList_all _) rfl (Within.refl _ _ s)
  | auctionTimeout => exact execAuctionTimeout_within (subList_all _) rfl (Within.refl _ _ s)
  | proxTick => exact execProxTick_within (subList_all _) rfl (Within.refl _ _ s)
  | levelHoldExpiry => exact execLevelHoldExpiry_within (subList_all _) rfl (Within.refl _ _ s)
  | epochPublished => exact execEpochPublished_within (subList_all _) rfl (Within.refl _ _ s)
  | goal => exact execGoal_within (subList_all _) rfl (Within.refl _ _ s)
  | arm => exact execArm_within (subList_all _) rfl (Within.refl _ _ s)
  | cancel => exact execCancel_within (subList_all _) rfl (Within.refl _ _ s)
  | modelLoad => exact execModelLoad_within (subList_all _) rfl (Within.refl _ _ s)
  | voxels => exact execVoxels_within (subList_all _) rfl (Within.refl _ _ s)
  | layerMode => exact execLayerMode_within (subList_all _) rfl (Within.refl _ _ s)
  | mapCopy => exact execMapCopy_within (subList_all _) rfl (Within.refl _ _ s)
  | globalTick => exact execGlobalTick_within (subList_all _) rfl (Within.refl _ _ s)
  | globalDone => exact execGlobalDone_within (subList_all _) rfl (Within.refl _ _ s)
  | repairTick => exact execRepairTick_within (subList_all _) rfl (Within.refl _ _ s)
  | repairDone => exact execRepairDone_within (subList_all _) rfl (Within.refl _ _ s)
  | stageTimeout _ => exact execStageTimeout_within (subList_all _) rfl (Within.refl _ _ s)
  | outputTick => exact execOutputTick_within (subList_all _) rfl (Within.refl _ _ s)
  | cycleStart => exact execCycleStart_within (subList_all _) rfl (Within.refl _ _ s)
  | latch => exact execLatch_within (subList_all _) rfl (Within.refl _ _ s)
  | windlineFrameReturn _ _ => exact execWindlineFrameReturn_within (subList_all _) rfl (Within.refl _ _ s)
  | rxDeadline => exact execRxDeadline_within (subList_all _) rfl (Within.refl _ _ s)
  | loopRunStart _ => exact execLoopRunStart_within (subList_all _) rfl (Within.refl _ _ s)
  | endRun _ => exact execEndRun_within (subList_all _) rfl (Within.refl _ _ s)
  | ldin _ => exact execLdin_within (subList_all _) rfl (Within.refl _ _ s)
  | ldsp _ => exact execLdsp_within (subList_all _) rfl (Within.refl _ _ s)
  | ldk _ => exact execLdk_within (subList_all _) rfl (Within.refl _ _ s)
  | lds _ => exact execLds_within (subList_all _) rfl (Within.refl _ _ s)
  | sts _ => exact execSts_within (subList_all _) rfl (Within.refl _ _ s)
  | outOp _ => exact execOutOp_within (subList_all _) rfl (Within.refl _ _ s)
  | addOp _ => exact execAddOp_within (subList_all _) rfl (Within.refl _ _ s)
  | subOp _ => exact execSubOp_within (subList_all _) rfl (Within.refl _ _ s)
  | mulOp _ => exact execMulOp_within (subList_all _) rfl (Within.refl _ _ s)
  | mac _ => exact execMac_within (subList_all _) rfl (Within.refl _ _ s)
  | clamp _ => exact execClamp_within (subList_all _) rfl (Within.refl _ _ s)
  | minOp _ => exact execMinOp_within (subList_all _) rfl (Within.refl _ _ s)
  | maxOp _ => exact execMaxOp_within (subList_all _) rfl (Within.refl _ _ s)
  | negOp _ => exact execNegOp_within (subList_all _) rfl (Within.refl _ _ s)
  | absOp _ => exact execAbsOp_within (subList_all _) rfl (Within.refl _ _ s)
  | divOp _ => exact execDivOp_within (subList_all _) rfl (Within.refl _ _ s)
  | sqrtOp _ => exact execSqrtOp_within (subList_all _) rfl (Within.refl _ _ s)
  | curve _ => exact execCurve_within (subList_all _) rfl (Within.refl _ _ s)
  | cvt _ => exact execCvt_within (subList_all _) rfl (Within.refl _ _ s)
  | err _ => exact execErr_within (subList_all _) rfl (Within.refl _ _ s)
  | ldv _ => exact execLdv_within (subList_all _) rfl (Within.refl _ _ s)
  | stv _ => exact execStv_within (subList_all _) rfl (Within.refl _ _ s)
  | chol _ => exact execChol_within (subList_all _) rfl (Within.refl _ _ s)
  | cholDone => exact execCholDone_within (subList_all _) rfl (Within.refl _ _ s)
  | deadline => exact execDeadline_within (subList_all _) rfl (Within.refl _ _ s)
  | loopEnable _ _ _ => exact execLoopEnable_within (subList_all _) rfl (Within.refl _ _ s)
  | matrixCommit _ _ => exact execMatrixCommit_within (subList_all _) rfl (Within.refl _ _ s)
  | phaseWrite _ _ _ => exact execPhaseWrite_within (subList_all _) rfl (Within.refl _ _ s)
  | windlineEnable _ _ => exact execWindlineEnable_within (subList_all _) rfl (Within.refl _ _ s)
  | windlinePortDown _ => exact execWindlinePortDown_within (subList_all _) rfl (Within.refl _ _ s)
  | robRateWrite _ _ => exact execRobRateWrite_within (subList_all _) rfl (Within.refl _ _ s)
  | robAdjWrite _ _ => exact execRobAdjWrite_within (subList_all _) rfl (Within.refl _ _ s)
  | slewDone => exact execSlewDone_within (subList_all _) rfl (Within.refl _ _ s)
  | timeSnap _ => exact execTimeSnap_within (subList_all _) rfl (Within.refl _ _ s)
  | ptpSyncRx _ _ _ => exact execPtpSyncRx_within (subList_all _) rfl (Within.refl _ _ s)
  | ptpFollowUpRx _ _ => exact execPtpFollowUpRx_within (subList_all _) rfl (Within.refl _ _ s)
  | ptpAnnounceRx _ _ _ => exact execPtpAnnounceRx_within (subList_all _) rfl (Within.refl _ _ s)
  | ptpDelayRespRx _ _ => exact execPtpDelayRespRx_within (subList_all _) rfl (Within.refl _ _ s)
  | ptpPdelayReqRx _ _ => exact execPtpPdelayReqRx_within (subList_all _) rfl (Within.refl _ _ s)
  | ptpPdelayRespRx _ _ => exact execPtpPdelayRespRx_within (subList_all _) rfl (Within.refl _ _ s)
  | ptpSyncInterval _ => exact execPtpSyncInterval_within (subList_all _) rfl (Within.refl _ _ s)
  | ptpAnnounceInterval _ => exact execPtpAnnounceInterval_within (subList_all _) rfl (Within.refl _ _ s)
  | ptpDelayReqInterval _ => exact execPtpDelayReqInterval_within (subList_all _) rfl (Within.refl _ _ s)
  | announceTimeout _ => exact execAnnounceTimeout_within (subList_all _) rfl (Within.refl _ _ s)
  | holdoverExpiry _ => exact execHoldoverExpiry_within (subList_all _) rfl (Within.refl _ _ s)
  | masterDisqualifyExpiry _ _ => exact execMasterDisqualifyExpiry_within (subList_all _) rfl (Within.refl _ _ s)
  | ethFrameRx _ _ _ => exact execEthFrameRx_within (subList_all _) rfl (Within.refl _ _ s)
  | gateListGo _ _ => exact execGateListGo_within (subList_all _) rfl (Within.refl _ _ s)
  | configChange _ => exact execConfigChange_within (subList_all _) rfl (Within.refl _ _ s)
  | gateIntervalExpiry _ => exact execGateIntervalExpiry_within (subList_all _) rfl (Within.refl _ _ s)
  | ethLinkChange _ _ => exact execEthLinkChange_within (subList_all _) rfl (Within.refl _ _ s)
  | portHoldDownExpiry _ => exact execPortHoldDownExpiry_within (subList_all _) rfl (Within.refl _ _ s)
  | hpLinkTrained _ _ _ _ => exact execHpLinkTrained_within (subList_all _) rfl (Within.refl _ _ s)
  | hpInboundTlp _ => exact execHpInboundTlp_within (subList_all _) rfl (Within.refl _ _ s)
  | hpDoorbellWrite _ _ => exact execHpDoorbellWrite_within (subList_all _) rfl (Within.refl _ _ s)
  | hpMsiRaise _ _ _ => exact execHpMsiRaise_within (subList_all _) rfl (Within.refl _ _ s)
  | completionTimeout _ _ _ => exact execCompletionTimeout_within (subList_all _) rfl (Within.refl _ _ s)
  | surpriseLinkDown => exact execSurpriseLinkDown_within (subList_all _) rfl (Within.refl _ _ s)
  | hpRetrainTimer => exact execHpRetrainTimer_within (subList_all _) rfl (Within.refl _ _ s)
  | powerTick _ => exact execPowerTick_within (subList_all _) rfl (Within.refl _ _ s)
  | telemetryReading _ _ => exact execTelemetryReading_within (subList_all _) rfl (Within.refl _ _ s)
  | telemetryPeriod => exact execTelemetryPeriod_within (subList_all _) rfl (Within.refl _ _ s)
  | railNoReading _ => exact execRailNoReading_within (subList_all _) rfl (Within.refl _ _ s)
  | voltageSettled _ => exact execVoltageSettled_within (subList_all _) rfl (Within.refl _ _ s)
  | gateIdleExpiry _ => exact execGateIdleExpiry_within (subList_all _) rfl (Within.refl _ _ s)
  | tempSample _ => exact execTempSample_within (subList_all _) rfl (Within.refl _ _ s)
  | overtempPersist _ => exact execOvertempPersist_within (subList_all _) rfl (Within.refl _ _ s)
  | deepLimitStep => exact execDeepLimitStep_within (subList_all _) rfl (Within.refl _ _ s)
  | fmaxRederive _ _ => exact execFmaxRederive_within (subList_all _) rfl (Within.refl _ _ s)
  | galeTrip => exact execGaleTrip_within (subList_all _) rfl (Within.refl _ _ s)
  | galeRecord => exact execGaleRecord_within (subList_all _) rfl (Within.refl _ _ s)
  | squallAssert _ => exact execSquallAssert_within (subList_all _) rfl (Within.refl _ _ s)
  | squallRelease => exact execSquallRelease_within (subList_all _) rfl (Within.refl _ _ s)
  | squallHoldExpiry => exact execSquallHoldExpiry_within (subList_all _) rfl (Within.refl _ _ s)
  | squallPersist => exact execSquallPersist_within (subList_all _) rfl (Within.refl _ _ s)
  | tileWakeAdmit => exact execTileWakeAdmit_within (subList_all _) rfl (Within.refl _ _ s)
  | faultDetected _ _ _ _ => exact execFaultDetected_within (subList_all _) rfl (Within.refl _ _ s)
  | fenceDrainDone _ _ => exact execFenceDrainDone_within (subList_all _) rfl (Within.refl _ _ s)
  | fenceConfirmTimeout _ => exact execFenceConfirmTimeout_within (subList_all _) rfl (Within.refl _ _ s)
  | recoveryRelease _ _ => exact execRecoveryRelease_within (subList_all _) rfl (Within.refl _ _ s)
  | fltReset _ _ _ _ => exact execFltReset_within (subList_all _) rfl (Within.refl _ _ s)
  | logFlushTimer => exact execLogFlushTimer_within (subList_all _) rfl (Within.refl _ _ s)
  | logFlush _ => exact execLogFlush_within (subList_all _) rfl (Within.refl _ _ s)
  | logRead _ => exact execLogRead_within (subList_all _) rfl (Within.refl _ _ s)
  | recSelWrite _ _ => exact execRecSelWrite_within (subList_all _) rfl (Within.refl _ _ s)
  | lockstepMismatch _ _ => exact execLockstepMismatch_within (subList_all _) rfl (Within.refl _ _ s)
  | wboWriteReject _ _ => exact execWboWriteReject_within (subList_all _) rfl (Within.refl _ _ s)
  | estopSample _ => exact execEstopSample_within (subList_all _) rfl (Within.refl _ _ s)
  | stopTimeExpiry => exact execStopTimeExpiry_within (subList_all _) rfl (Within.refl _ _ s)
  | wbStop _ => exact execWbStop_within (subList_all _) rfl (Within.refl _ _ s)
  | wbRelease _ => exact execWbRelease_within (subList_all _) rfl (Within.refl _ _ s)
  | porstAssert _ => exact execPorstAssert_within (subList_all _) rfl (Within.refl _ _ s)
  | porstRelease => exact execPorstRelease_within (subList_all _) rfl (Within.refl _ _ s)
  | stageS0Done => exact execStageS0Done_within (subList_all _) rfl (Within.refl _ _ s)
  | stageS1Done _ => exact execStageS1Done_within (subList_all _) rfl (Within.refl _ _ s)
  | stageS2Done _ _ => exact execStageS2Done_within (subList_all _) rfl (Within.refl _ _ s)
  | stageS3Done _ _ _ => exact execStageS3Done_within (subList_all _) rfl (Within.refl _ _ s)
  | stageS4Done _ => exact execStageS4Done_within (subList_all _) rfl (Within.refl _ _ s)
  | stageS5Done => exact execStageS5Done_within (subList_all _) rfl (Within.refl _ _ s)
  | stageS6Done => exact execStageS6Done_within (subList_all _) rfl (Within.refl _ _ s)
  | stageS7Release => exact execStageS7Release_within (subList_all _) rfl (Within.refl _ _ s)
  | bootOk _ => exact execBootOk_within (subList_all _) rfl (Within.refl _ _ s)
  | restart _ => exact execRestart_within (subList_all _) rfl (Within.refl _ _ s)
  | doldrums _ => exact execDoldrums_within (subList_all _) rfl (Within.refl _ _ s)
  | bootWatchdogExpiry => exact execBootWatchdogExpiry_within (subList_all _) rfl (Within.refl _ _ s)
  | maintRequest _ => exact execMaintRequest_within (subList_all _) rfl (Within.refl _ _ s)
  | refclk1Loss => exact execRefclk1Loss_within (subList_all _) rfl (Within.refl _ _ s)
  | crystalLoss => exact execCrystalLoss_within (subList_all _) rfl (Within.refl _ _ s)
  | armSearchDone => exact execArmSearchDone_within (subList_all _) rfl (Within.refl _ _ s)
  | ptpDelayReqRx _ _ => exact execPtpDelayReqRx_within (subList_all _) rfl (Within.refl _ _ s)
  | tdmClockLoss _ => exact execTdmClockLoss_within (subList_all _) rfl (Within.refl _ _ s)
  | squallHeldExpiry => exact execSquallHeldExpiry_within (subList_all _) rfl (Within.refl _ _ s)
  | uncorrectableFec => exact execUncorrectableFec_within (subList_all _) rfl (Within.refl _ _ s)

end Sys2Proof.Machine
end

