-- ==== Sys2Proof/Laws/Fields.lean ====
section
/-!
SUPPORT. Reading a field, a bit or a register after a write of another or of the same one, and what a fault record leaves alone.
-/

namespace Sys2Proof.Machine

set_option maxRecDepth 8000

theorem Completes.mk {c : Instr} {s t : State} {P : State → Prop} (h : exec c s = .next t) (p : P t) : Completes c s P := ⟨t, h, p⟩

theorem recordRated_flt (s : State) (k : RateKey) (f : FaultDesc) (u : State) (hu : u.flt = s.flt) (hn : u.now = s.now) :
    match alGet s.flt.rates k with
    | some t0 => if s.now < t0 + 100000000 then (u.recordRated k f).flt = s.flt else Recorded s (u.recordRated k f) f ∧ alGet (u.recordRated k f).flt.rates k = some s.now
    | none => Recorded s (u.recordRated k f) f ∧ alGet (u.recordRated k f).flt.rates k = some s.now := by
  have h := u.recordRated_cases k f
  rw [hu, hn] at h
  cases g : alGet s.flt.rates k with
  | none =>
    simp only [g] at h
    exact ⟨h.1.of_flt hu.symm rfl, h.2⟩
  | some t0 =>
    simp only [g] at h
    simp only
    split at h
    · rename_i e; rw [if_pos e, h, hu]
    · rename_i e; rw [if_neg e]; exact ⟨h.1.of_flt hu.symm rfl, h.2⟩

theorem record_resp (s : State) (f : FaultDesc) : (s.record f).resp = s.resp :=
  (State.record_within (s0 := s) (s := s) (f := f) (subList_refl _) (subList_refl _) (Within.refl _ _ s)).comps .resp (by decide)

theorem recordRated_resp (s : State) (k) (f : FaultDesc) : (s.recordRated k f).resp = s.resp :=
  (State.recordRated_within (s0 := s) (s := s) (f := f) (k := k) (subList_refl _) (subList_refl _) (Within.refl _ _ s)).comps .resp (by decide)

theorem Within.samemem {l c s t} (h : Within l c s t) (hm : Comp.mem ∉ c) : SameMemory s t := by
  intro a
  have : t.mem = s.mem := h.comps .mem hm
  unfold State.getByte
  rw [this]

theorem fld_wrReg (s : State) (r : Reg) (w : Word) (n : RegName) (hi lo i j : Nat) :
    (s.wrReg r w).fld n hi lo i j = if (⟨n, i, j⟩ : Reg) = r then fieldOf w hi lo else s.fld n hi lo i j := by
  unfold State.fld; rw [State.rdReg_wrReg]; split <;> rfl

theorem fld_wrF (s : State) (m : RegName) (h' l' v i' j' : Nat) (n : RegName) (hi lo i j : Nat) :
    (s.wrF m h' l' v i' j').fld n hi lo i j = if n = m ∧ i = i' ∧ j = j' then fieldOf (fieldSet (s.rdReg ⟨m, i', j'⟩) h' l' v) hi lo else s.fld n hi lo i j := by
  unfold State.wrF; rw [fld_wrReg]; simp only [Reg.mk.injEq]

theorem fld_wr (s : State) (m : RegName) (v i' j' : Nat) (n : RegName) (hi lo i j : Nat) :
    (s.wr m v i' j').fld n hi lo i j = if n = m ∧ i = i' ∧ j = j' then fieldOf (BitVec.ofNat 32 v) hi lo else s.fld n hi lo i j := by
  unfold State.wr; rw [fld_wrReg]; simp only [Reg.mk.injEq]

theorem rd_wrF (s : State) (m : RegName) (h' l' v i' j' : Nat) (n : RegName) (i j : Nat) :
    (s.wrF m h' l' v i' j').rd n i j = if n = m ∧ i = i' ∧ j = j' then (fieldSet (s.rdReg ⟨m, i', j'⟩) h' l' v).toNat else s.rd n i j := by
  unfold State.wrF State.rd; rw [State.rdReg_wrReg]; simp only [Reg.mk.injEq]; split <;> rfl

theorem rd_wr (s : State) (m : RegName) (v i' j' : Nat) (n : RegName) (i j : Nat) :
    (s.wr m v i' j').rd n i j = if n = m ∧ i = i' ∧ j = j' then v % 2 ^ 32 else s.rd n i j := by
  unfold State.wr State.rd; rw [State.rdReg_wrReg]; simp only [Reg.mk.injEq]; split <;> rfl

theorem fieldSet_rd_disj (s : State) (r : Reg) (h' l' v hi lo : Nat) (h : hi < 32) (d : hi < l' ∨ h' < lo) :
    fieldOf (fieldSet (s.rdReg r) h' l' v) hi lo = s.fld r.name hi lo r.i r.j := fieldOf_fieldSet_disjoint _ _ _ _ _ _ h d.symm

theorem within_fld {l c} {s t : State} (h : Within l c s t) (n : RegName) (hn : n ∉ l) (hi lo i j : Nat) : t.fld n hi lo i j = s.fld n hi lo i j := by
  unfold State.fld; rw [h.regs ⟨n, i, j⟩ hn]

theorem within_rd {l c} {s t : State} (h : Within l c s t) (n : RegName) (hn : n ∉ l) (i j : Nat) : t.rd n i j = s.rd n i j := by
  unfold State.rd; rw [h.regs ⟨n, i, j⟩ hn]

theorem within_bit {l c} {s t : State} (h : Within l c s t) (n : RegName) (hn : n ∉ l) (k i j : Nat) : t.bit n k i j = s.bit n k i j := by
  unfold State.bit; rw [within_fld h n hn]

theorem rec_within (s : State) (f : FaultDesc) : Within recordRegs [.flt, .deep] s (s.record f) :=
  State.record_within rfl rfl (Within.refl _ _ s)

theorem fieldOf_bit1 (b : Bool) : b.toNat % 2 ^ (1) = b.toNat := by cases b <;> rfl

theorem bit_setB_eq (s : State) (m : RegName) (k' i' j' : Nat) (n : RegName) (k i j : Nat) (hk : k' < 32) (hk2 : k < 32) :
    (s.setB m k' i' j').bit n k i j = if n = m ∧ i = i' ∧ j = j' ∧ k = k' then true else s.bit n k i j := by
  unfold State.bit State.setB
  rw [fld_wrF]
  split
  · rename_i h
    obtain ⟨rfl, rfl, rfl⟩ := h
    by_cases e : k = k'
    · subst e; rw [fieldOf_fieldSet_self _ _ _ _ hk]; simp
    · rw [if_neg (by simp [e]), fieldSet_rd_disj _ _ _ _ _ _ _ hk2 (by omega)]
  · rename_i h
    rw [if_neg (by intro ⟨a, b, c, d⟩; exact h ⟨a, b, c⟩)]

theorem bit_wrF_eq (s : State) (m : RegName) (h' l' v i' j' : Nat) (n : RegName) (k i j : Nat) (hk2 : k < 32) (hh : k < l' ∨ h' < k ∨ n ≠ m) :
    (s.wrF m h' l' v i' j').bit n k i j = s.bit n k i j := by
  unfold State.bit
  rw [fld_wrF]
  split
  · rename_i h
    obtain ⟨rfl, rfl, rfl⟩ := h
    rw [fieldSet_rd_disj _ _ _ _ _ _ _ hk2 (by have := hh; simp at this; omega)]
  · rfl

theorem bit_clrB_eq (s : State) (m : RegName) (k' i' j' : Nat) (n : RegName) (k i j : Nat) (hk : k' < 32) (hk2 : k < 32) :
    (s.clrB m k' i' j').bit n k i j = if n = m ∧ i = i' ∧ j = j' ∧ k = k' then false else s.bit n k i j := by
  unfold State.bit State.clrB
  rw [fld_wrF]
  split
  · rename_i h
    obtain ⟨rfl, rfl, rfl⟩ := h
    by_cases e : k = k'
    · subst e; rw [fieldOf_fieldSet_self _ _ _ _ hk]; simp
    · rw [if_neg (by simp [e]), fieldSet_rd_disj _ _ _ _ _ _ _ hk2 (by omega)]
  · rename_i h
    rw [if_neg (by intro ⟨a, b, c, d⟩; exact h ⟨a, b, c⟩)]

theorem bit_wr_eq (s : State) (m : RegName) (v i' j' : Nat) (n : RegName) (k i j : Nat) (h : n ≠ m) :
    (s.wr m v i' j').bit n k i j = s.bit n k i j := by
  unfold State.bit; rw [fld_wr, if_neg (by intro e; exact h e.1)]

end Sys2Proof.Machine
end

