-- ==== Sys2Proof/Laws/Memory.lean ====
section
/-!
SUPPORT. What memory reads as after a store and after a clearing, and lookups in the lists that the components keep.
-/

namespace Sys2Proof.Machine

set_option maxRecDepth 8000

theorem getByte_setByte (s : State) (x a : Nat) (b : Byte) : (s.setByte x b).getByte a = if a = x then b else s.getByte a := by
  unfold State.getByte State.setByte
  split
  · rename_i e; rw [e]; exact mapGet_mapSet_self _ _ _ _ _
  · rename_i e; exact mapGet_mapSet_ne _ _ _ _ _ e

theorem putBytes_getByte (d : List Byte) : ∀ (s : State) (x a : Nat), (s.putBytes x d).getByte a = if h : x ≤ a ∧ a < x + d.length then d[a - x]'(by omega) else s.getByte a := by
  induction d with
  | nil => intro s x a; simp [State.putBytes] <;> omega
  | cons b r ih =>
    intro s x a
    unfold State.putBytes
    rw [ih, getByte_setByte]
    by_cases h : x = a
    · subst h
      rw [dif_neg (by omega), if_pos rfl, dif_pos (by simp)]
      simp
    · by_cases h2 : x + 1 ≤ a ∧ a < x + 1 + r.length
      · rw [dif_pos h2, dif_pos (by simp only [List.length_cons]; omega)]
        have : a - x = (a - (x + 1)) + 1 := by omega
        simp [this]
      · rw [dif_neg h2, if_neg (Ne.symm h), dif_neg (by simp only [List.length_cons]; omega)]

theorem store_getByte (s : State) (x : Nat) (d : List Byte) (a : Nat) : (s.store x d).getByte a = (s.putBytes x d).getByte a := rfl

theorem storeKeep_getByte (s : State) (x : Nat) (d : List Byte) (a : Nat) : (s.storeKeep x d).getByte a = (s.putBytes x d).getByte a := rfl

theorem getBytes_of (s t : State) (x : Nat) (d : List Byte) (h : ∀ a, t.getByte a = (s.putBytes x d).getByte a) : t.getBytes x d.length = d ∧ SameMemoryBut x d.length s t := by
  constructor
  · unfold State.getBytes
    refine List.ext_getElem (by simp) ?_
    intro i h1 h2
    simp only [List.getElem_map, List.getElem_range, h, putBytes_getByte]
    rw [dif_pos (by omega)]
    simp
  · intro a ha
    rw [h, putBytes_getByte, dif_neg ha]

theorem regionOf_low {a : Nat} (h : a < deepBase) : (∀ u, regionOf a ≠ .deep u) ∧ (∀ u, regionOf a ≠ .far u) := by
  have h1 : (decide (deepBase ≤ a) && decide (a < 0x1F000000000)) = false := by simp; omega
  have h2 : (decide (farBase ≤ a) && decide (a < 0x80000000000)) = false := by
    simp only [Bool.and_eq_false_iff, decide_eq_false_iff_not]; simp only [farBase, deepBase] at *; omega
  unfold regionOf
  simp only [h1, h2]
  constructor <;> intro u <;> repeat' split
  all_goals (rename_i k; first | (cases k; done) | skip)
  all_goals (intro e; first | (cases e; done) | (cases e; rename_i k _; cases k; done) | (rename_i k; cases k; done) | contradiction)

theorem memByte_low (s : State) (p a : Nat) (h : a < deepBase) : s.memByte p a = s.getByte a := by
  have := regionOf_low h
  unfold State.memByte
  split
  · rename_i u e; exact absurd e (this.1 u)
  · rename_i u e; exact absurd e (this.2 u)
  · rfl

theorem zero_getByte (s : State) (a n x : Nat) : (s.zero a n).getByte x = if a ≤ x ∧ x < a + n then 0#8 else s.getByte x := by
  unfold State.zero State.getByte
  show mapGet 0#8 (s.mem.filter (fun c => decide (c.1 < a) || decide (a + n ≤ c.1))) x = _
  rw [mapGet_filter (0#8) s.mem (fun k => decide (k < a) || decide (a + n ≤ k)) x]
  by_cases h : a ≤ x ∧ x < a + n
  · rw [if_neg (by simp; omega), if_pos h]
  · rw [if_pos (by simp; omega), if_neg h]

theorem sameBut_zero (s : State) (a n : Nat) : SameMemoryBut a n s (s.zero a n) := by
  intro x hx; rw [zero_getByte, if_neg hx]

theorem minBy_id : ∀ (l : List Nat) (e : Nat), minBy id l = some e → e ∈ l ∧ ∀ x ∈ l, e ≤ x
  | [], e, h => by cases h
  | x :: r, e, h => by
    unfold minBy at h
    cases hr : minBy id r with
    | none =>
      rw [hr] at h
      cases h
      cases r with
      | nil => exact ⟨List.mem_cons_self, by simp⟩
      | cons y r =>
        unfold minBy at hr
        split at hr <;> first | cases hr | (split at hr <;> cases hr)
    | some y =>
      rw [hr] at h
      have ih := minBy_id r y hr
      simp only [id] at h
      split at h
      · cases h
        refine ⟨List.mem_cons_of_mem _ ih.1, ?_⟩
        intro z hz
        rcases List.mem_cons.mp hz with rfl | hz
        · omega
        · exact ih.2 z hz
      · cases h
        refine ⟨List.mem_cons_self, ?_⟩
        intro z hz
        rcases List.mem_cons.mp hz with rfl | hz
        · exact Nat.le_refl _
        · have := ih.2 z hz; omega

theorem alGet_mem {κ ν : Type} [DecidableEq κ] (m : List (κ × ν)) (k : κ) (h : (alGet m k).isSome = true) : ∃ v, (k, v) ∈ m := by
  induction m with
  | nil => simp [alGet] at h
  | cons p r ih =>
    unfold alGet at h
    split at h
    · rename_i e; exact ⟨p.2, by rw [← e]; exact List.mem_cons_self⟩
    · obtain ⟨v, hv⟩ := ih h; exact ⟨v, List.mem_cons_of_mem _ hv⟩

theorem alGet_map {κ ν : Type} [DecidableEq κ] (m : List (κ × ν)) (f : ν → ν) (k : κ) : alGet (m.map (fun x => (x.1, f x.2))) k = (alGet m k).map f := by
  induction m with
  | nil => rfl
  | cons p r ih => simp only [List.map_cons, alGet]; split <;> simp_all

theorem alGet_of_mem {ν : Type} (m : List (Nat × ν)) (hn : (m.map Prod.fst).Nodup) (k : Nat) (v : ν) (h : (k, v) ∈ m) : alGet m k = some v := by
  induction m with
  | nil => cases h
  | cons p r ih =>
    simp only [List.map_cons, List.nodup_cons] at hn
    unfold alGet
    rcases List.mem_cons.mp h with h | h
    · rw [← h]; simp
    · rw [if_neg, ih hn.2 h]
      intro e
      exact hn.1 (List.mem_map.mpr ⟨_, h, e.symm⟩)

theorem mem_of_alGet {ν : Type} (m : List (Nat × ν)) (k : Nat) (v : ν) (h : alGet m k = some v) : (k, v) ∈ m := by
  induction m with
  | nil => cases h
  | cons p r ih =>
    unfold alGet at h
    split at h
    · rename_i e; cases h; rw [← e]; exact List.mem_cons_self
    · exact List.mem_cons_of_mem _ (ih h)

theorem bytesLE_length (n v : Nat) : (bytesLE n v).length = n := by
  induction n generalizing v with
  | zero => rfl
  | succ n ih => simp [bytesLE, ih]

theorem mapErase_none {κ ν : Type} [DecidableEq κ] (m : List (κ × ν)) (k : κ) (h : alGet m k = none) : mapErase k m = m := by
  induction m with
  | nil => rfl
  | cons p r ih =>
    unfold alGet at h
    split at h
    · cases h
    · rename_i e
      unfold mapErase
      simp [e, ih h]

theorem memByte_congr {s t : State} (h1 : t.mem = s.mem) (h2 : t.deep.blocks = s.deep.blocks) (h3 : t.deep.farKeys = s.deep.farKeys) (q x : Nat) :
    t.memByte q x = s.memByte q x := by
  have hg : ∀ a, t.getByte a = s.getByte a := fun a => by unfold State.getByte; rw [h1]
  have hf : t.farBlock q x = s.farBlock q x := by
    unfold State.farBlock State.farPair State.getBytes
    simp only [h3, hg]
  unfold State.memByte State.deepBlank
  simp only [h2, hg, hf]

theorem getByte_congr {s t : State} (h1 : t.mem = s.mem) (x : Nat) : t.getByte x = s.getByte x := by
  unfold State.getByte
  rw [h1]

theorem readable_congr {s t : State} (h1 : t.badWord = s.badWord) (a n : Nat) : t.readable a n = s.readable a n := by
  unfold State.readable
  rw [h1]

theorem checksOk_congr {s t : State} (h1 : t.badCheck = s.badCheck) (a n : Nat) : t.checksOk a n = s.checksOk a n := by
  unfold State.checksOk
  rw [h1]

end Sys2Proof.Machine
end

