-- ==== Sys2Proof/Laws/PerInstr.lean ====
section
/-!
SUPPORT. The family WellFormed, said of each command: a well-formed command that has a sender has one that exists.
-/

namespace Sys2Proof.Laws

open Sys2Proof.Machine

/-- The agent that sends a command, for the commands that are register writes, requests or reads of one. -/
def WellFormed.sender : Instr → Option Agent
  | .csrBadAccess a _ _ _ => some a
  | .pairLoRead a _ => some a
  | .pairHiRead a _ => some a
  | .pairLoWrite a _ _ => some a
  | .pairHiWrite a _ _ => some a
  | .registerWrite a _ _ => some a
  | .unmappedCsrAccess a _ _ => some a
  | .memoryRequest a _ _ => some a
  | .loadGo a _ _ => some a
  | .loadHeaderRead => none
  | .loadDigestDone => none
  | .loadSectionsChecked => none
  | .loadFenceDone .. => none
  | .loadApplyDone .. => none
  | .svnCommit a => some a
  | .svnCommitDone => none
  | .nop .. => none
  | .matmul .. => none
  | .ewise .. => none
  | .copyCmd .. => none
  | .scan .. => none
  | .waitCmd .. => none
  | .waitSatisfied .. => none
  | .waitPoll .. => none
  | .waitTimeout .. => none
  | .signal .. => none
  | .reservedOpcode .. => none
  | .commandComplete .. => none
  | .curveCommit a _ => some a
  | .bankOffer a _ _ _ => some a
  | .bankAccept a _ => some a
  | .bankCancel a _ => some a
  | .handoverDrainDone .. => none
  | .handoverDrainTimeout .. => none
  | .handoverDone .. => none
  | .testRegionStart .. => none
  | .testStarved .. => none
  | .testRegionDone .. => none
  | .lullIdleExpiry .. => none
  | .lullRequest a _ => some a
  | .lullWake .. => none
  | .wakeDone .. => none
  | .extentRequest .. => none
  | .extentAssigned .. => none
  | .softwareAlloc a _ => some a
  | .softwareFree a _ _ => some a
  | .softwareFreeAll a _ => some a
  | .ageTick => none
  | .deepQueueTail a _ _ => some a
  | .eraseDeep .. => none
  | .programDeep .. => none
  | .syncDeep .. => none
  | .infoDeep .. => none
  | .pageProgramDone .. => none
  | .dieEraseDone .. => none
  | .deepCommandDone .. => none
  | .deepReadDone a _ _ => some a
  | .readDisturbLimit .. => none
  | .refreshDone .. => none
  | .scrubRead .. => none
  | .deepHot => none
  | .deepCooled => none
  | .wusedHour => none
  | .holdupSample .. => none
  | .pfailAssert => none
  | .pfailDeassert => none
  | .farRekey a _ => some a
  | .planLoad a _ => some a
  | .planLoadDone .. => none
  | .planUnload a _ => some a
  | .gateWait .. => none
  | .gateAnnounce .. => none
  | .layerComplete .. => none
  | .expertFetchDone .. => none
  | .stallLimit .. => none
  | .gateTimeout .. => none
  | .openSeq a _ _ => some a
  | .closeSeq a _ _ => some a
  | .fork a _ _ => some a
  | .truncate a _ _ => some a
  | .stepBegin a _ _ => some a
  | .stepEnd a _ => some a
  | .stepCommit .. => none
  | .stepAbort a _ => some a
  | .feedPageSend .. => none
  | .allocCtx a _ _ => some a
  | .admitCtx a _ _ => some a
  | .hold a _ _ => some a
  | .resume a _ _ => some a
  | .freeCtx a _ _ => some a
  | .schedulerDoorbell a _ _ => some a
  | .jobPlace .. => none
  | .sliceEnd .. => none
  | .cheap .. => none
  | .switchAtCheap .. => none
  | .liveSaveDone .. => none
  | .liveRestoreDone .. => none
  | .spanWatchdog .. => none
  | .rtParkRequest .. => none
  | .rtRelease .. => none
  | .collective .. => none
  | .collectiveDone .. => none
  | .collectiveTimeout .. => none
  | .hdwWindowStart => none
  | .requestAged .. => none
  | .requestUrgent .. => none
  | .hdwBudgetWrite a _ _ _ _ => some a
  | .snsEnable a _ _ => some a
  | .clearSuspect a _ => some a
  | .csi2FrameStart .. => none
  | .csi2FrameEnd .. => none
  | .ethSampleDatagram .. => none
  | .spiDataReady .. => none
  | .spiBurstDone .. => none
  | .i3cIbi .. => none
  | .i3cReadDone .. => none
  | .tdmFrameSync .. => none
  | .sampleWrite .. => none
  | .sampleIncompleteTimeout .. => none
  | .streamLostTimeout .. => none
  | .unsyncClearTimeout .. => none
  | .xwInputEntry => none
  | .instantEmit .. => none
  | .gridHoldExpiry .. => none
  | .emissionDone => none
  | .auctionTimeout => none
  | .proxTick => none
  | .levelHoldExpiry => none
  | .epochPublished => none
  | .goal => none
  | .arm => none
  | .cancel => none
  | .modelLoad => none
  | .voxels => none
  | .layerMode => none
  | .mapCopy => none
  | .globalTick => none
  | .globalDone => none
  | .repairTick => none
  | .repairDone => none
  | .stageTimeout .. => none
  | .outputTick => none
  | .cycleStart => none
  | .latch => none
  | .windlineFrameReturn .. => none
  | .rxDeadline => none
  | .loopRunStart .. => none
  | .endRun .. => none
  | .ldin .. => none
  | .ldsp .. => none
  | .ldk .. => none
  | .lds .. => none
  | .sts .. => none
  | .outOp .. => none
  | .addOp .. => none
  | .subOp .. => none
  | .mulOp .. => none
  | .mac .. => none
  | .clamp .. => none
  | .minOp .. => none
  | .maxOp .. => none
  | .negOp .. => none
  | .absOp .. => none
  | .divOp .. => none
  | .sqrtOp .. => none
  | .curve .. => none
  | .cvt .. => none
  | .err .. => none
  | .ldv .. => none
  | .stv .. => none
  | .chol .. => none
  | .cholDone => none
  | .deadline => none
  | .loopEnable a _ _ => some a
  | .matrixCommit a _ => some a
  | .phaseWrite a _ _ => some a
  | .windlineEnable a _ => some a
  | .windlinePortDown .. => none
  | .robRateWrite a _ => some a
  | .robAdjWrite a _ => some a
  | .slewDone => none
  | .timeSnap a => some a
  | .ptpSyncRx .. => none
  | .ptpFollowUpRx .. => none
  | .ptpAnnounceRx .. => none
  | .ptpDelayRespRx .. => none
  | .ptpPdelayReqRx .. => none
  | .ptpPdelayRespRx .. => none
  | .ptpSyncInterval .. => none
  | .ptpAnnounceInterval .. => none
  | .ptpDelayReqInterval .. => none
  | .announceTimeout .. => none
  | .holdoverExpiry .. => none
  | .masterDisqualifyExpiry .. => none
  | .ethFrameRx .. => none
  | .gateListGo a _ => some a
  | .configChange .. => none
  | .gateIntervalExpiry .. => none
  | .ethLinkChange .. => none
  | .portHoldDownExpiry .. => none
  | .hpLinkTrained .. => none
  | .hpInboundTlp .. => none
  | .hpDoorbellWrite .. => none
  | .hpMsiRaise a _ _ => some a
  | .completionTimeout a _ _ => some a
  | .surpriseLinkDown => none
  | .hpRetrainTimer => none
  | .powerTick .. => none
  | .telemetryReading .. => none
  | .telemetryPeriod => none
  | .railNoReading .. => none
  | .voltageSettled .. => none
  | .gateIdleExpiry .. => none
  | .tempSample .. => none
  | .overtempPersist .. => none
  | .deepLimitStep => none
  | .fmaxRederive .. => none
  | .galeTrip => none
  | .galeRecord => none
  | .squallAssert .. => none
  | .squallRelease => none
  | .squallHoldExpiry => none
  | .squallPersist => none
  | .tileWakeAdmit => none
  | .faultDetected .. => none
  | .fenceDrainDone .. => none
  | .fenceConfirmTimeout .. => none
  | .recoveryRelease .. => none
  | .fltReset a _ _ _ => some a
  | .logFlushTimer => none
  | .logFlush a => some a
  | .logRead a => some a
  | .recSelWrite a _ => some a
  | .lockstepMismatch .. => none
  | .wboWriteReject a _ => some a
  | .estopSample .. => none
  | .stopTimeExpiry => none
  | .wbStop a => some a
  | .wbRelease a => some a
  | .porstAssert .. => none
  | .porstRelease => none
  | .stageS0Done => none
  | .stageS1Done .. => none
  | .stageS2Done .. => none
  | .stageS3Done .. => none
  | .stageS4Done .. => none
  | .stageS5Done => none
  | .stageS6Done => none
  | .stageS7Release => none
  | .bootOk a => some a
  | .restart a => some a
  | .doldrums a => some a
  | .bootWatchdogExpiry => none
  | .maintRequest .. => none
  | .refclk1Loss => none
  | .crystalLoss => none
  | .armSearchDone => none
  | .ptpDelayReqRx .. => none
  | .tdmClockLoss .. => none
  | .squallHeldExpiry => none
  | .uncorrectableFec => none

/-- The first of two checks that both hold. -/
theorem WellFormed.left {x y : Bool} (h : (x && y) = true) : x = true := (Bool.and_eq_true_iff.mp h).1

/-- A well-formed command's sender exists. -/
def WellFormed.Statement (c : Instr) : Prop := c.wf = true → ∀ b, WellFormed.sender c = some b → b.wf = true

theorem WellFormed.csrBadAccess (a : Agent) (wr : Bool) (x : Nat) (n : Nat) : WellFormed.Statement (.csrBadAccess a wr x n) := by
  rintro h _ ⟨⟩
  exact WellFormed.left h
theorem WellFormed.pairLoRead (a : Agent) (x : Nat) : WellFormed.Statement (.pairLoRead a x) := by
  rintro h _ ⟨⟩
  exact WellFormed.left h
theorem WellFormed.pairHiRead (a : Agent) (x : Nat) : WellFormed.Statement (.pairHiRead a x) := by
  rintro h _ ⟨⟩
  exact WellFormed.left h
theorem WellFormed.pairLoWrite (a : Agent) (x : Nat) (w : Word) : WellFormed.Statement (.pairLoWrite a x w) := by
  rintro h _ ⟨⟩
  exact WellFormed.left h
theorem WellFormed.pairHiWrite (a : Agent) (x : Nat) (w : Word) : WellFormed.Statement (.pairHiWrite a x w) := by
  rintro h _ ⟨⟩
  exact WellFormed.left h
theorem WellFormed.registerWrite (a : Agent) (x : Nat) (w : Word) : WellFormed.Statement (.registerWrite a x w) := by
  rintro h _ ⟨⟩
  exact WellFormed.left h
theorem WellFormed.unmappedCsrAccess (a : Agent) (wr : Bool) (x : Nat) : WellFormed.Statement (.unmappedCsrAccess a wr x) := by
  rintro h _ ⟨⟩
  exact WellFormed.left h
theorem WellFormed.memoryRequest (a : Agent) (op : MemOp) (busy : Bool) : WellFormed.Statement (.memoryRequest a op busy) := by
  rintro h _ ⟨⟩
  exact WellFormed.left h
theorem WellFormed.loadGo (a : Agent) (bank : Nat) (w : Word) : WellFormed.Statement (.loadGo a bank w) := by
  rintro h _ ⟨⟩
  exact WellFormed.left h
theorem WellFormed.loadHeaderRead : WellFormed.Statement (.loadHeaderRead) := fun _ _ h => nomatch h
theorem WellFormed.loadDigestDone : WellFormed.Statement (.loadDigestDone) := fun _ _ h => nomatch h
theorem WellFormed.loadSectionsChecked : WellFormed.Statement (.loadSectionsChecked) := fun _ _ h => nomatch h
theorem WellFormed.loadFenceDone (served : Nat) : WellFormed.Statement (.loadFenceDone served) := fun _ _ h => nomatch h
theorem WellFormed.loadApplyDone (failed : List Nat) : WellFormed.Statement (.loadApplyDone failed) := fun _ _ h => nomatch h
theorem WellFormed.svnCommit (a : Agent) : WellFormed.Statement (.svnCommit a) := by
  rintro h _ ⟨⟩
  exact h
theorem WellFormed.svnCommitDone : WellFormed.Statement (.svnCommitDone) := fun _ _ h => nomatch h
theorem WellFormed.nop (t : Nat) : WellFormed.Statement (.nop t) := fun _ _ h => nomatch h
theorem WellFormed.matmul (t : Nat) : WellFormed.Statement (.matmul t) := fun _ _ h => nomatch h
theorem WellFormed.ewise (t : Nat) : WellFormed.Statement (.ewise t) := fun _ _ h => nomatch h
theorem WellFormed.copyCmd (t : Nat) : WellFormed.Statement (.copyCmd t) := fun _ _ h => nomatch h
theorem WellFormed.scan (t : Nat) : WellFormed.Statement (.scan t) := fun _ _ h => nomatch h
theorem WellFormed.waitCmd (t : Nat) : WellFormed.Statement (.waitCmd t) := fun _ _ h => nomatch h
theorem WellFormed.waitSatisfied (t : Nat) : WellFormed.Statement (.waitSatisfied t) := fun _ _ h => nomatch h
theorem WellFormed.waitPoll (t : Nat) : WellFormed.Statement (.waitPoll t) := fun _ _ h => nomatch h
theorem WellFormed.waitTimeout (t : Nat) : WellFormed.Statement (.waitTimeout t) := fun _ _ h => nomatch h
theorem WellFormed.signal (t : Nat) : WellFormed.Statement (.signal t) := fun _ _ h => nomatch h
theorem WellFormed.reservedOpcode (t : Nat) : WellFormed.Statement (.reservedOpcode t) := fun _ _ h => nomatch h
theorem WellFormed.commandComplete (t : Nat) (k : Nat) : WellFormed.Statement (.commandComplete t k) := fun _ _ h => nomatch h
theorem WellFormed.curveCommit (a : Agent) (c : Nat) : WellFormed.Statement (.curveCommit a c) := by
  rintro h _ ⟨⟩
  exact WellFormed.left h
theorem WellFormed.bankOffer (a : Agent) (q : Nat) (target : Nat) (clear : Bool) : WellFormed.Statement (.bankOffer a q target clear) := by
  rintro h _ ⟨⟩
  exact WellFormed.left (WellFormed.left h)
theorem WellFormed.bankAccept (a : Agent) (q : Nat) : WellFormed.Statement (.bankAccept a q) := by
  rintro h _ ⟨⟩
  exact WellFormed.left h
theorem WellFormed.bankCancel (a : Agent) (q : Nat) : WellFormed.Statement (.bankCancel a q) := by
  rintro h _ ⟨⟩
  exact WellFormed.left h
theorem WellFormed.handoverDrainDone (q : Nat) : WellFormed.Statement (.handoverDrainDone q) := fun _ _ h => nomatch h
theorem WellFormed.handoverDrainTimeout (q : Nat) : WellFormed.Statement (.handoverDrainTimeout q) := fun _ _ h => nomatch h
theorem WellFormed.handoverDone (q : Nat) : WellFormed.Statement (.handoverDone q) := fun _ _ h => nomatch h
theorem WellFormed.testRegionStart (u : BankUnit) : WellFormed.Statement (.testRegionStart u) := fun _ _ h => nomatch h
theorem WellFormed.testStarved (u : BankUnit) : WellFormed.Statement (.testStarved u) := fun _ _ h => nomatch h
theorem WellFormed.testRegionDone (u : BankUnit) (passed : Bool) : WellFormed.Statement (.testRegionDone u passed) := fun _ _ h => nomatch h
theorem WellFormed.lullIdleExpiry (x : QuadRef) : WellFormed.Statement (.lullIdleExpiry x) := fun _ _ h => nomatch h
theorem WellFormed.lullRequest (a : Agent) (x : QuadRef) : WellFormed.Statement (.lullRequest a x) := by
  rintro h _ ⟨⟩
  exact WellFormed.left h
theorem WellFormed.lullWake (x : QuadRef) : WellFormed.Statement (.lullWake x) := fun _ _ h => nomatch h
theorem WellFormed.wakeDone (x : QuadRef) : WellFormed.Statement (.wakeDone x) := fun _ _ h => nomatch h
theorem WellFormed.extentRequest (p : Nat) (h : Holder) (pinned : Bool) : WellFormed.Statement (.extentRequest p h pinned) := fun _ _ h => nomatch h
theorem WellFormed.extentAssigned (e : Nat) : WellFormed.Statement (.extentAssigned e) := fun _ _ h => nomatch h
theorem WellFormed.softwareAlloc (a : Agent) (p : Nat) : WellFormed.Statement (.softwareAlloc a p) := by
  rintro h _ ⟨⟩
  exact WellFormed.left h
theorem WellFormed.softwareFree (a : Agent) (p : Nat) (e : Nat) : WellFormed.Statement (.softwareFree a p e) := by
  rintro h _ ⟨⟩
  exact WellFormed.left (WellFormed.left h)
theorem WellFormed.softwareFreeAll (a : Agent) (p : Nat) : WellFormed.Statement (.softwareFreeAll a p) := by
  rintro h _ ⟨⟩
  exact WellFormed.left h
theorem WellFormed.ageTick : WellFormed.Statement (.ageTick) := fun _ _ h => nomatch h
theorem WellFormed.deepQueueTail (a : Agent) (p : Nat) (tail : Nat) : WellFormed.Statement (.deepQueueTail a p tail) := by
  rintro h _ ⟨⟩
  exact WellFormed.left (WellFormed.left h)
theorem WellFormed.eraseDeep (p : Nat) : WellFormed.Statement (.eraseDeep p) := fun _ _ h => nomatch h
theorem WellFormed.programDeep (p : Nat) : WellFormed.Statement (.programDeep p) := fun _ _ h => nomatch h
theorem WellFormed.syncDeep (p : Nat) : WellFormed.Statement (.syncDeep p) := fun _ _ h => nomatch h
theorem WellFormed.infoDeep (p : Nat) : WellFormed.Statement (.infoDeep p) := fun _ _ h => nomatch h
theorem WellFormed.pageProgramDone (p : Nat) (g : Nat) (ok : Bool) : WellFormed.Statement (.pageProgramDone p g ok) := fun _ _ h => nomatch h
theorem WellFormed.dieEraseDone (p : Nat) (die : Nat) (ok : Bool) : WellFormed.Statement (.dieEraseDone p die ok) := fun _ _ h => nomatch h
theorem WellFormed.deepCommandDone (p : Nat) : WellFormed.Statement (.deepCommandDone p) := fun _ _ h => nomatch h
theorem WellFormed.deepReadDone (a : Agent) (g : Nat) (ok : Bool) : WellFormed.Statement (.deepReadDone a g ok) := by
  rintro h _ ⟨⟩
  exact WellFormed.left h
theorem WellFormed.readDisturbLimit (b : Nat) (die : Nat) : WellFormed.Statement (.readDisturbLimit b die) := fun _ _ h => nomatch h
theorem WellFormed.refreshDone (die : Nat) : WellFormed.Statement (.refreshDone die) := fun _ _ h => nomatch h
theorem WellFormed.scrubRead (g : Nat) (weak : Bool) (ok : Bool) : WellFormed.Statement (.scrubRead g weak ok) := fun _ _ h => nomatch h
theorem WellFormed.deepHot : WellFormed.Statement (.deepHot) := fun _ _ h => nomatch h
theorem WellFormed.deepCooled : WellFormed.Statement (.deepCooled) := fun _ _ h => nomatch h
theorem WellFormed.wusedHour : WellFormed.Statement (.wusedHour) := fun _ _ h => nomatch h
theorem WellFormed.holdupSample (code : Nat) : WellFormed.Statement (.holdupSample code) := fun _ _ h => nomatch h
theorem WellFormed.pfailAssert : WellFormed.Statement (.pfailAssert) := fun _ _ h => nomatch h
theorem WellFormed.pfailDeassert : WellFormed.Statement (.pfailDeassert) := fun _ _ h => nomatch h
theorem WellFormed.farRekey (a : Agent) (p : Nat) : WellFormed.Statement (.farRekey a p) := by
  rintro h _ ⟨⟩
  exact WellFormed.left h
theorem WellFormed.planLoad (a : Agent) (n : Nat) : WellFormed.Statement (.planLoad a n) := by
  rintro h _ ⟨⟩
  exact WellFormed.left h
theorem WellFormed.planLoadDone (n : Nat) : WellFormed.Statement (.planLoadDone n) := fun _ _ h => nomatch h
theorem WellFormed.planUnload (a : Agent) (n : Nat) : WellFormed.Statement (.planUnload a n) := by
  rintro h _ ⟨⟩
  exact WellFormed.left h
theorem WellFormed.gateWait (t : Nat) : WellFormed.Statement (.gateWait t) := fun _ _ h => nomatch h
theorem WellFormed.gateAnnounce (t : Nat) : WellFormed.Statement (.gateAnnounce t) := fun _ _ h => nomatch h
theorem WellFormed.layerComplete (n : Nat) (k : Nat) (l : Nat) : WellFormed.Statement (.layerComplete n k l) := fun _ _ h => nomatch h
theorem WellFormed.expertFetchDone (n : Nat) (e : Nat) : WellFormed.Statement (.expertFetchDone n e) := fun _ _ h => nomatch h
theorem WellFormed.stallLimit (t : Nat) : WellFormed.Statement (.stallLimit t) := fun _ _ h => nomatch h
theorem WellFormed.gateTimeout (t : Nat) : WellFormed.Statement (.gateTimeout t) := fun _ _ h => nomatch h
theorem WellFormed.openSeq (a : Agent) (p : Nat) (rsv : Nat) : WellFormed.Statement (.openSeq a p rsv) := by
  rintro h _ ⟨⟩
  exact WellFormed.left h
theorem WellFormed.closeSeq (a : Agent) (p : Nat) (rsv : Nat) : WellFormed.Statement (.closeSeq a p rsv) := by
  rintro h _ ⟨⟩
  exact WellFormed.left h
theorem WellFormed.fork (a : Agent) (p : Nat) (rsv : Nat) : WellFormed.Statement (.fork a p rsv) := by
  rintro h _ ⟨⟩
  exact WellFormed.left h
theorem WellFormed.truncate (a : Agent) (p : Nat) (rsv : Nat) : WellFormed.Statement (.truncate a p rsv) := by
  rintro h _ ⟨⟩
  exact WellFormed.left h
theorem WellFormed.stepBegin (a : Agent) (p : Nat) (count : Nat) : WellFormed.Statement (.stepBegin a p count) := by
  rintro h _ ⟨⟩
  exact WellFormed.left (WellFormed.left h)
theorem WellFormed.stepEnd (a : Agent) (p : Nat) : WellFormed.Statement (.stepEnd a p) := by
  rintro h _ ⟨⟩
  exact WellFormed.left h
theorem WellFormed.stepCommit (p : Nat) : WellFormed.Statement (.stepCommit p) := fun _ _ h => nomatch h
theorem WellFormed.stepAbort (a : Agent) (p : Nat) : WellFormed.Statement (.stepAbort a p) := by
  rintro h _ ⟨⟩
  exact WellFormed.left h
theorem WellFormed.feedPageSend (p : Nat) (k : Nat) : WellFormed.Statement (.feedPageSend p k) := fun _ _ h => nomatch h
theorem WellFormed.allocCtx (a : Agent) (p : Nat) (rsv : Nat) : WellFormed.Statement (.allocCtx a p rsv) := by
  rintro h _ ⟨⟩
  exact WellFormed.left h
theorem WellFormed.admitCtx (a : Agent) (p : Nat) (rsv : Nat) : WellFormed.Statement (.admitCtx a p rsv) := by
  rintro h _ ⟨⟩
  exact WellFormed.left h
theorem WellFormed.hold (a : Agent) (p : Nat) (rsv : Nat) : WellFormed.Statement (.hold a p rsv) := by
  rintro h _ ⟨⟩
  exact WellFormed.left h
theorem WellFormed.resume (a : Agent) (p : Nat) (rsv : Nat) : WellFormed.Statement (.resume a p rsv) := by
  rintro h _ ⟨⟩
  exact WellFormed.left h
theorem WellFormed.freeCtx (a : Agent) (p : Nat) (rsv : Nat) : WellFormed.Statement (.freeCtx a p rsv) := by
  rintro h _ ⟨⟩
  exact WellFormed.left h
theorem WellFormed.schedulerDoorbell (a : Agent) (p : Nat) (j : Nat) : WellFormed.Statement (.schedulerDoorbell a p j) := by
  rintro h _ ⟨⟩
  exact WellFormed.left (WellFormed.left h)
theorem WellFormed.jobPlace (j : Nat) : WellFormed.Statement (.jobPlace j) := fun _ _ h => nomatch h
theorem WellFormed.sliceEnd (j : Nat) : WellFormed.Statement (.sliceEnd j) := fun _ _ h => nomatch h
theorem WellFormed.cheap (t : Nat) : WellFormed.Statement (.cheap t) := fun _ _ h => nomatch h
theorem WellFormed.switchAtCheap (j : Nat) : WellFormed.Statement (.switchAtCheap j) := fun _ _ h => nomatch h
theorem WellFormed.liveSaveDone (j : Nat) : WellFormed.Statement (.liveSaveDone j) := fun _ _ h => nomatch h
theorem WellFormed.liveRestoreDone (j : Nat) : WellFormed.Statement (.liveRestoreDone j) := fun _ _ h => nomatch h
theorem WellFormed.spanWatchdog (t : Nat) : WellFormed.Statement (.spanWatchdog t) := fun _ _ h => nomatch h
theorem WellFormed.rtParkRequest (j : Nat) : WellFormed.Statement (.rtParkRequest j) := fun _ _ h => nomatch h
theorem WellFormed.rtRelease (j : Nat) : WellFormed.Statement (.rtRelease j) := fun _ _ h => nomatch h
theorem WellFormed.collective (t : Nat) : WellFormed.Statement (.collective t) := fun _ _ h => nomatch h
theorem WellFormed.collectiveDone (t : Nat) : WellFormed.Statement (.collectiveDone t) := fun _ _ h => nomatch h
theorem WellFormed.collectiveTimeout (t : Nat) : WellFormed.Statement (.collectiveTimeout t) := fun _ _ h => nomatch h
theorem WellFormed.hdwWindowStart : WellFormed.Statement (.hdwWindowStart) := fun _ _ h => nomatch h
theorem WellFormed.requestAged (k : Nat) (target : Bool) : WellFormed.Statement (.requestAged k target) := fun _ _ h => nomatch h
theorem WellFormed.requestUrgent (k : Nat) : WellFormed.Statement (.requestUrgent k) := fun _ _ h => nomatch h
theorem WellFormed.hdwBudgetWrite (a : Agent) (p : Nat) (k : Nat) (n : Nat) (w : Word) : WellFormed.Statement (.hdwBudgetWrite a p k n w) := by
  rintro h _ ⟨⟩
  exact WellFormed.left (WellFormed.left (WellFormed.left h))
theorem WellFormed.snsEnable (a : Agent) (n : Nat) (on : Bool) : WellFormed.Statement (.snsEnable a n on) := by
  rintro h _ ⟨⟩
  exact WellFormed.left h
theorem WellFormed.clearSuspect (a : Agent) (n : Nat) : WellFormed.Statement (.clearSuspect a n) := by
  rintro h _ ⟨⟩
  exact WellFormed.left h
theorem WellFormed.csi2FrameStart (port : Nat) (vc : Nat) (ecc : Nat) : WellFormed.Statement (.csi2FrameStart port vc ecc) := fun _ _ h => nomatch h
theorem WellFormed.csi2FrameEnd (port : Nat) (vc : Nat) (ecc : Nat) (payload : List Byte) (crcBad : Bool) : WellFormed.Statement (.csi2FrameEnd port vc ecc payload crcBad) := fun _ _ h => nomatch h
theorem WellFormed.ethSampleDatagram (port : Nat) (udp : Nat) (mac : Nat) (data : List Byte) : WellFormed.Statement (.ethSampleDatagram port udp mac data) := fun _ _ h => nomatch h
theorem WellFormed.spiDataReady (n : Nat) : WellFormed.Statement (.spiDataReady n) := fun _ _ h => nomatch h
theorem WellFormed.spiBurstDone (n : Nat) (data : List Byte) : WellFormed.Statement (.spiBurstDone n data) := fun _ _ h => nomatch h
theorem WellFormed.i3cIbi (port : Nat) (addr : Nat) : WellFormed.Statement (.i3cIbi port addr) := fun _ _ h => nomatch h
theorem WellFormed.i3cReadDone (port : Nat) (addr : Nat) (data : List Byte) : WellFormed.Statement (.i3cReadDone port addr data) := fun _ _ h => nomatch h
theorem WellFormed.tdmFrameSync (n : Nat) (slots : List Nat) : WellFormed.Statement (.tdmFrameSync n slots) := fun _ _ h => nomatch h
theorem WellFormed.sampleWrite (n : Nat) : WellFormed.Statement (.sampleWrite n) := fun _ _ h => nomatch h
theorem WellFormed.sampleIncompleteTimeout (n : Nat) : WellFormed.Statement (.sampleIncompleteTimeout n) := fun _ _ h => nomatch h
theorem WellFormed.streamLostTimeout (n : Nat) : WellFormed.Statement (.streamLostTimeout n) := fun _ _ h => nomatch h
theorem WellFormed.unsyncClearTimeout (n : Nat) : WellFormed.Statement (.unsyncClearTimeout n) := fun _ _ h => nomatch h
theorem WellFormed.xwInputEntry : WellFormed.Statement (.xwInputEntry) := fun _ _ h => nomatch h
theorem WellFormed.instantEmit (k : Nat) : WellFormed.Statement (.instantEmit k) := fun _ _ h => nomatch h
theorem WellFormed.gridHoldExpiry (k : Nat) : WellFormed.Statement (.gridHoldExpiry k) := fun _ _ h => nomatch h
theorem WellFormed.emissionDone : WellFormed.Statement (.emissionDone) := fun _ _ h => nomatch h
theorem WellFormed.auctionTimeout : WellFormed.Statement (.auctionTimeout) := fun _ _ h => nomatch h
theorem WellFormed.proxTick : WellFormed.Statement (.proxTick) := fun _ _ h => nomatch h
theorem WellFormed.levelHoldExpiry : WellFormed.Statement (.levelHoldExpiry) := fun _ _ h => nomatch h
theorem WellFormed.epochPublished : WellFormed.Statement (.epochPublished) := fun _ _ h => nomatch h
theorem WellFormed.goal : WellFormed.Statement (.goal) := fun _ _ h => nomatch h
theorem WellFormed.arm : WellFormed.Statement (.arm) := fun _ _ h => nomatch h
theorem WellFormed.cancel : WellFormed.Statement (.cancel) := fun _ _ h => nomatch h
theorem WellFormed.modelLoad : WellFormed.Statement (.modelLoad) := fun _ _ h => nomatch h
theorem WellFormed.voxels : WellFormed.Statement (.voxels) := fun _ _ h => nomatch h
theorem WellFormed.layerMode : WellFormed.Statement (.layerMode) := fun _ _ h => nomatch h
theorem WellFormed.mapCopy : WellFormed.Statement (.mapCopy) := fun _ _ h => nomatch h
theorem WellFormed.globalTick : WellFormed.Statement (.globalTick) := fun _ _ h => nomatch h
theorem WellFormed.globalDone : WellFormed.Statement (.globalDone) := fun _ _ h => nomatch h
theorem WellFormed.repairTick : WellFormed.Statement (.repairTick) := fun _ _ h => nomatch h
theorem WellFormed.repairDone : WellFormed.Statement (.repairDone) := fun _ _ h => nomatch h
theorem WellFormed.stageTimeout (st : VeerStage) : WellFormed.Statement (.stageTimeout st) := fun _ _ h => nomatch h
theorem WellFormed.outputTick : WellFormed.Statement (.outputTick) := fun _ _ h => nomatch h
theorem WellFormed.cycleStart : WellFormed.Statement (.cycleStart) := fun _ _ h => nomatch h
theorem WellFormed.latch : WellFormed.Statement (.latch) := fun _ _ h => nomatch h
theorem WellFormed.windlineFrameReturn (frame : List Byte) (fcsOk : Bool) : WellFormed.Statement (.windlineFrameReturn frame fcsOk) := fun _ _ h => nomatch h
theorem WellFormed.rxDeadline : WellFormed.Statement (.rxDeadline) := fun _ _ h => nomatch h
theorem WellFormed.loopRunStart (n : Nat) : WellFormed.Statement (.loopRunStart n) := fun _ _ h => nomatch h
theorem WellFormed.endRun (n : Nat) : WellFormed.Statement (.endRun n) := fun _ _ h => nomatch h
theorem WellFormed.ldin (n : Nat) : WellFormed.Statement (.ldin n) := fun _ _ h => nomatch h
theorem WellFormed.ldsp (n : Nat) : WellFormed.Statement (.ldsp n) := fun _ _ h => nomatch h
theorem WellFormed.ldk (n : Nat) : WellFormed.Statement (.ldk n) := fun _ _ h => nomatch h
theorem WellFormed.lds (n : Nat) : WellFormed.Statement (.lds n) := fun _ _ h => nomatch h
theorem WellFormed.sts (n : Nat) : WellFormed.Statement (.sts n) := fun _ _ h => nomatch h
theorem WellFormed.outOp (n : Nat) : WellFormed.Statement (.outOp n) := fun _ _ h => nomatch h
theorem WellFormed.addOp (n : Nat) : WellFormed.Statement (.addOp n) := fun _ _ h => nomatch h
theorem WellFormed.subOp (n : Nat) : WellFormed.Statement (.subOp n) := fun _ _ h => nomatch h
theorem WellFormed.mulOp (n : Nat) : WellFormed.Statement (.mulOp n) := fun _ _ h => nomatch h
theorem WellFormed.mac (n : Nat) : WellFormed.Statement (.mac n) := fun _ _ h => nomatch h
theorem WellFormed.clamp (n : Nat) : WellFormed.Statement (.clamp n) := fun _ _ h => nomatch h
theorem WellFormed.minOp (n : Nat) : WellFormed.Statement (.minOp n) := fun _ _ h => nomatch h
theorem WellFormed.maxOp (n : Nat) : WellFormed.Statement (.maxOp n) := fun _ _ h => nomatch h
theorem WellFormed.negOp (n : Nat) : WellFormed.Statement (.negOp n) := fun _ _ h => nomatch h
theorem WellFormed.absOp (n : Nat) : WellFormed.Statement (.absOp n) := fun _ _ h => nomatch h
theorem WellFormed.divOp (n : Nat) : WellFormed.Statement (.divOp n) := fun _ _ h => nomatch h
theorem WellFormed.sqrtOp (n : Nat) : WellFormed.Statement (.sqrtOp n) := fun _ _ h => nomatch h
theorem WellFormed.curve (n : Nat) : WellFormed.Statement (.curve n) := fun _ _ h => nomatch h
theorem WellFormed.cvt (n : Nat) : WellFormed.Statement (.cvt n) := fun _ _ h => nomatch h
theorem WellFormed.err (n : Nat) : WellFormed.Statement (.err n) := fun _ _ h => nomatch h
theorem WellFormed.ldv (n : Nat) : WellFormed.Statement (.ldv n) := fun _ _ h => nomatch h
theorem WellFormed.stv (n : Nat) : WellFormed.Statement (.stv n) := fun _ _ h => nomatch h
theorem WellFormed.chol (n : Nat) : WellFormed.Statement (.chol n) := fun _ _ h => nomatch h
theorem WellFormed.cholDone : WellFormed.Statement (.cholDone) := fun _ _ h => nomatch h
theorem WellFormed.deadline : WellFormed.Statement (.deadline) := fun _ _ h => nomatch h
theorem WellFormed.loopEnable (a : Agent) (n : Nat) (w : Word) : WellFormed.Statement (.loopEnable a n w) := by
  rintro h _ ⟨⟩
  exact WellFormed.left h
theorem WellFormed.matrixCommit (a : Agent) (mask : Nat) : WellFormed.Statement (.matrixCommit a mask) := by
  rintro h _ ⟨⟩
  exact WellFormed.left h
theorem WellFormed.phaseWrite (a : Agent) (timing : Bool) (w : Word) : WellFormed.Statement (.phaseWrite a timing w) := by
  rintro h _ ⟨⟩
  exact h
theorem WellFormed.windlineEnable (a : Agent) (w : Word) : WellFormed.Statement (.windlineEnable a w) := by
  rintro h _ ⟨⟩
  exact h
theorem WellFormed.windlinePortDown (p : Nat) : WellFormed.Statement (.windlinePortDown p) := fun _ _ h => nomatch h
theorem WellFormed.robRateWrite (a : Agent) (v : Word) : WellFormed.Statement (.robRateWrite a v) := by
  rintro h _ ⟨⟩
  exact h
theorem WellFormed.robAdjWrite (a : Agent) (v : Word) : WellFormed.Statement (.robAdjWrite a v) := by
  rintro h _ ⟨⟩
  exact h
theorem WellFormed.slewDone : WellFormed.Statement (.slewDone) := fun _ _ h => nomatch h
theorem WellFormed.timeSnap (a : Agent) : WellFormed.Statement (.timeSnap a) := by
  rintro h _ ⟨⟩
  exact h
theorem WellFormed.ptpSyncRx (k : Nat) (m : PtpMsg) (twoStep : Bool) : WellFormed.Statement (.ptpSyncRx k m twoStep) := fun _ _ h => nomatch h
theorem WellFormed.ptpFollowUpRx (k : Nat) (m : PtpMsg) : WellFormed.Statement (.ptpFollowUpRx k m) := fun _ _ h => nomatch h
theorem WellFormed.ptpAnnounceRx (k : Nat) (m : PtpMsg) (an : Announce) : WellFormed.Statement (.ptpAnnounceRx k m an) := fun _ _ h => nomatch h
theorem WellFormed.ptpDelayRespRx (k : Nat) (m : PtpMsg) : WellFormed.Statement (.ptpDelayRespRx k m) := fun _ _ h => nomatch h
theorem WellFormed.ptpPdelayReqRx (k : Nat) (m : PtpMsg) : WellFormed.Statement (.ptpPdelayReqRx k m) := fun _ _ h => nomatch h
theorem WellFormed.ptpPdelayRespRx (k : Nat) (m : PtpMsg) : WellFormed.Statement (.ptpPdelayRespRx k m) := fun _ _ h => nomatch h
theorem WellFormed.ptpSyncInterval (k : Nat) : WellFormed.Statement (.ptpSyncInterval k) := fun _ _ h => nomatch h
theorem WellFormed.ptpAnnounceInterval (k : Nat) : WellFormed.Statement (.ptpAnnounceInterval k) := fun _ _ h => nomatch h
theorem WellFormed.ptpDelayReqInterval (k : Nat) : WellFormed.Statement (.ptpDelayReqInterval k) := fun _ _ h => nomatch h
theorem WellFormed.announceTimeout (k : Nat) : WellFormed.Statement (.announceTimeout k) := fun _ _ h => nomatch h
theorem WellFormed.holdoverExpiry (k : Nat) : WellFormed.Statement (.holdoverExpiry k) := fun _ _ h => nomatch h
theorem WellFormed.masterDisqualifyExpiry (k : Nat) (sender : Nat) : WellFormed.Statement (.masterDisqualifyExpiry k sender) := fun _ _ h => nomatch h
theorem WellFormed.ethFrameRx (n : Nat) (frame : List Byte) (fcsOk : Bool) : WellFormed.Statement (.ethFrameRx n frame fcsOk) := fun _ _ h => nomatch h
theorem WellFormed.gateListGo (a : Agent) (n : Nat) : WellFormed.Statement (.gateListGo a n) := by
  rintro h _ ⟨⟩
  exact WellFormed.left h
theorem WellFormed.configChange (n : Nat) : WellFormed.Statement (.configChange n) := fun _ _ h => nomatch h
theorem WellFormed.gateIntervalExpiry (n : Nat) : WellFormed.Statement (.gateIntervalExpiry n) := fun _ _ h => nomatch h
theorem WellFormed.ethLinkChange (n : Nat) (up : Bool) : WellFormed.Statement (.ethLinkChange n up) := fun _ _ h => nomatch h
theorem WellFormed.portHoldDownExpiry (n : Nat) : WellFormed.Statement (.portHoldDownExpiry n) := fun _ _ h => nomatch h
theorem WellFormed.hpLinkTrained (rate : Nat) (width : Nat) (ltssm : Nat) (gib : Option Nat) : WellFormed.Statement (.hpLinkTrained rate width ltssm gib) := fun _ _ h => nomatch h
theorem WellFormed.hpInboundTlp (t : HpTlp) : WellFormed.Statement (.hpInboundTlp t) := fun _ _ h => nomatch h
theorem WellFormed.hpDoorbellWrite (p : Nat) (v : Word) : WellFormed.Statement (.hpDoorbellWrite p v) := fun _ _ h => nomatch h
theorem WellFormed.hpMsiRaise (a : Agent) (p : Nat) (mask : Nat) : WellFormed.Statement (.hpMsiRaise a p mask) := by
  rintro h _ ⟨⟩
  exact WellFormed.left (WellFormed.left h)
theorem WellFormed.completionTimeout (a : Agent) (x : Nat) (n : Nat) : WellFormed.Statement (.completionTimeout a x n) := by
  rintro h _ ⟨⟩
  exact WellFormed.left h
theorem WellFormed.surpriseLinkDown : WellFormed.Statement (.surpriseLinkDown) := fun _ _ h => nomatch h
theorem WellFormed.hpRetrainTimer : WellFormed.Statement (.hpRetrainTimer) := fun _ _ h => nomatch h
theorem WellFormed.powerTick (cnt : List Nat) : WellFormed.Statement (.powerTick cnt) := fun _ _ h => nomatch h
theorem WellFormed.telemetryReading (r : Nat) (x : Reading) : WellFormed.Statement (.telemetryReading r x) := fun _ _ h => nomatch h
theorem WellFormed.telemetryPeriod : WellFormed.Statement (.telemetryPeriod) := fun _ _ h => nomatch h
theorem WellFormed.railNoReading (r : Nat) : WellFormed.Statement (.railNoReading r) := fun _ _ h => nomatch h
theorem WellFormed.voltageSettled (r : Nat) : WellFormed.Statement (.voltageSettled r) := fun _ _ h => nomatch h
theorem WellFormed.gateIdleExpiry (t : Nat) : WellFormed.Statement (.gateIdleExpiry t) := fun _ _ h => nomatch h
theorem WellFormed.tempSample (l : List Nat) : WellFormed.Statement (.tempSample l) := fun _ _ h => nomatch h
theorem WellFormed.overtempPersist (k : Nat) : WellFormed.Statement (.overtempPersist k) := fun _ _ h => nomatch h
theorem WellFormed.deepLimitStep : WellFormed.Statement (.deepLimitStep) := fun _ _ h => nomatch h
theorem WellFormed.fmaxRederive (t : Nat) (mhz : Nat) : WellFormed.Statement (.fmaxRederive t mhz) := fun _ _ h => nomatch h
theorem WellFormed.galeTrip : WellFormed.Statement (.galeTrip) := fun _ _ h => nomatch h
theorem WellFormed.galeRecord : WellFormed.Statement (.galeRecord) := fun _ _ h => nomatch h
theorem WellFormed.squallAssert (fault : Option (Nat × Nat)) : WellFormed.Statement (.squallAssert fault) := fun _ _ h => nomatch h
theorem WellFormed.squallRelease : WellFormed.Statement (.squallRelease) := fun _ _ h => nomatch h
theorem WellFormed.squallHoldExpiry : WellFormed.Statement (.squallHoldExpiry) := fun _ _ h => nomatch h
theorem WellFormed.squallPersist : WellFormed.Statement (.squallPersist) := fun _ _ h => nomatch h
theorem WellFormed.tileWakeAdmit : WellFormed.Statement (.tileWakeAdmit) := fun _ _ h => nomatch h
theorem WellFormed.faultDetected (f : FaultDesc) (words : List Nat) (segs : List Nat) (corrected : Nat) : WellFormed.Statement (.faultDetected f words segs corrected) := fun _ _ h => nomatch h
theorem WellFormed.fenceDrainDone (n : Nat) (served : Nat) : WellFormed.Statement (.fenceDrainDone n served) := fun _ _ h => nomatch h
theorem WellFormed.fenceConfirmTimeout (n : Nat) : WellFormed.Statement (.fenceConfirmTimeout n) := fun _ _ h => nomatch h
theorem WellFormed.recoveryRelease (n : Nat) (failed : List Nat) : WellFormed.Statement (.recoveryRelease n failed) := fun _ _ h => nomatch h
theorem WellFormed.fltReset (a : Agent) (rung : Nat) (part : Nat) (target : Nat) : WellFormed.Statement (.fltReset a rung part target) := by
  rintro h _ ⟨⟩
  exact WellFormed.left (WellFormed.left (WellFormed.left h))
theorem WellFormed.logFlushTimer : WellFormed.Statement (.logFlushTimer) := fun _ _ h => nomatch h
theorem WellFormed.logFlush (a : Agent) : WellFormed.Statement (.logFlush a) := by
  rintro h _ ⟨⟩
  exact h
theorem WellFormed.logRead (a : Agent) : WellFormed.Statement (.logRead a) := by
  rintro h _ ⟨⟩
  exact h
theorem WellFormed.recSelWrite (a : Agent) (v : Word) : WellFormed.Statement (.recSelWrite a v) := by
  rintro h _ ⟨⟩
  exact h
theorem WellFormed.lockstepMismatch (active : Bool) (standby : Bool) : WellFormed.Statement (.lockstepMismatch active standby) := fun _ _ h => nomatch h
theorem WellFormed.wboWriteReject (a : Agent) (r : Reg) : WellFormed.Statement (.wboWriteReject a r) := by
  rintro h _ ⟨⟩
  exact WellFormed.left h
theorem WellFormed.estopSample (low : Bool) : WellFormed.Statement (.estopSample low) := fun _ _ h => nomatch h
theorem WellFormed.stopTimeExpiry : WellFormed.Statement (.stopTimeExpiry) := fun _ _ h => nomatch h
theorem WellFormed.wbStop (a : Agent) : WellFormed.Statement (.wbStop a) := by
  rintro h _ ⟨⟩
  exact h
theorem WellFormed.wbRelease (a : Agent) : WellFormed.Statement (.wbRelease a) := by
  rintro h _ ⟨⟩
  exact h
theorem WellFormed.porstAssert (aon : Bool) : WellFormed.Statement (.porstAssert aon) := fun _ _ h => nomatch h
theorem WellFormed.porstRelease : WellFormed.Statement (.porstRelease) := fun _ _ h => nomatch h
theorem WellFormed.stageS0Done : WellFormed.Statement (.stageS0Done) := fun _ _ h => nomatch h
theorem WellFormed.stageS1Done (fz : Option Fuses) : WellFormed.Statement (.stageS1Done fz) := fun _ _ h => nomatch h
theorem WellFormed.stageS2Done (f0 : Bool) (f1 : Bool) : WellFormed.Statement (.stageS2Done f0 f1) := fun _ _ h => nomatch h
theorem WellFormed.stageS3Done (ok : Bool) (addr : Nat) (quads : List Nat) : WellFormed.Statement (.stageS3Done ok addr quads) := fun _ _ h => nomatch h
theorem WellFormed.stageS4Done (results : List TileTest) : WellFormed.Statement (.stageS4Done results) := fun _ _ h => nomatch h
theorem WellFormed.stageS5Done : WellFormed.Statement (.stageS5Done) := fun _ _ h => nomatch h
theorem WellFormed.stageS6Done : WellFormed.Statement (.stageS6Done) := fun _ _ h => nomatch h
theorem WellFormed.stageS7Release : WellFormed.Statement (.stageS7Release) := fun _ _ h => nomatch h
theorem WellFormed.bootOk (a : Agent) : WellFormed.Statement (.bootOk a) := by
  rintro h _ ⟨⟩
  exact h
theorem WellFormed.restart (a : Agent) : WellFormed.Statement (.restart a) := by
  rintro h _ ⟨⟩
  exact h
theorem WellFormed.doldrums (a : Agent) : WellFormed.Statement (.doldrums a) := by
  rintro h _ ⟨⟩
  exact h
theorem WellFormed.bootWatchdogExpiry : WellFormed.Statement (.bootWatchdogExpiry) := fun _ _ h => nomatch h
theorem WellFormed.maintRequest (m : MaintReq) : WellFormed.Statement (.maintRequest m) := fun _ _ h => nomatch h
theorem WellFormed.refclk1Loss : WellFormed.Statement (.refclk1Loss) := fun _ _ h => nomatch h
theorem WellFormed.crystalLoss : WellFormed.Statement (.crystalLoss) := fun _ _ h => nomatch h
theorem WellFormed.armSearchDone : WellFormed.Statement (.armSearchDone) := fun _ _ h => nomatch h
theorem WellFormed.ptpDelayReqRx (k : Nat) (m : PtpMsg) : WellFormed.Statement (.ptpDelayReqRx k m) := fun _ _ h => nomatch h
theorem WellFormed.tdmClockLoss (port : Nat) : WellFormed.Statement (.tdmClockLoss port) := fun _ _ h => nomatch h
theorem WellFormed.squallHeldExpiry : WellFormed.Statement (.squallHeldExpiry) := fun _ _ h => nomatch h
theorem WellFormed.uncorrectableFec : WellFormed.Statement (.uncorrectableFec) := fun _ _ h => nomatch h

end Sys2Proof.Laws
end

