-- ==== Sys2Proof/Tests/Slice0.lean ====
section
/-!
SUPPORT. Tests of the model: ill-formed commands are refused by the check, single steps give what the manual's figures say, and
for every statement with hypotheses a state meets them.
-/

set_option Elab.async false

namespace Sys2Proof.Tests

open Sys2Proof Sys2Proof.Machine

/-- The reset state meets the invariant of `StepKeepsCanonical`. -/
theorem test_reset_canonical : State.reset.csrWf = true ∧ Memory.wf State.reset.mem = true := by decide

/-! ## Small states

A chip image with partitions 0 (in control) and 1; partition 0 owns host cluster 0, logical tiles 0 to 3 (behind the physical tiles
of the same numbers), the first commons quads, the first 16 extents of the warm and of the deep tier. -/

/-- The chip sections of the tests. -/
def chip : ChipImage :=
  { version := 1, svn := 0, keySlot := 0, ctrlPart := 0, partMask := 3, hostPort := 0, farTier := 0, revokeMask := 0, cap := 60,
    capMin := 40, capMax := 100, fracs := [64, 0, 0, 0, 0], ceilingMhz := 1200, slewLimit := 0, partShare := [], time := [],
    robotSource := 0, cycleUs := 250, ethertype := 0x88A4, nodes := [], safety := {}, locks := [] }

/-- What partition 0 owns in the tests. -/
def part0 : PartImage :=
  { hostClusters := 1, netPorts := 1, jobContexts := 4, seqEntries := 4, poolQuota := 32, pinnedQuota := 24, ownMask := 15,
    commonsMask := 0xFF, windows := [⟨0, 3, 0, 16⟩, ⟨1, 3, 0, 512⟩] }

/-- A running part. -/
def up : State :=
  ((({ pins := { porstN := true }
       spl := { chip := some chip, parts := [(0, part0), (1, {})] }
       boot := { aonLost := false } } : State).wr .GLB_LTILE_MAP 0x83828180).wrF .BANK_CQ_STATUS 31 28 0).setStage 8

/-- Partition 0, through its device at the host port. -/
def dev0 : Agent := .device 0

/-- `up` with a recovery of a domain. -/
def recovering (d : Domain) (p : RecPhase) : State :=
  { up with flt := { up.flt with recoveries := [{ number := 1, rung := d.rung, domain := d, phase := p, since := 0, fault := { cls := 0x10, part := 0, source := 0 } }], nextRecovery := 2 } }

/-! ## A small image, as R20 to R29 lay one out -/

/-- A section of 64 bytes: its type, its partition, its fields as (bytes, value). -/
def sect (t p : Nat) (f : List (Nat × Nat)) : Nat × Nat × List Byte :=
  let d := f.flatMap (fun x => bytesLE x.1 x.2)
  (t, p, d ++ List.replicate (64 - d.length) 0)

/-- An image of scope `scope` for partition `p` with these sections and an empty signature block. -/
def image (scope p : Nat) (l : List (Nat × Nat × List Byte)) : List Byte :=
  let base := (64 + 16 * l.length + 63) / 64 * 64
  let len := base + 64 * l.length + 256
  let head := [(4, 0x53504F4C), (2, 1), (2, 0x0960), (1, 1), (1, 0xB0), (1, scope), (1, p), (1, 0), (1, 0), (2, l.length), (4, len), (4, 7), (40, 0)]
  let dir := (List.range l.length).flatMap (fun k =>
    let x := l.getD k (0, 0, [])
    [(2, x.1), (1, x.2.1), (1, 0), (4, base + 64 * k), (4, 64), (4, crc32c x.2.2)])
  let h := (head ++ dir).flatMap (fun x => bytesLE x.1 x.2)
  h ++ List.replicate (base - h.length) 0 ++ l.flatMap (fun x => x.2.2) ++ List.replicate 256 0

/-- The sections RESOURCES, TILES and COMMONS of partition 0. -/
def partSects : List (Nat × Nat × List Byte) :=
  [sect 2 0 [(1, 1), (1, 1), (2, 4), (2, 4), (4, 8), (4, 4)], sect 3 0 [(8, 15)], sect 4 0 [(8, 0xFF)]]

/-- A partition image, and a chip image with partition 0 alone. -/
def partImage : List Byte := image 1 0 partSects

/-- A chip image with partition 0 alone. -/
def chipImage : List Byte := image 0 0xFF
  ([sect 1 0xFF [(1, 0), (1, 1)],
    sect 6 0xFF [(2, 60), (2, 40), (2, 100), (1, 64), (4, 0), (2, 1200)],
    sect 7 0xFF [(33, 0)],
    sect 8 0xFF [(2, 250), (2, 0x88A4)],
    sect 10 0xFF [(1, 1), (1, 1), (1, 3), (1, 8), (2, 150), (2, 150), (2, 80), (2, 30), (2, 1500), (2, 60), (8, 0), (1, 0), (3, 0), (4, 0), (1, 0), (1, 2)]]
   ++ partSects)

/-- A state whose scratch of tile 0 holds these bytes from its start. -/
def holding (d : List Byte) : State :=
  { up with mem := (d.zipIdx.filter (fun x => x.1 != 0)).map (fun x => (tileBase 0 + x.2, x.1)) }

/-- A load of these bytes through bank 0, at a step of R33. -/
def loading (d : List Byte) (target : Option Nat) (dry : Bool) (ph : LoadPhase) : State :=
  { holding d with spl := { up.spl with load := some ⟨0, target, dry, tileBase 0, d.length, ph, none⟩ } }

/-! ## Ill-formed commands -/

/-- Each check of `Instr.wf` refuses a command just outside its range: agents, holders, requests and registers. -/
theorem test_ill_formed_agents :
    [Instr.logFlush (.core 16), .logFlush (.tile 68 0), .logFlush (.tile 0 8), .logFlush (.engine 16 0), .logFlush (.device 8),
      .extentRequest 0 (.updraft 64) false, .memoryRequest (.core 0) (.read 0 0) false, .memoryRequest (.core 0) (.read (2 ^ 48 - 1) 2) false,
      .memoryRequest (.core 0) (.write 0 []) false, .memoryRequest (.core 0) (.write (2 ^ 48) [0]) false, .csrBadAccess (.core 0) false 0x40000000 4,
      .pairLoRead (.core 0) 4, .pairHiRead (.core 0) 0, .pairLoWrite (.core 0) 4 0, .pairHiWrite (.core 0) 0 0, .registerWrite (.core 0) 2 0,
      .unmappedCsrAccess (.core 0) false 0x40000000, .unmappedCsrAccess (.core 0) false 2, .wboWriteReject (.core 0) ⟨.SPL_CTRL, 0, 0⟩].all (fun c => !c.wf) = true := by
  decide +kernel

/-- The same for the loader, the tiles, the banks, the tiers, Updraft, the sequence engine and the scheduler. -/
theorem test_ill_formed_numbers :
    [Instr.loadGo (.core 0) 8 0, .nop 68, .commandComplete 0 16, .curveCommit (.core 0) 32, .bankOffer (.core 0) 16 0 false, .bankOffer (.core 0) 0 16 false,
      .bankAccept (.core 0) 16, .handoverDone 16, .testRegionStart (.tile 68), .testRegionStart (.quad 16), .lullIdleExpiry (.tile 0 4),
      .lullIdleExpiry (.commons 16), .extentRequest 8 .software false, .extentAssigned 65536, .softwareFree (.core 0) 0 65536, .deepQueueTail (.core 0) 0 4096,
      .eraseDeep 8, .pageProgramDone 0 62914560 true, .dieEraseDone 0 128 true, .readDisturbLimit 1920 0, .readDisturbLimit 0 128, .refreshDone 128,
      .scrubRead 62914560 false false, .holdupSample 4096, .farRekey (.core 0) 8, .planLoad (.core 0) 64, .layerComplete 64 0 0, .layerComplete 0 64 0,
      .layerComplete 0 0 1048576, .stallLimit 68, .openSeq (.core 0) 8 0, .stepBegin (.core 0) 0 8192, .feedPageSend 0 64, .allocCtx (.core 0) 8 0,
      .schedulerDoorbell (.core 0) 0 1024, .jobPlace 1024, .hdwBudgetWrite (.core 0) 8 0 0 0, .hdwBudgetWrite (.core 0) 0 5 0 0,
      .hdwBudgetWrite (.core 0) 0 0 3 0].all (fun c => !c.wf) = true := by decide +kernel

/-- The same for the sensors, Breeze, time, the network, power, the faults and the start. -/
theorem test_ill_formed_ports :
    [Instr.snsEnable (.core 0) 32 true, .csi2FrameStart 0 16 0, .csi2FrameStart 0 0 3, .ethSampleDatagram 8 0 0 [], .ethSampleDatagram 0 65536 0 [],
      .i3cIbi 0 128, .sampleWrite 32, .endRun 128, .loopEnable (.core 0) 128 0, .matrixCommit (.core 0) 256, .windlinePortDown 2, .ptpSyncInterval 0,
      .ptpSyncInterval 5, .ptpSyncRx 1 { port := 8, mac := 0, sender := 0, seq := 0, time := 0 } false, .ethFrameRx 12 [] true, .gateListGo (.core 0) 12,
      .ethLinkChange 8 true, .hpLinkTrained 3 8 0 none, .hpLinkTrained 4 3 0 none, .hpLinkTrained 4 8 256 none, .hpLinkTrained 4 8 0 (some 4097),
      .hpDoorbellWrite 8 0, .hpMsiRaise (.core 0) 0 256, .completionTimeout (.core 0) 0 0, .telemetryReading 13 .missing, .voltageSettled 3, .gateIdleExpiry 68,
      .tempSample (List.replicate 84 0), .overtempPersist 85, .fmaxRederive 0 1401, .fltReset (.core 0) 8 0 0, .fltReset (.core 0) 0 16 0,
      .fltReset (.core 0) 0 0 65536, .stageS1Done (some { svn := 64 }), .stageS1Done (some { digests := [] }), .stageS1Done (some { tilesOff := 1 }),
      .stageS3Done true 0 [16], .stageS4Done [], .stageS4Done (List.replicate 68 ⟨true, 999⟩)].all (fun c => !c.wf) = true := by decide +kernel

/-! ## Witnesses: the register space -/

/-- A 2-byte read at 6 meets the hypotheses of `CsrBadAccess`; so does the last address of CSR space, unaligned. -/
theorem witness_CsrBadAccess : (6 < 0x40000000 ∧ ¬ (2 = 4 ∧ 6 % 4 = 0)) ∧ (0x3FFFFFFF < 0x40000000 ∧ ¬ (4 = 4 ∧ 0x3FFFFFFF % 4 = 0)) := by decide

/-- Both clauses of `UnmappedCsrAccess`. -/
theorem witness_UnmappedCsrAccess :
    (regAt 0x3FFFFFFC = none ∧ wbPrivate 0x3FFFFFFC = false) ∧ (regAt 0x1080000 = none ∧ wbPrivate 0x1080000 = true) := by decide +kernel

/-- Both clauses of `PairReads`: the raw counter's pair. -/
theorem witness_PairReads :
    (∃ x, regAt x = some ⟨.TIME_RAW_LO, 0, 0⟩ ∧ RegName.TIME_RAW_LO.pairHi = some .TIME_RAW_HI ∧ up.csrFenced dev0 ⟨.TIME_RAW_LO, 0, 0⟩ = false) ∧
    (∃ x, regAt x = some ⟨.TIME_RAW_HI, 0, 0⟩ ∧ RegName.TIME_RAW_HI.pairLo = some .TIME_RAW_LO ∧ RegName.TIME_RAW_HI.pairHi = none ∧
      up.csrFenced dev0 ⟨.TIME_RAW_HI, 0, 0⟩ = false) :=
  ⟨⟨(Reg.mk .TIME_RAW_LO 0 0).addr, by decide +kernel⟩, ⟨(Reg.mk .TIME_RAW_HI 0 0).addr, by decide +kernel⟩⟩

/-- Partition 0 may write its SPL_SRC pair plainly in any state that differs from `u` in no loader, fault or boot state. -/
theorem plain_SPL_SRC (u : State) (h1 : u.spl = up.spl) (h2 : u.flt = up.flt) (n : RegName) (hn : n = .SPL_SRC_LO ∨ n = .SPL_SRC_HI) (w : Word) :
    u.PlainlyWritable dev0 ⟨n, 0, 0⟩ w := by
  rcases hn with rfl | rfl <;>
  exact {
    wbo := rfl, trig := rfl, followed := by decide,
    fenced := by simp [State.csrFenced, State.accessFenced, State.fencedPart, State.reloading, h1, h2, up, State.setStage, State.wrF, State.wr, State.wrReg]
                 decide
    engineRow := rfl, chipRow := rfl, owner := rfl
    apply := by simp [State.underApply, h1]; decide
    lock := by simp [State.lockedReg, h1]; decide
    refuses := rfl, value := rfl }

/-- The three clauses of `PairWrites`: the source address of the loader's bank 0. -/
theorem witness_PairWrites :
    (∃ x, regAt x = some ⟨.SPL_SRC_LO, 0, 0⟩ ∧ RegName.SPL_SRC_LO.pairHi.isSome = true ∧ RegName.SPL_SRC_LO.info.wbo = false ∧
      up.csrFenced dev0 ⟨.SPL_SRC_LO, 0, 0⟩ = false ∧ up.mayWrite dev0 ⟨.SPL_SRC_LO, 0, 0⟩ = true ∧ (Reg.mk .SPL_SRC_LO 0 0).readOnly = false) ∧
    (∃ x, regAt x = some ⟨.SPL_SRC_HI, 0, 0⟩ ∧ RegName.SPL_SRC_HI.pairLo = some .SPL_SRC_LO ∧
      alGet ({ up with heldWrite := [((dev0, ⟨.SPL_SRC_LO, 0, 0⟩), 7)] } : State).heldWrite (dev0, ⟨.SPL_SRC_LO, 0, 0⟩) = some 7) ∧
    (∀ u, Within [.SPL_SRC_LO] [.resp, .heldWrite] { up with heldWrite := [((dev0, ⟨.SPL_SRC_LO, 0, 0⟩), 7)] } u →
      u.PlainlyWritable dev0 ⟨.SPL_SRC_LO, 0, 0⟩ 7 ∧ u.PlainlyWritable dev0 ⟨.SPL_SRC_HI, 0, 0⟩ 1) ∧
    (alGet up.heldWrite (dev0, ⟨.SPL_SRC_LO, 0, 0⟩) = none ∧ ∀ u, Within [] [.heldWrite] up u → u.PlainlyWritable dev0 ⟨.SPL_SRC_HI, 0, 0⟩ 1) :=
  ⟨⟨(Reg.mk .SPL_SRC_LO 0 0).addr, by decide +kernel⟩, ⟨(Reg.mk .SPL_SRC_HI 0 0).addr, by decide +kernel⟩,
   fun u h => ⟨plain_SPL_SRC u (h.comps .spl (by decide)) (h.comps .flt (by decide)) _ (.inl rfl) _,
     plain_SPL_SRC u (h.comps .spl (by decide)) (h.comps .flt (by decide)) _ (.inr rfl) _⟩,
   by decide, fun u h => plain_SPL_SRC u (h.comps .spl (by decide)) (h.comps .flt (by decide)) _ (.inr rfl) _⟩

/-- The three clauses of `RegisterWrites`: SPL_LEN by its owner, by another partition, and a register of Windbreak's. -/
theorem witness_RegisterWrites :
    (regAt (Reg.mk .SPL_LEN 0 0).addr = some ⟨.SPL_LEN, 0, 0⟩ ∧ RegName.SPL_LEN.pairHi.isSome = false ∧ RegName.SPL_LEN.pairLo.isSome = false) ∧
    up.PlainlyWritable dev0 ⟨.SPL_LEN, 0, 0⟩ 0x1000 ∧
    (RegName.SPL_LEN.info.wbo = false ∧ up.csrFenced (.device 1) ⟨.SPL_LEN, 0, 0⟩ = false ∧ up.engineRow (.device 1) ⟨.SPL_LEN, 0, 0⟩ 1 = none ∧
      up.chipRow (.device 1) ⟨.SPL_LEN, 0, 0⟩ 1 = none ∧ up.mayWrite (.device 1) ⟨.SPL_LEN, 0, 0⟩ = false) ∧
    (regAt (Reg.mk .WB_STATUS 0 0).addr = some ⟨.WB_STATUS, 0, 0⟩ ∧ RegName.WB_STATUS.pairHi.isSome = false ∧ RegName.WB_STATUS.pairLo.isSome = false ∧
      RegName.WB_STATUS.info.wbo = true) :=
  ⟨by decide +kernel, ⟨by decide +kernel, by decide +kernel, by decide +kernel, by decide +kernel, by decide +kernel, by decide +kernel,
    by decide +kernel, by decide +kernel, by decide +kernel, by decide +kernel, by decide +kernel⟩, by decide +kernel, by decide +kernel⟩

/-- The three clauses of `MemoryRequests`: partition 0 in its scratch, and in a tile of nobody's. -/
theorem witness_MemoryRequests :
    (0x40000000 ≤ tileBase 0 ∧ pathOf (tileBase 0) = none ∧ tileBase 0 + 64 ≤ deepBase ∧ up.fencedRequest dev0 (tileBase 0) = false ∧
      up.holdOn dev0 (.read (tileBase 0) 64) = none ∧ up.verdict dev0 false (tileBase 0) 64 = .ok ∧ up.readable (tileBase 0) 64 = true) ∧
    (up.holdOn dev0 (.write (tileBase 0) [1, 2]) = none ∧ up.verdict dev0 true (tileBase 0) 2 = .ok) ∧
    (pathOf (tileBase 0) = none ∧ up.fencedRequest (.device 1) (tileBase 0) = false ∧ up.opVerdict (.device 1) (.read (tileBase 0) 4) = .violation) := by
  decide +kernel

/-! ## Witnesses: the loader -/

/-- The four clauses of `LoadStart`. -/
theorem witness_LoadStart :
    (up.accessFenced dev0 none = false ∧ up.agentPart dev0 = 0 ∧ up.spl.load.any (fun l => l.bank == 0) = false) ∧
    ((1 : Nat) ≠ up.ctrl ∧ (none : Option Nat) ≠ some 1) ∧
    ((loading [] none false .header).spl.load.isSome = true ∧ 0 = (loading [] none false .header).ctrl) ∧
    (up.accessFenced dev0 none = false ∧ up.agentPart dev0 ≠ 7) := by decide +kernel

set_option maxRecDepth 10000 in
/-- The clauses of `LoadChecks`: loads at their three steps, one whose section checks pass for each kind of target, one whose
image has no section. -/
theorem witness_LoadChecks :
    ((loading partImage (some 0) false .header).spl.load.map (·.phase) = some .header) ∧
    ((loading partImage (some 0) false .digest).spl.load.map (·.phase) = some .digest) ∧
    (sectionsCode ((loading partImage (some 0) true .sections).loaderBytes (tileBase 0) partImage.length) (some 0) 64 up.spl.chip up.spl.parts).2.isSome = true ∧
    (sectionsCode ((loading chipImage none false .sections).loaderBytes (tileBase 0) chipImage.length) none 64 up.spl.chip up.spl.parts).2.isSome = true ∧
    (let r := sectionsCode ((loading [] none false .sections).loaderBytes (tileBase 0) 0) none 64 up.spl.chip up.spl.parts
     r.2 = none ∧ r.1 ≠ .ok) := by
  refine ⟨by decide +kernel, by decide +kernel, by decide +kernel, by decide +kernel, by decide +kernel⟩

/-- The clauses of `LoadAppliesAndCommits`. -/
theorem witness_LoadAppliesAndCommits :
    (∃ s : State, ∃ l, s.spl.load = some l ∧ l.phase = .fence ∧ l.target = some 0 ∧ l.image = some ⟨2, none, []⟩) ∧
    (∃ s : State, ∃ l, s.spl.load = some l ∧ l.phase = .apply ∧ l.target = some 0 ∧ l.image = some ⟨2, none, []⟩) ∧
    (up.accessFenced dev0 none = false ∧ up.agentPart dev0 = up.ctrl ∧ up.ctrl ≠ 0xFF ∧ up.spl.load = none ∧ up.spl.commit = false) ∧
    (∃ s : State, s.accessFenced dev0 none = false ∧ s.agentPart dev0 = s.ctrl ∧ s.ctrl ≠ 0xFF ∧ s.spl.commit = true) ∧
    (∃ s : State, s.spl.commit = true ∧ s.spl.chip = some chip ∧ ∀ r ∈ s.flt.recoveries, r.phase ≠ .waiting) ∧
    (up.accessFenced dev0 (some 14) = false ∧ up.curveLocked 2 = false ∧ up.curveLocked 31 = false) := by
  refine ⟨⟨{ spl := { load := some ⟨0, some 0, false, 0, 0, .fence, some ⟨2, none, []⟩⟩ } }, _, rfl, rfl, rfl, rfl⟩,
    ⟨{ spl := { load := some ⟨0, some 0, false, 0, 0, .apply, some ⟨2, none, []⟩⟩ } }, _, rfl, rfl, rfl, rfl⟩, by decide +kernel,
    ⟨{ up with spl := { up.spl with commit := true } }, by decide +kernel⟩, ⟨{ up with spl := { up.spl with commit := true } }, by decide +kernel⟩,
    by decide +kernel⟩

/-! ## Witnesses: the banks and the pool -/

/-- Quad 0 with partition 0 as its owner, HSTATE `h` and TARGET 1; `drained` and CLEAR as given. -/
def handing (h : Nat) (d clear : Bool) : State :=
  let s := (up.wrF .BANK_CQ_STATUS 23 22 h 0).wrF .BANK_CQ_STATUS 27 24 1 0
  { s with bank := { s.bank with drained := if d then [0] else [], clear := if clear then [0] else [] } }

/-- The clauses of `BankHandover`. -/
theorem witness_BankHandover :
    (up.accessFenced dev0 none = false ∧ up.ownsQuad dev0 0 = true ∧ up.hstate 0 ≠ 2) ∧ (up.ownsQuad dev0 15 = false) ∧
    ((handing 1 false false).accessFenced (.device 1) none = false ∧ (handing 1 false false).hstate 0 = 1 ∧
      (handing 1 false false).quadTarget 0 = (handing 1 false false).agentPart (.device 1)) ∧
    ((handing 1 false false).ownsQuad dev0 0 = true) ∧
    ((handing 2 false true).hstate 0 = 2 ∧ 0 ∉ (handing 2 false true).bank.drained ∧ (handing 2 false true).outstanding 0 = false ∧
      (handing 2 false true).bank.clear.contains 0 = true ∧ (handing 2 false false).bank.clear.contains 0 = false) ∧
    (let s := { handing 2 false true with bank := { (handing 2 false true).bank with held := [(.commons 0, dev0, .read commonsBase 4)] } }
     s.hstate 0 = 2 ∧ 0 ∉ s.bank.drained ∧ s.outstanding 0 = true) ∧
    ((handing 2 true false).hstate 0 = 2 ∧ 0 ∈ (handing 2 true false).bank.drained) := by decide +kernel

/-- `up` with the background test on, tile 0 under test. -/
def testing : State := { up.setB .BANK_CFG 0 with bank := { up.bank with testing := [.tile 0] } }

/-- The clauses of `BankTestAndLull`. -/
theorem witness_BankTestAndLull :
    (let s := up.setB .BANK_CFG 0
     (BankUnit.quad 15).exists = true ∧ s.bit .BANK_CFG 0 = true ∧ s.testBit (.quad 15) 9 = false ∧ .quad 15 ∉ s.bank.testing ∧
      s.testSkips (.quad 15) = false ∧ s.badWord = []) ∧
    (let s := (up.setB .BANK_CFG 0).setLull (.commons 15) true
     s.bit .BANK_CFG 0 = true ∧ s.testBit (.quad 15) 9 = false ∧ .quad 15 ∉ s.bank.testing ∧ s.testSkips (.quad 15) = true) ∧
    (BankUnit.tile 0 ∈ testing.bank.testing ∧ BankUnit.tile 0 ∉ testing.bank.starved) ∧
    (let s := up.setB .BANK_CFG 1
     (QuadRef.tile 67 3).exists = true ∧ s.bit .BANK_CFG 1 = true ∧ s.noLull (.tile 67 3) = false ∧ s.inLull (.tile 67 3) = false ∧ s.waking (.tile 67 3) = false) ∧
    ((QuadRef.commons 0).exists = true ∧ up.accessFenced dev0 none = false ∧ up.quadHolder (.commons 0) = some (up.agentPart dev0) ∧
      up.inLull (.commons 0) = false ∧ up.waking (.commons 0) = false) ∧
    ((up.setLull (.tile 0 0) true).inLull (.tile 0 0) = true) ∧
    (let s := up.setWaking (.commons 15) true
     s.waking (.commons 15) = true ∧ s.inLull (.commons 15) = false ∧ s.bank.held = [] ∧ .commons 15 ∉ s.bank.lullAfter) := by decide +kernel

/-- Software of partition 0 holds extent 16, and is granted extent 17. -/
def pooled : State :=
  { up with upool := { extents := [(16, { part := 0, holder := .software, pinned := true })], lastPart := [(17, 1)]
                       grants := [{ ext := 17, taker := { part := 0, holder := .software, pinned := true } }] } }

/-- The clauses of `PoolCommands`. -/
theorem witness_PoolCommands :
    (up.lowestFree = some 16 ∧ up.partExists 0 = true ∧ up.mayAsk 0 .software true = true ∧ up.mayAsk 0 .seqEngine false = true ∧
      up.heldBy 0 < (up.part 0).poolQuota ∧ up.pinnedBy 0 < (up.part 0).pinnedQuota) ∧
    (up.accessFenced dev0 none = false ∧ up.agentPart dev0 = 0 ∧ up.bit .MEM_P_ALLOC 31 0 = false) ∧
    (up.accessFenced (.device 1) none = false ∧ up.bit .MEM_P_ALLOC 31 1 = false ∧ (up.part 1).pinnedQuota ≤ up.pinnedBy 1) ∧
    ((pooled.upool.grants.find? (fun g => g.ext == 17)).map (fun g => g.taker.holder) = some .software ∧ alGet pooled.upool.lastPart 17 = some 1) ∧
    (pooled.softwareExtent 0 16 = true ∧ pooled.softwareExtent 0 17 = false ∧ (pooled.upool.extents.map Prod.fst).Nodup ∧ pooled.upool.wants = []) := by
  decide +kernel

/-! ## Witnesses: the tiles -/

/-- Bytes at an address, as cells of memory. -/
def cells (a : Nat) (d : List Byte) : List Host.Cell := (d.zipIdx.filter (fun x => x.1 != 0)).map (fun x => (a + x.2, x.1))

/-- Sixteen command words, those not listed 0. -/
def words (l : List (Nat × Nat)) : List Nat := (List.range 16).map (fun k => (alGet l k).getD 0)

/-- Job 0 of partition 0 runs on tile 0 with these commands in its queue, which lies in the commons. -/
def queue (l : List (List Nat)) : State :=
  let s := (((((up.wr .SCH_CTX 0x30410000 0 0).wr .SCH_CTX 0x00010000 0 2).wr .SCH_CTX 1 0 3).wr .SCH_CTX 1 0 5).wr .SCH_CTX 0x10000000 0 7).wr .SCH_CTX 1 0 8
  let s := s.wr .SCH_CTX 16 0 9
  { s with mem := cells (commonsBase + 0x1000) (l.flatMap (fun w => w.flatMap (bytesLE 4)))
           sch := { ctxs := [(0, { pos := [{ tail := l.length }] })], runs := [(0, { ctx := some 0 })] } }

/-- The command in slot 0 of that queue. -/
def first (w : List Nat) : NextCmd := ⟨0, 0, 0, w⟩

/-- NOP; MATMUL of 1 x 16 by 16 x 1 and EWISE of one row of 16, FP32; COPY of 64 bytes to the commons; SCAN of one channel over one step;
WAIT and SIGNAL on a counter in the commons; COLLECTIVE of one member; opcode 10. -/
def wNop : List Nat := words []
def wMatmul : List Nat := words [(0, 1), (2, 0), (3, 0x40), (4, 0x80), (8, 0x10001), (9, 16)]
def wEwise : List Nat := words [(0, 2), (2, 0), (4, 0x80), (8, 0x100001)]
def wCopy : List Nat := words [(0, 3), (2, scratchBase % 2 ^ 32), (3, scratchBase / 2 ^ 32), (4, (commonsBase + 0x8000) % 2 ^ 32), (5, commonsBase / 2 ^ 32), (6, 64), (7, 1)]
def wScan : List Nat := words [(0, 4), (2, 0), (4, 0x40), (5, 0x80), (8, 0x10001), (9, 0x10000), (10, 1)]
def wWait : List Nat := words [(0, 5), (2, (commonsBase + 0x8000) % 2 ^ 32), (3, commonsBase / 2 ^ 32), (4, 1), (5, 100)]
def wSignal : List Nat := words [(0, 6), (2, (commonsBase + 0x8000) % 2 ^ 32), (3, commonsBase / 2 ^ 32), (4, 1)]
def wColl : List Nat := words [(0, 9), (2, 0x10000000), (3, 0), (4, 0x40), (5, 4), (8, 100)]
def wBad : List Nat := words [(0, 10)]

/-- The first command of the queue is one that tile 0 may start. -/
def startable (w : List Nat) : Bool :=
  let s := queue [w]
  s.nextCmd 0 == some (first w) && headerOk w && (s.run 0).running.isEmpty && (s.readAs (s.tileAgent 0 0) (s.slotAddr 0 0 0) 64).1.isSome

/-- What `startable` asks is what `State.Startable` asks. -/
theorem startable_ok (w : List Nat) (h : startable w = true) : (queue [w]).Startable 0 (first w) := by
  simp only [startable, Bool.and_eq_true, beq_iff_eq, List.isEmpty_iff] at h
  obtain ⟨⟨⟨h1, h2⟩, h3⟩, h4⟩ := h
  exact ⟨h1, h2, by simp [h3], by simp [h3], h4⟩

/-- All scratch ranges of a command lie in banks that partition 0 holds. -/
def inBanks (w : List Nat) : Bool :=
  let s := queue [w]
  ((s.tileRanges 0 w).reads ++ (s.tileRanges 0 w).writes).all (s.rangeOk 0 0)

/-- The clauses of `TileCommandStarts`. -/
theorem witness_TileCommandStarts :
    (startable wMatmul = true ∧ opcodeOf wMatmul = 1 ∧ ewBadCmd wMatmul = false ∧ ewBadFormat wMatmul = false ∧ inBanks wMatmul = true) ∧
    (startable wEwise = true ∧ opcodeOf wEwise = 2 ∧ ewBadCmd wEwise = false ∧ ewBadFormat wEwise = false ∧ inBanks wEwise = true) ∧
    (startable wCopy = true ∧ opcodeOf wCopy = 3 ∧ copyBadCmd ((queue [wCopy]).logicalOfRun 0) wCopy = false ∧ inBanks wCopy = true) ∧
    (startable wScan = true ∧ opcodeOf wScan = 4 ∧ scanBadCmd wScan = false ∧ scanBadFormat wScan = false ∧ inBanks wScan = true) ∧
    (startable wColl = true ∧ opcodeOf wColl = 9 ∧ collCheck ((queue [wColl]).jobGang 0) 0 wColl = 0 ∧ inBanks wColl = true) ∧
    (startable (words [(0, 1)]) = true ∧ ewBadCmd (words [(0, 1)]) = true) ∧
    (let w := words [(0, 2), (4, 0x80), (8, 0x100001), (9, 0x0B000000)]
     startable w = true ∧ ewBadCmd w = false ∧ ewBadFormat w = true) ∧
    (let w := words [(0, 4), (2, 0x3FFFC0), (4, 0x40), (5, 0x80), (8, 0x10001), (9, 0x10000), (10, 64), (11, 1)]
     startable w = true ∧ scanBadCmd w = false ∧ scanBadFormat w = false ∧ inBanks w = false) ∧
    (startable wBad = true ∧ 9 < opcodeOf wBad ∧ wfld wBad 0 12 12 = 0) := by decide +kernel

/-- A command in progress on tile 0, in slot 0. -/
def running (w : List Nat) : State :=
  let s := queue [w]
  { s with sch := { ctxs := [(0, { pos := [{ next := 1, tail := 1 }] })], runs := [(0, { ctx := some 0, running := [⟨w, 0, 0, false⟩] })] } }

/-- The clauses of `TileWaitsAndSignals`: a counter at 0 whose WAIT asks for 1, and one at 1. -/
theorem witness_TileWaitsAndSignals :
    (startable wNop = true ∧ (queue [wNop]).headAddr 0 0 < deepBase ∧ opcodeOf wNop = 0) ∧
    (startable wWait = true ∧ (queue [wWait]).headAddr 0 0 < deepBase ∧ opcodeOf wWait = 5 ∧ counterBad wWait true = false ∧
      (queue [wWait]).sleepingQuads (counterAddr wWait) 4 = [] ∧
      ((queue [wWait]).issueCmd 0 (first wWait)).readCounter 0 0 (counterAddr wWait) = (some 0, (queue [wWait]).issueCmd 0 (first wWait))) ∧
    (let s := running wWait
     s.waitCmd 0 = some (0, ⟨wWait, 0, 0, false⟩) ∧ s.sleepingQuads (counterAddr wWait) 4 = [] ∧ s.readCounter 0 0 (counterAddr wWait) = (some 0, s) ∧
      sintOf 32 (uintOf 32 ((0 : Int) - wordAt wWait 4)) < 0 ∧ wfld wWait 5 15 0 ≠ 0) ∧
    (let w := words [(0, 5), (2, warmBase % 2 ^ 32), (3, warmBase / 2 ^ 32)]
     let s := running w
     s.waitCmd 0 = some (0, ⟨w, 0, 0, false⟩) ∧ s.sleepingQuads (counterAddr w) 4 = [] ∧ s.readCounter 0 0 (counterAddr w) = (some 0, s) ∧
      0 ≤ sintOf 32 (uintOf 32 ((0 : Int) - wordAt w 4)) ∧ regionOf (counterAddr w) = .warm 0) ∧
    (let s := (queue [wSignal]).issueCmd 0 (first wSignal)
     startable wSignal = true ∧ (queue [wSignal]).headAddr 0 0 < deepBase ∧ opcodeOf wSignal = 6 ∧ counterBad wSignal false = false ∧ (queue [wSignal]).sleepingQuads (counterAddr wSignal) 4 = [] ∧
      counterAddr wSignal < deepBase ∧ s.readCounter 0 0 (counterAddr wSignal) = (some 0, s) ∧
      s.verdict ((queue [wSignal]).tileAgent 0 0) true (counterAddr wSignal) 4 = .ok) := by decide +kernel

/-- The clauses of `TileCompletions`. -/
theorem witness_TileCompletions :
    (let s := running wEwise
     (s.run 0).ctx = some 0 ∧ ((s.run 0).running.filter (fun c => !c.done))[0]? = some ⟨wEwise, 0, 0, false⟩ ∧ s.pwr.gale = false ∧ s.headAddr 0 0 < deepBase ∧
      s.cmdAsleep 0 0 wEwise = [] ∧ s.badRange 0 (ewiseRanges wEwise).reads = none ∧
      { s with badWord := [tileBase 0 / 64] }.badRange 0 (ewiseRanges wEwise).reads = some (tileBase 0)) ∧
    ((running wMatmul).cmdAsleep 0 0 wMatmul = [] ∧ (running wScan).cmdAsleep 0 0 wScan = []) ∧
    (let s := running wCopy
     s.cmdAsleep 0 0 wCopy = [] ∧ (s.copyRows (s.tileAgent 0 0) wCopy (copyArgs wCopy) (List.range (copyArgs wCopy).rows)).1 = 0 ∧
      ({ s with badWord := [tileBase 0 / 64] }.copyRows (s.tileAgent 0 0) wCopy (copyArgs wCopy) (List.range (copyArgs wCopy).rows)).1 = 4) ∧
    (let s := running wColl
     s.collCmd 0 = some (0, ⟨wColl, 0, 0, false⟩) ∧ wfld wColl 8 15 0 ≠ 0 ∧ s.collAll 0 = some [⟨0, 0, 0, ⟨wColl, 0, 0, false⟩⟩] ∧
      s.asleep (((collRanges 1 0 wColl).reads ++ (collRanges 1 0 wColl).writes).map (fun r => (tileBase 0 + r.1, r.2))) = [] ∧
      s.badRange 0 (collRanges 1 0 wColl).reads = none ∧ ⟨wColl, 0, 0, false⟩ ∈ (s.run 0).running) := by decide +kernel

/-! ## Witnesses: the deep tier -/

/-- `up` with hold-up energy to spare. -/
def charged : State :=
  let s := ((up.wr .MEM_HOLDUP_CFG 0xFFFF0000).wr .MEM_HOLDUP_CAP 0xFFFF).wr .MEM_HOLDUP_ENERGY 0
  { s with deep := { s.deep with vSense := 4095 } }

/-- Partition 0's deep queue with one descriptor of eight words. -/
def deepQ (l : List (Nat × Nat)) : State :=
  let s := (((charged.wr .MEM_P_DQ_CTRL 0x80000010 0).wr .MEM_P_DQ_BASE_LO 0x10010000 0).wr .MEM_P_DQ_BASE_HI 1 0).wr .MEM_P_DQ_TAIL 1 0
  { s with mem := cells (commonsBase + 0x10000) (((words l).take 8).flatMap (bytesLE 4)) }

/-- The run that the queue fetches. -/
def deepRun (l : List (Nat × Nat)) : DeepRun := { slot := 0, words := (words l).take 8 }

/-- ERASE of block 0, of block 2 of nobody's, and with a length; PROGRAM of no page and of one from the commons; SYNC; INFO. -/
def dErase : List (Nat × Nat) := [(0, 1)]
def dEraseOut : List (Nat × Nat) := [(0, 1), (2, 0x40000000)]
def dEraseBad : List (Nat × Nat) := [(0, 1), (6, 1)]
def dProg0 : List (Nat × Nat) := [(0, 2), (4, 0x10014000), (5, 1)]
def dProg1 : List (Nat × Nat) := [(0, 2), (4, 0x10014000), (5, 1), (6, 0x4000)]
def dSync : List (Nat × Nat) := [(0, 3)]
def dInfo : List (Nat × Nat) := [(0, 4), (4, 0x10014000), (5, 1)]

/-- The clauses of `DeepCommandsStart`. -/
theorem witness_DeepCommandsStart :
    (up.accessFenced dev0 none = false ∧ up.agentPart dev0 = 0) ∧
    (((deepQ dErase).nextDeep 0).1 = some (deepRun dErase) ∧ (deepRun dErase).op = 1 ∧ (deepRun dErase).fieldsOk = true ∧
      (deepRun dErase).deep % 0x20000000 = 0 ∧ (deepRun dErase).len = 0 ∧ (deepRun dErase).deep / 0x20000000 < 1920 ∧
      (deepQ dErase).deepWindow 0 0 1 = true ∧ (deepQ dErase).eraseDefer = 0 ∧ ((deepQ dErase).setB .MEM_DEEP_STATUS 23).eraseDefer ≠ 0) ∧
    (((deepQ dEraseBad).nextDeep 0).1 = some (deepRun dEraseBad) ∧ (deepRun dEraseBad).len ≠ 0) ∧
    (((deepQ dEraseOut).nextDeep 0).1 = some (deepRun dEraseOut) ∧ (deepRun dEraseOut).fieldsOk = true ∧ (deepQ dEraseOut).deepWindow 0 2 1 = false) ∧
    (((deepQ dProg0).nextDeep 0).1 = some (deepRun dProg0) ∧ (deepRun dProg0).op = 2 ∧ (deepQ dProg0).programStatus 0 (deepRun dProg0) = 0 ∧
      (deepRun dProg0).len = 0) ∧
    (((deepQ dProg1).nextDeep 0).1 = some (deepRun dProg1) ∧ (deepQ dProg1).programStatus 0 (deepRun dProg1) = 0 ∧ (deepRun dProg1).len = 0x4000 ∧
      ((deepQ dProg1).setB .MEM_DEEP_STATUS 23).storeDefer ≠ 0 ∧ (deepQ dProg1).pageAcceptable 0 = true ∧
      (deepQ dProg1).asleep [((deepRun dProg1).addr, 0x4000)] = [] ∧ ((deepQ dProg1).verdict (deepAgent 0) false (deepRun dProg1).addr 0x4000 = .ok) ∧
      (deepQ dProg1).readFails (deepRun dProg1).addr 0x4000 = false ∧ (deepQ dProg1).sourceChecks (deepRun dProg1).addr 0x4000 = true) ∧
    (let s := (deepQ dProg1).setDeepBlock 0 { writePtr := 1 }
     (s.nextDeep 0).1 = some (deepRun dProg1) ∧ s.programStatus 0 (deepRun dProg1) ≠ 0) ∧
    (((deepQ dSync).nextDeep 0).1 = some (deepRun dSync) ∧ (deepRun dSync).op = 3) ∧
    (((deepQ dInfo).nextDeep 0).1 = some (deepRun dInfo) ∧ (deepRun dInfo).op = 4 ∧ (deepRun dInfo).fieldsOk = true ∧ (deepQ dInfo).deepWindow 0 0 0 = true ∧
      (deepQ dInfo).ownsRange 0 (deepRun dInfo).addr 64 true = true) ∧
    (let d := [(0, 4), (1, 1)]
     ((deepQ d).nextDeep 0).1 = some (deepRun d) ∧ (deepRun d).fieldsOk = false) := by decide +kernel

/-- `charged` while queue 0 runs `r`. -/
def deepRunning (r : DeepRun) : State := { charged with deep := { charged.deep with queues := [(0, r)] } }

/-- No store waits, as a check. -/
def storesQuiet (s : State) : Bool :=
  s.deep.wanted.isEmpty && (List.range 8).all (fun p => match alGet s.deep.queues p with
    | some r => r.op != 2 || r.status.isSome || r.failed.isSome || decide (r.pageCount ≤ r.accepted)
    | none => true)

/-- That check says what `State.NoStoresWait` says. -/
theorem storesQuiet_ok (s : State) (h : storesQuiet s = true) : s.NoStoresWait := by
  simp only [storesQuiet, Bool.and_eq_true, List.isEmpty_iff, List.all_eq_true, List.mem_range] at h
  refine ⟨h.1, fun p hp r hr h1 h2 h3 => ?_⟩
  have := h.2 p hp
  rw [hr] at this
  simp only [h1, Option.isNone_iff_eq_none.mp h2, Option.isNone_iff_eq_none.mp h3] at this
  simpa using this

/-- A PROGRAM of one page on its die; the same with no spare left there; an ERASE with its last die; an ERASE that has ended. -/
def rProg : DeepRun := { slot := 0, words := (words dProg1).take 8, accepted := 1, inFlight := [0] }
def rErase : DeepRun := { slot := 0, words := (words dErase).take 8, dies := [0] }
def rDone : DeepRun := { slot := 0, words := (words dErase).take 8, status := some 0 }

/-- The clauses of `DeepCommandsEnd`. -/
theorem witness_DeepCommandsEnd :
    (let s := deepRunning rProg
     alGet s.deep.queues 0 = some rProg ∧ 0 ∈ rProg.inFlight ∧ rProg.failed = none ∧ rProg.status = none ∧ rProg.accepted = rProg.pageCount ∧
      s.NoStoresWait) ∧
    (let s : State := { deepRunning rProg with deep := { (deepRunning rProg).deep with spare := [(dieOf 0, [])] } }
     alGet s.deep.queues 0 = some rProg ∧ rProg.inFlight = [0] ∧ s.spareOf (dieOf 0) = [] ∧ s.NoStoresWait) ∧
    (let s := deepRunning rErase
     alGet s.deep.queues 0 = some rErase ∧ 0 ∈ rErase.dies ∧ rErase.status = none ∧ ¬ logDieBlock (s.dieBlock (rErase.deep / 0x20000000) 0) ∧
      rErase.dies.filter (fun d => d != 0) = []) ∧
    (let s := deepRunning { rErase with dies := [0, 127] }
     127 ∈ [0, 127] ∧ ¬ logDieBlock (s.dieBlock 0 127) ∧ [0, 127].filter (fun d => d != 127) ≠ []) ∧
    (let s := { deepQ dErase with deep := { (deepQ dErase).deep with queues := [(0, rDone)] } }
     alGet s.deep.queues 0 = some rDone ∧ rDone.status = some 0 ∧ rDone.inFlight = [] ∧ s.dqAddr 0 0 + 28 < deepBase ∧
      s.verdict (deepAgent 0) true (s.dqAddr 0 0 + 28) 4 = .ok ∧ s.holdOn (deepAgent 0) (.write (s.dqAddr 0 0 + 28) (bytesLE 4 (2 ^ 31))) = none) ∧
    (let s := deepQ [(0, 5)]
     alGet s.deep.queues 0 = none ∧ (s.nextDeep 0).1 = some (deepRun [(0, 5)]) ∧ 4 < (deepRun [(0, 5)]).op) := by
  refine ⟨⟨by decide, by decide, rfl, rfl, by decide, storesQuiet_ok _ (by decide +kernel)⟩,
    ⟨by decide, rfl, by decide +kernel, storesQuiet_ok _ (by decide +kernel)⟩, ⟨by decide, by decide, rfl, ?_, by decide⟩,
    ⟨by decide, ?_, by decide⟩, by decide +kernel, by decide +kernel⟩
  · show ¬ (1920 ≤ _ ∧ _ < 1924); decide +kernel
  · show ¬ (1920 ≤ _ ∧ _ < 1924); decide +kernel

/-- `charged` with page 0 written. -/
def written0 : State := (charged.setDeepBlock 0 { writePtr := 1 }).setB .MEM_CFG 0

/-- The clauses of `DeepUpkeep`. -/
theorem witness_DeepUpkeep :
    (written0.pageWritten 0 = true ∧ written0.bit .MEM_CFG 0 = true ∧ written0.canRefresh (dieOf 0) = true) ∧
    (let s : State := { charged with deep := { charged.deep with reads := [((127, 1919), charged.readLimit)] } }
     s.readLimit ≤ s.readsOf 127 (s.dieBlock 1919 127) ∧ s.canRefresh 127 = true) ∧
    (let s : State := { charged with deep := { charged.deep with refreshing := [(0, 0)] } }
     alGet s.deep.refreshing 0 = some 0 ∧ s.storeDefer = 0 ∧ storesQuiet s = true ∧ s.dieBlock 0 0 < 1920 ∧ minBy (s.wearOf 0) (s.spareOf 0) = some 1924) ∧
    (let s := up.wrF .MEM_DEEP_STATUS 31 24 86
     85 < s.fld .MEM_DEEP_STATUS 31 24) ∧
    (let s := up.wrF .MEM_DEEP_STATUS 31 24 79
     s.fld .MEM_DEEP_STATUS 31 24 < 80 ∧ storesQuiet s = true) ∧
    (let s : State := deepRunning { rProg with accepted := 0, inFlight := [] }
     s.pins.pfailN = true ∧ (alGet s.deep.queues 0).map (fun r => (r.status, r.op, decide (r.accepted < r.pageCount))) = some (none, 2, true)) ∧
    (let s := loading [] none false .header
     s.spl.load.map (·.phase) = some .header) ∧
    (let s : State := { up with pins := { up.pins with pfailN := false } }
     s.pins.pfailN = false ∧ storesQuiet s = true) ∧
    (up.accessFenced dev0 none = false ∧ up.agentPart dev0 = 0 ∧ up.deep.farKeys.length = 8 ∧ up.hdw.waiting = []) := by decide +kernel

/-! ## Witnesses: Updraft -/

/-- A plan in memory: its header (GANG_TILES, SLOTS, SLOT_BYTES, CACHE_EXTENTS) and its layers as (kind, RESIDE, ROUTE_MAX, TILE_BYTES). -/
def planBytes (gang slotBytes : Nat) (l : List (Nat × Nat × Nat × Nat)) : List Byte :=
  let head := [(4, 0x55504C4E), (2, 1), (2, 0), (4, l.length), (4, 0), (1, gang), (1, 2), (2, 0), (4, 0), (4, slotBytes), (4, 4), (4, 64), (4, 64),
    (4, 64 + 32 * l.length), (4, 0), (8, 0), (8, 0)]
  let tab := l.flatMap (fun x => [(1, x.1), (1, x.2.1), (1, x.2.2.1), (1, 0), (4, x.2.2.2), (8, 0), (4, 0), (4, 0), (8, 0)])
  (head ++ tab).flatMap (fun x => bytesLE x.1 x.2)

/-- `up` with a plan in the commons, for plan slot 0. -/
def planned (d : List Byte) : State :=
  { (up.wr .UPD_PLAN_BASE_LO 0x10000000 0).wr .UPD_PLAN_BASE_HI 1 0 with mem := cells commonsBase d }

/-- Plan slot 0 with a plan, as far as `f` says. -/
def withPlan (s : State) (x : PlanState) : State := { s with upd := { plans := [(0, x)] } }

/-- A plan of two layers: `k` is the kind of both, `r` their RESIDE; one expert of 64 bytes. -/
def plan2 (k r cache : Nat) : Plan :=
  let y : PlanLayer := ⟨k, r, 8, 64, 0, 0, 64⟩
  { base := commonsBase, bytes := 128, gangTiles := 1, slots := 2, warmAhead := 0, slotOff := 0, slotBytes := 64, cacheExtents := cache, tileMask := 0,
    layers := [y, y], experts := [(0, 64)] }

/-- The clauses of `PlanLoadAndUnload`: a plan that loads, one whose resident layers need more extents than the quota leaves, an address
without a plan, and the plans of a slot that loads, is ready, or is bound. -/
theorem witness_PlanLoadAndUnload :
    (up.accessFenced dev0 (some 0) = false ∧ up.agentPart dev0 = 0 / 8 ∧ up.fld .UPD_PLAN_STATUS 31 30 0 = 0 ∧ up.fld .UPD_PLAN_STATUS 31 30 63 = 0) ∧
    (let b := (planned (planBytes 1 64 [(0, 0, 0, 64)])).respOk.clearCounters 0
     (b.readPlan 0 commonsBase).1 = 0 ∧ (b.takeExtents 0 (.updraft 0) true 0).isSome = true) ∧
    (let b := (planned (planBytes 64 0x100000 [(0, 1, 0, 0x100000)])).respOk.clearCounters 0
     (b.readPlan 0 commonsBase).1 = 0 ∧ (b.takeExtents 0 (.updraft 0) true (extentsFor (64 * 0x100000))).isNone = true) ∧
    ((up.respOk.clearCounters 0).readPlan 0 0).1 ≠ 0 ∧
    (up.wrF .UPD_PLAN_STATUS 31 30 1 0).fld .UPD_PLAN_STATUS 31 30 0 ≠ 0 ∧
    (let x : PlanState := { plan := plan2 0 1 0, pinned := [16] }
     let s := withPlan pooled x
     s.plan? 0 = some x ∧ x.ready = false ∧ s.fencedEngine 0 0 = false ∧ s.pinsAsleep x.plan = [] ∧ (s.loadPinned 0 x.plan x.pinned 0 x.plan.layers).1 = true ∧
      ((s.loadPinned 0 x.plan x.pinned 0 x.plan.layers).2.loadTilePinned 0 x.plan (List.range 1) x.plan.layers).1 = true ∧
      ({ written0 with deep := { written0.deep with damaged := [0] } }.loadPinned 0 x.plan x.pinned 0 x.plan.layers).1 = false) ∧
    (∀ y ∈ (plan2 0 0 0).layers, y.reside ≠ 1 ∧ y.reside ≠ 3) ∧
    (up.plan? 0 = none) ∧
    (let s := withPlan up { plan := plan2 0 0 0, ready := true }
     (s.plan? 0).map (·.ready) = some true ∧ s.bit .UPD_PLAN_STATUS 29 0 = false ∧ (s.upool.extents.map Prod.fst).Nodup ∧
      (s.setB .UPD_PLAN_STATUS 29 0).bit .UPD_PLAN_STATUS 29 0 = true) := by
  refine ⟨by decide +kernel, by decide +kernel, by decide +kernel, by decide +kernel, by decide +kernel, by decide +kernel, by decide +kernel,
    by decide +kernel, by decide +kernel⟩

/-- A job on plan slot 0 with these commands in its queue. -/
def planJob (l : List (List Nat)) (x : PlanState) : State :=
  (withPlan (queue l) x).wr .SCH_CTX 0x80010000 0 2

/-- The same with the command in slot 0 in progress. -/
def planRun (w : List Nat) (x : PlanState) (cheap : Bool) : State :=
  { (planJob [w] x).setB .UPD_PLAN_STATUS 29 0 with
    sch := { ctxs := [(0, { pos := [{ next := 1, tail := 1, atCheap := cheap }] })], runs := [(0, { ctx := some 0, running := [⟨w, 0, 0, false⟩] })] } }

/-- A waiting GATE for layer 0 with a TIMEOUT, and an announcing one. -/
def wGate : List Nat := words [(0, 7), (4, 100)]
def wAnn : List Nat := words [(0, 7), (2, 0x80000000), (3, 0x40)]

/-- The hypotheses of the two gate starts of `GatesAndLayers`, with the slot complete or not. -/
theorem witness_gates :
    (∀ f ∈ ([[0], []] : List (List Nat)),
      let x : PlanState := { plan := plan2 0 0 0, ready := true, gates := [(0, { filled := f })] }
      let s := planJob [wGate] x
      s.nextCmd 0 = some (first wGate) ∧ headerOk wGate = true ∧ (s.run 0).running = [] ∧
        (s.readAs (s.tileAgent 0 0) (s.slotAddr 0 0 0) 64).1.isSome = true ∧ opcodeOf wGate = 7 ∧ wfld wGate 2 31 31 = 0 ∧
        s.gateCheck 0 (first wGate) = 0 ∧ s.planOfJob 0 = some (0, x) ∧ x.plan.warmAhead = 0 ∧
        (x.gateOf 0).expected = gateLayer wGate ∧ (x.gateOf 0).filled.filter (fun y => y != (gateLayer wGate + x.plan.count - 1) % x.plan.count) = f) ∧
    (let x : PlanState := { plan := plan2 1 2 0, ready := true, gates := [(0, {})] }
     let s := planJob [wAnn] x
     s.nextCmd 0 = some (first wAnn) ∧ headerOk wAnn = true ∧ (s.run 0).running = [] ∧
      (s.readAs (s.tileAgent 0 0) (s.slotAddr 0 0 0) 64).1.isSome = true ∧ opcodeOf wAnn = 7 ∧ wfld wAnn 2 31 31 = 1 ∧ gateFieldsOk wAnn = true ∧
      gateLayer wAnn < x.plan.layers.length ∧ (x.plan.layer 0).kind = 1 ∧ s.planOfJob 0 = some (0, x) ∧ s.rangeOk (s.jobOwner 0) (s.logicalOfRun 0) (0x40, 64) = true ∧
      s.sleepingQuads (tileBase (s.logicalOfRun 0) + 0x40) 64 = [] ∧ s.readable (tileBase (s.logicalOfRun 0) + 0x40) 64 = true ∧
      (let all := (List.range 8).map (fun k => s.getNum (tileBase (s.logicalOfRun 0) + 0x40 + 2 * k) 2)
       usedRoute all = [0, 0, 0, 0, 0, 0, 0, 0] ∧ (usedRoute all).length ≤ (x.plan.layer 0).routeMax ∧ 0 < x.plan.experts.length)) := by decide +kernel

/-- The other clauses of `GatesAndLayers`. -/
theorem witness_layers :
    (∀ g ∈ ([none, some 0] : List (Option Nat)),
      let x : PlanState := { plan := plan2 0 0 0, ready := true, gates := [(0, { gate := g })] }
      let s := planRun wGate x false
      s.plan? 0 = some x ∧ s.fencedEngine 0 0 = false ∧ s.bit .UPD_PLAN_STATUS 29 0 = true ∧ x.window 0 0 = true ∧ (x.plan.layer 0).kind ≠ 1 ∧
        (s.gangTiles (s.fld .UPD_PLAN_JOB 9 0 0))[0]? = some 0 ∧ s.gangTile (s.fld .UPD_PLAN_JOB 9 0 0) 0 = some 0 ∧
        s.worksOn (s.fld .UPD_PLAN_JOB 9 0 0) 0 = true ∧ s.rangeOk (s.jobOwner 0) 0 (x.plan.slotRange 0) = true ∧
        s.sleepingQuads (tileBase 0 + (x.plan.slotRange 0).1) (x.plan.slotRange 0).2 = [] ∧
        (s.denseShare 0 0 0 x).1 = .landed [(0, List.replicate 64 0)] ∧ ((s.denseShare 0 0 0 x).2.plan? 0).isSome = true ∧
        (s.denseShare 0 0 0 x).2.gateCmd 0 = some (0, ⟨wGate, 0, 0, false⟩)) ∧
    (∀ cache ∈ ([0, 1] : List Nat),
      let x : PlanState := { plan := plan2 1 2 cache, ready := true, gates := [(0, { routes := [(0, [0])] })] }
      let s := withPlan up x
      s.plan? 0 = some x ∧ s.fencedEngine 0 0 = false ∧ alGet x.experts 0 = none ∧ (s.readDeep 0 0 64).1 = some (List.replicate 64 0) ∧
        ((s.readDeep 0 0 64).2.cacheExtents 0 (extentsFor 64)).1.isSome = decide (cache = 1)) ∧
    (∀ cheap ∈ ([false, true] : List Bool),
      let x : PlanState := { plan := plan2 0 0 0, ready := true, gates := [(0, { gate := some 0, stalled := true })] }
      let s := planRun wGate x cheap
      s.gateCmd 0 = some (0, ⟨wGate, 0, 0, false⟩) ∧ s.planOfJob 0 = some (0, x) ∧ (x.gateOf (s.run 0).pos).stalled = true ∧
        (s.run 0).pos < (s.job 0).pos.length ∧ (s.gangPos 0 (s.run 0).pos).atCheap = cheap ∧ wfld wGate 4 15 0 ≠ 0) := by decide +kernel

/-! ## Witnesses: the sequence engine -/

/-- Partition 0 with a cache geometry (one layer, one head of 64 elements in BF16, so 240 slots a page) and one feed tile. -/
def cached : State :=
  (((up.wr .SEQ_P_GEOM 0x01011000 0).wr .SEQ_P_FEED_TILES_LO 1 0).wr .SEQ_P_FEED_CFG 0x10010000 0).wr .SEQ_P_FEED_CTR 0x100 0

/-- Sequence 0 of partition 0 in state `st`: LENGTH 4, all of them STAGED, MAX_LEN 240. -/
def withSeq (s : State) (st : Nat) : State :=
  let s := (((s.wr .SEQ_ENT (st * 2 ^ 28) 0 0).wr .SEQ_ENT 4 0 1).wr .SEQ_ENT 4 0 2).wr .SEQ_ENT 240 0 3
  { s with sqe := { s.sqe with seqs := [(0, ⟨0, commonsBase + 0x40000, 1, 240, 1⟩)] } }

/-- The ARG registers of partition 0. -/
def withArgs (s : State) (a b c d : Nat) : State :=
  (((s.wr .SEQ_P_ARG a 0 0).wr .SEQ_P_ARG b 0 1).wr .SEQ_P_ARG c 0 2).wr .SEQ_P_ARG d 0 3

/-- The clauses of `SequenceCommands`. -/
theorem witness_SequenceCommands :
    (let s := withArgs cached 0x10000000 1 240 0
     let b := s.respOk.wr .SEQ_P_CMD 1 0
     s.accessFenced dev0 (some 2) = false ∧ s.agentPart dev0 = 0 ∧ s.fld .SEQ_P_ARG 31 16 0 1 = 0 ∧ s.fld .SEQ_P_ARG 30 19 0 2 = 0 ∧
      (s.openArgs 0).parent = 0 ∧ b.openRefusal 0 (s.openArgs 0) (b.newSeqRec 0 (s.openArgs 0)) = 0 ∧ s.seqState 0 = 0 ∧ alGet s.sqe.seqs 0 = none) ∧
    (let s := withArgs cached 0x10000000 1 0 0
     let b := s.respOk.wr .SEQ_P_CMD 1 0
     (s.openArgs 0).parent = 0 ∧ b.openRefusal 0 (s.openArgs 0) (b.newSeqRec 0 (s.openArgs 0)) ≠ 0) ∧
    (let s := withArgs (withSeq cached 1) 0x10000000 1 240 0
     let b := s.respOk.wr .SEQ_P_CMD 3 0
     let x := s.openArgs 0
     let r := b.newSeqRec 0 x
     s.accessFenced dev0 (some 2) = false ∧ s.fld .SEQ_P_ARG 31 16 0 1 = 0 ∧ s.fld .SEQ_P_ARG 30 19 0 2 = 0 ∧ s.ownsSeq 0 x.parent = true ∧
      b.openRefusal 0 x r = 0 ∧ s.seqLength x.parent ≤ x.maxLen ∧ s.seqState 1 = 0 ∧ s.seqState 0 ≠ 0 ∧ alGet s.sqe.seqs 1 = none ∧
      s.seqPages x.parent ≤ r.stride ∧ s.seqStaged x.parent ≤ r.slots) ∧
    (∀ st ∈ [1, 2, 3, 4],
      let s := withArgs (withSeq cached st) 0 2 0 0
      s.fld .SEQ_P_ARG 31 16 0 0 = 0 ∧ s.ownsSeq 0 0 = true ∧ s.seqState 0 = st ∧ s.rd .SEQ_P_ARG 0 1 = 2 ∧
        s.seqLength 0 ≤ 2 + s.seqStaged 0 ∧ 2 ≤ s.seqLength 0) ∧
    (up.agentPart (.device 1) ≠ 0) := by decide +kernel

/-- `cached` with request and work-list addresses in the commons; the one request asks one position of sequence 0. -/
def begin1 (s : State) : State :=
  let s := (((s.wr .SEQ_P_REQ_LO 0x10008000 0).wr .SEQ_P_REQ_HI 1 0).wr .SEQ_P_WL_LO 0x10009000 0).wr .SEQ_P_WL_HI 1 0
  { s with mem := cells (commonsBase + 0x8000) (bytesLE 2 0 ++ bytesLE 2 1) }

/-- `cached` with the oldest step of partition 0 and feed 0 as given, and RELEASE. -/
def stepped (s : State) (st : SeqStep) (f : FeedTile) (release : Nat) : State :=
  { s with sqe := { s.sqe with parts := [(0, { steps := [st], feeds := [(0, f)] })] }, mem := cells (tileBase 0 + 0x104) (bytesLE 4 release) }

/-- The clauses of `StepsAndPageFeed`. -/
theorem witness_StepsAndPageFeed :
    (let s := begin1 (withSeq cached 1)
     let b := s.respOk.wrF .SEQ_P_STEP_CTRL 12 0 1 0
     let req := b.rd .SEQ_P_REQ_LO 0 + 2 ^ 32 * b.fld .SEQ_P_REQ_HI 15 0 0
     let wl := b.rd .SEQ_P_WL_LO 0 + 2 ^ 32 * b.fld .SEQ_P_WL_HI 15 0 0
     s.accessFenced dev0 (some 2) = false ∧ (s.seqPart 0).steps = [] ∧ req % 64 = 0 ∧ wl % 64 = 0 ∧ b.ownsRange 0 req 4 = true ∧
      b.verdict (seqAgent 0) true wl 0x260 = .ok ∧ b.ownsRange 0 wl 0x260 true = true ∧
      ((b.wakeAll (b.sleepingQuads req 4)).engineRead (seqAgent 0) req 4).1 = some [0, 0, 1, 0] ∧
      s.fencedEngine 2 0 = false ∧ (s.seqPart 0).builds = [] ∧ s.upool.grants = [] ∧ s.ownsSeq 0 0 = true ∧ s.seqState 0 = 1 ∧
      s.seqLength 0 < s.seqMax 0 ∧ s.seqStaged 0 < (s.seqRec 0).slots ∧ s.feedTiles 0 ≠ []) ∧
    (∀ x ∈ [2, 4],
      let s := stepped (withSeq cached x) { epoch := 1, ents := [⟨0, 0, 1, 4, 4⟩], tiles := [(0, 0)] } {} 0
      s.accessFenced dev0 (some 2) = false ∧ (s.seqPart 0).steps.length = 1 ∧ s.seqState 0 = x) ∧
    (let s := stepped (withSeq cached 2) { epoch := 1, ents := [⟨0, 0, 1, 4, 4⟩], tiles := [(0, 1)] } { next := 1, queue := [(0, 512)] } 0
     (s.feedAddrs 0 0).isSome = true ∧ s.feedSlots 0 ≠ 0 ∧ s.fencedEngine 2 0 = false ∧ s.feedHeld 0 0 = true ∧ s.feedAsleep 0 0 = [] ∧
      reached (s.getNum (tileBase 0 + 0x100 + 4) 4 + s.feedSlots 0) (0 + 1) = true ∧ s.readable (pageAddr 512) 0x10000 = true ∧
      tileBase 0 + 0x100 + 4 ≤ tileBase 0 + 0x10000 + 0 % s.feedSlots 0 * 0x10000) ∧
    (let st : SeqStep := { epoch := 1, ending := true, ents := [⟨0, 0, 1, 4, 4⟩], tiles := [(0, 1)] }
     let s := stepped (withSeq cached 2) st { next := 1, sent := [(0, 512)] } 1
     (s.seqPart 0).steps = [st] ∧ s.fencedEngine 2 0 = false ∧ (s.seqPart 0).builds = [] ∧ s.feedsAsleep 0 = [] ∧ s.stepReleased 0 st = true ∧
      s.seqState 0 = 2) := by decide +kernel

/-! ## Witnesses: Headwind -/

/-- A host load of partition 0 that waits for the commons since raw time 0. -/
def waitingLoad : WaitingReq := { agent := .core 0, op := .read commonsBase 4, path := 0, issued := 0 }

/-- The clauses of `HeadwindWindowsAndBudgets`. -/
theorem witness_HeadwindWindowsAndBudgets :
    (let s : State := { up.wr .HDW_P_BUD 0x80000001 0 0 with hdw := { credit := [((0, 0), 0)] } }
     hdwEntries.any (fun j => s.hdwOver 0 j) = true ∧ hdwEntries.any (fun j => s.hdwOver 1 j) = false ∧ s.hdwEnabled 0 0 = true) ∧
    (let s : State := { up with now := 1000000, hdw := { waiting := [waitingLoad] } }
     s.hdwAged waitingLoad = true) ∧
    (let w := { waitingLoad with target := 1 }
     let s : State := { up.wr .HDW_P_BUD 0x80000001 0 12 with now := 1000, hdw := { waiting := [w] } }
     s.hdwTarget w = true ∧ s.hdwEnabled (s.agentPart w.agent) (w.agent.entry w.path) = true ∧
      s.hdwOver (s.agentPart w.agent) (w.agent.entry w.path) = false) ∧
    (let w := { waitingLoad with deadline := some 1 }
     { up with hdw := { waiting := [w] } }.hdwNear w = true) ∧
    (up.accessFenced dev0 (some 1) = false ∧ up.ctrl ≠ 0xFF ∧ up.agentPart dev0 = up.ctrl ∧
      up.hdwSum 2 7 18 (0x80000001#32 &&& 0x8000FFFF#32) ≤ up.fld .HDW_PATH 31 16 2 ∧
      fieldOf (0x00000001#32 &&& 0x8000FFFF#32) 31 31 = 0) ∧
    (up.fld .HDW_PATH 31 16 0 < up.hdwSum 0 0 0 (0x8000FFFF#32 &&& 0x8000FFFF#32)) ∧
    (up.accessFenced (.device 1) (some 1) = false ∧ up.agentPart (.device 1) ≠ up.ctrl) := by decide +kernel

/-! ## Witnesses: the scheduler -/

/-- `up` with a context `j` of class `cls` in state `st`, that may run on tile 0 alone, a queue block and a save area of its own in the commons. -/
def context (s : State) (j st cls : Nat) : State :=
  let s := (((s.wr .SCH_CTX (st * 2 ^ 28 + cls * 2 ^ 22) j 0).wr .SCH_CTX 0x00010064 j 2).wr .SCH_CTX 1 j 3).wr .SCH_CTX (0x10000000 + j * 0x100000) j 7
  (((s.wr .SCH_CTX 1 j 8).wr .SCH_CTX 0x00100010 j 9).wr .SCH_CTX (0x10010000 + j * 0x100000) j 14).wr .SCH_CTX 1 j 15

/-- `up` with tile 0 in use by the scheduler. -/
def tileReady : State := up.wrF .TILE_INFO 18 16 2 0

/-- Context 0 placed on tile 0: its gang position, the commands in progress and what its context holds. -/
def placed (cls : Nat) (g : GangPos) (c : Ctx) : State :=
  let s := (context tileReady 0 ctxRunning cls).wr .SCH_CTX 1 0 5
  { s with sch := { ctxs := [(0, { c with pos := [g] })], runs := [(0, { ctx := some 0 })] } }

/-- The clauses of `SchedulerCommands`. -/
theorem witness_SchedulerCommands :
    (up.accessFenced dev0 (some 3) = false ∧ up.agentPart dev0 = 0 ∧ up.sch.argRsv.contains 0 = false ∧
      (up.usedJobs.filter (fun j => up.jobOwner j == 0)).length < (up.part 0).jobContexts ∧ up.jobState 0 = ctxFree) ∧
    (up.accessFenced (.device 1) (some 3) = false ∧ up.agentPart (.device 1) = 1 ∧ (up.part 1).jobContexts ≤ (up.usedJobs.filter (fun j => up.jobOwner j == 1)).length) ∧
    (let s := context up 0 ctxSetup 1
     s.fld .SCH_P_ARG 9 0 0 = 0 ∧ s.jobOwner 0 = 0 ∧ s.jobState 0 = ctxSetup ∧ (s.respOk.wr .SCH_P_CMD 2 0).admission 0 = 0) ∧
    (let s := context up 0 ctxSetup 3
     s.jobOwner 0 = 0 ∧ s.jobState 0 = ctxSetup ∧ (s.respOk.wr .SCH_P_CMD 2 0).admission 0 ≠ 0) ∧
    (∀ x ∈ [ctxRunning, ctxStopped],
      let s := context up 0 x 1
      s.jobOwner 0 = 0 ∧ s.jobState 0 = x ∧ x ≠ ctxSetup ∧ x ≠ ctxFree) ∧
    (let s := (context up 1 ctxSetup 1).wr .SCH_P_ARG 1 1
     s.accessFenced (.device 1) (some 3) = false ∧ s.agentPart (.device 1) = 1 ∧ s.fld .SCH_P_ARG 9 0 1 = 1 ∧ s.jobState 1 ≠ ctxFree ∧ s.jobOwner 1 ≠ 1) ∧
    (let s : State := { up with sch := { argRsv := [0] } }
     s.accessFenced dev0 (some 3) = false ∧ s.agentPart dev0 = 0 ∧ s.sch.argRsv.contains 0 = true) ∧
    (up.agentPart (.device 1) ≠ 0) ∧ (up.jobState 0 = ctxFree) ∧
    (let s := placed 1 {} {}
     s.accessFenced dev0 (some 3) = false ∧ s.jobState 0 ≠ ctxFree ∧ s.jobOwner 0 = 0 ∧ s.jobClass 0 ≠ 0 ∧ s.jobGang 0 = 1 ∧
      s.asleep [(s.tailAddr 0 0, 4), (s.headAddr 0 0, 4)] = [] ∧ (s.job 0).pos.length = s.jobGang 0 ∧ (s.jobTail 0 0).1 = some 0) := by decide +kernel

/-- The clauses of `SchedulerPlacement` on placing a job, its slice and its leaving the tile. -/
theorem witness_placing :
    (let s := context tileReady 0 ctxReady 1
     s.jobWaits 0 = true ∧ s.placedLater 0 = false ∧ s.candidates 0 = [0] ∧ s.jobGang 0 = 1 ∧ s.physOf 0 = some 0 ∧ s.inWay 0 0 = []) ∧
    (let s := context (placed 2 {} {}) 1 ctxReady 1
     s.jobWaits 1 = true ∧ s.placedLater 1 = false ∧ s.candidates 1 = [0] ∧ s.jobGang 1 = 1 ∧ s.inWay 1 0 = [0]) ∧
    (up.jobWaits 0 = false) ∧ (up.jobState 0 ≠ ctxRunning) ∧
    (let s := { placed 1 {} { slice := 10, displaced := true } with now := 10000 }
     s.jobState 0 = ctxRunning ∧ s.jobClass 0 ≠ 0 ∧ (s.job 0).sliceAt + (s.job 0).slice * 1000 ≤ s.now ∧ (s.job 0).displaced = true ∧
      (s.job 0).saving = none ∧ (s.job 0).restoring = false ∧ s.tilesOf 0 = [0] ∧ s.atCheapFor 0 0 = true) ∧
    (let s := placed 1 { tail := 1 } { holdReq := true }
     s.jobState 0 = ctxRunning ∧ (s.job 0).saving = none ∧ (s.job 0).restoring = false ∧ (s.job 0).holdReq = true ∧ s.atCheapFor 0 0 = false) ∧
    (let s := placed 1 {} { parkFor := [0] }
     s.jobState 0 = ctxRunning ∧ (s.job 0).displaced = false ∧ (s.job 0).holdReq = false ∧ s.lentTiles 0 = [0] ∧ s.atCheapPoint 0 = true) := by decide +kernel

/-- Those on live ranges and RT jobs. -/
theorem witness_ranges :
    (let s := placed 1 { ranges := [(0, 17)] } { saving := some .preempted }
     (s.job 0).saving = some .preempted ∧ s.jobSaveKib 0 * 1024 < rangesBytes [(0, 17)]) ∧
    (let s := placed 1 { ranges := [(0, 16)] } { saving := some .stopped }
     (s.job 0).saving = some .stopped ∧ rangesBytes [(0, 16)] ≤ s.jobSaveKib 0 * 1024 ∧ s.asleep (movedRanges (s.positionMoves 0 0)) = [] ∧
      (s.moveRanges (s.schAgent 0) (s.positionMoves 0 0)).1 = 0) ∧
    ((up.job 0).saving = none ∧ (up.job 0).restoring = false) ∧
    (let s := placed 1 { ranges := [(0, 16)] } { restoring := true, needRestore := [0] }
     let ms := ((s.job 0).needRestore.flatMap (s.positionMoves 0)).map (fun x => (x.2.1, x.1, x.2.2))
     (s.job 0).restoring = true ∧ s.asleep (movedRanges ms) = [] ∧ ms.all (fun x => s.checksOk x.1 x.2.2) = true ∧ (s.moveRanges (s.schAgent 0) ms).1 = 0) ∧
    (let s := ((context tileReady 0 ctxReady 0).wr .SCH_CTX 0x80010000 0 12)
     s.jobClass 0 = 0 ∧ s.bit .SCH_CTX 31 0 12 = true ∧ s.admitted 0 = true) ∧
    (∀ x ∈ [({ released := true } : Ctx), {}, { working := true }],
      let s := (placed 0 {} x).wr .SCH_CTX 0x80010000 0 12
      s.jobClass 0 = 0 ∧ s.bit .SCH_CTX 31 0 12 = true ∧ s.admitted 0 = true ∧ s.periodDue 0 = true ∧ s.jobState 0 = ctxRunning ∧ s.job 0 = { x with pos := [{}] } ∧
        s.rtTilesReady 0 = true) ∧
    (up.bit .SCH_CTX 31 0 12 = false) := by decide +kernel

/-- CHEAP with one live range of 64 bytes; with a reserved bit; with a range outside the tile's scratch. -/
def wCheap : List Nat := words [(0, 8), (2, 7), (3, 1), (4, 1)]
def wCheap1 : List Nat := words [(0, 8), (3, 0x10)]
def wCheap2 : List Nat := words [(0, 8), (3, 1), (4, 0xFFFFFFFF)]

/-- Those on CHEAP and the span watchdog. -/
theorem witness_cheap :
    (startable wCheap = true ∧ opcodeOf wCheap = 8 ∧ (queue [wCheap]).cheapCheck 0 (first wCheap) = 0 ∧ (queue [wCheap]).headAddr 0 0 < deepBase ∧
      wfld wCheap 2 31 31 = 0 ∧ 0 < ((queue [wCheap]).job 0).pos.length) ∧
    (startable wCheap1 = true ∧ (queue [wCheap1]).cheapCheck 0 (first wCheap1) = 1) ∧
    (startable wCheap2 = true ∧ (queue [wCheap2]).cheapCheck 0 (first wCheap2) = 2) ∧
    (let s : State := { running wCopy with now := 1000000 }
     (s.run 0).ctx = some 0 ∧ s.jobState 0 = ctxRunning ∧ 800 < s.tileSpan 0) ∧
    (((running wCopy).run 0).ctx = some 0 ∧ (running wCopy).tileSpan 0 ≤ 800) := by decide +kernel

/-! ## Witnesses: Breeze -/

/-- A run of loop 0 before its only instruction, with these values in v2 and v3. -/
def run0 (x y : Nat) : BrzRun := { pc := 0, state := List.replicate 16 0, stop := 1, v := [0, 0, x, y] ++ List.replicate 28 0 }

/-- The instruction `op` with F = `f`, D = 1, A = 2, B = 3. -/
def brz (op : Nat) (f : Bool) : BrzWord := { op := op, f := f, d := 1, a := 2, b := 3, imm := 0 }

/-- Loop 0 runs that instruction. -/
def loop (op : Nat) (f : Bool) (r : BrzRun) : State :=
  let s := (up.wr .BRZ_PROG_HI (op * 2 ^ 26 + (if f then 2 ^ 25 else 0) + 2 ^ 20 + 2 * 2 ^ 15 + 3 * 2 ^ 10) 0).setB .BRZ_CFG 0
  { s with brz := { runs := [(0, r)] } }

/-- The clauses of `ControlLawInstructions`: each instruction comes next, in Q1.31 and in FP32; a gain not yet read and one that is; FP32
operands in each order, and one that is NaN; the user of the Cholesky unit. -/
theorem witness_ControlLawInstructions :
    (∀ op, op < 0x18 → ∀ f : Bool, (loop op f (run0 0 0)).brzNext 0 op = some (run0 0 0, brz op f)) ∧
    (alGet (run0 0 0).gains (bitsOf (brz 3 false).imm 3 0) = none ∧
      (let r := { run0 0 0 with gains := [(0, 5)] }
       (loop 3 false r).brzNext 0 3 = some (r, brz 3 false) ∧ alGet r.gains (bitsOf (brz 3 false).imm 3 0) = some 5)) ∧
    (∀ op ∈ [0xC, 0xD], ∀ x ∈ [(0x3F800000, 0x40000000), (0x40000000, 0x3F800000), (0x7FC00000, 0)],
      (loop op true (run0 x.1 x.2)).brzNext 0 op = some (run0 x.1 x.2, brz op true)) ∧
    (let r := run0 0x3F800000 0x40000000
     (of32 (r.v.getD 2 0)).lt (of32 (r.v.getD 3 0)) = true) ∧
    (let r := run0 0x40000000 0x3F800000
     (of32 (r.v.getD 3 0)).lt (of32 (r.v.getD 2 0)) = true) ∧
    ((loop 0xB true (run0 0x7FC00000 0)).brzNext 0 0xB = some (run0 0x7FC00000 0, brz 0xB true) ∧ (of32 ((run0 0x7FC00000 0).v.getD 2 0)).isNan = true) ∧
    (let r := { run0 0 0 with solve := some 7 }
     let s : State := { up with brz := { runs := [(0, r)], chol := [0] } }
     s.brz.chol = [0] ∧ s.brzRun 0 = some r ∧ r.solve = some 7) := by decide +kernel

/-! ## Witnesses: the control cycle -/

/-- The control cycle, as far as these fields say, with the master on, Breeze on and owned by partition 0, raw time 250 us. -/
def cycling (w : WindlineState) (b : BreezeState) : State :=
  let s := ((up.wr .WL_CTRL 0x80000003).wr .BRZ_CFG 1).wr .BRZ_PHASE 0x40008000
  { s.wr .WL_TIMING 0x60000000 with now := 250000, wl := w, brz := b }

/-- The same with a setpoint block at the start of the commons whose PUBLISHED is `n`. -/
def setpoints (n noBlock : Nat) : State :=
  let s := (((cycling { cycle := some 1 } { noBlock := noBlock }).wr .BRZ_SP_CTRL 0x80000002).wr .BRZ_SP_BASE_LO 0x10000000).wr .BRZ_SP_BASE_HI 1
  { s with mem := cells commonsBase (bytesLE 4 n) }

/-- A program of loop 0 that is END, and one whose loop has none. -/
def program (len : Nat) : State := (cycling {} {}).wr .BRZ_L_PROG len 0

/-- The clauses of `ControlCycle` on the cycle's start, the latch, the runs and the deadline. -/
theorem witness_cycle :
    (let s := (cycling {} {}).wr .BRZ_MAT_CTRL 1
     s.spl.chip.isSome = true ∧ s.cycleDue = true ∧ s.bit .WL_CTRL 31 = true ∧ s.fld .BRZ_MAT_CTRL 7 0 / 2 ^ 0 % 2 = 1 ∧ s.wl.mute = 0) ∧
    (let s := cycling { cycle := some 0, dlDone := true } {}
     s.cycleDue = true ∧ s.wl.startAt + s.cycleNs ≤ s.now) ∧
    (let s := setpoints 1 0
     let r := ({ s with brz := { s.brz with latched := true } } : State).fetch (.engine 8 s.brzOwner) s.spBase 4
     s.wl.cycle.isSome = true ∧ s.brz.latched = false ∧ s.wl.rxDone = false ∧ s.wlPast (s.fld .BRZ_PHASE 31 16) = true ∧ s.brzRuns = true ∧
      s.bit .BRZ_SP_CTRL 31 = true ∧ r.1 = some [1, 0, 0, 0] ∧ (1 : Nat) ≠ s.brz.published ∧
      (r.2.fetch (.engine 8 s.brzOwner) (s.spBase + 512 + 1 % 2 * 2560) 2560).1.isSome = true ∧
      (r.2.fetch (.engine 8 s.brzOwner) (s.spBase + 512 + 1 % 2 * 2560) 2560).2.checksOk (s.spBase + 512 + 1 % 2 * 2560) 2560 = true) ∧
    (∀ k ∈ [0, 1],
      let s := setpoints 0 k
      (({ s with brz := { s.brz with latched := true } } : State).fetch (.engine 8 s.brzOwner) s.spBase 4).1 = some [0, 0, 0, 0] ∧ s.brz.published = 0 ∧
        max 1 (s.fld .BRZ_SP_CTRL 7 0) = 2 ∧ s.brz.noBlock + 1 = k + 1) ∧
    (let s := cycling { cycle := some 0, rxDone := true } { due := [0] }
     s.mayStart 0 = true) ∧
    (let r : BrzRun := { pc := 1, state := [7], done := true, outs := [((0, 0), 5)] }
     let s := (cycling { cycle := some 0, rxDone := true } { due := [0, 1], runs := [(0, r)] }).setB .BRZ_L_CTRL 31 0 |>.setB .BRZ_L_CTRL 31 1
     s.wl.cycle = some 0 ∧ s.wl.dlDone = false ∧ s.wl.rxDone = true ∧ s.wlPast (s.fld .BRZ_PHASE 15 0) = true ∧ s.brzRuns = true ∧ s.brz.down = false ∧
      s.brz.due.Nodup ∧ s.loopOn 0 = true ∧ s.brzRun 0 = some r ∧ r.err = none ∧ alGet r.outs (0, 0) = some 5 ∧ s.loopOn 1 = true ∧ s.brzRun 1 = none ∧
      alGet r.outs (1, 0) = none) := by decide +kernel

/-- The clauses of `ControlCycle` on its registers. -/
theorem witness_cycle_writes :
    ((program 1).accessFenced dev0 (some 8) = false ∧ (program 1).brzDenied dev0 = false ∧ (program 1).loopOk 0 = true ∧
      (program 0).loopOk 0 = false ∧ bitOf (0x80000000#32).toNat 31 = true) ∧
    ((program 1).accessFenced (.device 1) (some 8) = false ∧ (program 1).brzDenied (.device 1) = true) ∧
    (let s := program 0
     fieldOf (0x40008000#32) 31 16 < s.fld .WL_TIMING 31 16 ∧ s.fld .WL_TIMING 31 16 < fieldOf (0x40008000#32) 15 0 ∧
      s.fld .WL_TIMING 31 16 ≤ fieldOf (0x60008000#32) 31 16 ∧ fieldOf (0x40006000#32) 15 0 ≤ s.fld .WL_TIMING 31 16) ∧
    (let s := program 0
     s.accessFenced dev0 (some 9) = false ∧ s.agentPart dev0 = s.ctrl ∧ s.ctrl ≠ 0xFF ∧ s.fld .BRZ_PHASE 31 16 < fieldOf (0x60000000#32) 31 16 ∧
      fieldOf (0x60000000#32) 31 16 < s.fld .BRZ_PHASE 15 0 ∧ fieldOf (0x40000000#32) 31 16 ≤ s.fld .BRZ_PHASE 31 16 ∧
      s.fld .BRZ_PHASE 15 0 ≤ fieldOf (0x80000000#32) 31 16) := by decide +kernel

/-! ## Witnesses: Windline -/

/-- A chip with one node of address 1 on the ring, lost after `loss` cycles. -/
def ring (loss : Nat) (w : WindlineState) : State :=
  let s := cycling w {}
  { s with spl := { s.spl with chip := some { chip with nodes := [{ ringPos := 0, nodeAddr := 1, cls := 0, lossCycles := loss }] } } }

/-- An uplink slot of the node in cycle 0, with its check, and the frame that carries it back on path 0. -/
def uplink : List Byte :=
  let d := [0, 1] ++ List.replicate 58 (0 : Byte)
  d ++ bytesLE 4 (crc32c d)
def ringFrame : List Byte :=
  bytesBE 6 ((ring 3 {}).rd64 .WL_DA_LO) ++ bytesBE 6 0 ++ bytesBE 2 0x88A4 ++ [1, 0, 1, 0] ++ List.replicate 12 0 ++ uplink

/-- The clauses of `WindlineRing`. -/
theorem witness_WindlineRing :
    (up.accessFenced dev0 (some 9) = false ∧ up.ctrl ≠ 0xFF ∧ up.agentPart dev0 = up.ctrl ∧ up.agentPart (.device 1) ≠ up.ctrl ∧
      up.accessFenced (.device 1) (some 9) = false ∧ bitOf (0x80000003#32).toNat 31 = true ∧ bitOf (3#32).toNat 31 = false) ∧
    (∀ now ∈ [0, 200000],
      let s : State := { ring 3 { cycle := some 0 } with now := now }
      ofBytesBE (sliceBytes ringFrame 0 6) = s.rd64 .WL_DA_LO ∧ ofBytesBE (sliceBytes ringFrame 12 2) = 0x88A4 ∧ ringFrame.length = 30 + 64 * s.nodeCount ∧
        leAt ringFrame 14 1 = 1 ∧ leAt ringFrame 16 1 = s.nodeCount ∧ leAt ringFrame 18 4 = 0 % 2 ^ 32 ∧ leAt ringFrame 15 1 % 2 = 0 ∧
        s.nodeCount = 1 ∧ s.copyCodes 0 0 (sliceBytes ringFrame 30 64) = [] ∧ bitOf (leAt ringFrame 15 1) 1 = false ∧ s.wlLate = decide (now = 200000)) ∧
    (ofBytesBE (sliceBytes (List.replicate 94 0xFF) 0 6) ≠ (ring 3 {}).rd64 .WL_DA_LO) ∧
    (∀ p, p < 2 → (ring 3 {}).bit .WL_CTRL 31 = true ∧ (ring 3 {}).wlPort p = true ∧ p ∉ (ring 3 {}).wl.down) ∧
    (∀ c ∈ ([[((0, 0), uplink)], []] : List (List ((Nat × Nat) × List Byte))), ∀ n ∈ [0, 1, 2, 3], ∀ loss ∈ [1, 2, 3],
      let s := ((ring loss { cycle := some 0, copies := c }).wrF .WL_N_STATUS 31 30 n 0).wrF .WL_N_STATUS 29 24 1 0
      s.wl.cycle.isSome = true ∧ s.wl.rxDone = false ∧ s.wlLate = true ∧ s.wl.quiet = false ∧ 0 < s.nodeCount ∧ s.slotValid 0 = !c.isEmpty ∧
        s.nodeState 0 = n ∧ s.nodeMissed 0 + 1 = 2 ∧ s.lossCycles 0 = loss) := by decide +kernel

/-! ## Witnesses: the sensors -/

/-- Stream 0, of source `source`, with time source `timeSrc`, samples of up to 64 bytes and two buffers at the start of the commons;
`len` frames or datagrams, or bytes, make a sample. -/
def stream0 (source timeSrc len : Nat) : StreamEntry :=
  { number := 0, source := source, port := 0, select := 0, kind := 0, roles := 1, timeSrc := timeSrc, timeBase := 1, periodUs := 1000,
    sampleBytes := 64, bufBase := commonsBase, bufCount := 2, lateMs := 0, captureAdj := 0, sectors := 0, suspectThr := 0, suspectN := 0,
    widenCm := 0, udpPort := 0, dirBase := 0, rangeOff := 0, rangeStride := 0, rangeCount := 0, tsOff := 0, readLen := len, cmd := 0x011000,
    srcCfg := 0 }

/-- Partition 0 has that stream, enabled, in this course. -/
def sensing (e : StreamEntry) (r : StreamRun) : State :=
  { up.setB .SNS_S_CTRL 31 0 with spl := { up.spl with parts := [(0, { part0 with streams := [e] }), (1, {})] }, sns := { streams := [(0, r)] } }

/-- An open sample of the raw time `t`. -/
def opened (t : Nat) : OpenSample := { raw := t }

/-- The clauses of `SamplesComplete`. -/
theorem witness_SamplesComplete :
    (let e := stream0 0 0 64
     (sensing e {}).streamBy 0 0 0 = some e ∧ ((sensing e {}).strm 0).cur = none ∧ ((sensing e { cur := some (opened 5) }).strm 0).cur.isSome = true ∧
      (∀ k ∈ [0, 1], ((sensing e { cur := some (opened 5), skip := k }).strm 0).cur = some (opened 5) ∧
        ((sensing e { cur := some (opened 5), skip := k }).strm 0).skip = k) ∧
      (sensing e {}).stream 0 = some e ∧ e.source ≤ 1 ∧ (sensing e {}).streamBy 0 0 1 = none) ∧
    (∀ len ∈ [1, 2],
      let e := stream0 1 0 len
      let s := sensing e {}
      s.streamBy 1 0 0 = some e ∧ ((s.strm 0).cur.getD (s.newSample 0 (s.rxStamp 0 0))).count = 0 ∧ max 1 e.readLen = len ∧ (s.strm 0).skip = 0) ∧
    (let e := stream0 2 0 8
     let s := sensing e {}
     let u : State := { s with sns := { s.sns with spi := [(0, [(0, opened 5)])] } }
     s.streamOf 0 2 = some e ∧ s.spiQueue 0 = [] ∧ u.streamOf 0 2 = some e ∧ u.spiQueue e.port = [(0, opened 5)] ∧ (u.strm 0).skip = 0) ∧
    (let e := stream0 4 0 8
     (sensing e {}).streamBy 4 0 0 = some e ∧ ((sensing e { cur := some (opened 5) }).strm 0).cur = some (opened 5)) ∧
    (∀ len ∈ [1, 2],
      let e := stream0 3 0 len
      let s := sensing e {}
      s.streamOf 0 3 = some e ∧ ((s.strm 0).cur.getD (s.newSample 0 s.now)).count = 0 ∧ e.readLen = len ∧ (s.strm 0).skip = 0 ∧ e.port = 0) := by decide +kernel

/-- A complete sample of raw time 1 ms whose data are these 8 bytes. -/
def complete (x : Nat) : OpenSample := { raw := 1000000, data := bytesLE 8 x, count := 1 }

/-- The clauses of `SamplesWritten`: a sample that is too long, one that comes too soon after the last, one whose sensor time does not rise, and
one that goes into the ring or finds it full. -/
theorem witness_SamplesWritten :
    (let s := sensing (stream0 0 0 64) {}
     s.streamOwner 0 = some (s.agentPart dev0) ∧ s.fencedEngine 4 (s.agentPart dev0) = false ∧ s.bit .SNS_S_CTRL 31 0 ≠ false ∧
      (s.clrB .SNS_S_CTRL 31 0).bit .SNS_S_CTRL 31 0 ≠ true ∧ s.streamOwner 0 ≠ some (s.agentPart (.device 1)) ∧ s.bit .SNS_S_CTRL 31 0 = true) ∧
    (let e := stream0 0 0 64
     let s := (sensing e {}).setB .SNS_S_STATUS flagUnsync 0
     s.stream 0 = some e ∧ s.strmFlag 0 flagUnsync = true ∧ 2 * s.rd .SNS_S_UNC 0 < e.periodUs) ∧
    (∀ k ∈ [0, 1],
      let e := stream0 0 k 64
      let s := sensing e { ready := [complete 5], lastRaw := some 600000, lastSensor := some 5 }
      (s.strm 0).ready = [complete 5] ∧ s.stream 0 = some e ∧ s.streamOwner 0 = some 0 ∧ s.sleepingQuads e.bufBase e.ringSize = [] ∧
        s.bit .SNS_S_CTRL 31 0 = true ∧ (complete 5).data.length ≤ e.sampleBytes ∧ 2 * (1000000 - 600000) < e.periodUs * 1000 ∧
        leAt (complete 5).data e.tsOff 8 ≤ 5 ∧ (k ≠ 0 → e.timeSrc ≠ 0)) ∧
    (let o : OpenSample := { complete 5 with data := List.replicate 65 0 }
     (stream0 0 0 64).sampleBytes < o.data.length) ∧
    (∀ k ∈ [0, 1, 2], ∀ n ∈ [0, 2],
      let e := stream0 0 k 64
      let s := { sensing e { ready := [complete 500000], lastRaw := some 500000, lastSensor := some 4, next := n } with now := 1000000 }
      let x := (s.setStrm 0 (fun r => { r with ready := [] })).sampleTime 0 e (complete 500000)
      e.periodUs * 1000 ≤ 2 * (1000000 - 500000) ∧ 4 < leAt (complete 500000).data e.tsOff 8 ∧
        (k ≠ 2 → (x.1 - s.robotAt 1000000).natAbs ≤ 1000000000) ∧ s.verdict (.engine 4 0) true e.bufBase e.ringSize = .ok ∧
        e.bufBase + e.ringSize < deepBase ∧ 0 < e.bufCount ∧ ringFree (s.strm 0).next (s.getNum (e.bufBase + 4) 4) e.bufCount = decide (n = 0)) := by
  decide +kernel

/-! ## Witnesses: Crosswind -/

/-- Crosswind for partition 0: its input ring (one entry, `e`), a pose ring of one entry at time 0, stream 0 with its sample 1 taken at time 0. -/
def fusing (e : List Byte) : State :=
  let s := (sensing (stream0 0 0 64) { recs := [{ seq := 1, capture := 0, unc := 0, raw := 0 }] }).wrF .XW_CFG 31 28 0 |>.wr .XW_IN_CTRL 0x80000004
  let s := ((s.wr .XW_IN_BASE_LO 0x10010000).wr .XW_IN_BASE_HI 1).wr .XW_IN_TAIL 1
  let s := ((s.wr .XW_POSE_BASE_LO 0x10020000).wr .XW_POSE_BASE_HI 1).wr .XW_POSE_CTRL 1
  { s with mem := cells (commonsBase + 0x10000) e }

/-- An input entry: DETECT with `n` detections of stream 0, of its sample `seq`; and one of a kind that is none. -/
def detects (n seq : Nat) : List Byte := [1, 0, 0, 0] ++ bytesLE 4 seq ++ bytesLE 8 (commonsBase + 0x30000) ++ bytesLE 2 n ++ List.replicate 14 0
def noKind : List Byte := [2] ++ List.replicate 31 0

/-- The clauses of `CrosswindWorks` on the input ring. -/
theorem witness_input :
    (let s := (fusing []).wr .XW_IN_TAIL 0
     s.xwOwner = some 0 ∧ s.bit .XW_IN_CTRL 31 = true ∧ s.fencedEngine 5 0 = false ∧ s.fld .XW_IN_HEAD 11 0 = s.fld .XW_IN_TAIL 11 0) ∧
    (let s := { fusing [] with badWord := [(commonsBase + 0x10000) / 64] }
     s.fld .XW_IN_HEAD 11 0 ≠ s.fld .XW_IN_TAIL 11 0 ∧ s.sleepingQuads (s.rd64 .XW_IN_BASE_LO) 32 = [] ∧
      (s.engineRead (.engine 5 0) (s.rd64 .XW_IN_BASE_LO) 32).1 = none) ∧
    (let s := fusing noKind
     (s.engineRead (.engine 5 0) (s.rd64 .XW_IN_BASE_LO) 32).1 = some noKind ∧ entryKind noKind s.gridSize = none) ∧
    (let s := fusing (detects 1 2)
     (s.engineRead (.engine 5 0) (s.rd64 .XW_IN_BASE_LO) 32).1 = some (detects 1 2) ∧ entryKind (detects 1 2) s.gridSize = some (.detect 1, 32) ∧
      (s.strm 0).recs.all (fun r => r.seq != leAt (detects 1 2) 4 4) = true) ∧
    (let s := fusing (detects 1 1)
     let e := detects 1 1
     let r : SampleRec := { seq := 1, capture := 0, unc := 0, raw := 0 }
     let u := (s.engineRead (.engine 5 0) (s.rd64 .XW_IN_BASE_LO) 32).2
     let v := (u.fetch (.engine 5 0) (leAt e 8 8) 32).2
     leAt e 1 1 = 0 ∧ (s.strm 0).recs.find? (fun r => r.seq == leAt e 4 4) = some r ∧ s.strmFlag 0 flagUnsync = false ∧ s.strmFlag 0 flagSuspect = false ∧
      s.aligned 0 r.unc = true ∧ (u.fetch (.engine 5 0) (leAt e 8 8) 32).1 = some (List.replicate 32 0) ∧ v.checksOk (leAt e 8 8) 32 = true ∧
      v.readPoses.poseAt r.capture = some [0, 0, 0] ∧ s.xw.last = none) := by
  refine ⟨by decide +kernel, by decide +kernel, by decide +kernel, by decide +kernel, by decide +kernel⟩

/-- `fusing` with the output ring in the warm tier, and Crosswind as given. -/
def fused (x : CrosswindState) (out : Nat) : State :=
  let s := ((fusing []).wr .XW_OUT_CTRL 0x80000002).wr .XW_OUT_BASE_LO out
  { s.wr .XW_OUT_BASE_HI (warmBase / 2 ^ 32) with xw := x }

/-- An emission in progress. -/
def emitting : Emission := { instant := 1, contribs := [], missing := 0 }

/-- The other clauses of `CrosswindWorks`. -/
theorem witness_emission :
    ((fused {} 0).mayEmit 1 = true ∧ (fused {} 0).awaited = []) ∧
    (let s := (fused {} 0).setB .SNS_S_STATUS 31 0
     s.mayEmit 1 = true ∧ s.awaited = [0] ∧ s.contributed 1 0 = false) ∧
    ((fused { last := some 1 } 0).mayEmit 1 = false) ∧
    ((fused { emission := some emitting } 0).xw.emission = some emitting ∧ (fused {} 0).xw.emission = none) ∧
    (let s := fused { emission := some emitting } 0xFFF00000
     let size := 512 + 2 * s.bufferBytes
     s.xwOwner = some 0 ∧ s.fld .XW_OUT_CTRL 3 0 = 2 ∧ s.verdict (.engine 5 0) true (s.rd64 .XW_OUT_BASE_LO) size ≠ .ok) ∧
    (∀ k ∈ [0, 2],
      let s := { fused { emission := some emitting } (warmBase % 2 ^ 32) with mem := cells warmBase (bytesLE 4 k) }
      let base := s.rd64 .XW_OUT_BASE_LO
      let size := 512 + 2 * s.bufferBytes
      s.verdict (.engine 5 0) true base size = .ok ∧ s.sleepingQuads base size = [] ∧
        ringFree (s.getNum base 4) (s.getNum (base + 4) 4) 2 = decide (k = 0) ∧ base + size ≤ deepBase) ∧
    (let s := fused { noProx := [], lastEmit := some 0 } 0
     s.dueLevel.1 < s.fld .XW_LEVEL 31 28 ∧ (s.wrF .XW_LEVEL 31 28 1).fld .XW_LEVEL 31 28 ≤ (s.wrF .XW_LEVEL 31 28 1).dueLevel.1) := by
  decide +kernel

/-! ## Witnesses: Veer -/

/-- Veer for partition 0, whose ring of queries holds one with these words, a world of 4 by 4 cells, one pose of the words `x` at time 0, and an
output ring of two buffers. -/
def planning (q : List (Nat × Nat)) (x : Nat) : State :=
  let s := (((((up.wr .VEER_CFG 0x6401).wr .VEER_Q_CTRL 0x80000008).wr .VEER_Q_BASE_LO 0x10010000).wr .VEER_Q_BASE_HI 1).wr .VEER_Q_TAIL 1)
  let s := (((s.wrF .XW_CFG 31 28 0).wr .XW_POSE_BASE_LO 0x10020000).wr .XW_POSE_BASE_HI 1).wr .XW_POSE_CTRL 1
  let s := (((s.wr .VEER_WORLD_SIZE 0x00040004).wr .VEER_OUT_BASE_LO 0x10030000).wr .VEER_OUT_BASE_HI 1).wr .VEER_OUT_CTRL 0x80000002
  { s with mem := cells (commonsBase + 0x10000) ((words q).flatMap (bytesLE 4)) ++ cells (commonsBase + 0x20008) (bytesLE 4 x) }

/-- The words of a query of kind `k` with ARG `n` and ADDR in the commons. -/
def query (k n : Nat) : List (Nat × Nat) := [(0, 0x70000 + k), (1, n), (2, 0x10100000), (3, 1)]

/-- A map epoch without costs, and one whose robot has one sphere. -/
def epoch0 : MapEpoch := { number := 1, ox := 0, oy := 0, layers := [], model := none, voxels := none, pose := [0, 0, 0] }
def epoch1 : MapEpoch := { epoch0 with model := some { joints := 0, links := [List.replicate 32 0], spheres := [[0, 1] ++ List.replicate 14 0] } }

/-- The query of `planning`. -/
def asked (k n : Nat) : VeerQuery := { slot := 0, id := 7, words := words (query k n) }

/-- `planning` with Veer as given. -/
def planningWith (k n : Nat) (v : VeerState) : State := { planning (query k n) 0 with veer := v }

/-- What the front of the ring is, as far as it can be decided: partition 0, and the query. -/
def frontIs (s : State) (q : VeerQuery) : Bool := (s.veerFront.map (fun x => (x.1, x.2.1))) == some (0, q)

/-- That check says that the front is this query, with some state. -/
theorem frontIs_ok (s : State) (q : VeerQuery) (h : frontIs s q = true) : ∃ u, s.veerFront = some (0, q, u) := by
  cases hv : s.veerFront with
  | none => simp [frontIs, hv] at h
  | some x =>
    obtain ⟨p, y, u⟩ := x
    simp only [frontIs, hv, Option.map_some, beq_iff_eq, Option.some.injEq, Prod.mk.injEq] at h
    exact ⟨u, by rw [h.1, h.2]⟩

/-- The state after the front query has been read and its slot left. -/
def taken (s : State) : State := match s.veerFront with | some x => x.2.2.veerAdvance | none => s

/-- The clauses of `VeerQueries`. -/
theorem witness_VeerQueries :
    (up.veerFront.isNone = true) ∧
    (∀ k ∈ [1, 2, 3, 4, 5, 6, 7], let s := planning (query k 0) 0
      frontIs s (asked k 0) = true ∧ s.veer.armRun = none ∧ (asked k 0).kind = k ∧ (asked k 0).bad = false) ∧
    (frontIs (planning (query 8 0) 0) (asked 8 0) = true ∧ (asked 8 0).bad = true ∧ 7 < (asked 8 0).kind ∧
      (planning (query 8 0) 0).veerEntry 0 + 0x40 ≤ deepBase ∧
      ((taken (planning (query 8 0) 0)).put (.engine 7 0) ((planning (query 8 0) 0).veerEntry 0 + 0x3C) (bytesLE 4 0x80000009)).1 = true) ∧
    ((asked 2 1).arg < 2 ∧ 64 < (asked 2 65).arg ∧ 2 ≤ (asked 2 2).arg ∧ (asked 2 64).arg ≤ 64 ∧ (planning (query 2 64) 0).veer.epoch = none) ∧
    (let s := planningWith 2 2 { epoch := some epoch0 }
     frontIs s (asked 2 2) = true ∧ ((taken s).fetch (.engine 7 0) (asked 2 2).addr 128).1.isSome = true ∧ ∀ b j, epoch0.passes s.lethal b j = true) ∧
    (let s := planningWith 3 7 { goal := some (asked 1 0), armRun := some ({ asked 2 2 with id := 7 }, epoch0) }
     (s.veer.goal.map VeerQuery.id) = some (asked 3 7).arg ∧ (s.veer.goal.map VeerQuery.id) ≠ some (asked 3 8).arg) ∧
    (let s := planning (query 4 0) 0
     ((taken s).veerRead 0 (asked 4 0).addr 16).1 = some (List.replicate 16 0) ∧
      (((taken s).veerRead 0 (asked 4 0).addr 16).2.veerRead 0 ((asked 4 0).addr + 16) 0).1 = some []) ∧
    (((taken (planning (query 6 5) 0)).veerRead 0 (asked 6 5).addr 0x40000).1.isSome = true ∧ (asked 6 5).arg = 5 ∧ (asked 6 4).arg ≠ 5 ∧ (asked 6 4).arg ≠ 6) ∧
    (((taken (planning (query 5 0) 0)).veerRead 0 (asked 5 0).addr 0x100000).1.isSome = true) ∧
    (let s := planningWith 7 0 { epoch := some epoch0 }
     s.veer.epoch = some epoch0 ∧ (asked 7 0).arg ≤ 255 ∧ ((taken s).put (.engine 7 0) (asked 7 0).addr []).1 = true ∧ (asked 7 0).addr ≤ deepBase ∧
      s.veerEntry 0 + 0x40 ≤ deepBase ∧ ¬ rangesMeet (asked 7 0).addr 0 (s.veerEntry 0 + 0x3C) 4) ∧
    (∃ f, (planningWith 1 0 { opening := some ⟨256, [0, 0, 0], 0, [], []⟩ }).veer.opening = some f) ∧
    ((planning (query 1 0) 0).veerOwner = some 0 ∧ (planning (query 1 0) 0).veer.opening = none) := by
  refine ⟨by decide +kernel, by decide +kernel, by decide +kernel, by decide +kernel, ⟨by decide +kernel, by decide +kernel, fun _ _ => rfl⟩,
    by decide +kernel, by decide +kernel, by decide +kernel, by decide +kernel, by decide +kernel, ⟨_, rfl⟩, by decide +kernel⟩

/-- A trajectory of no point from the robot time 0. -/
def still : Trajectory := { t0 := 0, points := [] }

/-- The clauses of `VeerSearches` on the searches. -/
theorem witness_searches :
    (let s := planningWith 1 0 { goal := some (asked 1 0), epoch := some epoch0, globalRun := some epoch0 }
     s.veerOwner = some 0 ∧ s.veer.globalRun.isSome = true ∧ s.globalPath 0 epoch0 (asked 1 0) ≠ []) ∧
    (let s : State := { planning (query 1 0) 0x7FC00000 with veer := { goal := some (asked 1 0), epoch := some epoch0, globalRun := some epoch0 } }
     s.globalPath 0 epoch0 (asked 1 0) = []) ∧
    (let s := planningWith 1 0 { goal := some (asked 1 0), epoch := some epoch0 }
     s.blocked epoch0 (asked 1 0) = none ∧ s.veer.repairRun = none ∧ epoch0.passes s.lethal s.startConfig.1 (joints16 s.startConfig.2) = true) ∧
    (let s : State := { planning (query 1 0) 0x7FC00000 with veer := { goal := some (asked 1 0), epoch := some epoch1 } }
     s.blocked epoch1 (asked 1 0) = some 6 ∧ epoch1.passes s.lethal s.startConfig.1 (joints16 s.startConfig.2) = false) ∧
    ((planningWith 1 0 { repairRun := some epoch0 }).veer.repairRun = some epoch0) ∧
    (let s := planningWith 2 2 { armRun := some (asked 2 2, epoch0) }
     s.veer.armRun = some (asked 2 2, epoch0) ∧ ∀ b j l, epoch0.armPasses s.lethal b j l = true) := by
  refine ⟨by decide +kernel, by decide +kernel, by decide +kernel, by decide +kernel, by decide +kernel, ⟨rfl, fun _ _ _ => rfl⟩⟩

/-- Those on the outputs. -/
theorem witness_outputs :
    ((planning (query 1 0) 0).bit .VEER_OUT_CTRL 31 = true ∧ ((planning (query 1 0) 0).wr .VEER_OUT_CTRL 0).bit .VEER_OUT_CTRL 31 = false ∧
      (planning (query 1 0) 0).veer.epoch = none ∧ (planning (query 1 0) 0).veer.lostAt = none ∧ epoch0.model = none ∧ epoch1.model.isSome = true) ∧
    (∀ out ∈ [0x10030000, 0xFFFF0000],
      let s := (planningWith 1 0 { epoch := some epoch1, stopNext := true }).wr .VEER_OUT_BASE_LO out
      let base := s.rd64 .VEER_OUT_BASE_LO
      s.veer.stopNext = true ∧ (s.verdict (.engine 7 0) true base (512 + 2 * 5120) == .ok && ringFree (s.getNum base 4) (s.getNum (base + 4) 4) 2) =
        decide (out = 0x10030000) ∧ base + 512 + 2 * 5120 ≤ deepBase) ∧
    (∀ l ∈ [([still], none), ([], some still), ([], none)],
      let s := (planningWith 1 0 { epoch := some epoch1, candidates := l.1, last := l.2 }).wrF .XW_LEVEL 31 28 0
      let all := (s.veer.candidates.zipIdx.map (fun x => (x.1.advance s.robotNow, x.2))) ++
        (match s.veer.last with | some x => [(x.advance s.robotNow, 8)] | none => [])
      s.fld .XW_LEVEL 31 28 ≠ 4 ∧ s.fld .WB_STATUS 31 29 ≠ 2 ∧ s.veer.stopNext = false ∧
        all.find? (fun x => s.validTraj epoch1 x.1) = (if l.1 ≠ [] then some (still, 0) else if l.2.isSome then some (still, 8) else none)) := by
  refine ⟨by decide +kernel, by decide +kernel, by decide +kernel⟩

/-! ## Witnesses: time -/

/-- The clauses of `RobotTime`; the chip sections of the tests take robot time from no time base. -/
theorem witness_RobotTime :
    (up.accessFenced dev0 (some 10) = false ∧ up.agentPart dev0 = up.ctrl ∧ up.ctrl ≠ 0xFF ∧ (∀ x, up.time.robot.head? = some x → x.since ≤ up.now) ∧
      -slewRate ≤ (5#32).toInt ∧ (5#32).toInt ≤ slewRate ∧ up.robotSource = 0 ∧ slewRate < (0x7FFFFFFF#32).toInt ∧ (0x80000000#32).toInt < -slewRate) ∧
    (up.accessFenced (.device 1) (some 10) = false ∧ up.agentPart (.device 1) ≠ up.ctrl) ∧
    (let s : State := { up with now := 1999, time := { up.time with adj := 2 } }
     s.time.adj ≠ 0 ∧ s.adjLeft ≠ 0) ∧
    (let s : State := { up with now := 2000, time := { up.time with adj := 2 } }
     s.time.adj ≠ 0 ∧ s.adjLeft = 0) ∧ up.time.adj = 0 := by
  refine ⟨⟨by decide +kernel, by decide +kernel, by decide +kernel, ?_, by decide, by decide, by decide +kernel, by decide, by decide⟩,
    by decide +kernel, by decide +kernel, by decide +kernel, by decide⟩
  intro x hx
  have h : some ({} : ParamSet) = some x := hx
  cases h
  exact Nat.zero_le _

/-- Time base 1 in state `st`: MODE, ports 0 and 1, ROLE, and what else it holds. -/
def clock (st mode role : Nat) (b : TimeBase) : State :=
  { up.wrF .TIME_B_STATUS 31 28 st 1 with now := 5, time := { up.time with bases := [{ b with entry := { mode := mode, portMask := 3, role := role } }, {}, {}, {}] } }

/-- A message on port 0 from the master with sequence number 7, and the master's dataset. -/
def message : PtpMsg := { port := 0, mac := 4, sender := 9, seq := 7, time := 100 }
def master : Announce := ⟨1, 2, 3, 4, 5, 9, 0⟩

/-- Whether base 1 takes that message. -/
def takes (s : State) (kind : Nat) : Bool := (s.ptpTake 1 kind message).1

/-- The clauses of `PtpMessages`: the messages. -/
theorem witness_messages :
    ((clock tbOff 1 0 {}).time.bases.length = 4 ∧ (clock tbOff 1 0 {}).baseState 1 = tbOff ∧
      bitOf ((clock tbListening 1 0 {}).tbase 1).entry.portMask 2 = false) ∧
    (let s := clock tbListening 1 0 {}
     s.baseState 1 ≠ tbOff ∧ bitOf (s.tbase 1).entry.portMask message.port = true ∧ { message with version := 1 }.version ≠ 2) ∧
    (let s := clock tbListening 1 0 {}
     takes s 0 = true ∧ s.fromMaster 1 message = false) ∧
    (let s := clock tbListening 1 0 { best := some (master, 0) }
     takes s 0 = true ∧ s.fromMaster 1 message = true ∧ (s.tbase 1).sync = none ∧ (s.tbase 1).entry.mode ≠ 2 ∧ s.baseState 1 = tbListening) ∧
    (∀ x ∈ [(7, 0), (6, 0), (7, 1)],
      let s := clock tbListening 1 0 { best := some (master, 0), sync := some (x.1, 4, x.2) }
      takes s 8 = true ∧ s.fromMaster 1 message = true ∧ (s.tbase 1).sync = some (x.1, 4, x.2) ∧ s.followUpLate 1 = false ∧ s.baseState 1 = tbListening) ∧
    (let s : State := { clock tbListening 1 0 { best := some (master, 0), sync := some (7, 4, 0) } with now := 100000000000 }
     takes s 8 = true ∧ s.followUpLate 1 = true) ∧
    (let s := clock tbListening 1 0 {}
     takes s 11 = true ∧ (s.tbase 1).entry.role = 0 ∧ (s.tbase 1).disqualified.contains master.identity = false ∧ (s.tbase 1).best = none) ∧
    (let x : Announce := { master with identity := 8, priority1 := 0 }
     let s := clock tbListening 1 0 { best := some (x, 1) }
     takes s 11 = true ∧ (s.tbase 1).best = some (x, 1) ∧ x.identity ≠ master.identity ∧ betterMaster master x = false) ∧
    (let s := clock tbLocked 1 0 { best := some (master, 0), delayReq := some (7, 3), lastSync := some (90, 2) }
     takes s 9 = true ∧ s.fromMaster 1 message = true ∧ (s.tbase 1).delayReq = some (7, 3) ∧ (s.tbase 1).lastSync = some (90, 2)) ∧
    (let s := clock tbLocked 2 0 { pdelayReq := [(0, 7, 3)] }
     takes s 3 = true ∧ (s.tbase 1).pdelayReq.find? (fun r => r.1 == 0 && r.2.1 == 7) = some (0, 7, 3) ∧ (s.tbase 1).peers.find? (fun p => p.port == 0) = none ∧
      takes s 2 = true ∧ (s.tbase 1).entry.mode = 2) ∧
    (let s := clock tbMaster 1 2 {}
     takes s 1 = true ∧ (s.tbase 1).entry.mode = 1 ∧ (s.servedPorts 1).contains 0 = true) := by decide +kernel

/-- Those of the intervals and timeouts. -/
theorem witness_intervals :
    ((clock tbOff 1 0 {}).baseState 1 = tbOff ∧ (clock tbMaster 2 0 {}).baseState 1 ≠ tbOff ∧ ((clock tbMaster 2 0 {}).tbase 1).entry.mode = 2) ∧
    (let s := clock tbLocked 1 0 { best := some (master, 0) }
     (s.tbase 1).entry.mode ≠ 2 ∧ (s.tbase 1).best = some (master, 0) ∧ s.baseState 1 = tbLocked ∧ s.baseState 1 ≠ tbHoldover) ∧
    ((clock tbListening 1 2 {}).baseState 1 = tbListening ∧ ((clock tbListening 1 2 {}).tbase 1).entry.role = 2) ∧
    ((clock tbLocking 1 0 {}).baseState 1 = tbLocking) ∧ ((clock tbHoldover 1 0 {}).baseState 1 = tbHoldover) := by decide +kernel

/-! ## Witnesses: the switch and the host port -/

/-- Port 0 of partition 0 is up, and the switch as given. -/
def wired (x : NetState) : State := { (up.setB .NET_P_CTRL 31 0).setB .NET_P_STATUS 31 0 with net := x }

/-- An untagged frame of 60 bytes of this EtherType, and the two bytes 4 after it. -/
def frame (type seq : Nat) : List Byte := List.replicate 12 0 ++ bytesBE 2 type ++ [0, 0] ++ bytesBE 2 seq ++ List.replicate 42 0

/-- Port 0 with these gate-list registers: the first entry and the cycle. -/
def gated (entry cycle : Nat) : State :=
  (((wired {}).wr .NET_P_GATE_CTRL 1 0).wr .NET_P_GCL entry 0 0).wr .NET_P_CYCLE cycle 0

/-- A gate list that starts, or whose entry ends, at robot time `t`. -/
def gates (t : Nat) : GateList := { entries := [(255, 1000)], cycle := 1000, start := t, until_ := t }

/-- The clauses of `EthernetSwitch`. -/
theorem witness_EthernetSwitch :
    (up.netUp 0 = false ∧ (wired {}).netUp 0 = true ∧ (frame 0 0).length = 60 ∧ 60 + 4 ≤ up.fld .NET_CFG 13 0 ∧ ([] : List Byte).length < 60) ∧
    (beAt (frame 0x8808 0) 12 2 = 0x8808 ∧ alGet (wired {}).flt.rates { cls := 0x0C, code := 3, unit := 0 } = none) ∧
    (beAt (frame 0 0) 12 2 ≠ 0x8808 ∧ (wired { vlans := [] }).netVlan 0 (frameVid (frame 0 0)) = false ∧ (wired {}).netVlan 0 (frameVid (frame 0 0)) = true ∧
      (wired {}).frerOf (frameVid (frame 0 0)) = none) ∧
    (let s := (wired { recovery := [(0, { seq := 7, seen := [true] })] }).wr .NET_CB 0xC0000001 0
     let f := frame 0xF1C1 7
     beAt f 12 2 ≠ 0x8808 ∧ s.netVlan 0 (frameVid f) = true ∧ s.frerOf (frameVid f) = some 0 ∧ s.bit .NET_CB 30 0 = true ∧ rtagSeq f = some 7 ∧
      (recover (s.fld .NET_CB 28 24 0 + 1) (alGet s.net.recovery 0) 7).2 = false) ∧
    (let s := gated 0xFF0003E8 1000
     s.accessFenced dev0 (some 11) = false ∧ s.netOwner 0 = some (s.agentPart dev0) ∧ s.adminOk 0 = true ∧ (gated 0xFF0003E8 0).adminOk 0 = false ∧
      s.accessFenced (.device 1) (some 11) = false ∧ s.netOwner 0 ≠ some (s.agentPart (.device 1))) ∧
    (∀ t ∈ [0, 1], let s := wired { admin := [(0, gates t)], oper := [(0, gates t)] }
      alGet s.net.admin 0 = some (gates t) ∧ alGet s.net.oper 0 = some (gates t) ∧ s.robotNow = 0 ∧ (gates t).start = t ∧ (gates t).until_ = t) ∧
    (alGet (wired {}).net.admin 0 = none ∧ alGet (wired {}).net.oper 0 = none ∧ alGet (wired {}).net.actual 0 = none) ∧
    (∀ k ∈ [9, 10], let s := wired { changes := [(0, List.replicate k 0)] }
      (((alGet s.net.changes 0).getD []).filter (fun x => s.now < x + 1000000000)).length = k) ∧
    (alGet (wired { actual := [(0, true)] }).net.actual 0 = some true) := by decide +kernel

/-- The chip's host port in mode `m`, its link up or not; partition 0 has a window of 2 MiB on address `a`, for writes too. -/
def hosted (m : Nat) (u : Bool) (a : Nat) : State :=
  let s := ((up.wr .HP_LINK_CTRL 0x80000006).wr .HP_P_WIN_CTRL 0xC0000001 0).wr .HP_P_WIN_LO (a % 2 ^ 32) 0
  let s := (s.wr .HP_P_WIN_HI (a / 2 ^ 32) 0).wrF .HP_LINK_STATUS 31 31 u.toNat
  { s with spl := { s.spl with chip := some { chip with hostPort := m, farTier := 1 } } }

/-- A COPY from the far tier in progress on tile 0. -/
def farCopying : State := running (words [(0, 3), (2, farBase % 2 ^ 32), (3, farBase / 2 ^ 32), (4, scratchBase % 2 ^ 32), (5, scratchBase / 2 ^ 32), (6, 64), (7, 1)])

/-- The clauses of `HostPort`. -/
theorem witness_HostPort :
    (let s := hosted 1 false 0
     s.hostMode ≠ 0 ∧ s.bit .HP_LINK_CTRL 31 = true ∧ 4 ≤ s.fld .HP_LINK_CTRL 2 0 ∧ s.hostUp = false ∧ up.hostMode = 0) ∧
    ((hosted 2 true 0).hostMode = 2 ∧ (hosted 2 true 0).hostUp = true ∧ (hosted 2 true 0).partExists 0 = true ∧ (hosted 2 false 0).hostUp = false) ∧
    ((hosted 2 true 0).accessFenced dev0 (some 12) = false ∧ (hosted 2 true 0).agentPart dev0 = 0 ∧ bitOf 1 0 = true ∧ (hosted 2 true 0).vectorMasked 0 = true ∧
      { hosted 2 true 0 with hp := { msix := [(3, 0)] } }.vectorMasked 0 = false ∧ (hosted 2 true 0).agentPart (.device 1) ≠ 0 ∧
      (hosted 2 true 0).accessFenced (.device 1) (some 12) = false) ∧
    (∀ l ∈ [[0], [0, 0]], let s : State := { hosted 1 true 0 with hp := { fec := l } }
      s.hostUp = true ∧ s.hostMode ≠ 2 ∧ (s.hp.fec.filter (fun x => s.now < x + 1000000000)).length = l.length) ∧
    ((hosted 2 true 0).bar2 0x200000 4 false = none ∧ (hosted 2 true 0).bar2 0x200000 4 true = none) ∧
    (∀ a ∈ [0, commonsBase], ∀ w : Bool, (hosted 2 true a).bar2 8 4 w = some (0, a + 8) ∧ (a = 0 → a + 8 < 0x40000000) ∧ (a ≠ 0 → 0x40000000 ≤ a + 8)) ∧
    ((farCopying.run 0).ctx = some 0 ∧ (farCopying.farCopy 0).isSome = true) := by decide +kernel

/-! ## Witnesses: power -/

/-- The power manager as given, its rails enabled, the pins and PWR_STATUS 31 as given. -/
def powered (x : PowerState) (squallN squall : Bool) : State :=
  let s := (List.range 13).foldl (fun s r => s.setB .PWR_RAIL_CFG 31 r) (up.wrF .PWR_STATUS 31 31 squall.toNat)
  { s with pins := { s.pins with squallN := squallN }, pwr := x }

/-- Every temperature at `t` degrees. -/
def warm (t : Nat) : State := powered { temps := List.replicate 85 t } true false

/-- The clauses of `PowerManager` on the tick, the rails and the temperatures. -/
theorem witness_readings :
    ((powered { gale := true } true false).pwr.gale = true ∧ (powered {} true false).pwr.gale = false ∧ (powered {} true true).squall = true ∧
      ((powered {} true false).run 0).ctx = none) ∧
    (let s := powered {} true false
     readingFits 12 (.volts 0 0 0) = false ∧ up.bit .PWR_RAIL_CFG 31 12 = false ∧ (∀ r, r < 13 → s.bit .PWR_RAIL_CFG 31 r = true) ∧
      readingFits 0 (.volts 0x18 0 0) = true ∧ readingCw 0 (.volts 0x18 0 0) = some 0 ∧ readingCw 12 (.power 0) = some 0 ∧
      readingCw 0 (.volts 0x18 0 0x7FF) = none ∧ s.pins.squallN = true ∧ s.fld .PWR_RAIL_READ 31 30 0 ≠ 2 ∧
      (s.wrF .PWR_RAIL_READ 31 30 2 0).fld .PWR_RAIL_READ 31 30 0 = 2 ∧ s.trust (railDom 0) ≠ 2) ∧
    ((powered {} true false).pwr.settled.contains 2 = false ∧ (powered { settled := [2] } true false).pwr.settled.contains 2 = true) ∧
    ((List.replicate 85 255).length = 85 ∧ (List.replicate 85 255).all (fun x => decide (x ≤ 255)) = true) ∧
    (105 < (warm 106).temp 0 ∧ (warm 105).temp 0 ≤ 105 ∧ 80 < (warm 81).temp 76 ∧ (warm 77).temp 76 < 78 ∧ 78 ≤ (warm 78).temp 76 ∧ (warm 80).temp 76 ≤ 80) := by
  decide +kernel

/-- Those on the tiles, the squall and the gale. -/
theorem witness_events :
    (let s := (powered {} true false).wr .TILE_FREQ (1200 * 2 ^ 16 + 1150) 67
     999 / 25 * 25 < s.tileFmax 67 ∧ 999 / 25 * 25 < s.tileMhz 67 ∧ 999 / 25 * 25 < 1000 ∧ s.tileFmax 67 ≤ 1200 / 25 * 25) ∧
    ((powered { asserts := List.replicate 11 0 } true false).pins.squallN = true ∧ (powered {} false false).pins.squallN = false ∧
      11 ≤ ((powered { asserts := List.replicate 11 0 } true false).pwr.asserts.filter (fun x => (powered {} true false).now < x + 1000000000)).length) ∧
    ((powered {} false true).squall = true ∧ (powered {} false true).pins.pfailN = true ∧ (powered {} false true).pwr.held = false ∧
      (powered { held := true } false true).pwr.held = true ∧ (powered { released := true } true true).pwr.released = true ∧
      (powered {} true true).pwr.released = false ∧ (powered { released := true } true false).squall = false) ∧
    (let s := (powered {} true false).wrF .PWR_CTRL 15 0 10
     (s.run 0).ctx = none ∧ (s.run 0).parked = none ∧ s.fld .PWR_CTRL 15 0 ≠ 0 ∧ 0 ∉ s.pwr.gated ∧ s.logicalOf 0 = some 0 ∧ s.usedJobs = [] ∧
      (∀ p, p < 8 → ∀ y ∈ (s.part p).loans, bitOf y.tileMask 0 = false)) ∧
    (let s := (powered {} true false).wrF .PWR_CTRL 15 0 0
     s.fld .PWR_CTRL 15 0 = 0) ∧
    (up.nextWake = none) ∧
    (∀ now ∈ [1249, 1250], let s : State := { queue [] with now := now, pwr := { gated := [0], wokeAt := some 0 } }
      s.nextWake = some 0 ∧ s.wakeDue = decide (now = 1250)) := by decide +kernel

/-! ## Witnesses: the fault controller -/

/-- An access fault of tile 0, a compute fault of it and one of no recovery. -/
def tileFault : FaultDesc := { cls := 0x10, part := 0, source := 0 }
def noFault : FaultDesc := { cls := 0x08, part := 0, source := 0 }

/-- `up` opens a recovery of domain `d` alone. -/
theorem up_opensAlone (d : Domain) (h : up.escalate d = d) : up.OpensAlone d := ⟨rfl, rfl, h⟩

/-- One fault record that waits for the log, and hold-up energy enough. -/
def waitingLog : State :=
  let s := (up.setB .FLT_CFG 18).setB .MEM_HOLDUP_STATUS 31
  let r : FaultRecord := { seq := 1, time := 0, kind := 0, rung := 0, recovery := 0, merged := 0, duration := 0, fault := noFault }
  { s with now := 60000000000, flt := { s.flt with ring := [r], oldestWaiting := some 0 } }

/-- The clauses of `FaultController` on faults, resets and recoveries. -/
theorem witness_recoveries :
    (up.firstDomain noFault = none ∧ up.firstDomain tileFault = some (.tile 0) ∧ up.OpensAlone (.tile 0)) ∧
    (let s := recovering (.part 0) .fencing
     s.firstDomain tileFault = some (.tile 0) ∧ s.mergedInLoad (.tile 0) = false ∧ s.flt.recoveries.any (fun x => x.rung == 4) = false ∧
      (s.flt.recoveries.find? (fun x => (s.resources (s.escalate (.tile 0))).within (s.resources x.domain))).isSome = true ∧
      s.accessFenced dev0 none = true) ∧
    (up.accessFenced dev0 none = false ∧ resetDomain 2 0 68 = none ∧ resetDomain 1 0 0 = some (.ctx 0) ∧ up.mayReset (up.agentPart (.device 1)) .chip = false ∧
      up.accessFenced (.device 1) none = false ∧ up.mayReset (up.agentPart dev0) (.ctx 0) = true ∧ up.domainExists (.ctx 0) = false) ∧
    (let s := recovering (.part 1) .fencing
     s.accessFenced dev0 none = false ∧ resetDomain 3 1 0 = some (.part 1) ∧ s.mayReset (s.agentPart dev0) (.part 1) = true ∧ s.domainExists (.part 1) = true ∧
      s.flt.recoveries.any (fun r => (s.resources (.part 1)).within (s.resources r.domain)) = true) ∧
    (resetDomain 2 0 0 = some (.tile 0) ∧ up.mayReset (up.agentPart dev0) (.tile 0) = true ∧ up.domainExists (.tile 0) = true ∧
      (∀ q, q < 8 → up.bit .FLT_STATUS q = false)) ∧
    (∀ d ∈ [Domain.ctx 0, .tile 0, .core 0, .cluster 0, .engine 4, .part 0, .chip, .package],
      let s := recovering d .fencing
      s.flt.recoveries.map (fun r => (r.number, r.domain, r.phase)) = [(1, d, .fencing)] ∧
        s.flt.recoveries.find? (fun r => r.number == 2 && r.phase == .fencing) = none) ∧
    (let s := (((recovering (.ctx 0) .fencing).wr .SCH_CTX 0x30000000 0 0).wrF .TILE_INFO 18 16 3 0)
     s.jobState 0 = ctxRunning ∧ s.fld .TILE_INFO 18 16 0 ∈ [1, 2, 3] ∧ s.logicalOf 0 = some 0) ∧
    (∀ q : Bool,
      let s := { recovering (.tile 0) .resetting with flt := { (recovering (.tile 0) .resetting).flt with recoveries :=
        [{ number := 1, rung := 2, domain := .tile 0, phase := .resetting, quarantine := q, since := 0, fault := tileFault }] } }
      (s.flt.recoveries.find? (fun r => r.number == 1 && r.phase == .resetting)).map (fun r => (r.quarantine, decide (r.rung < 4))) = some (q, true) ∧
        s.flt.recoveries.find? (fun r => r.number == 2 && r.phase == .resetting) = none ∧ (s.wrF .TILE_INFO 18 16 1 0).fld .TILE_INFO 18 16 0 = 1) := by
  refine ⟨⟨by decide +kernel, by decide +kernel, up_opensAlone _ (by decide +kernel)⟩, by decide +kernel, by decide +kernel, by decide +kernel,
    by decide +kernel, by decide +kernel, by decide +kernel, by decide +kernel⟩

/-- Those on the log. -/
theorem witness_log :
    (let s := waitingLog
     s.flt.oldestWaiting = some 0 ∧ s.fld .FLT_LOG_CTRL 15 0 ≤ 60 ∧ 0 < s.fld .FLT_LOG_CTRL 15 0 ∧ s.bit .FLT_CFG 18 = true ∧ s.waiting ≠ [] ∧ s.logDeferred = false) ∧
    (let s : State := { waitingLog with now := 0 }
     s.now < 0 + s.fld .FLT_LOG_CTRL 15 0 * 1000000000) ∧
    (let s := waitingLog.clrB .MEM_HOLDUP_STATUS 31
     s.logDeferred = true) ∧
    (up.flt.oldestWaiting = none ∧ up.accessFenced dev0 none = false ∧ up.agentPart dev0 = up.ctrl ∧ up.ctrl ≠ 0xFF ∧
      up.accessFenced (.device 1) none = false ∧ up.agentPart (.device 1) ≠ up.ctrl ∧ up.ownsRange up.ctrl 1 0x4000 true = false) ∧
    (let s := (up.wr .FLT_LOG_ADDR_LO 0x10000000).wr .FLT_LOG_ADDR_HI 1
     let dst := s.rd .FLT_LOG_ADDR_LO + 2 ^ 32 * s.fld .FLT_LOG_ADDR_HI 15 0
     dst % 512 = 0 ∧ s.ownsRange s.ctrl dst 0x4000 true = true ∧ (logPageBytes ((alGet s.flt.log (s.fld .FLT_LOG_PAGE 16 0)).getD [])).length = 0x4000 ∧
      s.verdict (faultAgent s.ctrl) true dst 0x4000 = .ok ∧ s.holdOn (faultAgent s.ctrl) (.write dst []) = none ∧ s.sleepingQuads dst 0x4000 = []) ∧
    (up.flt.ring.find? (fun r => BitVec.ofNat 32 r.seq == 5#32) = none) := by
  refine ⟨by decide +kernel, by decide +kernel, by decide +kernel, by decide +kernel, by decide +kernel, by decide +kernel⟩

/-! ## Witnesses: the start -/

/-- `chipImage` with a signature block (R25): a public key on P-384, and a signature of the image under it.  Both were computed from the image's
SHA-384 digest outside Lean. -/
def signKey : List Byte :=
  [4] ++ bytesBE 48 0xbd1f56d47290307ccae31c83673204648241a9c243257d47e45e4c28013ccef13578b45d1a1f6a6f6d6b569c0741daf0 ++
    bytesBE 48 0x8f028adf48c4aa58cffd3cf964acb52fd3f12fa56a7962d74ac3f52a18e1733501aba1ad732a8dfda728ed703adc2ee3
def signedImage : List Byte :=
  chipImage.take (chipImage.length - 256) ++ signKey ++ List.replicate 31 0 ++
    bytesBE 48 0xfc0f356146289f5bb507e3b2c7f9f7cc9a6a0f9a2374a6fa3e87a338eab7ce08ada94cea623fb1cfb82bb87a06f8e434 ++
    bytesBE 48 0xcc030aad0e081fdf2434c723c19864c2854869853a4a87cb842382595b12ab215797e466a5a9ee734c9667587c41ace9 ++ List.replicate 32 0

/-- `up` at a stage of the start, and there with what the start holds. -/
def starting (k : Nat) : State := up.setStage k
def startingWith (k : Nat) (b : BootState) : State := { starting k with boot := b }

/-- The fuses with that key in slot 0. -/
def fuses : Fuses := { programmed := true, digests := [some (sha384 signKey), none, none, none] }

/-- Stage S5 at the third start, with a recovery image and the fuses. -/
def selecting (d : List Byte) : State :=
  { startingWith 5 { countBefore := 2, recoveryImage := d } with spl := { up.spl with fuses := fuses } }

/-- The image of the recovery source passes. -/
def passes (d : List Byte) : Bool :=
  let s := selecting d
  (s.sourceOrder.findSome? (fun x => (checkStored (s.sourceBytes x.2 x.1) s.variant s.tileCount s.spl.fuses).2.map (fun i => (i, x)))).isSome

set_option maxRecDepth 10000 in
/-- The clauses of `StartUp` on the stages. -/
theorem witness_stages :
    (∀ k, k < 8 → up.inStage k = false ∧ (starting k).inStage k = true) ∧
    (∀ a : Bool, (startingWith 0 { aonLost := a }).boot.aonLost = a ∧ (startingWith 0 { aonLost := a }).inStage 0 = true) ∧
    (∀ n ∈ [2, 3], ∀ d : Bool,
      let s := ((starting 1).wrF .GLB_BOOT_STATUS 25 24 n).wrF .GLB_BOOT_CTRL 29 29 d.toNat
      s.inStage 1 = true ∧ s.bootCount = n ∧ s.bit .GLB_BOOT_CTRL 29 = d ∧ s.spl.fuses.programmed = false) ∧
    ((selecting []).spl.fuses.programmed = true) ∧
    ((starting 3).flt.recoveries = [] ∧ (starting 15).inStage 15 = true ∧ ((starting 15).clrB .MEM_WARM_STATUS 0).bit .MEM_WARM_STATUS 0 = false) ∧
    ((selecting []).inStage 5 = true ∧ passes [] = false) ∧ (passes signedImage = true) ∧
    (let s := startingWith 6 { kind := .afterLoad }
     s.inStage 6 = true ∧ s.boot.loaded.isNone = true ∧ (startingWith 6 {}).boot.selected.isNone = true) ∧
    (let s := startingWith 6 { selected := some (⟨0, none, []⟩, (.copyA, (0, 0))) }
     s.inStage 6 = true ∧ s.boot.selected.map (fun x => x.1.chip) = some none) ∧
    (let s := startingWith 6 { kind := .afterLoad, loaded := some (⟨0, some chip, []⟩, (0, 0)) }
     s.inStage 6 = true ∧ (s.boot.loaded.map (fun y => y.1.chip)) = some (some chip) ∧ 15 ∉ s.boot.failedQuads) := by
  refine ⟨by decide +kernel, by decide +kernel, by decide +kernel, by decide +kernel, by decide +kernel, by decide +kernel, by decide +kernel,
    by decide +kernel, by decide +kernel, by decide +kernel⟩

/-- `up` in the doldrums with one fault record in the ring and on page 0 of the log. -/
def becalmed : State :=
  let r : FaultRecord := { seq := 1, fault := noFault }
  { starting 15 with flt := { up.flt with ring := [r], log := [(0, [r])] }, spl := { up.spl with fuses := fuses } }

set_option maxRecDepth 10000 in
/-- The clauses of `StartUp` on the registers, the watchdog, the pins and the maintenance service. -/
theorem witness_service :
    (up.accessFenced dev0 none = false ∧ up.bootWriter dev0 = true ∧ up.accessFenced (.device 1) none = false ∧ up.bootWriter (.device 1) = false ∧
      (up.wrF .GLB_BOOT_STATUS 25 24 1).bootCount ≠ 0 ∧ up.bootCount = 0 ∧ becalmed.bootWriter .maint = true ∧ becalmed.accessFenced .maint none = false) ∧
    (up.stage ≠ 15 ∧ up.OpensAlone .chip ∧ becalmed.stage = 15 ∧ becalmed.OpensAlone .chip ∧ up.OpensAlone .package) ∧
    (up.watchdogDue = false ∧ ({ up with now := 10000000000000, boot := { watchdog := true } } : State).watchdogDue = true) ∧
    (up.pins.porstN = true ∧ ({ up with pins := {} } : State).pins.porstN = false) ∧
    ((becalmed.flt.ring.find? (fun r => r.seq == 1)).isSome = true ∧ (alGet becalmed.flt.log 0).isSome = true ∧ becalmed.boot.firmware.length = 2) ∧
    (signatureCode [] becalmed.spl.fuses ≠ .ok) ∧ (signatureCode signedImage becalmed.spl.fuses = .ok ∧ signedImage.length ≤ 0x100000) ∧
    (bitOf (0x20000000#32).toNat 30 = false ∧ bitOf (0x20000000#32).toNat 29 = true ∧ bitOf (0x40000000#32).toNat 30 = true) := by
  refine ⟨by decide +kernel, ⟨by decide +kernel, ⟨rfl, rfl, by decide +kernel⟩, by decide +kernel, ⟨rfl, rfl, by decide +kernel⟩, ⟨rfl, rfl, by decide +kernel⟩⟩,
    by decide +kernel, by decide +kernel, by decide +kernel, by decide +kernel, by decide +kernel, by decide +kernel⟩

/-! ## Witnesses: Windbreak -/

/-- Windbreak in state `st` with SAFETY of this stop category. -/
def guarded (st cat : Nat) (x : WindbreakState) : State :=
  { up.wrF .WB_STATUS 31 29 st with wb := { x with safety := some { estopCat := cat } }, pins := { up.pins with estopInN := true } }

/-- The hypotheses of `WboWriteReject`: a rejected write before which none, one of less than 100 ms ago, and one of longer ago was recorded. -/
theorem witness_WboWriteReject :
    (RegName.WB_REJECTS.info.wbo = true ∨ RegName.WB_STATUS.info.wbo = true ∨ RegName.WL_STO_LO.info.wbo = true) ∧ dev0 ≠ .windbreak := by
  decide +kernel

/-- The clauses of `WindbreakActs`. -/
theorem witness_WindbreakActs :
    ((guarded 0 1 { estopLow := 1 }).wb.estopLow < 2 ∧ 2 ≤ (guarded 0 0 { estopLow := 2 }).wb.estopLow ∧ (guarded 0 0 { estopLow := 2 }).safety.estopCat = 0 ∧
      (guarded 0 1 { estopLow := 2 }).safety.estopCat ≠ 0 ∧ (guarded 0 1 { estopLow := 2 }).wbState = 0 ∧ (guarded 1 1 { estopLow := 2 }).wbState = 1) ∧
    (∀ now ∈ [1499999999, 1500000000], let s : State := { guarded 2 1 {} with now := now }
      s.wbState = 2 ∧ s.stopTimeUp = decide (now = 1500000000)) ∧
    (up.accessFenced dev0 none = false ∧ up.agentPart dev0 = up.ctrl ∧ up.ctrl ≠ 0xFF ∧ up.agentPart (.device 1) ≠ up.ctrl) ∧
    (∀ st ∈ [0, 1, 2, 3], (guarded st 1 {}).wbState = st ∧ (guarded st 1 {}).ctrl ≠ 0xFF) ∧
    ((guarded 3 1 {}).releaseRefused = false ∧ (guarded 3 1 { held := true }).releaseRefused = true) ∧
    ((guarded 0 1 {}).bit .WB_STATUS 25 = false ∧ ((guarded 0 1 {}).setB .WB_STATUS 25).bit .WB_STATUS 25 = true) := by decide +kernel

/-! ## Witnesses: the frames and the queue -/

/-- A command of each of the frame statements answers a next state. -/
theorem witness_frames :
    (∃ t, exec .loadHeaderRead up = .next t) ∧ (∃ t, exec (.nop 0) (queue [wNop]) = .next t) ∧ (∃ t, exec (.bankOffer dev0 0 1 false) up = .next t) ∧
    (∃ t, exec (.eraseDeep 0) (deepQ dErase) = .next t) ∧ (∃ t, exec (.planLoad dev0 0) up = .next t) ∧ (∃ t, exec (.allocCtx dev0 0 0) up = .next t) ∧
    (∃ t, exec (.sampleWrite 0) up = .next t) ∧ (∃ t, exec .goal (planning (query 1 0) 0) = .next t) ∧ (∃ t, exec (.addOp 0) (loop 7 false (run0 1 2)) = .next t) ∧
    (∃ t, exec (.timeSnap dev0) up = .next t) ∧ (∃ t, exec .telemetryPeriod up = .next t) ∧ (∃ t, exec (.estopSample true) up = .next t) :=
  ⟨⟨_, rfl⟩, ⟨_, rfl⟩, ⟨_, rfl⟩, ⟨_, rfl⟩, ⟨_, rfl⟩, ⟨_, rfl⟩, ⟨_, rfl⟩, ⟨_, rfl⟩, ⟨_, rfl⟩, ⟨_, rfl⟩, ⟨_, rfl⟩, ⟨_, rfl⟩⟩

/-- The hypotheses of `EmptyQueueTicks` and `StepKeepsCanonical`. -/
theorem witness_step : up.pending = [] ∧ up.csrWf = true ∧ Memory.wf up.mem = true ∧ ∃ t, step { up with pending := [.timeSnap dev0] } = .next t :=
  ⟨rfl, by decide +kernel, by decide, ⟨_, rfl⟩⟩

/-! ## Values

What single commands give, from the manual's own figures or by hand from its rules. -/

/-- The next state of an outcome. -/
def State.next (o : Host.Outcome State Fault Refusal) : State := match o with | .next t => t | _ => State.reset

/-- The check value of CRC-32C, and the digest of "abc" that FIPS 180-4 gives for SHA-384 (its first 8 bytes). -/
theorem test_checksums :
    crc32c [0x31, 0x32, 0x33, 0x34, 0x35, 0x36, 0x37, 0x38, 0x39] = 0xE3069283 ∧
    (sha384 [0x61, 0x62, 0x63]).take 8 = [0xCB, 0x00, 0x75, 0x3F, 0x45, 0xA3, 0x5E, 0x8B] := by decide +kernel

/-- GLB_ID of either variant (R1): PART 0x0960, VARIANT 0x01 or 0x02, REV 0xB0. -/
theorem test_glb_id :
    (State.next (exec (.memoryRequest dev0 (.read 0 4) false) up)).resp.data = bytesLE 4 0x096001B0 ∧
    (State.next (exec (.memoryRequest dev0 (.read 0 4) false) { up with isS := true })).resp.data = bytesLE 4 0x096002B0 := by decide +kernel

/-- An access at 6 answers an error and zeros (R5). -/
theorem test_csr_bad_access :
    (State.next (exec (.csrBadAccess dev0 false 6 2) up)).resp = { err := true, data := [0, 0] } := by decide +kernel

/-- v1 of the run of loop 0 after one instruction. -/
def ran (c : Instr) (op : Nat) (f : Bool) (x y : Nat) : Option (Nat × Nat) :=
  ((State.next (exec c (loop op f (run0 x y)))).brzRun 0).map (fun r => (r.v.getD 1 0, r.flags))

/-- Breeze in Q1.31 (R269): a sum saturates with its flag, a half times a half is a quarter, -1 times -1 saturates. -/
theorem test_breeze_fixed :
    (ran (.addOp 0) 7 false 0x7FFFFFFF 1).map Prod.fst = some 0x7FFFFFFF ∧ (ran (.mulOp 0) 9 false 0x40000000 0x40000000) = some (0x20000000, 0) ∧
    (ran (.mulOp 0) 9 false 0x80000000 0x80000000).map Prod.fst = some 0x7FFFFFFF := by decide +kernel

/-- Breeze in FP32: 1 / 2, the square root of 4, -1 in Q1.31 as FP32 and back. -/
theorem test_breeze_float :
    ran (.divOp 0) 0x10 true 0x3F800000 0x40000000 = some (0x3F000000, 0) ∧ ran (.sqrtOp 0) 0x11 true 0x40800000 0 = some (0x40000000, 0) ∧
    ran (.cvt 0) 0x13 true 0x80000000 0 = some (0xBF800000, 0) ∧ ran (.cvt 0) 0x13 false 0xBF800000 0 = some (0x80000000, 0) := by decide +kernel

/-- COPY moves 64 bytes from scratch to the commons; SIGNAL adds 1 to a counter there (R67, R68). -/
theorem test_copy :
    (let s := running wCopy
     (State.next (exec (.commandComplete 0 0) { s with mem := cells scratchBase [1, 2, 3] ++ s.mem })).getBytes (commonsBase + 0x8000) 3) = [1, 2, 3] ∧
    (State.next (exec (.signal 0) (queue [wSignal]))).getNum (commonsBase + 0x8000) 4 = 1 := by decide +kernel

/-- MATMUL of 1 x 16 by 16 x 1 in FP32: sixteen products of 1 and 2 are 32. -/
theorem test_matmul :
    (let s := running wMatmul
     (State.next (exec (.commandComplete 0 0) { s with mem := cells scratchBase ((List.replicate 16 (bytesLE 4 0x3F800000)).flatten ++
       (List.replicate 16 (bytesLE 4 0x40000000)).flatten) ++ s.mem })).getNum (scratchBase + 0x80) 4) = 0x42000000 := by decide +kernel

/-- A handover: OFFER, ACCEPT and the end of the drain give the quad to partition 1 (R79, R80). -/
theorem test_handover :
    (let s := State.next (exec (.bankOffer dev0 0 1 false) up)
     let t := State.next (exec (.bankAccept (.device 1) 0) s)
     (s.hstate 0, t.hstate 0, (State.next (exec (.handoverDone 0) (State.next (exec (.handoverDrainDone 0) t)))).quadOwner 0)) = (1, 2, some 1) := by
  decide +kernel

/-- A third sample of ESTOP_IN_N low stops: category 0 with power off at once, category 1 by a safe stop (R351). -/
theorem test_estop :
    (State.next (exec (.estopSample true) (guarded 0 0 { estopLow := 2 }))).wbState = 3 ∧
    (State.next (exec (.estopSample true) (guarded 0 1 { estopLow := 2 }))).wbState = 2 := by decide +kernel

/-- At a window start an entry of 100 MB/s gets 1000 bytes for 10 us, less its deficit of 4 (R202). -/
theorem test_window :
    (State.next (exec .hdwWindowStart { up.wr .HDW_P_BUD 0x80000001 0 0 with hdw := { credit := [((0, 0), -4)] } })).hdwCredit 0 0 = some 996 := by decide +kernel

/-- The third failed start in a row ends in doldrums mode with reason 1 (R361). -/
theorem test_third_failure :
    (let t := State.next (exec (.stageS1Done none) ((starting 1).wrF .GLB_BOOT_STATUS 25 24 3))
     (t.stage, t.fld .GLB_BOOT_STATUS 23 16)) = (15, 1) := by decide +kernel

/-- ALLOC gives context 0 and one fewer is free; FREE gives it back (R183). -/
theorem test_alloc_free :
    (let s := State.next (exec (.allocCtx dev0 0 0) up)
     let t := State.next (exec (.freeCtx dev0 0 0) s)
     (s.jobState 0, s.rd .SCH_FREE_CTX, t.jobState 0, t.rd .SCH_FREE_CTX)) = (1, 1023, 0, 1024) := by decide +kernel

/-- Two sequences are bound in the table's order, and CLOSE of an idle one frees it (R143, R144). -/
theorem test_sequence :
    (let s := State.next (exec (.openSeq dev0 0 0) (withArgs cached 0x10000000 1 240 0))
     let t := State.next (exec (.closeSeq dev0 0 0) (withArgs s 0 0 0 0))
     (s.seqState 0, s.fld .SEQ_P_RESULT 31 30 0, t.seqState 0)) = (1, 2, 0) := by decide +kernel

/-- A frame of 59 bytes is dropped and counted; one of 60 goes to no other port when none is up (R291). -/
theorem test_frame :
    (State.next (exec (.ethFrameRx 0 ((frame 0 0).take 59) true) (wired {}))).rd .NET_P_ERRORS 0 = 1 ∧
    (State.next (exec (.ethFrameRx 0 (frame 0 0) true) (wired {}))).rd .NET_P_ERRORS 0 = 0 := by decide +kernel

/-- The recovery of a tile fault in 33 us: its closing record has DETAIL 0, MERGED 0 and DURATION 33 (R343's example). -/
theorem test_duration :
    (let s := State.next (exec (.faultDetected tileFault [] [] 0) { up with now := 1000 })
     let t := State.next (exec (.fenceDrainDone 1 0) { s with now := 13000 })
     let u := State.next (exec (.recoveryRelease 1 []) { t with now := 34000 })
     u.flt.ring.getLast?.map (fun r => (r.kind, r.fault.detail, r.merged, r.duration))) = some (2, 0, 0, 33) := by decide +kernel

/-- Robot time 100 us after power-up reads 100,000 ns at rate 0, and follows a snapshot (R278, R280). -/
theorem test_snapshot :
    (let s := State.next (exec (.timeSnap dev0) { up with now := 100000 })
     (s.rd64 .TIME_SNAPJ_LO 0, s.rd64 .TIME_SNAPJ_LO 1)) = (100000, 100000) := by decide +kernel

end Sys2Proof.Tests
end

section
/-!
The answer to an access of CSR space that no register serves (R5): an error response, and a record at most once per 100 ms.
-/

namespace Sys2Proof.Machine

/-! ## What an error response holds, and what it leaves alone (R10) -/

/-- An error response moves no agent to another partition. -/
theorem State.agentPart_respErr (s : State) (b : Agent) (n : Nat) : (s.respErr n).agentPart b = s.agentPart b := by
  cases b <;> rfl

/-- Whoever reads, the response is an error with a zero for each byte asked for. -/
theorem State.loadErr_resp (s : State) (a : Agent) (n : Nat) : (s.loadErr a n).resp = ⟨true, List.replicate n 0⟩ := by
  cases a <;> rfl

@[simp] theorem State.loadErr_flt (s : State) (a : Agent) (n : Nat) : (s.loadErr a n).flt = s.flt := by
  cases a <;> rfl

@[simp] theorem State.loadErr_now (s : State) (a : Agent) (n : Nat) : (s.loadErr a n).now = s.now := by
  cases a <;> rfl

theorem State.agentPart_loadErr (s : State) (a b : Agent) (n : Nat) : (s.loadErr a n).agentPart b = s.agentPart b := by
  cases a <;> cases b <;> rfl

/-! ## The record of an unmapped access (R5, R12) -/

theorem State.csrUnmapped_resp (s : State) (a : Agent) (x : Nat) : (s.csrUnmapped a x).resp = s.resp :=
  recordRated_resp s _ _

/-- The record is rate-limited as seen from any state `s` that has the same records, instant and partition of the agent: the
response that precedes the record makes no difference to it. -/
theorem State.csrUnmapped_rated {s u : State} {a : Agent} (x : Nat) (hflt : u.flt = s.flt) (hnow : u.now = s.now)
    (hpart : u.agentPart a = s.agentPart a) :
    let k : RateKey := { cls := 0x01, code := blockOf x, unit := 0, agent := some a }
    let f : FaultDesc := { cls := 0x01, part := s.agentPart a, source := a.code, address := x }
    match alGet s.flt.rates k with
    | some t0 =>
      if s.now < t0 + 100000000 then (u.csrUnmapped a x).flt = s.flt
      else Recorded s (u.csrUnmapped a x) f ∧ alGet (u.csrUnmapped a x).flt.rates k = some s.now
    | none => Recorded s (u.csrUnmapped a x) f ∧ alGet (u.csrUnmapped a x).flt.rates k = some s.now := by
  unfold State.csrUnmapped
  rw [hpart]
  exact recordRated_flt s _ _ u hflt hnow

/-! ## CSR_BAD_ACCESS (R5) -/

/-- Below the end of CSR space, an access that is not an aligned 32-bit one is a bad one. -/
theorem exec_csrBadAccess (a : Agent) (wr : Bool) {x n : Nat} (s : State) (hx : x < 0x40000000) (hn : ¬ (n = 4 ∧ x % 4 = 0)) :
    exec (.csrBadAccess a wr x n) s = .next (s.csrBad a wr x n) := by
  have hbad : ¬ ((decide (0x40000000 ≤ x) || (decide (n = 4) && decide (x % 4 = 0))) = true) := by
    simp only [Bool.or_eq_true, Bool.and_eq_true, decide_eq_true_eq, not_or]
    exact ⟨by omega, hn⟩
  show execCsrBadAccess a wr x n s = _
  unfold execCsrBadAccess
  rw [if_neg hbad]

/-- A bad access is answered with an error; a read returns a zero for each byte asked for. -/
theorem State.csrBad_resp (s : State) (a : Agent) (wr : Bool) (x n : Nat) :
    (s.csrBad a wr x n).resp = ⟨true, List.replicate (if wr then 0 else n) 0⟩ := by
  unfold State.csrBad
  rw [State.csrUnmapped_resp]
  cases wr
  · exact s.loadErr_resp a n
  · rfl

/-- Settles O19: the response is written first and leaves the fault controller, the instant and the agents' partitions alone, so
that the rate limit of the record is that of the state before. -/
theorem csrBadAccess : Obligations.CsrBadAccess := by
  unfold Obligations.CsrBadAccess
  intro a wr x n s hx hn
  refine Completes.mk (exec_csrBadAccess a wr s hx hn) ⟨?_, ?_, ?_, ?_⟩
  · rw [State.csrBad_resp]
  · rintro rfl
    rw [State.csrBad_resp]
    rfl
  · exact State.csrBad_within (by decide) (by decide) (Within.refl _ _ s)
  · cases wr with
    | false => exact State.csrUnmapped_rated x (s.loadErr_flt a n) (s.loadErr_now a n) (s.agentPart_loadErr a a n)
    | true => exact State.csrUnmapped_rated x (s.respErr_flt 0) (s.respErr_now 0) (s.agentPart_respErr a 0)

end Sys2Proof.Machine
end

section
/-!
The answer to another agent's write to a register of Windbreak (R348): discarded and counted, with a record at most once per 100 ms
for each source.
-/

namespace Sys2Proof.Machine

/-! ## The count and the event of a rejected write -/

/-- What every rejected write brings about before its record: an answer without an error, WB_REJECTS one higher, REJECT set. -/
def State.wboRejected (s : State) : State := ((s.respOk).bump .WB_REJECTS).setB .WB_EVENT 2

@[simp] theorem State.wboRejected_resp_err (s : State) : s.wboRejected.resp.err = false := rfl

@[simp] theorem State.wboRejected_flt (s : State) : s.wboRejected.flt = s.flt := rfl

@[simp] theorem State.wboRejected_now (s : State) : s.wboRejected.now = s.now := rfl

/-- A rejected write moves no agent to another partition. -/
theorem State.agentPart_wboRejected (s : State) (b : Agent) : s.wboRejected.agentPart b = s.agentPart b := by
  cases b <;> rfl

/-- WB_REJECTS wraps. -/
theorem State.rd_wboRejected (s : State) : s.wboRejected.rd .WB_REJECTS = (s.rd .WB_REJECTS + 1) % 2 ^ 32 := by
  unfold State.wboRejected State.setB State.bump
  rw [State.rd_wrF_name _ _ _ _ _ _ _ _ _ _ (by decide), State.rd_wr_self]
  rfl

theorem State.bit_wboRejected (s : State) : s.wboRejected.bit .WB_EVENT 2 = true :=
  State.bit_setB_self _ _ _ _ _ (by decide)

/-! ## The record that follows -/

/-- A rate-limited record, written or not, touches nothing but what a record does. -/
theorem State.recordRated_frame (s : State) (k : RateKey) (f : FaultDesc) :
    Within recordRegs [.flt, .deep] s (s.recordRated k f) :=
  State.recordRated_within rfl rfl (Within.refl _ _ s)

/-! ## WBO_WRITE_REJECT (R348) -/

/-- A write to a WBO register by an agent other than Windbreak is counted, then recorded under the limit of its source. -/
theorem exec_wboWriteReject {a : Agent} {r : Reg} (s : State) (hwbo : r.name.info.wbo = true) (ha : a ≠ .windbreak) :
    exec (.wboWriteReject a r) s = .next (s.wboRejected.recordRated { cls := 0x14, code := 1, unit := 0, agent := some a }
      { cls := 0x14, part := s.agentPart a, source := a.code, detail := 1 }) := by
  have hrejected : ¬ ((!r.name.info.wbo || decide (a = .windbreak)) = true) := by simp [hwbo, ha]
  show execWboWriteReject a r s = _
  unfold execWboWriteReject
  rw [if_neg hrejected, ← s.agentPart_wboRejected a]
  rfl

/-- Settles O59: the count and the event are in place before the record, which leaves both registers and the response alone; its
rate limit is that of the state before, since nothing up to then has touched the fault controller or the time. -/
theorem wboWriteReject : Obligations.WboWriteReject := by
  unfold Obligations.WboWriteReject
  intro a r s hwbo ha
  have hexec := exec_wboWriteReject s hwbo ha
  have hrecord := s.wboRejected.recordRated_frame { cls := 0x14, code := 1, unit := 0, agent := some a }
    { cls := 0x14, part := s.agentPart a, source := a.code, detail := 1 }
  have hframe : Within (andRecord [.WB_EVENT, .WB_REJECTS]) [.resp, .flt, .deep] s _ :=
    execWboWriteReject_within (by decide) (by decide) (Within.refl _ _ s) _ hexec
  refine Completes.mk hexec ⟨?_, ?_, ?_, hframe, hframe.samemem (by decide), ?_⟩
  · rw [recordRated_resp, State.wboRejected_resp_err]
  · rw [within_rd hrecord .WB_REJECTS (by decide), State.rd_wboRejected]
  · rw [within_bit hrecord .WB_EVENT (by decide), State.bit_wboRejected]
  · exact recordRated_flt s _ _ s.wboRejected s.wboRejected_flt s.wboRejected_now

end Sys2Proof.Machine
end
